-- ==== Sys2Proof/Word.lean ====
section
/-! DEFINITION. The word types of the model. Bit fields, byte order and arithmetic on them are in Machine/Bits.lean. -/

namespace Sys2Proof

/-- One byte. -/
abbrev Byte := BitVec 8

/-- The encoding of an FP32 number, or a 32-bit register. -/
abbrev Word32 := BitVec 32

/-- A 64-bit register, one 8-byte word of configuration and status space (R365). -/
abbrev Word64 := BitVec 64

end Sys2Proof
end

