-- ==== Sys2Proof/Syntax.lean ====
section
/-! DEFINITION. The commands that the block takes: one constructor of `Instr` for each row of spec/opcode_table.json,
with the operands that the row's rule gives it. An opcode of R403 is a row that acts on a command in flight, named by its
admission number; the command's packet (R388) lies in the state. What happens outside the module (a packet that arrives,
a reading of a sensor, the outcome of a second read) is an operand. -/

namespace Sys2Proof

/-- The header fields of a fabric packet that the module reads (R295), but for TYPE. -/
structure PacketHdr where
  seq : Nat := 0
  group : Nat := 0
  tag : Nat := 0
  age : Nat := 0
  tctx : Nat := 0
  fmt : Nat := 0
  rank : Nat := 0
  addr : Nat := 0
  dst : Nat := 0
  src : Nat := 0
  vc : Nat := 0
  len : Nat := 0
  down : Bool := false
  nf : Bool := false
  psn : Bool := false
  empty : Bool := false
  deriving DecidableEq, Repr, Inhabited

/-- The packet types of R296. -/
inductive PktType where
  | rdReq | wr | wrBulk | collReady | barrierFlag | collData | draft
  | rdResp | wrAck | collAck | barrierResult | errResp
  | hello | heartbeat | join | leave | linkReport | roster | hold | holdAck | install | installAck | release
  | unknown (code : Nat)
  deriving DecidableEq, Repr, Inhabited

/-- A fabric packet: type, header and payload (R295, R296). `poison` has bit i for 64-byte block i of a data payload
that the sender marked (PSN covers the packet; R296). `bad`: the packet ended truncated, with BAD = 1 (R292). -/
structure Packet where
  type : PktType := .rdReq
  hdr : PacketHdr := {}
  payload : List Byte := []
  poison : Nat := 0
  bad : Bool := false
  deriving DecidableEq, Repr, Inhabited

/-- A management packet: the management header of R309 and the payload after it (R310). -/
structure Mgmt where
  last : Bool := true
  part : Nat := 0
  seq : Nat := 0
  target : Nat := 0
  origin : Nat := 0
  payload : List Byte := []
  deriving DecidableEq, Repr, Inhabited

/-- The outcome of one read of a memory block (R201), or the parts of the block that came back wrong, which the tier's check
code classifies (R200): for HBM4 the 16-bit symbol (0 to 35, the metadata last), for DDR5 the DRAM device and the aligned
8-byte part of it. -/
inductive ReadOutcome where
  | clean | correctable | uncorrectable
  | bad (parts : List (Nat × Nat))
  deriving DecidableEq, Repr, Inhabited

/-- The outcome of a read of an on-package store (R485): a single-bit error corrected, or an uncorrectable error whose
second read succeeds or fails. -/
inductive SramOutcome where
  | corrected | transient | failed
  deriving DecidableEq, Repr, Inhabited

/-- The width the Liust link trains to (R357). -/
inductive LiustWidth where
  | low4 | high4 | eight
  deriving DecidableEq, Repr, Inhabited

/-- A cable of R532. -/
inductive Cable where
  | liust
  | fabric (port : Nat)
  deriving DecidableEq, Repr, Inhabited

/-- One operation that reaches an SSU (R205, R206): on the block at addr, with the read's outcome where it reads.
`write` covers the bytes of `mask` (bit i: byte i). -/
inductive SsuOp where
  | read (addr : Nat) (outcome : ReadOutcome) (coalesced : Nat)
  | write (addr : Nat) (mask : BitVec 64) (data : List Byte) (poisoned : Bool) (outcome : ReadOutcome)
  | sum (addr : Nat) (bf16 : Bool) (contribution : List Word32) (poisoned : Bool) (outcome : ReadOutcome)
  deriving DecidableEq, Repr, Inhabited

/-- What a rank-order reduction sums (R210): the contributions of a collective, or of one owned expert (R271). -/
inductive RankRed where
  | coll (id : Nat)
  | expert (table expert : Nat)
  deriving DecidableEq, Repr, Inhabited

/-- A physical core: cluster, row and position (R19). -/
structure CoreRef where
  cluster : Nat
  row : Nat
  pos : Nat
  deriving DecidableEq, Repr, Inhabited

/-- Where an uncorrectable SRAM read was met (R485). -/
inductive SramPlace where
  | coreStore (core : CoreRef)
  | clusterBuffer (cluster offset : Nat)
  deriving DecidableEq, Repr, Inhabited

/-- The outcome of one core's self-test (R496, R501). -/
structure CoreTest where
  signature : Word64
  memFail : Bool
  rowFail : BitVec 130
  colFail : BitVec 130
  deriving DecidableEq, Repr, Inhabited

/-- A piece that a peer module registered, as the Referees gather it (R334, R350): tensor, role, global byte offset, and the
address of the piece in the peer's memory. -/
structure PeerPiece where
  group : Nat
  tensor : Nat
  mirror : Bool
  offset : Nat
  base : Nat
  deriving DecidableEq, Repr, Inhabited

/-- The straps as sampled (R527): none where the 8 samples differ. -/
structure Straps where
  cool : Option (BitVec 2)
  slot : Option (BitVec 4)
  deriving DecidableEq, Repr, Inhabited

/-- The four steps of a privileged wake (R481). -/
inductive WakeStep where
  | regulator | oscillator | memory | logic
  deriving DecidableEq, Repr, Inhabited

/-- Module types of a DIMM (R193). -/
inductive DimmForm where
  | rdimm | mrdimm | udimm | sodimm
  deriving DecidableEq, Repr, Inhabited

/-- A DIMM in a socket (R193): capacity in GiB, module type, DRAM width, ECC, its highest rate, its serial number, and
whether it trains. -/
structure Dimm where
  gib : Nat
  form : DimmForm
  width : Nat
  ecc : Bool
  rate : Nat
  serial : Word32
  trains : Bool
  deriving DecidableEq, Repr, Inhabited

/-- A batch of contributions to one block in list order, each with its poison, and what the first read of the block finds
(R201, R208, R209). -/
structure AddBatch where
  contribs : List (List Word32 × Bool)
  outcome : ReadOutcome
  deriving DecidableEq, Repr, Inhabited

/-- What the row CFG_WR brings over the Liust link beside its ADDR and LEN (R362 to R364, log entry 31): the data of a register
write, the tag of a register read, which the table gives no row of its own, or any transaction as its whole 256-bit header,
which carries that ADDR and LEN itself, and its payload. -/
inductive HostTrans where
  | write (data : Word64)
  | read (tag : Nat)
  | raw (header : BitVec 256) (payload : List Byte)
  deriving DecidableEq, Repr, Inhabited

/-- The commands: one constructor for each row of the operations table. -/
inductive Instr where
  /-- CTX_CREATE (R383). Creates context 1 to 15 with no regions, slots, draft tables or loaded table slots. -/
  | ctxCreate (id : Nat)
  /-- CTX_DESTROY (R387). Stops the context's queues, cancels its commands and playbooks, retires its drafts and slots, and invalidates its regions and table slots. -/
  | ctxDestroy (id : Nat)
  /-- REGION_SET (R386). Writes one region entry of a context once no command of that context is running. -/
  | regionSet (id : Nat)
  /-- CANCEL (R400). Cancels the admitted, uncompleted commands that its MODE selects. -/
  | cancel (id : Nat)
  /-- CLEAR_STICKY (R405). Clears the masked W1C bits of one register word, or every sticky bit and PEAK when ADDR is 0. -/
  | clearSticky (id : Nat)
  /-- MOVE_COPY (R176). Copies elements between descriptors of equal extents, converting format and setting scales by SCALE_MODE. -/
  | moveCopy (id : Nat)
  /-- MOVE_FILL (R175). Writes one value and scale byte into every in-bounds element of a destination. -/
  | moveFill (id : Nat)
  /-- MOVE_PERMUTE (R179). Copies with a permutation of the dimensions, in place when R180 allows. -/
  | movePermute (id : Nat)
  /-- MOVE_GATHER_BLOCKS (R178). Copies the channel groups named by a block-coordinate list into a packed destination. -/
  | moveGatherBlocks (id : Nat)
  /-- MOVE_SCATTER_BLOCKS (R178). Copies packed channel groups to the places named by a block-coordinate list. -/
  | moveScatterBlocks (id : Nat)
  /-- DENSE_MM (R406). Multiplies a streamed operand by a stationary operand on the dense arrays and drains the sums to its destinations or slot. -/
  | denseMm (id : Nat)
  /-- SCRUM_SPMM (R117). Multiplies a sparse operand by a dense operand, choosing the engine per tile. -/
  | scrumSpmm (id : Nat)
  /-- SCRUM_SPSP (R115). Multiplies two sparse operands by index-stream matching on the Scrum engine. -/
  | scrumSpsp (id : Nat)
  /-- SCRUM_INTERSECT (R113). Writes the position pairs of equal indices of each stream pair, with a count per pair. -/
  | scrumIntersect (id : Nat)
  /-- SCRUM_GATHER (R122). Gathers table rows by an index list, coalescing repeated coordinates. -/
  | scrumGather (id : Nat)
  /-- SCRUM_SCATTER (R124). Scatters rows into a table by an index list, the last entry for a row remaining. -/
  | scrumScatter (id : Nat)
  /-- SCRUM_SCATTER_ADD (R125). Adds rows into an FP32 or BF16 table by an index list in list order. -/
  | scrumScatterAdd (id : Nat)
  /-- SCRUM_EMBED_BAG (R126). Gathers and reduces embedding rows per bag by SUM, MEAN or MAX. -/
  | scrumEmbedBag (id : Nat)
  /-- SCRUM_TOPC (R128). Selects the C best candidates of each row by the key of R128. -/
  | scrumTopc (id : Nat)
  /-- SCRUM_PREDICT_FFN (R130). Computes the feed-forward pre-activations of predicted active neurons, with optional shadow check and make-up. -/
  | scrumPredictFfn (id : Nat)
  /-- VEC_ELTWISE (R414). Performs the element-wise operation selected by OP on its operands. -/
  | vecEltwise (id : Nat)
  /-- VEC_ACTIVATE (R149). Evaluates the function table of an activation slot on every input element. -/
  | vecActivate (id : Nat)
  /-- VEC_ACTIVATE_BWD (R149). Multiplies the incoming gradient by the derivative table evaluated at the forward input. -/
  | vecActivateBwd (id : Nat)
  /-- VEC_TABLE_LOAD (R150). Loads an activation table image into the shadow of one slot on every core of the target clusters. -/
  | vecTableLoad (id : Nat)
  /-- FUSED_SOFTMAX_FWD (R153). Computes the row-wise softmax forward from values and row statistics. -/
  | fusedSoftmaxFwd (id : Nat)
  /-- FUSED_SOFTMAX_BWD (R153). Computes the row-wise softmax backward. -/
  | fusedSoftmaxBwd (id : Nat)
  /-- FUSED_LAYERNORM_FWD (R154). Computes layer normalisation forward with per-row mean and reciprocal deviation. -/
  | fusedLayernormFwd (id : Nat)
  /-- FUSED_LAYERNORM_BWD (R154). Computes layer normalisation backward and the parameter gradients. -/
  | fusedLayernormBwd (id : Nat)
  /-- FUSED_RMSNORM_FWD (R154). Computes RMS normalisation forward with per-row reciprocal RMS. -/
  | fusedRmsnormFwd (id : Nat)
  /-- FUSED_RMSNORM_BWD (R154). Computes RMS normalisation backward and the gamma gradient. -/
  | fusedRmsnormBwd (id : Nat)
  /-- COLL_ALL_REDUCE (R320). Reduces each shard at its owner and gathers the reduced tensor to every member. -/
  | collAllReduce (id : Nat)
  /-- COLL_REDUCE_SCATTER (R319). Reduces shard s of every member's source at rank s. -/
  | collReduceScatter (id : Nat)
  /-- COLL_ALL_GATHER (R319). Sends each member's source to every member's slot of its rank. -/
  | collAllGather (id : Nat)
  /-- COLL_ALL_TO_ALL (R319). Sends slot r of each member's source to rank r. -/
  | collAllToAll (id : Nat)
  /-- COLL_BROADCAST (R319). Sends the root's source to every member. -/
  | collBroadcast (id : Nat)
  /-- COLL_BARRIER_OR (R326). Forms the OR of one flag from every present member through the group leader. -/
  | collBarrierOr (id : Nat)
  /-- FAB_GROUP_DEFINE (R317). Defines a fabric group's member list and first sequence number on this module. -/
  | fabGroupDefine (id : Nat)
  /-- FAB_GROUP_READMIT (R318). Readmits an absent member to a group, taking a sequence number like a collective. -/
  | fabGroupReadmit (id : Nat)
  /-- FAB_GROUP_RELEASE (R317). Removes a group on this member. -/
  | fabGroupRelease (id : Nat)
  /-- FAB_PUT (R304). Copies a local tensor to a remote module's tensor. -/
  | fabPut (id : Nat)
  /-- FAB_GET (R304). Copies a remote module's tensor to a local tensor. -/
  | fabGet (id : Nat)
  /-- PLAYBOOK_START (R226). Checks an image, binds the lowest free sequencer, sets rings, verdict record, scale and seed, and starts issuing. -/
  | playbookStart (id : Nat)
  /-- PLAYBOOK_STOP (R227). Ends a playbook at the next step boundary, or at once cancelling its commands in flight. -/
  | playbookStop (id : Nat)
  /-- PLAYBOOK_HOLD (R232). Makes a playbook enter HELD at the next step boundary. -/
  | playbookHold (id : Nat)
  /-- PLAYBOOK_RESUME (R227). Leaves HELD and continues issuing at the entry after the boundary. -/
  | playbookResume (id : Nat)
  /-- OPT_UPDATE (R215). Runs one optimizer step or refresh on a UPU over masters and moments and writes the working copy. -/
  | optUpdate (id : Nat)
  /-- PB_PHASE (R234). Sets the phase carried by the following playbook entries. -/
  | pbPhase (s : Nat)
  /-- PB_LOOP (R233). Opens a playbook loop of COUNT passes. -/
  | pbLoop (s : Nat)
  /-- PB_ENDLOOP (R233). Returns to the entry after its PB_LOOP until the passes are done. -/
  | pbEndloop (s : Nat)
  /-- PB_FEED (R236). Copies the feed slot at FEED_HEAD to its destination and advances FEED_HEAD. -/
  | pbFeed (id : Nat)
  /-- PB_POST (R237). Copies its source into the result slot at RESULT_TAIL, advances it and optionally interrupts. -/
  | pbPost (id : Nat)
  /-- PB_LOSS (R252). Reads the step's loss, runs the loss-spike detector and updates the average. -/
  | pbLoss (id : Nat)
  /-- PB_VERDICT (R244). Forms the step verdict by a barrier OR, adjusts the loss scale and writes the verdict record. -/
  | pbVerdict (id : Nat)
  /-- PB_IF_CLEAN (R233). Skips the entries up to its PB_ENDIF when the step is a no-ball step. -/
  | pbIfClean (s : Nat)
  /-- PB_ENDIF (R233). Closes a PB_IF_CLEAN block. -/
  | pbEndif (s : Nat)
  /-- PB_STEP_END (R233). Closes the step, increments the step number and forms a step boundary. -/
  | pbStepEnd (s : Nat)
  /-- PB_END (R231). Ends the playbook, which completes with OK once its commands complete. -/
  | pbEnd (s : Nat)
  /-- PB_SEED (R230). Sets the seed bound to later entries to BASE or BASE plus the step number. -/
  | pbSeed (s : Nat)
  /-- DRAFT_OPEN (R257). Binds a draft table to a routed layer from its descriptor. -/
  | draftOpen (id : Nat)
  /-- DRAFT_PROPOSE (R262). Starts a generation and sends each expert's owner the local top-C candidates. -/
  | draftPropose (id : Nat)
  /-- DRAFT_MERGE (R263). Selects the global draft of each owned expert and answers every member. -/
  | draftMerge (id : Nat)
  /-- DRAFT_RUN_FWD (R269). Fetches drafted experts and runs them on local tokens, writing the routed output. -/
  | draftRunFwd (id : Nat)
  /-- DRAFT_RUN_BWD (R271). Computes the expert backward and sends weight-gradient contributions to the owners. -/
  | draftRunBwd (id : Nat)
  /-- DRAFT_CANCEL (R280). Retires the table's current generation and cancels its draft commands in flight. -/
  | draftCancel (id : Nat)
  /-- DRAFT_TRANSFER (R284). Revises expert loans from the group's fetch demands at a transfer window. -/
  | draftTransfer (id : Nat)
  /-- KEEP_PAIR (R335). Requests a keeper pairing with a partner module. -/
  | keepPair (id : Nat)
  /-- KEEP_UNPAIR (R335). Dissolves this module's keeper pair in the next epoch. -/
  | keepUnpair (id : Nat)
  /-- KEEP_RESTORE (R350). Copies the mirror of the lost shard and this module's primary to the replacement bitwise. -/
  | keepRestore (id : Nat) (peer : List PeerPiece)
  /-- KEEP_CHECK (R338). Compares per-block digests of a piece and its mirror. -/
  | keepCheck (id : Nat) (peerDigests : List (BitVec 256))
  /-- DIST_REGISTER (R332). Registers a local piece of a distributed tensor with its role and global offset. -/
  | distRegister (id : Nat)
  /-- SAVE_SHARD (R339). Streams primary ranges to host buffers and writes a signed manifest, when due. -/
  | saveShard (id : Nat)
  /-- SAVE_RESTORE (R343). Verifies a save manifest's signature and digest and writes its ranges. -/
  | saveRestore (id : Nat)
  /-- POWER_VOTE (R477). Records the host's vote for a power domain's minimum state. -/
  | powerVote (id : Nat)
  /-- POWER_CAP_SET (R471). Writes the software power cap CAP_SW_W. -/
  | powerCapSet (id : Nat)
  /-- BENCH_CHECK (R499). Runs fixed-seed self-test on bench and benched cores, and active ones with SCOPE 1. -/
  | benchCheck (id : Nat) (rs : List (Nat × CoreTest))
  /-- SELF_TEST (R500). Runs chosen-seed self-test parts on one bench or benched core. -/
  | selfTest (id : Nat) (r : CoreTest)
  /-- REPAIR_SOFT (R504). Adds or removes a soft repair entry in the dugout and flash record. -/
  | repairSoft (id : Nat) (spareLeft : Bool)
  /-- REPAIR_FUSE (R506). Blows an array or bench repair entry into the fuse block. -/
  | repairFuse (id : Nat) (readBackOk : Bool)
  /-- DIAG_ROSTER_READ (R507). Writes the block-owner entries of one tensor to memory. -/
  | diagRosterRead (id : Nat)
  /-- ATTEST (R456). Writes a signed attestation report, the certificate or the unsigned certificate header. -/
  | attest (id : Nat)
  /-- FW_STAGE (R447). In MODE 0 checks an image and writes it to the flash for the next reset. -/
  | fwStage (id : Nat) (readBackOk : Bool)
  /-- FW_STAGE_COMMIT_SVN (R449). In MODE 1 blows SVN fuses up to the running image's SVN. -/
  | fwStageCommitSvn (id : Nat)
  /-- LIFECYCLE_ADVANCE (R459). Advances the fused life-cycle state, acting at once for ENDED. -/
  | lifecycleAdvance (id : Nat)
  /-- SQ_FETCH (R382). Front end fetches entries of an enabled submission queue by DMA_RD. -/
  | sqFetch (q : Nat)
  /-- COMMAND_ADMISSION (R393). Checks a fetched packet's header and admits it to an in-flight place or rejects it. -/
  | commandAdmission (q : Nat)
  /-- COMMAND_START (R395). A command starts once its dependencies, fence and unit allow, or completes with REJ_DEP. -/
  | commandStart (id : Nat)
  /-- COMPLETION_WRITE (R398). Writes a finished command's completion to its completion queue. -/
  | completionWrite (id : Nat)
  /-- HELD_COMPLETION_FLUSH (R381). Writes held completions in finishing order once their re-enabled queue has a free entry. -/
  | heldCompletionFlush (cq : Nat)
  /-- PLAYBOOK_ISSUE (R228). A sequencer issues its next entry once it has a place and the previous blocking entry allows. -/
  | playbookIssue (s : Nat)
  /-- PLAYBOOK_ENTRY_FAILED (R231). An entry ends with REJ_ or FLT_, issue stops and the playbook ends with FLT_PLAYBOOK. -/
  | playbookEntryFailed (s : Nat)
  /-- PLAYBOOK_ENTER_HELD (R232). After the held step's commands complete, the sequencer enters HELD. -/
  | playbookEnterHeld (s : Nat)
  /-- STEP_WINDOW_CLOSE (R254). When a step's last command completes, the sequencer writes its step record. -/
  | stepWindowClose (s : Nat)
  /-- RELAY_ADMISSION (R242). A cluster controller admits a relay command when no bound command is ready for the cluster. -/
  | relayAdmission (id : Nat)
  /-- CFG_WR (R364). Host write to a register without a row of its own, including W1C and RS fields; a CFG_RD, or a
  transaction given by its header, comes with this row as well. -/
  | cfgWr (addr len : Nat) (t : HostTrans)
  /-- HOST_WR (R364). Host write of blocks into HBM4 or DDR5 checked against context HCTX. -/
  | hostWr (addr hctx : Nat) (data : List Byte) (poison : Word64)
  /-- HOST_RD (R364). Host read of blocks from HBM4 or DDR5 checked against context HCTX. -/
  | hostRd (tag addr len hctx : Nat)
  /-- DOORBELL (R366). Sets the tail of a submission queue, or is ignored and sets DB_BAD. -/
  | doorbell (q : Nat) (data : Word64)
  /-- DMA_RESP (R367). Arrival of the host's data for a module DMA_RD. -/
  | dmaResp (tag status : Nat) (data : List Byte) (poison : Word64)
  /-- DMA_WR_ACK (R367). Arrival of the host's acknowledgement or refusal of a module DMA_WR. -/
  | dmaWrAck (tag status : Nat)
  /-- DMA_TIMEOUT (R367). A DMA request unanswered for 1 ms is treated as refused. -/
  | dmaTimeout (tag : Nat)
  /-- SQ_CFG_WRITE (R378). Writes a submission queue's configuration, enabling or stopping its fetching. -/
  | sqCfgWrite (n off len : Nat) (data : Word64)
  /-- CQ_CFG_WRITE (R380). Writes a completion queue's configuration, enabling or disabling it. -/
  | cqCfgWrite (n off len : Nat) (data : Word64)
  /-- CQ_HEAD_WRITE (R380). Host advances a completion queue's HEAD, or the write is ignored and sets DB_BAD. -/
  | cqHeadWrite (n off len : Nat) (data : Word64)
  /-- FEED_TAIL_WRITE (R236). Host advances a sequencer's FEED_TAIL, or the write is ignored and sets FEED_OVERRUN. -/
  | feedTailWrite (s : Nat) (v : Word32)
  /-- RESULT_HEAD_WRITE (R237). Host frees result ring slots by writing RESULT_HEAD. -/
  | resultHeadWrite (s : Nat) (v : Word32)
  /-- CNT_CLEAR_SEQ (R434). Clears the phase and relay-delay counters of every sequencer. -/
  | cntClearSeq
  /-- CNT_CLEAR_LIUST (R434). Clears the Liust counters. -/
  | cntClearLiust
  /-- CNT_CLEAR_FABRIC (R434). Clears the fabric counters. -/
  | cntClearFabric
  /-- CNT_CLEAR_MEMORY (R434). Clears the memory counters and the memory error log. -/
  | cntClearMemory
  /-- CNT_CLEAR_DRAFT (R434). Clears the draft counters. -/
  | cntClearDraft
  /-- CNT_CLEAR_FOUL (R434). Clears the foul counters. -/
  | cntClearFoul
  /-- CNT_CLEAR_SCRUM (R434). Clears the Scrum and feeder-discard counters. -/
  | cntClearScrum
  /-- CNT_CLEAR_RESIDUE (R434). Clears the residue counters. -/
  | cntClearResidue
  /-- FAB_EN_SET (R305). Setting FAB_EN trains the ports and starts joining the fabric. -/
  | fabEnSet (moduleId : BitVec 12)
  /-- FAB_EN_CLEAR (R306). Clearing FAB_EN sends LEAVE and leaves the fabric. -/
  | fabEnClear (moduleId : BitVec 12)
  /-- PASS_SWAP (R312). Swaps the software-written pass-table bank into force. -/
  | passSwap
  /-- REC_CTRL_GO (R446). Starts a recovery image load from host memory into the flash. -/
  | recCtrlGo
  /-- PEER_LOAD_GO (R455). Verifies a certificate and binds its key to a module ID in the peer key table. -/
  | peerLoadGo
  /-- CAPABILITY (R375). PMBus read of the capability byte. -/
  | capability
  /-- STATUS_WORD (R375). PMBus read of the fault and limit status word. -/
  | statusWord
  /-- READ_VIN (R375). PMBus read of the input voltage. -/
  | readVin
  /-- READ_IIN (R375). PMBus read of the input current. -/
  | readIin (milliamps : Nat)
  /-- READ_TEMPERATURE_1 (R375). PMBus read of the hottest junction temperature. -/
  | readTemperature
  /-- READ_POUT (R375). PMBus read of the module input power. -/
  | readPout
  /-- PMBUS_REVISION (R375). PMBus read of the revision byte. -/
  | pmbusRevision
  /-- MFR_ID (R375). PMBus block read of the manufacturer name. -/
  | mfrId
  /-- MFR_MODEL (R375). PMBus block read of the model name. -/
  | mfrModel
  /-- MFR_FEED_ID (R376). PMBus read or write of the chassis feed ID, a write with or without its packet error check (R374). -/
  | mfrFeedId (write : Option (BitVec 16 × Option Byte))
  /-- MFR_SCOUT (R375). PMBus read of the scout index. -/
  | mfrScout
  /-- MFR_COOL (R375). PMBus read of the cooling profile. -/
  | mfrCool
  /-- LIUST_FLIT_ERROR (R360). A Liust flit fails FEC or CRC and is NAKed and replayed, or the link retrains. -/
  | liustFlitError (replayIntact : Bool)
  /-- LIUST_TRAINING_RETRY (R357). After three failed attempts and 100 ms the link tries training again. -/
  | liustTrainingRetry
  /-- LIUST_LINK_DOWN (R361). Failed retraining takes the link down and ends outstanding DMA. -/
  | liustLinkDown
  /-- FAB_FLIT_ERROR (R291). A fabric flit fails FEC or CRC and is replayed, or the port retrains. -/
  | fabFlitError (port : Nat) (replayIntact : Bool)
  /-- FAB_PORT_DOWN (R292). A port whose retrain fails goes down and ends forwarded packets with BAD. -/
  | fabPortDown (port : Nat)
  /-- FAB_PORT_TRAINING_RETRY (R288). After three failed attempts and 1 s a port tries training again. -/
  | fabPortTrainingRetry (port : Nat)
  /-- CABLE_CHANGE (R532). A cable connected or removed makes its port train or go down. -/
  | cableChange (cable : Cable) (connected : Bool)
  /-- PACKET_FORWARD (R313). A packet for another module is routed by the pass table and sent, or discarded for age or route. -/
  | packetForward (inPort : Nat) (p : Packet) (micros : Nat) (credits : List Nat)
  /-- RD_REQ (R303). Checks and performs a remote read, answering RD_RESP or ERR_RESP. -/
  | remoteRdReq (p : Packet)
  /-- WR (R303). Checks and performs a remote write, answering WR_ACK or ERR_RESP. -/
  | remoteWr (p : Packet)
  /-- WR_BULK (R303). Checks and performs a remote bulk write, answering WR_ACK or ERR_RESP. -/
  | remoteWrBulk (p : Packet)
  /-- COLL_READY (R321). A receiver's readiness lets members send it COLL_DATA for that sequence number. -/
  | collReady (p : Packet)
  /-- BARRIER_FLAG (R326). The leader collects a member's flag or held result and sends the result when all have arrived. -/
  | barrierFlag (p : Packet)
  /-- COLL_DATA (R320). A contribution lands, is summed on arrival or staged by rank, and is acknowledged. -/
  | collData (p : Packet)
  /-- DRAFT_PACKET (R278). A draft packet is taken, held for the next generation, or dropped as stale. -/
  | draftPacket (p : Packet)
  /-- RD_RESP (R298). Arrival of the data answering a remote read. -/
  | remoteRdResp (p : Packet)
  /-- WR_ACK (R298). Arrival of the acknowledgement of a remote write. -/
  | remoteWrAck (p : Packet)
  /-- COLL_ACK (R322). Arrival of the acknowledgement of a COLL_DATA. -/
  | collAck (p : Packet)
  /-- BARRIER_RESULT (R326). A member takes the barrier result word and holds it. -/
  | barrierResult (p : Packet)
  /-- ERR_RESP (R304). Arrival of a refusal ends the remote command with FLT_REMOTE. -/
  | errResp (p : Packet)
  /-- FAB_REMOTE_TIMEOUT (R304). A remote request unanswered within twice the lifetime ends its command. -/
  | fabRemoteTimeout (tag : Nat)
  /-- COLL_TIMEOUT (R324). A collective waiting COLL_TIMEOUT_MS on a present member ends with FLT_COLL_TIMEOUT. -/
  | collTimeout (id : Nat)
  /-- HELLO (R305). Records a neighbour's identity and state on a port. -/
  | hello (port : Nat) (m : Mgmt)
  /-- HEARTBEAT (R305). Confirms that a port's neighbour is alive. -/
  | heartbeat (port : Nat) (m : Mgmt)
  /-- HEARTBEAT_INTERVAL (R305). At each HB_INTERVAL the module sends HEARTBEAT on every up port. -/
  | heartbeatInterval
  /-- HEARTBEAT_MISS (R305). A port without HEARTBEAT for HB_MISS intervals is down and reported by LINK_REPORT. -/
  | heartbeatMiss (port : Nat)
  /-- FOUNDING_TIMEOUT (R306). With no roster after 10 heartbeat intervals the module founds a fabric as captain. -/
  | foundingTimeout
  /-- JOIN (R306). The captain admits or refuses a joining module and publishes the next epoch. -/
  | join (port : Nat) (m : Mgmt)
  /-- LEAVE (R306). The captain removes a leaving member in the next roster. -/
  | leave (port : Nat) (m : Mgmt)
  /-- LEAVE_TIMEOUT (R306). A leaving module drops its ports after twice the lifetime without a roster. -/
  | leaveTimeout
  /-- LINK_REPORT (R306). The captain updates links and marks members absent, publishing within 50 µs. -/
  | linkReport (port : Nat) (m : Mgmt)
  /-- ROSTER (R306). A newer roster is installed and forwarded, declaring absences and pass-table changes. -/
  | roster (port : Nat) (m : Mgmt)
  /-- HOLD (R308). Stops injection of request and bulk packets and answers HOLD_ACK. -/
  | fabHold (port : Nat) (m : Mgmt)
  /-- HOLD_ACK (R308). The captain records a hold acknowledgement and, when all are in, starts the lifetime wait. -/
  | holdAck (port : Nat) (m : Mgmt)
  /-- REORIENT_LIFETIME_WAIT (R308). After twice the lifetime the captain floods INSTALL. -/
  | reorientLifetimeWait
  /-- INSTALL (R308). Installs the new roster and pass table and answers INSTALL_ACK. -/
  | install (port : Nat) (m : Mgmt)
  /-- INSTALL_ACK (R308). The captain records an install acknowledgement and floods RELEASE when all are in. -/
  | installAck (port : Nat) (m : Mgmt)
  /-- RELEASE (R308). Resumes packet injection after a reorientation. -/
  | fabRelease (port : Nat) (m : Mgmt)
  /-- SSU_OPERATION (R206). An SSU performs one read, write, merge or reduction on a block atomically. -/
  | ssuOperation (op : SsuOp)
  /-- SCATTER_ADD_BATCH (R208). An SSU or merge unit adds a batch of contributions, each with its poison mark, to one block in list order. -/
  | scatterAddBatch (addr : Nat) (bf16 : Bool) (batch : AddBatch)
  /-- RANK_ORDER_REDUCTION (R210). Once every present rank of a block has landed, the SSU sums them in ascending rank. -/
  | rankOrderReduction (r : RankRed)
  /-- MEM_READ_RETRY (R201). The second read after an uncorrectable error classifies it transient or lasting. -/
  | memReadRetry (addr : Nat) (second : ReadOutcome)
  /-- SCRUB_READ (R203). Background scrub reads a block and handles it under R201. -/
  | scrubRead (addr : Nat) (first second : ReadOutcome)
  /-- RESIDUE_FAILURE (R488). A failed residue check re-streams the row, and a second failure is lasting. -/
  | residueFailure (core : CoreRef) (scrum : Bool) (secondFails : Bool)
  /-- SRAM_UE (R485). An uncorrectable SRAM read is retried, and a lasting one poisons the block. -/
  | sramUe (place : SramPlace) (outcome : SramOutcome)
  /-- CORE_FAILING (R489). A lasting core fault restarts failing shares elsewhere and marks the core failing. `ids` names the commands whose restarted share meets the fault on its second core (R490). -/
  | coreFailing (core : CoreRef) (ids : List Nat)
  /-- CORE_BENCH (R489). When every partition of a failing core is at a boundary, it is benched and the bench core swapped in. -/
  | coreBench (core : CoreRef)
  /-- DLINK_FLIT_ERROR (R495). A die-link flit is replayed, the link retrains, and a failed retrain is lasting. `ids` names commands whose traffic needs the link. -/
  | dlinkFlitError (a b : Nat) (replayIntact retrained : Bool) (ids : List Nat)
  /-- POWER_UP (R482). With the input in range the AO domain starts, straps are sampled and H0L wakes. -/
  | powerUp (straps : Straps) (seated : Bool) (millivolts : Nat)
  /-- BOOT (R445). The boot ROM checks the image and starts the firmware, or enters RECOVERY. -/
  | boot
  /-- POST (R498). Power-on self-test of every physical core, benching failures. -/
  | post (rs : List (Nat × CoreTest)) (badBuffers : BitVec 8)
  /-- RESET_N (R529). A low of at least 10 µs resets the module, which restarts from the wake of H0L on release. -/
  | resetN (lowNanos : Nat) (straps : Straps)
  /-- SEATED_N_RELEASE (R525). Extraction breaks SEATED_N and the module acts as a power fail. -/
  | seatedNRelease
  /-- VIN_CHANGE (R462). The input leaves or returns to its range, setting margins or causing a power fail. -/
  | vinChange (millivolts micros : Nat)
  /-- REGULATOR_FAULT (R463). A regulator outside its margin sets REG_MARGIN, or beyond 10% removes power. -/
  | regulatorFault (domain : Nat) (beyondTen : Bool)
  /-- CLOCK_LOSS (R26). Loss of reference or PLL lock stops the clocks, sets CLK_LOST and holds reset. -/
  | clockLoss
  /-- LIMITER_INTERVAL_END (R468). Every 100 µs the limiter chooses the next step, takes shadowed power fields and updates the thermal step. -/
  | limiterIntervalEnd (pm ea : Nat)
  /-- CLASS_RISE_HOLD (R469). A raised power class holds the command until the limiter recomputes the step. -/
  | classRiseHold (cluster core : Nat) (cls : Nat)
  /-- FAST_CLAMP (R470). Input above the fast limit sets the clamp step to 4 until the interval ends. -/
  | fastClamp (milliwatts milliamps millivolts : Nat)
  /-- THERMAL_SAMPLE (R472). The junction sensors are read every 10 µs to form T_HOT. -/
  | thermalSample (readings : List Nat)
  /-- THERMAL_TRIP (R473). A reading at or above 115 °C removes power and holds off reset until cool. -/
  | thermalTrip (readings : List Nat)
  /-- DOMAIN_ENTRY (R478). A domain with no vote above its floor saves retention, isolates and powers down. -/
  | domainEntry (domain : Nat)
  /-- DOMAIN_WAKE (R480). A non-privileged domain reaches ACTIVE after its fixed wake delay. -/
  | domainWake (domain : Nat)
  /-- PRIVILEGED_WAKE (R481). A privileged domain wakes in four ready-signalled steps, or fails on timeout. -/
  | privilegedWake (domain : Nat) (timeout : Option WakeStep)
  /-- PARENT_VOTE_RELEASE (R476). After 10 ms with all children at NAP or below the Referee withdraws its ACTIVE vote. -/
  | parentVoteRelease (domain : Nat)
  /-- TELEMETRY_WINDOW_END (R441). Every 100 ms the Referee measures UTIL, adjusts TELEM_MULT and samples when due. -/
  | telemetryWindowEnd (util : Nat) (nowMinutes : Nat)
  /-- TRIP_HOLD_END (R473). After a thermal trip, the AO sensor on H0 reading below 95 °C ends the trip hold, releases THERMTRIP_N and lets module reset act again. -/
  | tripHoldEnd
  /-- DIMM_CHANGE (R533). A DIMM fitted or removed while VIN is present leaves its channel in its trained state, with contents and error reports undefined until the next module reset. -/
  | dimmChange (channel : Nat) (fitted : Option Dimm)
  /-- MANAGEMENT_PACKET_RESEND (R302). When its interval comes round, the protocol resends a management message that a Referee dropped. -/
  | managementPacketResend (port : Nat)
  /-- LIUST_LINK_UP (R357). Liust training succeeds and the link comes up, so the completions that waited while it was down are written. -/
  | liustLinkUp (width : LiustWidth)
  /-- FAB_PORT_UP (R305). A fabric port finishes training and comes up, sends HELLO and becomes available to packets waiting for a port of their set. -/
  | fabPortUp (port : Nat) (lanes4 : Bool)
  deriving DecidableEq, Repr

end Sys2Proof
end

