-- ==== Sys2Proof/Decode.lean ====
section
/-! DEFINITION. Decoding of command words. The rows of spec/opcode_table.json give no bits (a command packet names its
opcode, and its operands lie in state), so no word spells a command. -/

namespace Sys2Proof

/-- The command that a word of the table's bits spells: none, since no row of the table has bits. -/
def decodeTableWord (_nbits _w : Nat) : Option Instr := none

end Sys2Proof
end

