-- ==== Sys2Proof/Config.lean ====
section
/-! DEFINITION. What the manual leaves open: free values, as constants without a body, so that nothing can be
proved of a value. Every one is named in the assumption log. -/

namespace Sys2Proof.Config

/-- Byte k of the stream of free bytes: the bytes of a block that a computed write left poisoned (R188). -/
opaque freeByte : Nat → BitVec 8

/-- Bit k of the stream of free bits: which block of a cancelled or poison-stopped command had been written
(R185, R189), whether a RESET_N pulse between 1 and 10 microseconds acts (R529). -/
opaque freeBit : Nat → Bool

/-- Number k of the stream of free numbers: choices that the manual leaves open. -/
opaque freeNat : Nat → Nat

/-- What a captain gathers of the registrations of other members (R334): group, tensor and block-owner entries. -/
opaque gathered : Nat → List (Nat × Nat × List Nat)

/-- Word k of the true random generator (R452, R461). -/
opaque trng : Nat → BitVec 256

/-- The fixed exponential where the enclosure of the model does not decide the nearest FP32 number (R145). -/
opaque expUndecided : BitVec 32 → BitVec 32

/-- ML-DSA-44 verification of a signature over a message under a public key (R443, R455). -/
opaque mldsaVerify : List (BitVec 8) → List (BitVec 8) → List (BitVec 8) → Bool

/-- An ML-DSA-44 signature by the key of a 32-byte seed, 2,420 bytes: seed, message, draw (R340, R457). -/
opaque mldsaSign : BitVec 256 → List (BitVec 8) → Nat → List (BitVec 8)

/-- The ML-DSA-44 public key derived from a 32-byte seed (R452). -/
opaque mldsaPublic : BitVec 256 → List (BitVec 8)

/-- The Jarmetic firmware, certificate and service public keys of the boot ROM (R444). -/
opaque firmwareKey : List (BitVec 8)
opaque certificateKey : List (BitVec 8)
opaque serviceKey : List (BitVec 8)

/-- MOD_SERIAL, from fuses: neither 0 nor all ones (R427). -/
opaque serialPlace : Nat
def serial : BitVec 64 := BitVec.ofNat 64 (serialPlace % (2 ^ 64 - 2) + 1)

/-- The identity seed blown in manufacture (R452). -/
opaque identitySeed : BitVec 256

/-- The image delivered in the flash: manifest block and body (R442, R443, R543). It passes the checks of R445. -/
opaque deliveredManifest : List (BitVec 8)
opaque deliveredBody : List (BitVec 8)

/-- The signature of the certificate delivered in the flash (R453, R454, R543). It passes the check of R453. -/
opaque deliveredCertSignature : List (BitVec 8)

/-- Number of SVN fuses blown at delivery, where it is at most the SVN of the delivered image (R543). -/
opaque deliveredFuseSvn : BitVec 6

/-- The repair fuse entries that manufacturing blew, and how many more did not read back (R506). -/
opaque deliveredRepairs : List (BitVec 128)
opaque deliveredSpoiled : Nat
def deliveredRepairFuses : List (BitVec 128) := deliveredRepairs.take 256

/-- The fuse block's readable image (R457), from what is blown: life-cycle state, SVN fuses, repair entries, entries left. -/
opaque fuseImage : Nat → Nat → List (BitVec 128) → Nat → List (BitVec 8)

/-- The other blocks of the memory row that holds a block (R504), by address. -/
opaque rowBlocks : Nat → List Nat

/-- The logic signature expected of a core for a seed and a number of patterns (R496). -/
opaque goldenSignature : BitVec 64 → Nat → BitVec 64

/-- The exponent with which the port sends a reading in LINEAR11: code of the command, value in milli-units (R375). -/
opaque linearExp : Nat → Int → Int

/-- The STATUS_WORD bit places of the four conditions of R375. -/
opaque statusWord : Bool → Bool → Bool → Bool → BitVec 16

/-- What a byte reads as after a DIMM was changed while powered (R533), by address. -/
opaque undefByte : Nat → BitVec 8

/-- Does such a block read as poisoned (R533)? -/
opaque undefPoison : Nat → Bool

/-- What an error report that is undefined reads as: register and channel (R533). -/
opaque undefReport : Nat → BitVec 64

end Sys2Proof.Config
end

