-- ==== Sys2Proof/Machine/Fp.lean ====
section
/-! DEFINITION. Exact dyadic values, the one rounding that every arithmetic operation makes (R37, R48, R144), and the
FP32 operations of the vector engine, drain and update units (R144, R145). -/

namespace Sys2Proof.Machine

/-- A value: NaN, an infinity, or the exact number (-1)^s * m * 2^e. Zero has m = 0 and keeps its sign. -/
inductive Val where
  | nan
  | inf (s : Bool)
  | fin (s : Bool) (m : Nat) (e : Int)
  deriving DecidableEq, Repr

namespace Val

/-- +0. -/
def zero : Val := .fin false 0 0

def isNan : Val → Bool
  | .nan => true
  | _ => false

def isInf : Val → Bool
  | .inf _ => true
  | _ => false

/-- NaN or infinite (R101, R146). -/
def nonFinite : Val → Bool
  | .fin _ _ _ => false
  | _ => true

def isZero : Val → Bool
  | .fin _ m _ => m == 0
  | _ => false

def sign : Val → Bool
  | .nan => false
  | .inf s => s
  | .fin s _ _ => s

def neg : Val → Val
  | .nan => .nan
  | .inf s => .inf (!s)
  | .fin s m e => .fin (!s) m e

def abs : Val → Val
  | .nan => .nan
  | .inf _ => .inf false
  | .fin _ m e => .fin false m e

end Val

/-- Magnitudes m1 * 2^e1 and m2 * 2^e2 brought to one exponent. -/
def alignMag (m1 : Nat) (e1 : Int) (m2 : Nat) (e2 : Int) : Nat × Nat × Int :=
  let e := min e1 e2
  (m1 <<< (e1 - e).toNat, m2 <<< (e2 - e).toNat, e)

/-- m1 * 2^e1 < m2 * 2^e2. -/
def magLt (m1 : Nat) (e1 : Int) (m2 : Nat) (e2 : Int) : Bool :=
  let (a, b, _) := alignMag m1 e1 m2 e2
  decide (a < b)

/-- m1 * 2^e1 ≤ m2 * 2^e2. -/
def magLe (m1 : Nat) (e1 : Int) (m2 : Nat) (e2 : Int) : Bool := !magLt m2 e2 m1 e1

/-- The exact sum. A sum of zero is +0 unless both terms are negative zeros (IEEE 754, round to nearest). -/
def Val.add : Val → Val → Val
  | .nan, _ => .nan
  | _, .nan => .nan
  | .inf s, .inf t => if s == t then .inf s else .nan
  | .inf s, _ => .inf s
  | _, .inf t => .inf t
  | .fin s m e, .fin t n f =>
    if m == 0 && n == 0 then .fin (s && t) 0 0
    else
      let (a, b, g) := alignMag m e n f
      if s == t then .fin s (a + b) g
      else if a == b then .fin false 0 0
      else if b < a then .fin s (a - b) g
      else .fin t (b - a) g

/-- The exact product (IEEE 754: infinity times zero is NaN). -/
def Val.mul : Val → Val → Val
  | .nan, _ => .nan
  | _, .nan => .nan
  | .inf s, .inf t => .inf (s != t)
  | .inf s, .fin t n _ => if n == 0 then .nan else .inf (s != t)
  | .fin s m _, .inf t => if m == 0 then .nan else .inf (s != t)
  | .fin s m e, .fin t n f => .fin (s != t) (m * n) (e + f)

/-- a < b by value; false when either is NaN. +0 and -0 are equal. -/
def Val.lt : Val → Val → Bool
  | .nan, _ => false
  | _, .nan => false
  | .inf s, .inf t => s && !t
  | .inf s, _ => s
  | _, .inf t => !t
  | .fin s m e, .fin t n f =>
    match s, t with
    | false, false => magLt m e n f
    | true, true => magLt n f m e
    | true, false => !(m == 0 && n == 0)
    | false, true => false

/-- a = b by value; false when either is NaN. -/
def Val.eqv (a b : Val) : Bool :=
  !a.isNan && !b.isNan && !(a.lt b) && !(b.lt a)

/-- The multiple of 2^q, with q at least emin, that keeps p significant bits of m * 2^e: (kept, rest, width of the
rest, q). -/
def splitMag (p : Nat) (emin : Int) (m : Nat) (e : Int) : Nat × Nat × Nat × Int :=
  let len : Int := if m == 0 then 0 else (Nat.log2 m + 1 : Nat)
  let q := max (e + len - p) emin
  if q ≤ e then (m <<< (e - q).toNat, 0, 0, q)
  else
    let k := (q - e).toNat
    (m >>> k, m % 2 ^ k, k, q)

/-- m * 2^e rounded to p bits, nearest, ties to even, with the least exponent emin of a last place (R48). -/
def rndNear (p : Nat) (emin : Int) (m : Nat) (e : Int) : Nat × Int :=
  let (kept, rest, k, q) := splitMag p emin m e
  if k == 0 then (kept, q)
  else
    let half := 2 ^ (k - 1)
    if rest > half || (rest == half && kept % 2 == 1) then (kept + 1, q) else (kept, q)

/-- Under stochastic rounding with draw r: up when (|x| - lo) * 2^16 > r * (hi - lo) (R51). -/
def rndStoch (p : Nat) (emin : Int) (r : Nat) (m : Nat) (e : Int) : Nat × Int :=
  let (kept, rest, k, q) := splitMag p emin m e
  if rest * 2 ^ 16 > r * 2 ^ k then (kept + 1, q) else (kept, q)

/-- A rounding mode: to nearest, or stochastic with the 16-bit draw of R52. -/
inductive Rnd where
  | near
  | stoch (r : Nat)
  deriving DecidableEq, Repr

def rndMag (rm : Rnd) (p : Nat) (emin : Int) (m : Nat) (e : Int) : Nat × Int :=
  match rm with
  | .near => rndNear p emin m e
  | .stoch r => rndStoch p emin r m e

/-- The encoding field of a rounded magnitude m * 2^q: biased exponent and mantissa in one number. A carry out of the
mantissa moves the exponent by itself. -/
def packMag (p : Nat) (emin : Int) (mq : Nat × Int) : Nat :=
  if mq.1 == 0 then 0 else ((mq.2 - emin).toNat <<< (p - 1)) + mq.1

/-- FP32 of a value, rounded once (R48, R50, R38). -/
def toF32R (rm : Rnd) : Val → Word32
  | .nan => 0x7FC00000#32
  | .inf s => if s then 0xFF800000#32 else 0x7F800000#32
  | .fin s m e =>
    let n := packMag 24 (-149) (rndMag rm 24 (-149) m e)
    let n := if n ≥ 0x7F800000 || !(magLt m e 1 128) then 0x7F800000 else n
    BitVec.ofNat 32 (flagAt s 31 + n)

/-- FP32, round to nearest even. -/
def toF32 (v : Val) : Word32 := toF32R .near v

/-- BF16 of a value, rounded once (R48, R50). -/
def toBf16R (rm : Rnd) : Val → Nat
  | .nan => 0x7FC0
  | .inf s => if s then 0xFF80 else 0x7F80
  | .fin s m e =>
    let n := packMag 8 (-133) (rndMag rm 8 (-133) m e)
    let n := if n ≥ 0x7F80 || !(magLt m e 1 128) then 0x7F80 else n
    flagAt s 15 + n

/-- The value of an FP32 encoding (R37). -/
def ofF32 (w : Word32) : Val :=
  let n := w.toNat
  let s := bit n 31
  let x := bits n 30 23
  let f := bits n 22 0
  if x == 255 then (if f == 0 then .inf s else .nan)
  else if x == 0 then .fin s f (-149)
  else .fin s (2 ^ 23 + f) ((x : Int) - 150)

/-- The value of a BF16 encoding: the upper 16 bits of an FP32 encoding (R37). -/
def ofBf16 (n : Nat) : Val := ofF32 (BitVec.ofNat 32 (n <<< 16))

/-! FP32 operations: each forms its exact result and rounds once (R144). -/

def fadd (a b : Word32) : Word32 := toF32 ((ofF32 a).add (ofF32 b))
def fsub (a b : Word32) : Word32 := toF32 ((ofF32 a).add (ofF32 b).neg)
def fmul (a b : Word32) : Word32 := toF32 ((ofF32 a).mul (ofF32 b))
/-- a * b + c, rounded once. -/
def ffma (a b c : Word32) : Word32 := toF32 (((ofF32 a).mul (ofF32 b)).add (ofF32 c))

/-- Minimum: NaN if either is NaN; -0 is less than +0 (R144). -/
def Val.min (a b : Val) : Val :=
  if a.isNan || b.isNan then .nan
  else if a.isZero && b.isZero then (if a.sign then a else b)
  else if a.lt b then a else b

/-- Maximum, under the same rules. -/
def Val.max (a b : Val) : Val :=
  if a.isNan || b.isNan then .nan
  else if a.isZero && b.isZero then (if a.sign then b else a)
  else if a.lt b then b else a

def fmin (a b : Word32) : Word32 := toF32 ((ofF32 a).min (ofF32 b))
def fmax (a b : Word32) : Word32 := toF32 ((ofF32 a).max (ofF32 b))

/-- The quotient as an exact value or one that rounds like it: at least 128 bits, the last one sticky. -/
def Val.div : Val → Val → Val
  | .nan, _ => .nan
  | _, .nan => .nan
  | .inf _, .inf _ => .nan
  | .inf s, .fin t _ _ => .inf (s != t)
  | .fin s _ _, .inf t => .fin (s != t) 0 0
  | .fin s m e, .fin t n f =>
    if n == 0 then (if m == 0 then .nan else .inf (s != t))
    else if m == 0 then .fin (s != t) 0 0
    else
      let k := 128 + Nat.log2 n
      let a := m <<< k
      .fin (s != t) (2 * (a / n) + (if a % n == 0 then 0 else 1)) (e - f - k - 1)

/-- Integer square root, one bit at a time from bit i. -/
def isqrtFrom (n : Nat) : Nat → Nat → Nat
  | 0, r => r
  | i + 1, r =>
    let r' := r + 2 ^ i
    if r' * r' ≤ n then isqrtFrom n i r' else isqrtFrom n i r

/-- The largest r with r * r ≤ n. -/
def isqrt (n : Nat) : Nat := isqrtFrom n (Nat.log2 n / 2 + 1) 0

/-- Square root, with a sticky last bit (R145). -/
def Val.sqrt : Val → Val
  | .nan => .nan
  | .inf s => if s then .nan else .inf false
  | .fin s m e =>
    if m == 0 then .fin s 0 0
    else if s then .nan
    else
      let (m, e) := if e % 2 == 0 then (m, e) else (2 * m, e - 1)
      let a := m <<< 256
      let r := isqrt a
      .fin false (2 * r + (if r * r == a then 0 else 1)) (e / 2 - 129)

/-- Reciprocal square root, with a sticky last bit (R145). IEEE 754: of a zero the infinity of its sign. -/
def Val.rsqrt : Val → Val
  | .nan => .nan
  | .inf s => if s then .nan else .fin false 0 0
  | .fin s m e =>
    if m == 0 then .inf s
    else if s then .nan
    else
      let (m, e) := if e % 2 == 0 then (m, e) else (2 * m, e - 1)
      let k := 128 + Nat.log2 m
      let a := (1 <<< (2 * k)) / m
      let r := isqrt a
      .fin false (2 * r + (if r * r * m == 1 <<< (2 * k) then 0 else 1)) (-(e / 2) - k - 1)

def fdiv (a b : Word32) : Word32 := toF32 ((ofF32 a).div (ofF32 b))
def fsqrt (a : Word32) : Word32 := toF32 (ofF32 a).sqrt
def frsqrt (a : Word32) : Word32 := toF32 (ofF32 a).rsqrt
def f32One : Word32 := 0x3F800000#32
def frecip (a : Word32) : Word32 := fdiv f32One a

/-- FP32 of a natural number, rounded to nearest. -/
def f32OfNat (n : Nat) : Word32 := toF32 (.fin false n 0)

/-! The fixed exponential (R145). 2^y is enclosed by products of truncated roots 2^(1/2^j), 192 bits after the point;
each of at most 60 products and roots loses less than one unit, so the enclosure is 2^10 units wide. DEDUCED: the
nearest number is the one both ends round to; where they differ the value is free. -/

/-- The product, over the bits of frac (below 2^n, highest first), of the roots root, root^(1/2), ... -/
def expProd : Nat → Nat → Nat → Nat → Nat
  | 0, _, _, acc => acc
  | n + 1, frac, root, acc =>
    let acc := if frac.testBit n then (acc * root) >>> 192 else acc
    expProd n frac (isqrt (root <<< 192)) acc

/-- 2^y for a finite y, rounded to nearest FP32; x only names the free value. -/
def exp2F32 (x : Word32) (s : Bool) (m : Nat) (e : Int) : Word32 :=
  if m == 0 then f32One
  else if e ≥ 0 || m % 2 ^ (-e).toNat == 0 then
    let n : Int := if e ≥ 0 then (m <<< e.toNat : Nat) else (m >>> (-e).toNat : Nat)
    toF32 (.fin false 1 (if s then -n else n))
  else if magLt m e 1 (-30) then f32One
  else
    let k := (-e).toNat
    let whole := m >>> k
    let rest := m % 2 ^ k
    let (i, frac) : Int × Nat := if s then (-(whole : Int) - 1, 2 ^ k - rest) else (whole, rest)
    let lo := expProd k frac (isqrt (2 <<< 384)) (1 <<< 192)
    let a := toF32 (.fin false lo (i - 192))
    let b := toF32 (.fin false (lo + 1024) (i - 192))
    if a == b then a else Config.expUndecided x

/-- The fixed exponential e of R145. -/
def fexp (x : Word32) : Word32 :=
  match ofF32 x with
  | .nan => 0x7FC00000#32
  | .inf s => if s then 0#32 else 0x7F800000#32
  | .fin _ _ _ =>
    match ofF32 (fmul x 0x3FB8AA3B#32) with
    | .nan => 0x7FC00000#32
    | .inf s => if s then 0#32 else 0x7F800000#32
    | .fin s m e =>
      if s then (if magLe m e 150 0 then exp2F32 x s m e else 0#32)
      else if magLt m e 128 0 then exp2F32 x s m e else 0x7F800000#32

/-! Binary64 arithmetic of the save interval (R345). -/

/-- A value rounded to binary64. -/
def rnd64 : Val → Val
  | .fin s m e =>
    let (m', q) := rndNear 53 (-1074) m e
    if magLe 1 1024 m' q then .inf s else .fin s m' q
  | v => v

/-- The integer part of a non-negative value; large values as they are. -/
def Val.floorNat : Val → Nat
  | .fin false m e => if e ≥ 0 then m <<< e.toNat else m >>> (-e).toNat
  | _ => 0

/-! Pairwise tree of FP32 additions (R87). -/

/-- One level of the tree: neighbours combined, an unpaired last element passes up unchanged. -/
def treeLevel {α : Type} (f : α → α → α) : List α → List α
  | a :: b :: rest => f a b :: treeLevel f rest
  | l => l

/-- Levels until one element is left; fuel is the number of elements. -/
def treeFold {α : Type} (f : α → α → α) : Nat → List α → Option α
  | _, [] => none
  | _, [a] => some a
  | 0, a :: _ => some a
  | n + 1, l => treeFold f n (treeLevel f l)

/-- The pairwise tree of R87 over a list. -/
def tree {α : Type} (f : α → α → α) (l : List α) : Option α := treeFold f l.length l

/-- The pairwise tree sum of FP32 numbers; of none, +0. -/
def treeSum (l : List Word32) : Word32 := (tree fadd l).getD 0#32

/-- The row tree sum of R151: groups of 32, then the group sums by the same rule. -/
def rowTreeSum (l : List Word32) : Word32 := treeSum ((chunks 32 l).map treeSum)

end Sys2Proof.Machine
end

