-- ==== Sys2Proof/Machine/Formats.lean ====
section
/-! DEFINITION. Element formats, decoding, conversion, automatic scale, products and stochastic draws
(spec/02_number_formats.md, R29 to R52, and the format codes of R165). -/

namespace Sys2Proof.Machine

/-- The element formats of R165. -/
inductive Fmt where
  | l4 | l8 | e4m3 | e5m2 | bf16 | fp32 | s8 | int32 | bit
  deriving DecidableEq, Repr, Inhabited

namespace Fmt

/-- FORMAT codes (R165); any other code is rejected. -/
def ofCode : Nat → Option Fmt
  | 0x00 => some .l4
  | 0x01 => some .l8
  | 0x02 => some .e4m3
  | 0x03 => some .e5m2
  | 0x04 => some .bf16
  | 0x05 => some .fp32
  | 0x08 => some .s8
  | 0x09 => some .int32
  | 0x0A => some .bit
  | _ => none

def code : Fmt → Nat
  | .l4 => 0x00
  | .l8 => 0x01
  | .e4m3 => 0x02
  | .e5m2 => 0x03
  | .bf16 => 0x04
  | .fp32 => 0x05
  | .s8 => 0x08
  | .int32 => 0x09
  | .bit => 0x0A

/-- Bits per element (R165). -/
def width : Fmt → Nat
  | .l4 => 4
  | .l8 | .e4m3 | .e5m2 | .s8 => 8
  | .bf16 => 16
  | .fp32 | .int32 => 32
  | .bit => 1

/-- Elements per 64-byte channel group (R165). -/
def perGroup (f : Fmt) : Nat := 512 / f.width

/-- A data format of R29. -/
def isData : Fmt → Bool
  | .s8 | .int32 | .bit => false
  | _ => true

/-- A logarithmic format. -/
def isL : Fmt → Bool
  | .l4 | .l8 => true
  | _ => false

def isFp8 : Fmt → Bool
  | .e4m3 | .e5m2 => true
  | _ => false

/-- A format that may carry a scale plane (R29, R169). -/
def scalable (f : Fmt) : Bool := f.isL || f.isFp8

/-- Steps per octave q of an L format (R33). -/
def lq : Fmt → Nat
  | .l4 => 2
  | _ => 8

/-- The code of value 1, c (R33). -/
def lc : Fmt → Nat
  | .l4 => 4
  | _ => 64

/-- The largest code, Emax (R45). -/
def lmax : Fmt → Nat
  | .l4 => 7
  | _ => 127

/-- The canonical NaN written (R38). -/
def nanCode : Fmt → Nat
  | .l4 => 8
  | .l8 => 0x80
  | .e4m3 | .e5m2 => 0x7F
  | .bf16 => 0x7FC0
  | .fp32 => 0x7FC00000
  | .s8 => 0xFF
  | _ => 0

end Fmt

/-- The 24-bit significands of the fraction table T (R33). -/
def fracTable : Nat → Nat
  | 0 => 0x800000
  | 1 => 0x8B95C2
  | 2 => 0x9837F0
  | 3 => 0xA5FED7
  | 4 => 0xB504F3
  | 5 => 0xC5672A
  | 6 => 0xD744FD
  | _ => 0xEAC0C7

/-- 2^i * T[f * 8 / q] * 2^t for a code offset d = q * i + f (R33, R40): significand and exponent. -/
def lMag (q : Nat) (d t : Int) : Nat × Int :=
  (fracTable ((d % q).toNat * 8 / q), d / q + t - 23)

/-- The value of an L code with a scale byte (R31 to R34). -/
def decodeL (f : Fmt) (c b : Nat) : Val :=
  let s := c / (f.lmax + 1) % 2 == 1
  let e := c % (f.lmax + 1)
  if b == 255 then .nan
  else if e == 0 then (if s then .nan else .zero)
  else
    let (m, x) := lMag f.lq ((e : Int) - f.lc) ((b : Int) - 127)
    .fin s m x

/-- The value of an FP8 code with a scale byte (R36). -/
def decodeFp8 (f : Fmt) (c b : Nat) : Val :=
  let s := bit c 7
  let sc : Int := (b : Int) - 127
  if b == 255 then .nan
  else if f == .e4m3 then
    let x := bits c 6 3
    let m := bits c 2 0
    if x == 15 && m == 7 then .nan
    else if x == 0 then .fin s m (sc - 9)
    else .fin s (8 + m) ((x : Int) - 10 + sc)
  else
    let x := bits c 6 2
    let m := bits c 1 0
    if x == 31 then (if m == 0 then .inf s else .nan)
    else if x == 0 then .fin s m (sc - 16)
    else .fin s (4 + m) ((x : Int) - 17 + sc)

/-- The value of an element of a data format (R30 to R37). BF16 and FP32 carry no scale. -/
def decode (f : Fmt) (c b : Nat) : Val :=
  match f with
  | .l4 | .l8 => decodeL f c b
  | .e4m3 | .e5m2 => decodeFp8 f c b
  | .bf16 => ofBf16 c
  | .fp32 => ofF32 (BitVec.ofNat 32 c)
  | _ => .fin false c 0

/-- m^n <= m'^n * 2^k style test: (m * 2^e)^n > 2^k, decided exactly (R45, R49). -/
def powGt (m : Nat) (e : Int) (n : Nat) (k : Int) : Bool := magLt 1 k (m ^ n) (e * n)

/-- An L code from a code position: 0 below one half, else the nearest code, ties to even, limited (R45, R46).
The position is num / den. -/
def lCodeAt (f : Fmt) (num : Int) (den : Nat) : Nat :=
  if 2 * num < den then 0
  else
    let n := num.toNat
    let k := n / den
    let r := n % den
    let k := if 2 * r > den || (2 * r == den && k % 2 == 1) then k + 1 else k
    min (max k 1) f.lmax

/-- The nearest L code of a magnitude y = m * 2^e (scale taken out), R45: c + q * floor(log2 y), moved up once for
each midpoint 2^(j / (2 q)) (j odd) that the fraction passes. -/
def lNearest (f : Fmt) (m : Nat) (e : Int) : Nat :=
  let i : Int := (Nat.log2 m : Int) + e
  let x := e - i
  let up := (List.range f.lq).foldl (fun (a : Nat) (j : Nat) => if powGt m x (2 * f.lq) (2 * (j : Int) + 1) then a + 1 else a) 0
  let k : Int := f.lc + f.lq * i + up
  if k < 1 then 0 else min k.toNat f.lmax

/-- The largest L code whose decoded magnitude at scale b does not exceed m * 2^e; 0 if none. -/
def lFloor (f : Fmt) (b m : Nat) (e : Int) : Nat :=
  (List.range f.lmax).foldl (fun (a : Nat) (j : Nat) =>
    let (n, x) := lMag f.lq ((j : Int) + 1 - f.lc) ((b : Int) - 127)
    if magLe n x m e then j + 1 else a) 0

/-- Stochastic rounding into an L format between decoded magnitudes (R51). -/
def lStoch (f : Fmt) (r b m : Nat) (e : Int) : Nat :=
  let lo := lFloor f b m e
  let mag := fun (k : Nat) => if k == 0 then (0, (0 : Int)) else lMag f.lq ((k : Int) - f.lc) ((b : Int) - 127)
  if lo == f.lmax then lo
  else
    let (ml, el) := mag lo
    let (mh, eh) := mag (lo + 1)
    let g := min (min e el) eh
    let x := m <<< (e - g).toNat
    let l := ml <<< (el - g).toNat
    let h := mh <<< (eh - g).toNat
    if (x - l) * 2 ^ 16 > r * (h - l) then lo + 1 else lo

/-- The sign bit of an L code. Code 0 always takes sign 0 (R45). -/
def lSigned (f : Fmt) (s : Bool) (k : Nat) : Nat := if k == 0 then 0 else flagAt s (f.width - 1) + k

/-- Encoding of a value in a data format at scale byte b, rounded once (R44, R45, R48, R50, R51). DEDUCED: an element
written under a NaN scale byte is written as NaN (R34, R49). -/
def encode (f : Fmt) (rm : Rnd) (b : Nat) (v : Val) : Nat :=
  if f.scalable && b == 255 then f.nanCode
  else
    match f with
    | .l4 | .l8 =>
      match v with
      | .fin s m e =>
        if m == 0 then 0
        else
          match rm with
          | .near => lSigned f s (lNearest f m (e - ((b : Int) - 127)))
          | .stoch r => lSigned f s (lStoch f r b m e)
      | _ => f.nanCode
    | .e4m3 =>
      match v with
      | .fin s m e =>
        let e := e - ((b : Int) - 127)
        let k := if magLt 448 0 m e then 0x7E else packMag 4 (-9) (rndMag rm 4 (-9) m e)
        flagAt s 7 + k
      | _ => 0x7F
    | .e5m2 =>
      match v with
      | .nan => 0x7F
      | .inf s => flagAt s 7 + 0x7C
      | .fin s m e =>
        let e := e - ((b : Int) - 127)
        let k := if magLt 57344 0 m e then 0x7B else packMag 3 (-16) (rndMag rm 3 (-16) m e)
        flagAt s 7 + k
    | .bf16 => toBf16R rm v
    | .fp32 => (toF32R rm v).toNat
    | _ => 0

/-- Conversion between L formats, or between scales of one, on codes (R46). -/
def recodeL (fs : Fmt) (cs bs : Nat) (fd : Fmt) (bd : Nat) : Nat :=
  let s := cs / (fs.lmax + 1) % 2 == 1
  let e := cs % (fs.lmax + 1)
  if bs == 255 || bd == 255 || (s && e == 0) then fd.nanCode
  else if e == 0 then 0
  else
    let num : Int := (fs.lq : Int) * fd.lc + ((e : Int) - fs.lc) * fd.lq + (fs.lq : Int) * fd.lq * ((bs : Int) - bd)
    lSigned fd s (lCodeAt fd num fs.lq)

/-- An element read from a tensor: its format, code and scale byte, and whether it is poisoned (R39, R187). -/
structure Elem where
  fmt : Fmt
  code : Nat
  scale : Nat
  poison : Bool
  deriving DecidableEq, Repr, Inhabited

/-- The value every unit sees: a poisoned element decodes as NaN (R39). -/
def Elem.val (x : Elem) : Val := if x.poison then .nan else decode x.fmt x.code x.scale

/-- Conversion of an element into a data format at scale byte b (R44, R46). -/
def Elem.convert (x : Elem) (f : Fmt) (rm : Rnd) (b : Nat) : Nat :=
  if x.poison then f.nanCode
  else if x.fmt.isL && f.isL && rm == .near then recodeL x.fmt x.code x.scale f b
  else encode f rm b x.val

/-- The larger magnitude of two non-negative dyadics. -/
def magMax (a b : Nat × Int) : Nat × Int := if magLt a.1 a.2 b.1 b.2 then b else a

/-- The test m <= mu of R49, made exactly, for the mantissa n / 2^k with 1 <= n / 2^k < 2. -/
def leMu (f : Fmt) (n k : Nat) : Bool :=
  match f with
  | .l4 => n ^ 2 ≤ 2 * 2 ^ (2 * k)
  | .l8 => n ^ 8 ≤ 2 ^ 7 * 2 ^ (8 * k)
  | _ => 4 * n ≤ 7 * 2 ^ k

/-- The constant k0 of R49. -/
def scaleK0 : Fmt → Int
  | .l4 => 1
  | .l8 => 7
  | .e4m3 => 8
  | _ => 15

/-- The automatic scale byte of a block (R49). -/
def autoScale (f : Fmt) (vs : List Val) : Nat :=
  if vs.any Val.nonFinite then 255
  else
    let a := vs.foldl (fun acc v => match v with
      | .fin _ m e => if m == 0 then acc else magMax acc (m, e)
      | _ => acc) (0, 0)
    if a.1 == 0 then 127
    else
      let k := Nat.log2 a.1
      let e : Int := (k : Int) + a.2
      let b : Int := 127 + e - scaleK0 f + (if leMu f a.1 k then 0 else 1)
      min b.toNat 254

/-- The operand pairs for which a product is defined (R41). -/
def pairOk : Fmt → Fmt → Bool
  | .l4, .l4 | .l8, .l8 | .bf16, .bf16 => true
  | a, b => a.isFp8 && b.isFp8

/-- The product of two elements of a pair of R41, exact but for the T entry of an L product (R40, R43). A product in
any format with a NaN or an infinite operand is NaN. -/
def product (x y : Elem) : Val :=
  let a := x.val
  let b := y.val
  if a.nonFinite || b.nonFinite then .nan
  else if x.fmt.isL then
    let f := x.fmt
    let ea := x.code % (f.lmax + 1)
    let eb := y.code % (f.lmax + 1)
    if ea == 0 || eb == 0 then .zero
    else
      let (m, e) := lMag f.lq ((ea : Int) - f.lc + ((eb : Int) - f.lc)) ((x.scale : Int) - 127 + ((y.scale : Int) - 127))
      .fin (a.sign != b.sign) m e
  else a.mul b

/-- The 16-bit draw of R52. -/
def draw (seed stream index : Nat) : Nat :=
  let w := fun x => x % 2 ^ 64
  let z := w (seed + stream * 2 ^ 44 + index)
  let z := w ((z ^^^ (z >>> 30)) * 0xBF58476D1CE4E5B9)
  let z := w ((z ^^^ (z >>> 27)) * 0x94D049BB133111EB)
  let z := z ^^^ (z >>> 31)
  bits z 63 48

/-- The rounding of element `index` of a converting command: to nearest, or its draw (R44, R52). -/
def rndFor (sr : Bool) (seed stream index : Nat) : Rnd :=
  if sr then .stoch (draw seed stream (index % 2 ^ 44)) else .near

/-! Column-pass sums (R81, R82). -/

/-- The larger of two magnitudes among finite products. -/
def pmax (ps : List Val) : Nat × Int :=
  ps.foldl (fun acc v => match v with
    | .fin _ m e => if m == 0 then acc else if acc.1 == 0 then (m, e) else magMax acc (m, e)
    | _ => acc) (0, 0)

/-- The column-pass result: NaN if any product is, else the exact sum of the unflushed products rounded once; a sum of
zero is +0 (R81, R82). -/
def columnPass (ps : List Val) : Word32 :=
  if ps.any Val.isNan then 0x7FC00000#32
  else
    let (pm, pe) := pmax ps
    if pm == 0 then 0#32
    else
      let a : Int := (Nat.log2 pm : Int) + pe
      let kept := ps.filter (fun v => match v with
        | .fin _ m e => m != 0 && magLe 1 (a - 48) m e
        | _ => true)
      let s := kept.foldl Val.add .zero
      if s.isZero then 0#32 else toF32 s

/-- The dense stationary depth Kp of a format (R55). FP32, to which R55 gives none, takes 256, which sets the tile span of the
header array of an FP32 destination (DESIGN CHOICE: R133 and R55 leave it open). -/
def kpOf : Fmt → Nat
  | .l4 => 512
  | .bf16 => 128
  | _ => 256

/-- The sum of one output element over its contraction (R83 to R87): `pass p` is the column-pass result of pass p; passes
of 16 form a chunk, summed in ascending pass from +0, and chunks go through the pairwise tree. A pass of no products
adds +0. A single pass that underflows to -0 is added to +0 as well and gives +0 (DESIGN CHOICE: R83 adds it, while R86 calls
it the element's value). -/
def sumPasses (passes : List Word32) : Word32 :=
  let partials := (chunks 16 passes).map (fun c => c.foldl fadd 0#32)
  treeSum partials

end Sys2Proof.Machine
end

