-- ==== Sys2Proof/Machine/State.lean ====
section
/-! DEFINITION. The machine state: plain data that holds every register, store, queue, counter and mode that the manual
gives the module, and `State.reset`, the module right after its reset is released, before the boot ROM has run. -/

namespace Sys2Proof.Machine

/-- Bytes by location, in one canonical form: locations strictly rising, no entry 00h, which is what an unlisted location
reads as (log entry 2). A location below 2^52 is a module address (R195). 2^52 + n * 2^26 + o is offset o of the buffer of
cluster n. 2^53 + i * 2^30 + o is offset o of core-scratch tensor i (R170). `poison` lists the
poisoned 64-byte blocks (R187), by the location of their first byte, rising. `undef` lists ranges whose contents are
undefined until the next module reset (R533). -/
structure Mem where
  cells : List Host.Cell := []
  poison : List Nat := []
  undef : List (Nat × Nat) := []
  deriving DecidableEq, Repr

/-- A shadowed word (R10): the value last written and the value in force. -/
structure Rs where
  shadow : Word64
  force : Word64
  deriving DecidableEq, Repr

/-- A region table entry (R384). -/
structure Region where
  valid : Bool := false
  place : Bool := false
  remote : Bool := false
  host : Bool := false
  write : Bool := false
  read : Bool := false
  base : Nat := 0
  limit : Nat := 0
  deriving DecidableEq, Repr

/-- A context (R383). -/
structure Context where
  live : Bool := false
  regions : Vector Region 64 := Vector.replicate 64 {}
  deriving DecidableEq, Repr

/-- An activation table slot of a cluster (R147, R150, R163): contents in force, a load not yet taken, and the contexts in
which it has been loaded. -/
structure TableSlot where
  image : Option (List Byte) := none
  shadow : Option (List Byte) := none
  ctxs : List Nat := []
  deriving DecidableEq, Repr

/-- Where a physical core stands (R19, R20). -/
inductive CoreMode where
  | active | bench | benched
  deriving DecidableEq, Repr

/-- The ways an array is split (R70): one partition of 128 columns, two of 64, four of 32. -/
inductive PartMode where
  | full | halves | quarters
  deriving DecidableEq, Repr

/-- A tile of stationary elements (R55, R65): whose it is, its pass and column tile, its elements, column by column in
ascending contraction index, and the poisoned blocks among those that it was read from. -/
structure StatTile where
  cmd : Nat
  pass : Nat := 0
  col : Nat := 0
  elems : List (List Elem) := []
  bad : List Nat := []
  deriving DecidableEq, Repr

/-- An output tile of the accumulator buffer (R79): rows of FP32 sums, each with its poison mark (R187). -/
abbrev AccTile := List (List (Word32 × Bool))

/-- A partition of a dense array (R65, R70, R79): the command that it runs, the next command whose first tile it has
preloaded, its active and preload sets, its output tiles A and B and whether B fills next, the ARRAY_CFG word that its
last command boundary took (R78), and the power class of the command that it runs and of the next (R76). -/
structure Part where
  cmd : Option Nat := none
  next : Option Nat := none
  active : Option StatTile := none
  preload : Option StatTile := none
  tileA : AccTile := []
  tileB : AccTile := []
  fillB : Bool := false
  word : Word64 := 0x3#64
  cls : Nat := 0
  nextCls : Nat := 0
  deriving DecidableEq, Repr

/-- A hardware thread (R136 to R142): the command whose share it runs (none: IDLE), the 32 general registers of its scalar
unit, its 16 vector registers of 1 KiB, and their poison marks (R187), one for each general register and for each FP32 of a
vector register. -/
structure Thread where
  cmd : Option Nat := none
  gpr : Vector Word64 32 := Vector.replicate 32 0#64
  gprPoison : BitVec 32 := 0#32
  vec : Vector (BitVec 8192) 16 := Vector.replicate 16 0#8192
  vecPoison : Vector (BitVec 256) 16 := Vector.replicate 16 0#256
  deriving DecidableEq, Repr

/-- A physical core: mode, marked failing (R489), the power class that the limiter reckons with and the one last reported
(R76, R469), its partition mode with the mode chosen and not yet taken (R72), its partitions (the first 1, 2 or 4 are in use),
its threads, its 16 feeder stream slots, each with the command that holds it (R181), and the cell rows and columns that its
repair map passes over (R77). -/
structure Core where
  mode : CoreMode := .active
  failing : Bool := false
  cls : Nat := 0
  said : Nat := 0
  split : PartMode := .full
  nextSplit : Option PartMode := none
  parts : Vector Part 4 := Vector.replicate 4 {}
  threads : Vector Thread 8 := Vector.replicate 8 {}
  feeds : Vector (Option Nat) 16 := Vector.replicate 16 none
  badRows : List Nat := []
  badCols : List Nat := []
  deriving DecidableEq, Repr

/-- A cluster: shadowed words, table slots, 28 physical cores (row * 7 + position), whether it is in service (R493). -/
structure Cluster where
  array : Rs
  acc : Rs
  scrum : Rs
  core : Rs
  feeder : Rs
  tables : Vector TableSlot 16 := Vector.replicate 16 {}
  cores : Vector Core 28
  out : Bool := false
  deriving DecidableEq, Repr

/-- Why a submission queue stopped (R379). -/
inductive StopReason where
  | none | fetch | context
  deriving DecidableEq, Repr

/-- A submission queue (R378, R379, R382): `waiting` holds fetched entries that wait for admission, oldest first. -/
structure Sq where
  base : Nat := 0
  size : Nat := 0
  cq : Nat := 0
  ctx : Nat := 0
  en : Bool := false
  head : Nat := 0
  tail : Nat := 0
  reason : StopReason := .none
  stopped : Bool := false
  waiting : List (List Byte) := []
  deriving DecidableEq, Repr

/-- A completion queue (R380, R381): `done` holds commands whose work has ended and whose completion is not yet written,
in the order in which they finished; the first `held` of them finished while the queue was disabled. -/
structure Cq where
  base : Nat := 0
  size : Nat := 0
  vector : Nat := 0
  en : Bool := false
  head : Nat := 0
  tail : Nat := 0
  wphase : Bool := true
  lost : Bool := false
  done : List Nat := []
  held : Nat := 0
  deriving DecidableEq, Repr

/-- A tensor descriptor (R164), with dimensions from NDIM upward at extent 1 and stride 0. -/
structure Desc where
  base : Nat := 0
  scalePtr : Nat := 0
  fmt : Fmt := .fp32
  ndim : Nat := 1
  space : Nat := 0
  fill : Nat := 0
  fillScale : Nat := 127
  ext : List Nat := []
  stride : List Nat := []
  deriving DecidableEq, Repr

/-- A resolved operand: its descriptor, its scale-plane descriptor, for core scratch the command whose tensor it names
(R156, R170), and the poisoned blocks of memory that its descriptors were read from (R187). -/
structure Operand where
  d : Desc
  scale : Option Desc := none
  scratch : Option Nat := none
  bad : List Nat := []
  deriving DecidableEq, Repr

/-- Where a command came from: a submission queue, or an entry of a sequencer with its step and phase (R229, R234). -/
inductive Src where
  | host (q : Nat)
  | seq (s entry : Nat) (step : Word32) (phase : Nat)
  deriving DecidableEq, Repr

/-- Which of its producer's destinations a tile in the cluster buffers is: the output, the transposed output, or a row
statistic (R98, R99). -/
inductive BufTileKind where
  | plain | turned | stat
  deriving DecidableEq, Repr

/-- A tensor that a dense command drained to the cluster buffers of its targets, each holding the rows of its bands (R88,
R156). -/
structure BufTile where
  ctx : Nat
  owner : Nat ⊕ Nat
  tag : Nat
  clusters : List Nat
  kind : BufTileKind
  d : Desc
  deriving DecidableEq, Repr

/-- A completion (R401, R402), but for what is added when it is written. -/
structure Compl where
  status : Nat := 0
  count : Nat := 0
  aux : Nat := 0
  oob : Bool := false
  poison : Bool := false
  unsorted : Bool := false
  absent : Bool := false
  poisonIn : Nat := 0
  poisonOut : Nat := 0
  cycles : Nat := 0
  deriving DecidableEq, Repr

/-- How far a command has gone: admitted and waiting, started, work ended with its completion. -/
inductive CmdSt where
  | waiting
  | running
  | done (c : Compl)
  deriving DecidableEq, Repr

/-- The words that a command took from its clusters when it started (R429), one set per target cluster. -/
structure Latched where
  cluster : Nat
  array : Word64
  acc : Word64
  scrum : Word64
  core : Word64
  feeder : Word64
  deriving DecidableEq, Repr

/-- The stage of a command that acts in several steps. `go`: its row has not acted yet. `begun`: its row has acted, and
packets, answers or an event end it. `await`: it waits for commands to complete, and gives a count (R387, R400). `dma`:
a step of its transfers over the Liust link. `domain`: it waits for a power domain (R477). `barrier`: it waits for its
barrier (R244, R346). -/
inductive Stage where
  | go
  | begun
  | await (ids : List Nat) (count : Nat)
  | dma (step : Nat)
  | domain (code want : Nat)
  | barrier
  deriving DecidableEq, Repr

/-- A command in flight (R393): its packet, header and PLEN parameter bytes, and, for a host command, the completion queue
in which it reserved an entry. A packet rejected at admission holds no place: `placed` is false.
`part` keeps what a command that acts in several steps has counted so far. `bias`: the bias vector that a dense command
read at its start (R102), by cluster, and `biasBad` the poisoned blocks of it. `needs`: the power domains of its memory
and of the way to it (R17, R476). `depBy`: the entry, step and status of the
dependency that failed first (R231). -/
structure Cmd where
  id : Nat
  src : Src
  ctx : Nat
  packet : List Byte
  st : CmdSt := .waiting
  deps : List Nat := []
  depFailed : Bool := false
  depLost : Bool := false
  depBy : Option (Nat × Word32 × Nat) := none
  seed : Word64 := 0#64
  seqNo : Option Nat := none
  ops : List (Nat × Operand) := []
  units : List Nat := []
  needs : List Nat := []
  held : List Byte := []
  latched : List Latched := []
  bias : List (Nat × List Elem) := []
  biasBad : List Nat := []
  stage : Stage := .go
  written : Bool := false
  cq : Nat := 0
  placed : Bool := true
  part : Compl := {}
  deriving DecidableEq, Repr

/-- An accumulation slot that is open (R91): context, number, target clusters, output extents (rows, columns), and the
queue or playbook that issues it. Elements in row order, FP32, each with its poison. -/
structure Slot where
  ctx : Nat
  num : Nat
  clusters : List Nat
  rows : Nat
  cols : Nat
  owner : Nat ⊕ Nat
  starter : Nat
  acc : List Word32
  poison : List Bool
  deriving DecidableEq, Repr

/-- A core-scratch tensor that awaits consumers (R170): its number, 8 times its producer's plus the place of the destination
among the producer's; the producer's source and tag (HOST_TAG, or entry
index), consumers that have not started, and consumers that have not completed. -/
structure Scratch where
  id : Nat
  ctx : Nat
  owner : Nat ⊕ Nat
  tag : Nat
  clusters : List Nat
  claims : Nat
  consumers : Nat
  bytes : Nat
  plane : Nat
  deriving DecidableEq, Repr

/-- Who waits for a DMA answer. -/
inductive DmaOwner where
  | fetch (q : Nat) (entries : Nat)
  | completion (id : Nat)
  | command (id part : Nat)
  | recovery (offset : Nat)
  deriving DecidableEq, Repr

/-- An outstanding DMA request (R367). -/
structure Dma where
  tag : Nat
  read : Bool
  addr : Nat
  len : Nat
  owner : DmaOwner
  deriving DecidableEq, Repr

/-- What the module has sent on the Liust link (R363). -/
inductive HostTx where
  | cfgResp (tag status : Nat) (len : Nat) (data : Word64)
  | hostResp (tag status : Nat) (data : List Byte) (poison : Word64)
  | dmaRd (tag addr len : Nat)
  | dmaWr (tag addr : Nat) (data : List Byte) (poison : Word64)
  | msgInt (vector : Nat)
  deriving DecidableEq, Repr

/-- The state of the Liust link (R372). -/
inductive LinkState where
  | down | training | up | retraining
  deriving DecidableEq, Repr

/-- The Liust link (R356 to R373): `data` keeps what a command or the boot ROM has read from the host so far. -/
structure Liust where
  state : LinkState := .down
  width : Nat := 0
  retrains : Nat := 0
  dbBad : Bool := false
  lasting : Bool := false
  linkDown : Bool := false
  cable : Bool := true
  dmas : List Dma := []
  nextTag : Nat := 0
  data : List (Nat × Nat × List Byte × Nat) := []
  deriving DecidableEq, Repr

/-- Sequencer states (R256). -/
inductive SeqSt where
  | idle | running | holding | held | stopping
  deriving DecidableEq, Repr

/-- A step whose window is open or waits to be recorded (R253, R254). `closed` is
true once its PB_STEP_END has been issued or the playbook has ended. -/
structure Window where
  step : Word32
  closed : Bool := false
  nf : Bool := false
  heldCycles : Nat := 0
  phaseCycles : Vector Nat 7 := Vector.replicate 7 0
  idleCycles : Nat := 0
  cycles : Nat := 0
  loss : Word32 := 0#32
  lossNf : Bool := false
  spike : Bool := false
  ewma : Word32 := 0#32
  scale : Word32 := 0#32
  noBall : Bool := false
  degraded : Bool := false
  members : Nat := 0
  verdict : Bool := false
  drafted : Nat := 0
  undrafted : Nat := 0
  poison : Bool := false
  relay : Bool := false
  heldBefore : Bool := false
  nfDense : Nat := 0
  nfVec : Nat := 0
  nfGrad : Nat := 0
  deriving DecidableEq, Repr

/-- An open loop of a playbook (R233): entry index of its PB_LOOP, COUNT, passes begun. -/
structure Loop where
  entry : Nat
  count : Nat
  passes : Nat
  deriving DecidableEq, Repr

/-- A playbook sequencer (R224 to R256). `starter` is its PLAYBOOK_START, `relayOf` that of the playbook that it fills (R241). -/
structure Seq where
  st : SeqSt := .idle
  starter : Nat := 0
  ctx : Nat := 0
  image : Nat := 0
  imageBytes : Nat := 0
  entries : Nat := 0
  entry : Nat := 0
  offset : Nat := 64
  step : Word32 := 0#32
  phase : Nat := 0
  loops : List Loop := []
  seed : Word64 := 0#64
  relay : Bool := false
  relaySeq : Nat := 0
  relayOf : Nat := 0
  inBase : Nat := 0
  inSlot : Nat := 0
  inSlots : Nat := 0
  resBase : Nat := 0
  resSlot : Nat := 0
  resSlots : Nat := 0
  feedHead : Word32 := 0#32
  feedTail : Word32 := 0#32
  resultHead : Word32 := 0#32
  resultTail : Word32 := 0#32
  postVector : Nat := 0
  verdictAddr : Nat := 0
  scale : Word32 := 0#32
  cleanRun : Word32 := 0#32
  issues : List (Nat × Nat) := []
  windows : List Window := []
  heldCycles : Nat := 0
  heldBefore : Bool := false
  stopAtBoundary : Bool := false
  holdAtBoundary : Bool := false
  failed : Option (Nat × Word32 × Nat) := none
  lost : List (Nat × Word32 × Nat) := []
  stopNow : Bool := false
  cancelled : Bool := false
  feedOverrun : Bool := false
  cfg : Rs
  ewma : Word32 := 0x7FC00000#32
  digest : BitVec 256 := 0#256
  phaseCyc : Vector Word64 9 := Vector.replicate 9 0#64
  relayDelayCyc : Word64 := 0#64
  records : List (Nat × List Byte) := []
  deriving DecidableEq, Repr

/-- A candidate of R277: FP32 score, module ID, token index, and whether a poisoned value entered its selection (R187). -/
structure Cand where
  score : Word32
  modId : Nat
  token : Nat
  bad : Bool := false
  deriving DecidableEq, Repr

/-- Parts of a draft list, copy or contribution that have arrived (R276): sender, expert, part number, last, bytes after
the draft header, packet header flags. -/
structure DraftPart where
  kind : Nat
  source : Nat
  expert : Nat
  part : Nat
  last : Bool
  empty : Bool
  nf : Bool
  psn : Bool
  rank : Nat
  bytes : List Byte
  poison : Nat := 0
  seq : Nat := 0
  deriving DecidableEq, Repr

/-- The descriptor of a draft table (R257). -/
structure DraftDesc where
  own : Nat := 0
  loan : Nat := 0
  stage : Nat := 0
  placePtr : Nat := 0
  expertBytes : Nat := 0
  loanSlots : Nat := 0
  stageSlots : Nat := 0
  window : Nat := 0
  group : Nat := 0
  capacity : Nat := 0
  experts : Nat := 0
  deriving DecidableEq, Repr

/-- A placement entry (R281): owner and holders (slot, module ID). -/
structure Placement where
  owner : Nat
  holders : List (Nat × Nat)
  deriving DecidableEq, Repr

/-- A fetch request held or served by this module (R273, R274): requester, expert, step; `fill`: it serves a transfer window
and belongs to no generation (R284). -/
structure FetchReq where
  source : Nat
  expert : Nat
  step : Word32
  gen : Nat
  fill : Bool := false
  deriving DecidableEq, Repr

/-- What a copy is asked for (R273, R274, R284): a run of this module, the refill of a loan slot, or the filling of a new loan
slot by a transfer window. -/
inductive AskUse where
  | run
  | refill (slot : Nat)
  | window (slot : Nat)
  deriving DecidableEq, Repr

/-- A working copy that this module has asked for: expert, step, source and use. -/
structure Ask where
  expert : Nat
  step : Word32
  source : Nat
  use : AskUse
  deriving DecidableEq, Repr

/-- A draft table (R257, R275): descriptor and placement, the generation with what it is bound to, the packets taken and
held, the local draft, fetched copies with their poison, fetch demands, loan copies with the step of their fill (R274), requests
that this module serves, copies that it has asked for, and the placement that a transfer forms. `cl`
is the cluster of the DRAFT_PROPOSE, `x` the tokens that DRAFT_RUN_FWD read, `reduced` the experts whose gradients are formed.
`genLost`: modules absent since the generation started or lost during it, which stay so for it (R260, R266, R274); `retired`:
the current generation was retired and did not complete (R280). -/
structure Draft where
  bound : Bool := false
  ctx : Nat := 0
  desc : DraftDesc := {}
  place : List Placement := []
  nextPlace : Option (List Placement) := none
  gen : Nat := 0
  genOpen : Bool := false
  genPlace : List Placement := []
  genStep : Word32 := 0#32
  genSeq : Option Nat := none
  genMembers : List Nat := []
  genLost : List Nat := []
  retired : Bool := false
  cl : Nat := 0
  scores : Option Operand := none
  offs : Option Operand := none
  entry : Option Operand := none
  x : Option Operand := none
  tokens : Nat := 0
  drafted : List (List Nat) := []
  listDone : Bool := false
  parts : List DraftPart := []
  nextParts : List DraftPart := []
  copies : List (Nat × List Byte × Nat) := []
  demands : List Nat := []
  loanSteps : List (Nat × Nat × Word32) := []
  fetches : List FetchReq := []
  asked : List Ask := []
  reduced : List Nat := []
  newPlace : Option (List Placement) := none
  deriving DecidableEq, Repr

/-- States of a fabric port (R330). -/
inductive PortState where
  | down | training | up | retraining | disabled
  deriving DecidableEq, Repr

/-- A fabric port (R287 to R294, R330). `clash`: its neighbour claims the ID of another present member (R306). `shown`: its
neighbour has shown itself a member, by HELLO, by a HEARTBEAT of an epoch, or by its link in the roster. -/
structure Port where
  state : PortState := .down
  width : Nat := 0
  retrains : Nat := 0
  lasting : Bool := false
  nbrId : Nat := 0
  nbrPort : Nat := 0
  nbrCaptain : Nat := 0
  nbrLevel : Nat := 0
  nbrMember : Bool := false
  nbrEpoch : Nat := 0
  heard : Bool := false
  beat : Bool := false
  missed : Nat := 0
  cable : Bool := true
  clash : Bool := false
  shown : Bool := false
  deriving DecidableEq, Repr

/-- A roster member entry (R310). -/
structure Member where
  id : Nat
  level : Nat
  absent : Bool
  deriving DecidableEq, Repr

/-- A roster link entry (R310). -/
structure Link where
  lo : Nat
  loPort : Nat
  hi : Nat
  hiPort : Nat
  deriving DecidableEq, Repr

/-- A block-owner entry (R334). -/
structure BlockOwner where
  valid : Bool := false
  kept : Bool := false
  owner : Nat := 0
  keeper : Nat := 0
  deriving DecidableEq, Repr

/-- A tensor section of the roster (R310). -/
structure TensorSec where
  group : Nat
  tensor : Nat
  blocks : List BlockOwner
  deriving DecidableEq, Repr

/-- A roster (R306, R310). -/
structure Roster where
  epoch : Nat := 0
  members : List Member := []
  links : List Link := []
  tensors : List TensorSec := []
  deriving DecidableEq, Repr

/-- Fabric membership states (R329). -/
inductive FabState where
  | off | discovering | member | refused | hold
  deriving DecidableEq, Repr

/-- A pass-table entry (R312). -/
structure PassEntry where
  ports : BitVec 48 := 0#48
  down : BitVec 48 := 0#48
  hops : Nat := 0
  valid : Bool := false
  deriving DecidableEq, Repr

/-- A barrier result word (R325). -/
structure Barrier where
  or : Bool
  members : Nat
  absent : Nat
  deriving DecidableEq, Repr

/-- A fabric group defined on this module (R317): members, next sequence number, members absent until readmitted (R318),
and the latest barrier completed here: its sequence number, this module's flag and the result (R326). -/
structure Group where
  num : Nat
  members : List Nat
  seq : Nat
  absent : List Nat := []
  held : List (Nat × Bool × Barrier) := []
  deriving DecidableEq, Repr

/-- What a collective that has started sends: to a rank, one packet of a shard or slot. -/
structure Send where
  rank : Nat
  shard : Nat
  packet : Packet
  sent : Bool := false
  acked : Bool := false
  tag : Nat := 0
  deriving DecidableEq, Repr

/-- A contribution that has landed whole or in part (R320, R322): rank, byte offset within the target, length, and whether it
is header-only. -/
structure Contribution where
  rank : Nat
  offset : Nat
  len : Nat
  empty : Bool
  deriving DecidableEq, Repr

/-- A collective or barrier that runs on this module (R319 to R326): the command, the kind (0 all-reduce, 1 reduce-scatter,
2 all-gather, 3 all-to-all, 4 broadcast, 5 barrier), and the members of its group. `ready`: ranks whose COLL_READY has
arrived. `formed`: shards whose reduction is formed here. `gathered`: byte ranges of the target that have arrived.
`flags`: flags and held results of a barrier by rank. `absent`: ranks absent since the start. -/
structure Coll where
  id : Nat
  kind : Nat
  group : Nat
  seq : Nat
  members : List Nat
  order : Bool := false
  mean : Bool := false
  root : Nat := 0
  src : Option Operand := none
  dst : Option Operand := none
  staging : Option Operand := none
  flag : Bool := false
  empty : Bool := false
  ready : List Nat := []
  sends : List Send := []
  contribs : List Contribution := []
  formed : List Nat := []
  gathered : List (Nat × Nat) := []
  flags : List (Nat × Bool × Option Barrier) := []
  absent : List Nat := []
  deriving DecidableEq, Repr

/-- A remote request of a command that awaits its response (R298, R304): for a read, the local address of its data and the
place of its first block in the row. -/
structure Remote where
  tag : Nat
  id : Nat
  dst : Nat
  addr : Nat
  len : Nat
  write : Bool
  first : Nat := 0
  deriving DecidableEq, Repr

/-- A packet that waits in the module: the port that it came in on, none for one of this module's own, and the time since when
it waits. `held`: a hold keeps it from entering the fabric (R308). -/
structure Waiting where
  packet : Packet
  inPort : Option Nat := none
  since : Nat := 0
  held : Bool := false
  deriving DecidableEq, Repr

/-- A management message being received: type, origin, sequence and its parts (R309). -/
structure MgmtIn where
  type : PktType
  origin : Nat
  seq : Nat
  parts : List (Nat × Bool × List Byte)
  deriving DecidableEq, Repr

/-- What the module has sent on the fabric: a packet or a management packet on a port. -/
inductive FabTx where
  | packet (port : Nat) (p : Packet)
  | mgmt (port : Nat) (type : PktType) (m : Mgmt)
  deriving DecidableEq, Repr

/-- The captain's progress through a reorientation (R308). -/
inductive Reorient where
  | none
  | holding (acks : List Nat)
  | waiting
  | installing (acks : List Nat)
  deriving DecidableEq, Repr

/-- The fabric (R287 to R331). `backlog`: pieces of FAB_PUT, FAB_GET and KEEP_RESTORE that wait for a free tag (command, row or
local address, first block or remote address, blocks). `queued`: packets that wait for a port or for the end of a hold.
`turns`: by output port and virtual channel, the input port that was last served among equals (R314), 48 for this module.
`merging`: the captain has heard of another fabric whose members join this one (R306). -/
structure Fabric where
  en : Bool := false
  moduleId : Nat := 0
  level : Nat := 0
  cfg : Rs
  state : FabState := .off
  idConflict : Bool := false
  reoriented : Bool := false
  captain : Nat := 0
  isCaptain : Bool := false
  ports : Vector Port 48 := Vector.replicate 48 {}
  roster : Roster := {}
  highest : Nat := 0
  request : Nat := 0
  forwarded : List (PktType × Nat × Nat × Nat) := []
  incoming : List MgmtIn := []
  leaving : Bool := false
  reorient : Reorient := .none
  next : Option Roster := none
  inForce : List (Nat × PassEntry) := []
  shadow : List (Nat × PassEntry) := []
  groups : List Group := []
  colls : List Coll := []
  early : List Packet := []
  remotes : List Remote := []
  nextTag : Nat := 0
  backlog : List (Nat × Nat × Nat × Nat) := []
  queued : List Waiting := []
  turns : List ((Nat × Nat) × Nat) := []
  merging : Bool := false
  cut : List (Nat × Nat) := []
  resend : List (Nat × PktType × Mgmt) := []
  deriving DecidableEq, Repr

/-- A piece registered on this module (R332). -/
structure Piece where
  group : Nat
  tensor : Nat
  mirror : Bool
  offset : Nat
  d : Desc
  len : Nat
  deriving DecidableEq, Repr

/-- Keeper state (R332 to R338, R355): the pairing this module has asked for with its FORCE, and the pair that stands;
`forced`: it has shared a feed ID since it stands (R336, R376). -/
structure Keeper where
  pieces : List Piece := []
  want : Option (Nat × Bool) := none
  partner : Option Nat := none
  forced : Bool := false
  unpair : Bool := false
  feedId : BitVec 16 := 0#16
  partnerFeed : Nat := 0
  diverged : Bool := false
  sameFeed : Bool := false
  standing : Bool := false
  deriving DecidableEq, Repr

/-- Save state (R339 to R346, R353, R354). `holder`: the save whose ranges are held, `unsent` those of them that it
has not sent (R220), `kept` the partner when it started (R340); `active`: the save that streams (R354). -/
structure Save where
  failFit : Word32 := 0#32
  cDefault : Nat := 60
  lastStep : Word32 := 0#32
  lastMs : Nat := 0
  anySave : Bool := false
  t : Nat := 1000
  since : Nat := 0
  due : Bool := false
  active : Option Nat := none
  unsent : List (Nat × Nat) := []
  startNanos : Nat := 0
  holder : Option Nat := none
  kept : Option Nat := none
  rose : Bool := false
  boundaries : List Nat := []
  groupSize : Nat := 1
  deriving DecidableEq, Repr

/-- Counts that the scout keeps by minute or by step (R344), newest first. -/
structure Bucket where
  minute : Nat
  ueT : Nat := 0
  ueL : Nat := 0
  ce : Nat := 0
  flit : Nat := 0
  retry : Nat := 0
  deriving DecidableEq, Repr

/-- The scout (R344, R355): index, peak, buckets of the last hour, spikes and no-balls of the last 64 steps, the counts not
yet taken in, the windows of 100 ms that have ended (R441), and the number that had ended when each condition last held. -/
structure Scout where
  index : Nat := 0
  peak : Nat := 0
  buckets : List Bucket := []
  steps : List (Nat × Nat) := []
  throttledAt : Option Nat := none
  marginAt : Option Nat := none
  pend : Bucket := { minute := 0 }
  sinceMs : Nat := 0
  windows : Nat := 0
  deriving DecidableEq, Repr

/-- The module counters of R433, in the order of their offsets, and those of R509 and R483. -/
inductive Ctr where
  | oobCount | gatherCoalesced | sortFallback | missedNeurons | feedDiscard
  | nonfiniteDense | nonfiniteVec | nonfiniteGrad | lossSpike | noBallSteps
  | drafted | undrafted | staleReturn | loanRefill | expertFetch | ssuCoalesced
  | fabFlitRetry | fabFlitLasting | fabRetrain | fabDiscardAge | fabDiscardBad | fabDiscardRoute | fabDiscardSeq
  | fabRemoteReject | fabTimeout
  | liustFlitRetry | liustFlitLasting | liustRetrain | liustBad | liustHostReject | liustDmaTimeout
  | residueRetry | residueLasting
  | sramCe | sramUeTransient | sramUeLasting | dlinkRetry | dlinkLasting | coresBenched | pwrClamps
  deriving DecidableEq, Repr

/-- The place of a counter in the counter file. -/
def Ctr.idx : Ctr → Nat
  | .oobCount => 0 | .gatherCoalesced => 1 | .sortFallback => 2 | .missedNeurons => 3 | .feedDiscard => 4
  | .nonfiniteDense => 5 | .nonfiniteVec => 6 | .nonfiniteGrad => 7 | .lossSpike => 8 | .noBallSteps => 9
  | .drafted => 10 | .undrafted => 11 | .staleReturn => 12 | .loanRefill => 13 | .expertFetch => 14
  | .ssuCoalesced => 15 | .fabFlitRetry => 16 | .fabFlitLasting => 17 | .fabRetrain => 18 | .fabDiscardAge => 19
  | .fabDiscardBad => 20 | .fabDiscardRoute => 21 | .fabDiscardSeq => 22 | .fabRemoteReject => 23 | .fabTimeout => 24
  | .liustFlitRetry => 25 | .liustFlitLasting => 26 | .liustRetrain => 27 | .liustBad => 28 | .liustHostReject => 29
  | .liustDmaTimeout => 30 | .residueRetry => 31 | .residueLasting => 32
  | .sramCe => 33 | .sramUeTransient => 34 | .sramUeLasting => 35 | .dlinkRetry => 36 | .dlinkLasting => 37
  | .coresBenched => 38 | .pwrClamps => 39

/-- An entry of the memory error log (R435): tier (true: DDR5), unit, block address. -/
structure MemErr where
  ddr : Bool
  unit : Nat
  addr : Nat
  deriving DecidableEq, Repr

/-- A DDR5 channel as trained (R194): capacity, TYPE, RATE, and whether its DRAM devices are x8 (R200). -/
structure DdrCh where
  gib : Nat := 0
  type : Nat := 0
  rate : Nat := 0
  x8 : Bool := false
  deriving DecidableEq, Repr

/-- One write of a 64-byte block (R173): the bits that change, their values, and whether a written element is poisoned.
`carry` marks a bitwise copy, which keeps the bytes of a poisoned block (R188); `merge` a write whose value comes from the
block's old contents, which keeps a mark that stands even where it covers the block whole (R173, R202, R208). `nf` counts
the elements of it that are non-finite or poisoned, and `vec` says that NONFINITE_VEC counts them where the command's unit does
(R146, R221). -/
structure BlockWr where
  loc : Nat
  mask : Nat
  val : Nat
  poison : Bool := false
  carry : Bool := false
  merge : Bool := false
  nf : Nat := 0
  vec : Bool := true
  deriving DecidableEq, Repr

/-- Memory-side registers (R193 to R204, R212, R435) and their counters by stack and channel. `pendingUe` lists the blocks
whose retry is pending, and `held` the writes to them that are held meanwhile, oldest first (R202). `uncured` lists the
blocks in which a correctable error stays, because no write-back or write has followed (R201). `ddrUndef`: channels whose error
reports are undefined until the next module reset (R533). -/
structure MemSide where
  place : BitVec 256 := 0#256
  ddr : Vector DdrCh 12 := Vector.replicate 12 {}
  sockets : Vector (Option Dimm) 12 := Vector.replicate 12 none
  hbmLasting : BitVec 16 := 0#16
  ddrLasting : BitVec 12 := 0#12
  cfg : Rs
  log : Vector (Option MemErr) 16 := Vector.replicate 16 none
  logNext : Nat := 0
  hbmCe : Vector Word64 16 := Vector.replicate 16 0#64
  hbmUeT : Vector Word64 16 := Vector.replicate 16 0#64
  hbmUeL : Vector Word64 16 := Vector.replicate 16 0#64
  ddrCe : Vector Word64 12 := Vector.replicate 12 0#64
  ddrUeT : Vector Word64 12 := Vector.replicate 12 0#64
  ddrUeL : Vector Word64 12 := Vector.replicate 12 0#64
  pendingUe : List Nat := []
  held : List BlockWr := []
  uncured : List Nat := []
  ddrUndef : BitVec 12 := 0#12
  deriving DecidableEq, Repr

/-- Domain states (R483). -/
inductive DomSt where
  | off | nap | idle | active | entering | waking | failed
  deriving DecidableEq, Repr

/-- A power domain (R474 to R476): the host's, the Referee's and each sequencer's vote, and what it saved (R479). -/
structure Domain where
  st : DomSt := .off
  host : Nat := 0
  referee : Nat := 0
  pb : Vector Nat 4 := Vector.replicate 4 0
  inService : Bool := false
  deriving DecidableEq, Repr

/-- Causes of the last loss of power or clock (R483). -/
inductive OffCause where
  | none | powerFail | thermalTrip | regulator | clockLoss
  deriving DecidableEq, Repr

/-- Power and thermal state (R462 to R484). Powers are in milliwatts. `vinLowMicros`,
`vinHighMicros` and `vinAoMicros`: for how long the input has been below 60 V, above 84 V and below 40 V (R462). `shareSum`
and `shareTime`: over the cycles of the interval so far, the sum of each cycle's ACLK share in 1/16 mW times its length, and their
length (R468). `refGone`: the reference or the PLL's lock has been
lost, and the module has not restarted since (R26). -/
structure Power where
  ao : Bool := true
  on : Bool := true
  inReset : Bool := false
  tripHold : Bool := false
  seated : Bool := true
  vin : Nat := 72000
  vinOkMicros : Nat := 100000
  vinLowMicros : Nat := 0
  vinHighMicros : Nat := 0
  vinAoMicros : Nat := 0
  vinMargin : Bool := false
  profile : Nat := 0
  straps : BitVec 2 := 3#2
  slot : Option (BitVec 4) := some 15#4
  cfg : Rs
  coolBad : Bool := false
  wakeFail : Bool := false
  capUnmet : Bool := false
  stRegMargin : Bool := false
  stVinMargin : Bool := false
  fastClamp : Bool := false
  throttled : Bool := false
  capLimited : Bool := false
  lastOff : OffCause := .none
  lastOffDomain : Nat := 0
  limStep : Nat := 16
  thermStep : Nat := 16
  clampStep : Nat := 16
  coolIntervals : Nat := 0
  hist : List Nat := []
  pavg : Nat := 0
  pm : Nat := 0
  ea : Nat := 0
  shareSum : Nat := 0
  shareTime : Nat := 0
  tHot : Nat := 0
  limitedBy : Nat := 0
  domains : List (Nat × Domain) := []
  clkLost : Bool := false
  refGone : Bool := false
  deriving DecidableEq, Repr

/-- Life-cycle states (R458). -/
inductive LifeCycle where
  | blank | manufacture | field | analysis | ended
  deriving DecidableEq, Repr

/-- Referee states (R441). -/
inductive RefState where
  | rom | recovery | running | ended
  deriving DecidableEq, Repr

/-- A repair entry (R503), as its 128 bits. -/
abbrev Repair := BitVec 128

/-- One copy of the flash repair record (R505): valid digest, sequence number, entries. -/
structure RecordCopy where
  valid : Bool := false
  seq : Nat := 0
  entries : List Repair := []
  deriving DecidableEq, Repr

/-- The identity certificate that the module is delivered with: header, derived public key and signature (R453, R454,
R543). -/
def deliveredCert : List Byte :=
  natLe 64 (0x4A434552 + at' 1 32 + at' 0x0872 48 + at' Config.serial.toNat 64 + at' 1 128)
    ++ bytesAt (Config.mldsaPublic Config.identitySeed) 0 1312 ++ bytesAt Config.deliveredCertSignature 0 2420

/-- The flash (R442): the image manifest and body, the certificate, and two copies of the repair record. -/
structure Flash where
  manifest : List Byte := Config.deliveredManifest
  body : List Byte := Config.deliveredBody
  cert : List Byte := deliveredCert
  recordA : RecordCopy := { valid := true, seq := 1 }
  recordB : RecordCopy := {}
  deriving DecidableEq, Repr

/-- The fuses (R452, R458, R506): blown once. -/
structure Fuses where
  life : LifeCycle := .field
  svn : Nat := min Config.deliveredFuseSvn.toNat (fieldAt Config.deliveredManifest 8 1)
  seed : Option (BitVec 256) := some Config.identitySeed
  repairs : List Repair := Config.deliveredRepairFuses
  free : Nat := 256 - Config.deliveredRepairFuses.length - Config.deliveredSpoiled
  fieldUsed : Nat := 0
  deriving DecidableEq, Repr

/-- A binding of the peer key table (R455). -/
structure PeerKey where
  modId : Nat
  key : List Byte
  deriving DecidableEq, Repr

/-- The Referee, firmware and security (R438 to R461). `life` is the life-cycle state in force, which the fuses replace at
a module reset (R459). -/
structure Referee where
  state : RefState := .rom
  busy : Bool := false
  mult : Nat := 1
  util : Nat := 0
  life : LifeCycle := .field
  compat : Nat := 0
  imageSvn : Nat := 0
  imageDigest : BitVec 256 := 0#256
  nonce : BitVec 256 := 0#256
  draws : Nat := 0
  signs : Nat := 0
  recAddr : Word64 := 0#64
  recBytes : Word32 := 0#32
  recState : Nat := 0
  recManifest : List Byte := []
  recBody : List Byte := []
  peerId : Nat := 0
  peerAddr : Nat := 0
  peers : List PeerKey := []
  peerResult : Nat := 0
  flash : Flash := {}
  fuses : Fuses := {}
  dugout : List Repair := []
  deriving DecidableEq, Repr

/-- The Errors block (R509). -/
structure Errors where
  recordFull : Bool := false
  recordBad : Bool := false
  clusterOut : Bool := false
  dlinkLasting : Bool := false
  sramLasting : Bool := false
  residueLasting : Bool := false
  coreBenched : Bool := false
  postOut : BitVec 8 := 0#8
  postBenched : Nat := 0
  postDone : BitVec 8 := 0#8
  postRunning : Bool := false
  dlinkDown : List (Nat × Nat) := []
  deriving DecidableEq, Repr

/-- CFG_LATE_STATUS (R429). -/
structure CfgLate where
  power : Bool := false
  rng : Bool := false
  seq : BitVec 4 := 0#4
  cluster : BitVec 8 := 0#8
  deriving DecidableEq, Repr

/-- What the management port has answered (R374, R375): reads end with the packet error check byte. -/
inductive SmbTx where
  | nack
  | byte (b pec : Byte)
  | word (reading : Int) (w : BitVec 16) (pec : Byte)
  | block (bytes : List Byte) (pec : Byte)
  | ack
  deriving DecidableEq, Repr

/-- The machine. `pending` holds the commands that wait, first in, first out. `free` is the counter that the free values
are applied to. `wall` is wall-clock time since reset as the Referee counts it (R345), in units of 1/720720 ns, which every
length of an ACLK cycle under R466 is a whole number of. -/
structure State where
  pending : List Instr
  free : Nat
  mem : Mem
  contexts : Vector Context 16
  clusters : Vector Cluster 8
  sqs : Vector Sq 64
  cqs : Vector Cq 64
  cmds : List Cmd
  nextId : Nat
  turn : Nat
  seqs : Vector Seq 4
  slots : List Slot
  tiles : List BufTile := []
  scratch : List Scratch
  drafts : Vector Draft 64
  fabric : Fabric
  keeper : Keeper
  save : Save
  scout : Scout
  liust : Liust
  ctrs : Vector Word64 40
  memside : MemSide
  power : Power
  referee : Referee
  errors : Errors
  cfgLate : CfgLate
  rngSeed : Rs
  cycles : Word64
  wall : Nat
  hostTx : List HostTx
  fabTx : List FabTx
  smbTx : List SmbTx
  deriving DecidableEq, Repr

/-- Why a command stops with a fault. -/
inductive Fault where
  /-- An SSU, retry or scrub is asked for a block outside HBM4 and the present DDR5 ranges (R195). Raised by
  SSU_OPERATION, SCATTER_ADD_BATCH, MEM_READ_RETRY and SCRUB_READ. Safe: no such block exists. -/
  | absentAddress
  deriving DecidableEq, Repr

/-- Why a command is refused. -/
inductive Refusal where
  /-- The command has no meaning yet. Raised by arms of `exec` alone. Safe. -/
  | notModelled (mnemonic : String)
  deriving DecidableEq, Repr

/-- A shadowed word at its reset value. -/
def Rs.init (w : Word64) : Rs := { shadow := w, force := w }

/-- A cluster at reset (R78, R96, R120, R162, R186, R436): 24 active cores and a bench core in each row, the last. -/
def Cluster.reset : Cluster :=
  { array := Rs.init 0x3#64
    acc := Rs.init 0x8#64
    scrum := Rs.init 0x100046231200#64
    core := Rs.init 0x20#64
    feeder := Rs.init 0x840#64
    cores := Vector.ofFn (fun i : Fin 28 => { mode := if i.val % 7 == 6 then .bench else .active }) }

/-- The cell rows (KIND 1) or columns (KIND 2) that repair entries retire in a core, rising (R77, R503). -/
def retiredBy (es : List Repair) (cluster core kind : Nat) : List Nat :=
  (es.filter (fun e => bits e.toNat 3 0 == kind && bits e.toNat 15 13 == cluster
    && 7 * bits e.toNat 12 11 + bits e.toNat 10 8 == core)).foldl (fun l e => insertNat (bits e.toNat 31 24) l) []

/-- A cluster at reset, with its repair maps loaded from the fuses and overlaid from the dugout (R77, R505). -/
def Cluster.resetWith (es : List Repair) (n : Nat) : Cluster :=
  { Cluster.reset with
    cores := Vector.ofFn (fun i : Fin 28 =>
      { mode := if i.val % 7 == 6 then .bench else .active
        badRows := retiredBy es n i.val 1, badCols := retiredBy es n i.val 2 }) }

/-- A sequencer at reset (R251, R252). -/
def Seq.reset : Seq := { cfg := Rs.init 0x3F00000020000006#64 }

/-- The fabric at reset (R328). -/
def Fabric.reset : Fabric := { cfg := Rs.init 0x64424030A003E8#64 }

/-- The domain codes of R474 but AO. -/
def domainCodes : List Nat :=
  (List.range 8) ++ (List.range 16).map (0x10 + ·) ++ (List.range 12).map (0x20 + ·)
    ++ (List.range 12).map (0x30 + ·) ++ [0x40, 0x50, 0x51, 0x52, 0x53, 0x54, 0x55]

/-- Every domain OFF, but H0L and HL, which wake before the boot (R482) and keep the Referee's vote (R476). -/
def Power.domainsReset : List (Nat × Domain) :=
  domainCodes.map (fun c =>
    if c == 0x40 || c == 0x50 then (c, { st := .active, referee := 3, inService := true })
    else (c, {}))

/-- The module right after reset (R11): every field at the value of its Reset column. Where the manual gives none the value
is named in log entries 2, 4 and 5. -/
def State.reset : State :=
  { pending := []
    free := 0
    mem := {}
    contexts := Vector.ofFn (fun i : Fin 16 => { live := i.val == 0 })
    clusters := Vector.ofFn (fun n : Fin 8 => Cluster.resetWith Config.deliveredRepairFuses n.val)
    sqs := Vector.replicate 64 {}
    cqs := Vector.replicate 64 {}
    cmds := []
    nextId := 0
    turn := 67
    seqs := Vector.replicate 4 Seq.reset
    slots := []
    scratch := []
    drafts := Vector.replicate 64 {}
    fabric := Fabric.reset
    keeper := {}
    save := {}
    scout := {}
    liust := {}
    ctrs := Vector.replicate 40 0#64
    memside := { cfg := Rs.init 0x180003#64 }
    power := { cfg := Rs.init 0xE10107D#64, domains := Power.domainsReset }
    referee := { nonce := Config.trng 0, draws := 1 }
    errors := {}
    cfgLate := {}
    rngSeed := Rs.init 0#64
    cycles := 0#64
    wall := 0
    hostTx := []
    fabTx := []
    smbTx := [] }

end Sys2Proof.Machine
end

