-- ==== Sys2Proof/Machine/Flags.lean ====
section
/-! DEFINITION. Status codes (R421), header flags (R389), and the completion's bytes (R401, R402). -/

namespace Sys2Proof.Machine

namespace Status
def ok : Nat := 0x000
def rejReserved : Nat := 0x101
def rejOpcode : Nat := 0x102
def rejPriv : Nat := 0x103
def rejContext : Nat := 0x104
def rejTarget : Nat := 0x105
def rejPlen : Nat := 0x106
def rejDep : Nat := 0x107
def rejCancelled : Nat := 0x108
def rejFormat : Nat := 0x109
def rejShape : Nat := 0x10A
def rejAlign : Nat := 0x10B
def rejLayout : Nat := 0x10C
def rejRegion : Nat := 0x10D
def rejOverlap : Nat := 0x10E
def rejScratch : Nat := 0x10F
def rejSlot : Nat := 0x110
def rejSlotSpace : Nat := 0x111
def rejTable : Nat := 0x112
def rejGroup : Nat := 0x113
def rejDraft : Nat := 0x114
def rejPlaybook : Nat := 0x115
def rejPair : Nat := 0x116
def rejPairFeed : Nat := 0x117
def rejLifecycle : Nat := 0x118
def rejAuth : Nat := 0x119
def fltCancelled : Nat := 0x201
def fltPoison : Nat := 0x202
def fltHw : Nat := 0x203
def fltVerdict : Nat := 0x204
def fltPlaybook : Nat := 0x205
def fltRemote : Nat := 0x206
def fltRemoteTimeout : Nat := 0x207
def fltCollTimeout : Nat := 0x208
def fltMemberLost : Nat := 0x209
def fltKeepDiverged : Nat := 0x20A
def fltSaveLink : Nat := 0x20B
def fltSaveSignature : Nat := 0x20C
def fltSaveDigest : Nat := 0x20D
def fltHostLink : Nat := 0x20E
def fltHostDma : Nat := 0x20F

/-- A REJ_ or FLT_ status (R395). -/
def failed (st : Nat) : Bool := 0x100 ≤ st

/-- A REJ_ status. -/
def isRej (st : Nat) : Bool := 0x100 ≤ st && st < 0x200

/-- An FLT_ status. -/
def isFlt (st : Nat) : Bool := 0x200 ≤ st
end Status

/-! Header fields (R388, R389). -/

namespace Cmd
def opcode (c : Cmd) : Nat := fieldAt c.packet 0 2
def flags (c : Cmd) : Nat := fieldAt c.packet 2 2
def hostTag (c : Cmd) : Nat := fieldAt c.packet 4 4
def word1 (c : Cmd) : Nat := fieldAt c.packet 8 8
def target (c : Cmd) : Nat := bits c.word1 15 12
def plen (c : Cmd) : Nat := bits c.word1 24 16
def depCount (c : Cmd) : Nat := bits c.word1 34 32
def poisonLimit (c : Cmd) : Nat := bits c.word1 63 48
def irq (c : Cmd) : Bool := bit c.flags 0
def fence (c : Cmd) : Bool := bit c.flags 1
def depAny (c : Cmd) : Bool := bit c.flags 2
def grad (c : Cmd) : Bool := bit c.flags 3 || c.opcode == 0x704
def slotDrain (c : Cmd) : Bool := bit c.flags 4
/-- The parameter bytes. -/
def params (c : Cmd) : List Byte := c.packet.drop 64
/-- A parameter of n bytes at an offset; 0 at or beyond PLEN (R391). -/
def param (c : Cmd) (off n : Nat) : Nat := fieldAt c.params off n
/-- A resolved descriptor operand. -/
def op? (c : Cmd) (off : Nat) : Option Operand := (c.ops.find? (fun p => p.1 == off)).map (·.2)
/-- Was the command submitted by this queue? -/
def ofQueue (c : Cmd) (q : Nat) : Bool :=
  match c.src with
  | .host n => n == q
  | .seq _ _ _ _ => false
/-- Was the command issued by this sequencer? -/
def ofSeq (c : Cmd) (s : Nat) : Bool :=
  match c.src with
  | .host _ => false
  | .seq n _ _ _ => n == s
/-- The submission queue or playbook as a key of slots (R91). -/
def owner (c : Cmd) : Nat ⊕ Nat :=
  match c.src with
  | .host q => .inl q
  | .seq n _ _ _ => .inr n
def isHost (c : Cmd) : Bool :=
  match c.src with
  | .host _ => true
  | .seq _ _ _ _ => false
/-- The phase of a playbook command (R234). -/
def phase? (c : Cmd) : Option Nat :=
  match c.src with
  | .host _ => none
  | .seq _ _ _ p => some p
/-- The step of a playbook command. -/
def step? (c : Cmd) : Option Word32 :=
  match c.src with
  | .host _ => none
  | .seq _ _ n _ => some n
def isRunning (c : Cmd) : Bool :=
  match c.st with
  | .running => true
  | _ => false
def isWaiting (c : Cmd) : Bool :=
  match c.st with
  | .waiting => true
  | _ => false
def isDone (c : Cmd) : Bool :=
  match c.st with
  | .done _ => true
  | _ => false
/-- Two commands of one queue or playbook. -/
def sameSource (a b : Cmd) : Bool := a.owner == b.owner
end Cmd

/-- Clusters that a TARGET names (R390). -/
def targetClusters (t : Nat) : List Nat :=
  if t < 8 then [t]
  else if t < 12 then [2 * (t - 8), 2 * (t - 8) + 1]
  else if t == 15 then List.range 8
  else []

/-- The 32 bytes of a completion (R401). -/
def complBytes (tag : Nat) (c : Compl) (phase : Bool) (queue head : Nat) : List Byte :=
  let okBit := fun (b : Bool) (n : Nat) => if c.status == Status.ok then flagAt b n else 0
  natLe 32 (tag % 2 ^ 32 + at' (c.status % 4096) 32 + okBit c.oob 44 + okBit c.poison 45 + okBit c.unsorted 46
    + okBit c.absent 47 + flagAt phase 48 + at' (queue % 64) 49 + at' (head % 4096) 56 + at' (c.count % 2 ^ 32) 72
    + at' (c.aux % 2 ^ 32) 104 + at' (satTo 24 c.poisonIn) 136 + at' (satTo 24 c.poisonOut) 160
    + at' (c.cycles % 2 ^ 48) 208)

/-- A REJ_ completion: COUNT 0 and the packet offset of the failed field, FFFFh for none (R402). -/
def rejCompl (st : Nat) (aux : Nat := 0xFFFF) : Compl := { status := st, aux := aux }

/-- A completion with a status alone. -/
def plainCompl (st : Nat) : Compl := { status := st }

end Sys2Proof.Machine
end

