-- ==== Sys2Proof/Machine/Ops.lean ====
section
/-! DEFINITION. Named operations over memory, registers, queues and commands in flight. Every family of commands acts
through these. -/

namespace Sys2Proof.Machine

/-! ## Memory -/

/-- Insertion of a byte into the canonical list; 00h removes the entry. -/
def insertCell (a : Nat) (b : Byte) : List Host.Cell → List Host.Cell
  | [] => if b == 0#8 then [] else [(a, b)]
  | (x, c) :: r =>
    if x < a then (x, c) :: insertCell a b r
    else if x == a then (if b == 0#8 then r else (a, b) :: r)
    else (if b == 0#8 then (x, c) :: r else (a, b) :: (x, c) :: r)

/-- What a location holds in the list; 00h where none is listed (log entry 2). -/
def lookupCell (a : Nat) : List Host.Cell → Byte
  | [] => 0#8
  | (x, c) :: r => if x == a then c else lookupCell a r

/-- The canonical form: locations strictly rising, none listed with 00h, poisoned blocks strictly rising. -/
abbrev Mem.wf (m : Mem) : Prop :=
  m.cells.Pairwise (fun a b => a.1 < b.1) ∧ (∀ c ∈ m.cells, c.2 ≠ 0#8) ∧ m.poison.Pairwise (· < ·)

/-- Is a location in a range whose contents are undefined (R533)? -/
def Mem.isUndef (m : Mem) (a : Nat) : Bool := m.undef.any (fun r => r.1 ≤ a && a ≤ r.2)

/-- One byte. -/
def Mem.byte (m : Mem) (a : Nat) : Byte :=
  if m.isUndef a then Config.undefByte a else lookupCell a m.cells

/-- One byte stored. -/
def Mem.setByte (m : Mem) (a : Nat) (b : Byte) : Mem := { m with cells := insertCell a b m.cells }

/-- n bytes from a location. -/
def Mem.bytes (m : Mem) (a n : Nat) : List Byte := (List.range n).map (fun i => m.byte (a + i))

/-- Bytes stored from a location upward. -/
def Mem.setBytes (m : Mem) (a : Nat) : List Byte → Mem
  | [] => m
  | b :: r => (m.setByte a b).setBytes (a + 1) r

/-- The 64-byte block that holds a location. -/
def blockOf (a : Nat) : Nat := alignDown a 64

/-- Is the block of a location poisoned (R187)? -/
def Mem.poisoned (m : Mem) (a : Nat) : Bool :=
  if m.isUndef a then Config.undefPoison (blockOf a) else m.poison.contains (blockOf a)

/-- The poison mark of the block of a location set or cleared. -/
def Mem.setPoison (m : Mem) (a : Nat) (p : Bool) : Mem :=
  { m with poison := if p then insertNat (blockOf a) m.poison else m.poison.filter (fun x => x != blockOf a) }

/-- The location of an offset in a cluster buffer (R170). -/
def bufLoc (cluster off : Nat) : Nat := 2 ^ 52 + cluster * 2 ^ 26 + off

/-- The location of an offset in core-scratch tensor id (its scale plane lies from offset 2^29). -/
def scratchLoc (id off : Nat) : Nat := 2 ^ 53 + id * 2 ^ 30 + off

/-- Every bit of a block. -/
def fullMask : Nat := 2 ^ 512 - 1

/-- A block written whole. -/
def BlockWr.full (loc : Nat) (bytes : List Byte) (poison carry : Bool) : BlockWr :=
  { loc := loc, mask := fullMask, val := leNat bytes, poison := poison, carry := carry }

/-- Is a block left poisoned by a write because of what is written or of what it is formed from? -/
def Mem.spoils (m : Mem) (w : BlockWr) : Bool := w.poison || (w.merge && m.poisoned w.loc)

/-- A block write (R173, R188, R202): a full write replaces the data and the mark, a merge keeps a mark that stands, and a
block that a computed write leaves poisoned holds free bytes, from the given place of the stream. -/
def Mem.writeBlock (m : Mem) (free : Nat) (w : BlockWr) : Mem :=
  let old := leNat (m.bytes w.loc 64)
  let full := w.mask == fullMask
  let data := (old &&& (fullMask ^^^ w.mask)) ||| (w.val &&& w.mask)
  let p := m.spoils w || (m.poisoned w.loc && !full)
  let bytes := if m.spoils w && !w.carry then (List.range 64).map (fun i => Config.freeByte (free + i)) else natLe 64 data
  (m.setBytes w.loc bytes).setPoison w.loc p

/-- The increase of a non-finite counter during a window (R254), kept apart from the counter (R432). -/
def Window.countIn (c : Ctr) (n : Nat) (w : Window) : Window :=
  match c with
  | .nonfiniteDense => { w with nfDense := w.nfDense + n }
  | .nonfiniteVec => { w with nfVec := w.nfVec + n }
  | .nonfiniteGrad => { w with nfGrad := w.nfGrad + n }
  | _ => w

/-- A window of a sequencer is open until it is closed and its last command has completed (R253). -/
def Window.isOpen (cmds : List Cmd) (seq : Nat) (w : Window) : Bool :=
  !w.closed || cmds.any (fun c => c.ofSeq seq && c.step? == some w.step)

/-- The open windows of a sequencer changed by f. -/
def Seq.modOpen (cmds : List Cmd) (seq : Nat) (f : Window → Window) (q : Seq) : Seq :=
  { q with windows := q.windows.map (fun w => if w.isOpen cmds seq then f w else w) }

/-! ## State accessors -/

namespace State

def setMem (s : State) (m : Mem) : State := { s with mem := m }

/-- A block write lands, with its free bytes taken from the stream; an error that stayed in the block is gone (R202). -/
def land (s : State) (w : BlockWr) : State :=
  { s with
    mem := s.mem.writeBlock s.free w
    free := s.free + (if s.mem.spoils w && !w.carry then 64 else 0)
    memside := { s.memside with uncured := s.memside.uncured.filter (fun a => a != w.loc) } }

/-- A block write; one to a block whose retry is pending is held (R202). -/
def writeBlock (s : State) (w : BlockWr) : State :=
  if s.memside.pendingUe.contains w.loc then { s with memside := { s.memside with held := s.memside.held ++ [w] } }
  else s.land w

/-- The memory as it will be once the held writes have landed. -/
def settledMem (s : State) : Mem := s.memside.held.foldl (fun (m : Mem) w => m.writeBlock s.free w) s.mem

/-- Block writes in order. -/
def writeBlocks (s : State) : List BlockWr → State
  | [] => s
  | w :: r => (s.writeBlock w).writeBlocks r

/-- The next free bit, number. -/
def freeBit (s : State) : Bool × State := (Config.freeBit s.free, { s with free := s.free + 1 })
def freeNat (s : State) : Nat × State := (Config.freeNat s.free, { s with free := s.free + 1 })

def ctr (s : State) (c : Ctr) : Word64 := vget s.ctrs c.idx 0#64

/-- A counter counts up by n and saturates (R432), and the windows that are open count the increase (R254). -/
def bump (s : State) (c : Ctr) (n : Nat := 1) : State :=
  { s with
    ctrs := vmod s.ctrs c.idx (fun w => satAdd w n)
    seqs := Vector.ofFn (fun i : Fin 4 => s.seqs[i.val].modOpen s.cmds i.val (Window.countIn c n)) }

def bumpIf (s : State) (b : Bool) (c : Ctr) : State := if b then s.bump c else s

def clearCtr (s : State) (c : Ctr) : State := { s with ctrs := vset s.ctrs c.idx 0#64 }

def cmd? (s : State) (id : Nat) : Option Cmd := s.cmds.find? (fun c => c.id == id)


def modCmd (s : State) (id : Nat) (f : Cmd → Cmd) : State :=
  { s with cmds := s.cmds.map (fun c => if c.id == id then f c else c) }

def modCmds (s : State) (f : Cmd → Cmd) : State := { s with cmds := s.cmds.map f }

def setStage (s : State) (id : Nat) (g : Stage) : State := s.modCmd id (fun c => { c with stage := g })

def context (s : State) (c : Nat) : Context := vget s.contexts c {}
def modContext (s : State) (c : Nat) (f : Context → Context) : State := { s with contexts := vmod s.contexts c f }
def cluster (s : State) (n : Nat) : Cluster := vget s.clusters n Cluster.reset
def modCluster (s : State) (n : Nat) (f : Cluster → Cluster) : State := { s with clusters := vmod s.clusters n f }
def sq (s : State) (n : Nat) : Sq := vget s.sqs n {}
def modSq (s : State) (n : Nat) (f : Sq → Sq) : State := { s with sqs := vmod s.sqs n f }
def cq (s : State) (n : Nat) : Cq := vget s.cqs n {}
def modCq (s : State) (n : Nat) (f : Cq → Cq) : State := { s with cqs := vmod s.cqs n f }
def seq (s : State) (n : Nat) : Seq := vget s.seqs n Seq.reset
def modSeq (s : State) (n : Nat) (f : Seq → Seq) : State := { s with seqs := vmod s.seqs n f }
def draft (s : State) (n : Nat) : Draft := vget s.drafts n {}
def modDraft (s : State) (n : Nat) (f : Draft → Draft) : State := { s with drafts := vmod s.drafts n f }
def port (s : State) (n : Nat) : Port := vget s.fabric.ports n {}
def modFabric (s : State) (f : Fabric → Fabric) : State := { s with fabric := f s.fabric }
def modPort (s : State) (n : Nat) (f : Port → Port) : State :=
  s.modFabric (fun b => { b with ports := vmod b.ports n f })
def modLiust (s : State) (f : Liust → Liust) : State := { s with liust := f s.liust }
def modPower (s : State) (f : Power → Power) : State := { s with power := f s.power }
def modReferee (s : State) (f : Referee → Referee) : State := { s with referee := f s.referee }
def modErrors (s : State) (f : Errors → Errors) : State := { s with errors := f s.errors }
def modMemside (s : State) (f : MemSide → MemSide) : State := { s with memside := f s.memside }
def modKeeper (s : State) (f : Keeper → Keeper) : State := { s with keeper := f s.keeper }
def modSave (s : State) (f : Save → Save) : State := { s with save := f s.save }
def modScout (s : State) (f : Scout → Scout) : State := { s with scout := f s.scout }
def modFlash (s : State) (f : Flash → Flash) : State := s.modReferee (fun r => { r with flash := f r.flash })
def modFuses (s : State) (f : Fuses → Fuses) : State := s.modReferee (fun r => { r with fuses := f r.fuses })

/-- Is the fabric interface at work: joined or joining, or leaving with its ports still up (R306)? -/
def fabOn (s : State) : Bool := s.fabric.en || s.fabric.leaving

/-- This module's ID (R301). -/
def moduleId (s : State) : Nat := s.fabric.moduleId

/-- A power domain, OFF where the code names none. -/
def domain (s : State) (code : Nat) : Domain := ((s.power.domains.find? (fun p => p.1 == code)).map (·.2)).getD {}
def modDomain (s : State) (code : Nat) (f : Domain → Domain) : State :=
  s.modPower (fun p => { p with domains := p.domains.map (fun d => if d.1 == code then (code, f d.2) else d) })

/-- Is the module powered and out of reset? -/
def alive (s : State) : Bool := s.power.ao && s.power.on && !s.power.inReset

def sendHost (s : State) (t : HostTx) : State := { s with hostTx := s.hostTx ++ [t] }
def sendFab (s : State) (t : FabTx) : State := { s with fabTx := s.fabTx ++ [t] }
def sendSmb (s : State) (t : SmbTx) : State := { s with smbTx := s.smbTx ++ [t] }

end State

/-! ## Power domains on the way of an access (R17, R474, R476, R481) -/

/-- The parent of a domain, AO as 60h. -/
def parentOf (c : Nat) : Nat :=
  if c < 8 then 0x52 + c / 2
  else if c < 0x20 then 0x52 + (c - 0x10) / 4
  else if c < 0x30 then (if c < 0x26 then 0x50 else 0x51)
  else if c < 0x40 then (if c < 0x36 then 0x50 else 0x51)
  else if c == 0x40 then 0x50
  else 0x60

/-- Is a domain on and its clocks running? -/
def DomSt.running (d : DomSt) : Bool := d == .active || d == .idle

/-- Does a domain answer an access now? One in NAP, or that enters or wakes, does so after its wake, and one that failed, or whose
parent failed, never (R476, R481). -/
def State.awake (s : State) (c : Nat) : Bool :=
  match (s.domain c).st with
  | .nap | .entering | .waking | .failed => false
  | .off => (s.domain (parentOf c)).st != .failed
  | _ => true

/-- An access to a domain in NAP, or on its way there, wakes it, its parent first, and ends within the step (R476, R478; log
entry 24). -/
def State.touch (s : State) (c : Nat) : State :=
  let asleep := fun (d : Domain) => d.st == .nap || d.st == .entering
  let up := fun (d : Domain) => { d with st := if asleep d then DomSt.active else d.st }
  if !asleep (s.domain c) || (s.domain (parentOf c)).st == .failed then s
  else (s.modDomain (parentOf c) up).modDomain c up

def State.touchAll (s : State) (l : List Nat) : State := l.foldl State.touch s

/-- The domain of a die: C0 to C3 are dies 0 to 3, H0 and H1 dies 4 and 5. -/
def dieDomain (d : Nat) : Nat := if d < 4 then 0x52 + d else if d == 4 then 0x50 else 0x51

/-- The hub die of a port: H0 and H1 are dies 4 and 5 (R14). -/
def portHub (n : Nat) : Nat := if n < 24 then 4 else 5

/-- A die-to-die link by its ends, the lower first. -/
def linkOf (x y : Nat) : Nat × Nat := (min x y, max x y)

/-- The links between two hub dies by way of a compute die (R17). -/
def hubRoute (x y via : Nat) : List (Nat × Nat) := if x == y then [] else [linkOf x via, linkOf via y]

/-- The links of the fixed route between two dies for a block's address (R17). -/
def dieRoute (x y a : Nat) : List (Nat × Nat) :=
  if x == y then []
  else if x < 4 && y < 4 && x + y == 3 then
    let h := if bit a 12 then 5 else 4
    [linkOf x h, linkOf h y]
  else if 4 ≤ x && 4 ≤ y then hubRoute x y (bits a 13 12)
  else [linkOf x y]

/-- The dies at the ends of links. -/
def linkDies (l : List (Nat × Nat)) : List Nat := dedup (l.flatMap (fun x => [x.1, x.2]))

/-- A running command with one of the given opcodes. One whose memory lies in a domain that does not answer yet waits for it
(R476). -/
def State.running? (s : State) (id : Nat) (opcode : Nat) : Option Cmd :=
  match s.cmd? id with
  | some c => if c.isRunning && c.opcode == opcode && c.needs.all s.awake then some c else none
  | none => none

/-! ## The address map (R195 to R198) -/

def hbmBytes : Nat := 2 ^ 40
def ddrBase (n : Nat) : Nat := 0x40000000000 + n * 0x4000000000
def csb : Nat := 0xFFFFFC0000000

/-- The channel whose window holds an address. -/
def ddrChannel (a : Nat) : Option Nat :=
  if 0x40000000000 ≤ a && a < ddrBase 12 then some ((a - 0x40000000000) / 0x4000000000) else none

def isHbm (a : Nat) : Bool := a < hbmBytes

/-- Is an address in a present DDR5 range? -/
def State.isDdr (s : State) (a : Nat) : Bool :=
  match ddrChannel a with
  | some n => a - ddrBase n < (vget s.memside.ddr n {}).gib * 2 ^ 30
  | none => false

/-- Is an address in HBM4 or a present DDR5 range? -/
def State.present (s : State) (a : Nat) : Bool := isHbm a || s.isDdr a

/-- Does the whole range lie in HBM4 and present DDR5? Absent parts lie only between HBM4 and the windows, and at the end
of each window, so the range is followed window by window. -/
def State.spanFrom (s : State) : Nat → Nat → Nat → Bool
  | 0, _, _ => false
  | fuel + 1, lo, hi =>
    if lo > hi then true
    else if isHbm lo then (if isHbm hi then true else false)
    else
      match ddrChannel lo with
      | none => false
      | some n =>
        let e := ddrBase n + (vget s.memside.ddr n {}).gib * 2 ^ 30
        if lo < e then (if hi < e then true else if e == ddrBase (n + 1) then s.spanFrom fuel e hi else false) else false

/-- The n bytes from a are all present. -/
def State.presentSpan (s : State) (a n : Nat) : Bool := n == 0 || s.spanFrom 13 a (a + n - 1)

/-- The HBM4 stack and the offset in it that an address of group g maps to (R196). -/
def hbmPhys (local' : Bool) (a : Nat) : Nat × Nat :=
  let g := bits a 39 32
  if local' then (4 * bits a 31 30 + bits a 13 12, g * 0x10000000 + bits a 29 14 * 0x1000 + bits a 11 0)
  else (bits a 15 12, g * 0x10000000 + bits a 31 16 * 0x1000 + bits a 11 0)

/-- The address of a stack offset under a placement. -/
def hbmAddr (local' : Bool) (stack off : Nat) : Nat :=
  let g := off / 0x10000000
  let p := bits off 27 12
  let b := bits off 11 0
  if local' then g * 2 ^ 32 + (stack / 4) * 2 ^ 30 + p * 2 ^ 14 + (stack % 4) * 2 ^ 12 + b
  else g * 2 ^ 32 + p * 2 ^ 16 + stack * 2 ^ 12 + b

/-- Is group g die-local (R197)? -/
def State.placed (s : State) (g : Nat) : Bool := s.memside.place.getLsbD g

/-- The stack that holds an HBM4 address. -/
def State.stackOf (s : State) (a : Nat) : Nat := (hbmPhys (s.placed (bits a 39 32)) a).1

/-- The die that holds the block at an address. -/
def State.dieOf (s : State) (a : Nat) : Nat :=
  match ddrChannel a with
  | some n => if n < 6 then 4 else 5
  | none => s.stackOf a / 4

/-- The domains of a block at an address and of what lies between it and some dies (R17, R474). -/
def State.memDomains (s : State) (dies : List Nat) (a : Nat) : List Nat :=
  (match ddrChannel a with
    | some n => 0x20 + n
    | none => 0x10 + s.stackOf a) ::
  ((s.dieOf a :: dies.flatMap (fun x => linkDies (dieRoute x (s.dieOf a) a))).map dieDomain)

/-- The 4 KiB pages of a range. -/
def rangePages (a n : Nat) : List Nat :=
  if n == 0 then [] else (List.range ((a + n - 1) / 4096 + 1 - a / 4096)).map (fun i => alignDown a 4096 + 4096 * i)

/-- Is a domain, or what carries it, not one that failed to wake (R481)? -/
def State.reaches (s : State) (c : Nat) : Bool :=
  (s.domain c).st != .failed && (s.domain (parentOf c)).st != .failed

/-- An access to memory that no command makes: the host's, another module's, an SSU's or a scrub. Its domains, and those between it
and some dies, wake for it (R476); where one has failed it waits for good (R481). -/
def State.access (s : State) (dies : List Nat) (a n : Nat) (f : State → State) : State :=
  let l := dedup ((rangePages a n).flatMap (s.memDomains dies))
  let t := s.touchAll l
  if l.all t.reaches then f t else t

/-- The memory seen after group g takes the other placement: the stored bytes stay where they are (R197). -/
def Mem.replace (m : Mem) (g : Nat) (old new : Bool) : Mem :=
  let inG := fun (a : Nat) => isHbm a && bits a 39 32 == g
  let move := fun (a : Nat) => let p := hbmPhys old a; hbmAddr new p.1 p.2
  { m with
    cells := (m.cells.filter (fun c => inG c.1)).foldl (fun l c => insertCell (move c.1) c.2 l)
      (m.cells.filter (fun c => !inG c.1))
    poison := (m.poison.filter inG).foldl (fun l a => insertNat (move a) l) (m.poison.filter (fun a => !inG a)) }

/-! ## Regions (R170, R384, R386) -/

/-- Does one valid entry of the context that satisfies p cover the n bytes from a? -/
def State.covered (s : State) (ctx a n : Nat) (p : Region → Bool) : Bool :=
  (s.context ctx).regions.toList.any (fun r => r.valid && p r && r.base ≤ a && a + n ≤ r.limit + 1)

/-- A data-path access of a context. -/
def State.allows (s : State) (ctx a n : Nat) (read write : Bool) : Bool :=
  s.covered ctx a n (fun r => (!read || r.read) && (!write || r.write))

/-- Do the two ranges share a byte? -/
def rangesMeet (a n b m : Nat) : Bool := a < b + m && b < a + n && n != 0 && m != 0

/-- Does a write touch the image of a running playbook (R227)? -/
def State.hitsImage (s : State) (a n : Nat) : Bool :=
  s.seqs.toList.any (fun q => q.st != .idle && rangesMeet a n q.image q.imageBytes)

/-! ## Commands in flight (R393 to R398) -/

/-- The commands of a step of a sequencer that are in flight. -/
def State.inStep (s : State) (n : Nat) (step : Word32) : List Cmd :=
  s.cmds.filter (fun c => c.ofSeq n && c.step? == some step)

/-- The window of a step changed by f. -/
def Seq.modWindow (q : Seq) (step : Word32) (f : Window → Window) : Seq :=
  { q with windows := q.windows.map (fun w => if w.step == step then f w else w) }

def Seq.window? (q : Seq) (step : Word32) : Option Window := q.windows.find? (fun w => w.step == step)

/-- The step flag NF set (R243). -/
def State.setNf (s : State) (src : Src) : State :=
  match src with
  | .host _ => s
  | .seq n _ step _ => s.modSeq n (fun q => q.modWindow step (fun w => { w with nf := true }))

/-- A command takes its completion and, if the host submitted it, its turn in its completion queue (R398). -/
def State.endHost (s : State) (id : Nat) (c : Compl) : State :=
  match s.cmd? id with
  | none => s
  | some cmd =>
    let c := { c with cycles := s.cycles.toNat }
    let s := s.modCmd id (fun x => { x with st := .done c, stage := .go })
    match cmd.src with
    | .host _ => s.modCq cmd.cq (fun k => { k with done := k.done ++ [id] })
    | .seq _ _ _ _ => s

/-- A dependency of others has completed (R394, R395); `by'`: the entry and step that it is, in a playbook. -/
def Cmd.release (id st : Nat) (by' : Option (Nat × Word32)) (c : Cmd) : Cmd :=
  let hit := c.deps.contains id
  { c with
    deps := c.deps.filter (fun d => d != id)
    depFailed := c.depFailed || (hit && Status.failed st)
    depLost := c.depLost || (hit && st == Status.fltMemberLost)
    depBy := c.depBy.orElse (fun _ => if hit && Status.failed st then by'.map (fun e => (e.1, e.2, st)) else none)
    stage := match c.stage with
      | .await ids n => .await (ids.filter (fun d => d != id)) n
      | g => g }

/-- Commands that waited only for others to complete (R387, R400) and may now end. LIFECYCLE_ADVANCE ends by its own row (R459). -/
def State.settleAwaits (s : State) : State :=
  s.cmds.foldl (fun (t : State) (c : Cmd) => match c.stage with
    | .await [] n => if c.opcode == 0xB02 then t else t.endHost c.id { status := Status.ok, count := n }
    | _ => t) s

/-- The place of a command is freed (R393), and what waited for it goes on. -/
def State.retire (s : State) (id st : Nat) (by' : Option (Nat × Word32) := none) : State :=
  ({ s with cmds := (s.cmds.filter (fun (c : Cmd) => c.id != id)).map (Cmd.release id st by') }).settleAwaits

/-- The completion of PLAYBOOK_START when its playbook ends (R231, R400, R402): the entry that failed, or the one issued last
(log entry 14); a STATUS with FLT_PLAYBOOK alone. -/
def Seq.ending (q : Seq) (n : Nat) : Compl :=
  match q.failed with
  | some (e, step, st) =>
    if q.cancelled then { status := Status.fltCancelled, count := q.step.toNat, aux := (q.entry - 1) % 2 ^ 16 + at' n 28 }
    else { status := Status.fltPlaybook, count := step.toNat, aux := e % 2 ^ 16 + at' (st % 4096) 16 + at' n 28 }
  | none =>
    { status := if q.cancelled then Status.fltCancelled else Status.ok
      count := q.step.toNat, aux := (q.entry - 1) % 2 ^ 16 + at' n 28 }

/-- A playbook that is stopping ends once its last command has completed (R231). Its votes go (R476), its rings keep
their indices (R238), and PB_DIGEST reads 0 (R457). -/
def State.settleSeq (s : State) (n : Nat) : State :=
  let q := s.seq n
  if q.st == .stopping && !(s.cmds.any (fun c => c.ofSeq n)) then
    let s := s.endHost q.starter (q.ending n)
    let s := s.modSeq n (fun q => { q with
      st := .idle, relay := false, loops := [], digest := 0#256, windows := q.windows.map (fun w => { w with closed := true }) })
    s.modPower (fun p => { p with
      domains := p.domains.map (fun d => (d.1, { d.2 with pb := vset d.2.pb n 0 })) })
  else s

/-- Is a status one that a lost member leaves (R347)? FLT_REMOTE_TIMEOUT counts when the remote module is absent. -/
def lostStatus (st : Nat) (absent : Bool) : Bool :=
  st == Status.fltMemberLost || (st == Status.fltRemoteTimeout && absent)

/-- The roster lists a module as absent, or does not list it as present. -/
def Roster.absent (r : Roster) (m : Nat) : Bool := !(r.members.any (fun x => x.id == m && !x.absent))

/-- The remote module that FAB_PUT and FAB_GET name (R409). -/
def Cmd.remoteId (c : Cmd) : Nat := bits (c.param 28 4) 11 0

/-- The remote module of a command: that of FAB_PUT and FAB_GET, and the partner of KEEP_RESTORE (R347, R350). -/
def State.remoteOf (s : State) (c : Cmd) : Nat :=
  if c.opcode == 0x802 then (s.keeper.partner.orElse (fun _ => s.keeper.want.map (·.1))).getD 0 else c.remoteId

/-- A playbook entry has ended: poison and failure are noted, its place is freed (R228, R231). -/
def State.endEntry (s : State) (c : Cmd) (n entry : Nat) (step : Word32) (k : Compl) : State :=
  let lost := lostStatus k.status (s.fabric.roster.absent (s.remoteOf c))
  let s := s.modSeq n (fun q =>
    let q := q.modWindow step (fun w => { w with poison := w.poison || (k.poison && k.status == Status.ok) })
    let q := { q with issues := q.issues.filter (fun p => p.2 != c.id) }
    let q := if lost then { q with lost := (entry, step, k.status) :: q.lost.filter (fun l => l.1 != entry) } else q
    if Status.failed k.status && !lost && !q.stopNow && q.failed.isNone then
      { q with failed := if k.status == Status.rejDep then c.depBy.orElse (fun _ => some (entry, step, k.status))
                         else some (entry, step, k.status) }
    else q)
  (s.retire c.id k.status (some (entry, step))).settleSeq n

/-- The accumulation slot that a command names (R91): DENSE_MM, the Scrum products, and two fused kernels. -/
def Cmd.slot? (c : Cmd) : Option Nat :=
  match c.opcode with
  | 0x200 => let k := c.param 60 4; if bit k 4 then some (bits k 10 5) else none
  | 0x300 => let k := c.param 64 4; if bit k 11 then some (bits k 17 12) else none
  | 0x301 => let k := c.param 64 4; if bit k 11 then some (bits k 17 12) else none
  | 0x423 => let k := c.param 64 4; if bit k 21 then some (bits k 27 22) else none
  | 0x425 => let k := c.param 64 4; if bit k 21 then some (bits k 27 22) else none
  | _ => none

/-- The slots that a command names: FUSED_LAYERNORM_BWD names SLOT and SLOT + 1 (R417). -/
def Cmd.slots (c : Cmd) : List Nat :=
  match c.slot? with
  | none => []
  | some n => if c.opcode == 0x423 then [n, n + 1] else [n]

/-- A command that fails after it started poisons its slots, unless it was cancelled (R94). -/
def State.poisonSlots (s : State) (c : Cmd) (st : Nat) : State :=
  if Status.isFlt st && st != Status.fltCancelled && c.isRunning then
    { s with slots := s.slots.map (fun k =>
        if k.ctx == c.ctx && c.slots.contains k.num then { k with poison := k.poison.map (fun _ => true) } else k) }
  else s

/-- One consumer of each core-scratch tensor that the command read has ended (R170). -/
def State.releaseScratch (s : State) (c : Cmd) : State :=
  let used := c.ops.filterMap (fun o => o.2.scratch)
  let one := fun (t : Scratch) =>
    if used.contains t.id && t.id / 8 != c.id then { t with consumers := t.consumers - 1 } else t
  { s with scratch := (s.scratch.map one).filter (fun t => t.consumers != 0) }

/-! ## Partitions, threads and feeder slots (R70 to R76, R136 to R142, R181) -/

namespace PartMode
/-- Partitions of an array, and columns of each. -/
def parts : PartMode → Nat
  | .full => 1 | .halves => 2 | .quarters => 4
def width : PartMode → Nat
  | .full => 128 | .halves => 64 | .quarters => 32
end PartMode

/-- A command leaves a partition: its preload is discarded, or the sets swap to the tile of the next command, and the
boundary takes the cluster's ARRAY_CFG (R65, R72, R78, R429). -/
def Part.release (word : Word64) (id : Nat) (p : Part) : Part :=
  let p := if p.next == some id then { p with next := none, preload := none, nextCls := 0 } else p
  if p.cmd != some id then p
  else if p.next.isSome then
    { p with
      cmd := p.next, next := none, active := p.preload, preload := none, word := word, cls := p.nextCls, nextCls := 0 }
  else { p with cmd := none, cls := 0 }

/-- What the kernel routines of a share leave in its thread's registers is open: free values (R140, log entry 32). -/
def Thread.spent (k : Nat) (t : Thread) : Thread :=
  { t with
    gpr := Vector.ofFn (fun i : Fin 32 => BitVec.ofNat 64 (Config.freeNat (k + i.val)))
    gprPoison := BitVec.ofNat 32 (Config.freeNat (k + 32))
    vec := Vector.ofFn (fun i : Fin 16 => BitVec.ofNat 8192 (Config.freeNat (k + 33 + i.val)))
    vecPoison := Vector.ofFn (fun i : Fin 16 => BitVec.ofNat 256 (Config.freeNat (k + 49 + i.val))) }

/-- Free values that a thread takes. -/
def threadDraws : Nat := 65

/-- The class of a core's running dense work: the highest among its partitions (R76, log entry 32). -/
def Core.dense (k : Core) : Nat := k.parts.toList.foldl (fun a p => max a (if p.cmd.isSome then p.cls else 0)) 0

/-- Is the array at a command boundary of every partition (R72, R489)? -/
def Core.atBoundary (k : Core) : Bool := k.parts.toList.all (fun p => p.cmd.isNone)

/-- Does a command hold anything of the core? -/
def Core.runs (k : Core) (id : Nat) : Bool :=
  k.parts.toList.any (fun p => p.cmd == some id || p.next == some id) || k.threads.toList.any (fun t => t.cmd == some id)

/-- A command leaves a core: partitions, threads and feeder slots (R181), from free value `free` onward. A partition's
thread runs the partition's next command, and the core reports its class at the boundary (R76). -/
def Core.release (word : Word64) (free id : Nat) (k : Core) : Core :=
  if !k.runs id then k
  else
    let parts := k.parts.map (Part.release word id)
    let threads := Vector.ofFn (fun i : Fin 8 =>
      let t := k.threads[i.val]
      if t.cmd == some id then
        { t.spent (free + threadDraws * i.val) with
          cmd := if i.val < k.split.parts then (vget parts i.val {}).cmd else none }
      else t)
    let k := { k with parts := parts, threads := threads, feeds := k.feeds.map (fun f => if f == some id then none else f) }
    { k with said := k.dense }

/-- The cores in some mode of a row. -/
def Cluster.rowCores (c : Cluster) (row : Nat) (m : CoreMode) : List Nat :=
  ((List.range 7).map (fun p => 7 * row + p)).filter (fun i => (vget c.cores i {}).mode == m)

/-- At a command boundary of the cluster a bench core becomes active in a row with fewer than six active cores (R20, R504). -/
def Cluster.fillRows (c : Cluster) : Cluster :=
  (List.range 4).foldl (fun (c : Cluster) row =>
    match c.rowCores row .bench with
    | i :: _ =>
      if (c.rowCores row .active).length < 6 then { c with cores := vmod c.cores i (fun k => { k with mode := .active }) } else c
    | [] => c) c

/-- The cores of a cluster after a command left them. -/
def Cluster.release (free id : Nat) (c : Cluster) : Cluster :=
  let d := { c with cores := Vector.ofFn (fun i : Fin 28 =>
    c.cores[i.val].release c.array.shadow (free + 8 * threadDraws * i.val) id) }
  if c.cores.toList.any (fun k => k.runs id) then d.fillRows else d

/-- A command that ends leaves its partitions, threads and feeder slots at a command boundary at once (R72). -/
def State.leaveCores (s : State) (id : Nat) : State :=
  { s with
    clusters := Vector.ofFn (fun n : Fin 8 => s.clusters[n.val].release (s.free + 224 * threadDraws * n.val) id)
    free := s.free + 1792 * threadDraws }

/-- A command ends: its slots and scratch are settled, a collective that fails sends nothing further (R324), and the command
completes or, for a playbook entry, frees its place. -/
def State.finish (s : State) (id : Nat) (k : Compl) : State :=
  match s.cmd? id with
  | none => s
  | some c =>
    let s := (s.poisonSlots c k.status)
    let s := if c.isRunning then (s.releaseScratch c).leaveCores id else s
    let gone := s.fabric.colls.filter (fun x => x.id == id && Status.failed k.status)
    let s := { s with
      fabric := { s.fabric with
        queued := s.fabric.queued.filter (fun (w : Waiting) =>
          let p := w.packet
          !((p.type == PktType.collReady || p.type == PktType.collData || p.type == PktType.barrierFlag) && w.inPort.isNone
            && gone.any (fun x => x.group == p.hdr.group && x.seq == p.hdr.seq)))
        colls := s.fabric.colls.filter (fun x => x.id != id)
        remotes := s.fabric.remotes.filter (fun r => r.id != id)
        backlog := s.fabric.backlog.filter (fun b => b.1 != id) }
      liust := { s.liust with data := s.liust.data.filter (fun d => d.1 != id) }
      save := if s.save.holder == some id then { s.save with active := none, unsent := [], holder := none } else s.save }
    let k := { k with cycles := s.cycles.toNat }
    match c.src with
    | .host _ => s.endHost id k
    | .seq n entry step _ => s.endEntry c n entry step k

/-! ## Cancellation (R400) -/

/-- Commands that the Referee runs (R403). -/
def refereeOp (op : Nat) : Bool :=
  op < 0x100 || (0x800 ≤ op && op ≤ 0x804) || (0x900 ≤ op && op ≤ 0x901) || 0xA00 ≤ op

/-! ## Direct memory access into the host (R367) -/

/-- Is the Liust link up? -/
def State.linkUp (s : State) : Bool := s.liust.state == .up

/-- Are registers, queues, fabric and memory in service? RECOVERY alone takes them out of it (R438, R446). -/
def State.inService (s : State) : Bool := s.referee.state != .recovery

/-- Does a host access reach the registers that R446 does not list? -/
def State.hostUp (s : State) : Bool := s.linkUp && s.inService

/-- A host access that is not performed (R364, R423, R424). -/
def State.hostReject (s : State) : State := s.bump .liustHostReject

/-- A register write by the host: lost while the link is down, refused while the registers are out of service (R361, R446). -/
def State.atHost (s : State) (f : State → State) : State :=
  if !s.linkUp then s else if !s.inService then s.hostReject else f s

/-- Is a further DMA_RD or DMA_WR within the 256 outstanding? -/
def State.dmaRoom (s : State) (read : Bool) : Bool :=
  (s.liust.dmas.filter (fun d => d.read == read)).length < 256

/-- The lowest tag at or after t that no outstanding request has; 512 requests leave one free. -/
def freeTag (used : List Nat) : Nat → Nat → Nat
  | 0, t => t
  | fuel + 1, t => if used.contains (t % 65536) then freeTag used fuel (t + 1) else t % 65536

def State.dmaRd (s : State) (addr len : Nat) (o : DmaOwner) : State :=
  let t := freeTag (s.liust.dmas.map (·.tag)) 513 s.liust.nextTag
  (s.modLiust (fun l => { l with
    dmas := l.dmas ++ [{ tag := t, read := true, addr := addr, len := len, owner := o }]
    nextTag := (t + 1) % 65536 })).sendHost (.dmaRd t addr len)

def State.dmaWr (s : State) (addr : Nat) (data : List Byte) (poison : Word64) (o : DmaOwner) : State :=
  let t := freeTag (s.liust.dmas.map (·.tag)) 513 s.liust.nextTag
  (s.modLiust (fun l => { l with
    dmas := l.dmas ++ [{ tag := t, read := false, addr := addr, len := data.length, owner := o }]
    nextTag := (t + 1) % 65536 })).sendHost (.dmaWr t addr data poison)

/-! ## Poisoned ranges read for a transfer -/

/-- Bit i: 64-byte block i from a is poisoned. -/
def State.poisonBits (s : State) (a n : Nat) : Nat :=
  (List.range n).foldl (fun acc i => acc + flagAt (s.mem.poisoned (a + 64 * i)) i) 0

/-- The marks that n blocks read through an operand carry (R187). -/
def State.foulBits (s : State) (o : Operand) (a n : Nat) : Nat := if o.bad.isEmpty then s.poisonBits a n else 2 ^ n - 1

/-- Whole blocks stored bitwise, each with its own mark. -/
def blockWrites (a : Nat) (data : List Byte) (poison : Nat) : List BlockWr :=
  (enumFrom 0 (chunks 64 data)).map (fun p => BlockWr.full (a + 64 * p.1) (bytesAt p.2 0 64) (bit poison p.1) true)

end Sys2Proof.Machine
end

