-- ==== Sys2Proof/Machine/Operands.lean ====
section
/-! DEFINITION. Tensor descriptors and descriptor pointers, their checks, element access, conversion of rows, and the
effect of a data-path command as a plan of block writes (spec/07_layout_and_feeding.md, R391, R540, R541). -/

namespace Sys2Proof.Machine

/-- A failed check: status and the packet offset of what failed (R402). -/
abbrev Rej := Nat × Nat

/-- A check that must hold. -/
def need (b : Bool) (st aux : Nat) : List Rej := if b then [] else [(st, aux)]

/-- The lowest status among the failed checks, the first of equals (R396). -/
def worst : List Rej → Option Rej
  | [] => none
  | r :: rs => match worst rs with
    | none => some r
    | some q => if q.1 < r.1 then some q else some r

/-! ## Descriptors -/

namespace Desc

/-- Descriptor fields from 128 bytes (R164). Dimensions from NDIM upward take extent 1 and stride 0. -/
def ofBytes (l : List Byte) : Desc :=
  let nd := bits (fieldAt l 17 1) 2 0
  { base := bits (fieldAt l 0 8) 51 0
    scalePtr := bits (fieldAt l 8 8) 51 0
    fmt := (Fmt.ofCode (fieldAt l 16 1)).getD .fp32
    ndim := nd
    space := bits (fieldAt l 18 1) 1 0
    fillScale := fieldAt l 19 1
    fill := fieldAt l 20 4
    ext := (List.range 6).map (fun d => if d < nd then fieldAt l (24 + 4 * d) 4 else 1)
    stride := (List.range 5).map (fun d => if d + 1 < nd then bits (fieldAt l (48 + 8 * d) 8) 51 0 else 0) }

def ext0 (d : Desc) : Nat := d.ext.headD 1
/-- Extents of dimensions 1 to 5. -/
def outer (d : Desc) : List Nat := d.ext.drop 1
def extent (d : Desc) (i : Nat) : Nat := d.ext.getD i 1
def strideOf (d : Desc) (i : Nat) : Nat := if i == 0 then 0 else d.stride.getD (i - 1) 0

/-- Rows of dimension 0: the product of the outer extents. -/
def rows (d : Desc) : Nat := d.outer.foldl (· * ·) 1

/-- Elements (R541). -/
def count (d : Desc) : Nat := d.ext0 * d.rows

def isEmpty (d : Desc) : Bool := d.ext.any (· == 0)

/-- Bytes of one row, G (R166). -/
def rowBytes (d : Desc) : Nat := ceilDiv (d.ext0 * d.fmt.width) 512 * 64

/-- Byte offset of row r, counted with dimension 1 fastest. -/
def rowOffOf : List Nat → List Nat → Nat → Nat
  | e :: es, st :: sts, r => (r % e) * st + rowOffOf es sts (r / e)
  | _, _, _ => 0

def rowOff (d : Desc) (r : Nat) : Nat := rowOffOf d.outer d.stride r

/-- Bytes from BASE to the end of the span (R166). -/
def spanBytes (d : Desc) : Nat :=
  if d.isEmpty then 0
  else d.rowBytes + (d.outer.zip d.stride).foldl (fun a p => a + (p.1 - 1) * p.2) 0

/-- Packed: each stride equals the span of the dimensions below it (R319). -/
def packedFrom (below : Nat) : List Nat → List Nat → Bool
  | e :: es, st :: sts => st == below && packedFrom (below * e) es sts
  | _, _ => true

def packed (d : Desc) : Bool := packedFrom d.rowBytes (d.outer.take (d.ndim - 1)) (d.stride.take (d.ndim - 1))

/-- The destination aliasing check of R168: true when no two elements share a byte. -/
def noAlias (d : Desc) : Bool :=
  let dims := sortBy (fun a b => a.1 < b.1) (((d.stride.zip d.outer).take (d.ndim - 1)).filter (fun p => p.2 > 1))
  (dims.foldl (fun (acc : Bool × Nat) p => (acc.1 && acc.2 ≤ p.1, p.1 * p.2)) (true, d.rowBytes)).1

end Desc

/-- Are the bits of a descriptor that must be 0 all 0 (R164, R165, R170)? -/
def descClean (l : List Byte) : Bool :=
  let nd := bits (fieldAt l 17 1) 2 0
  let sp := bits (fieldAt l 18 1) 1 0
  let strides := (List.range (nd - 1)).map (fun d => fieldAt l (48 + 8 * d) 8)
  let base := fieldAt l 0 8
  let w := ((Fmt.ofCode (fieldAt l 16 1)).map Fmt.width).getD 32
  fieldAt l 88 40 == 0 && bits (fieldAt l 16 4) 23 18 == 0 && bits (fieldAt l 16 4) 15 11 == 0
    && bits (fieldAt l 8 8) 63 52 == 0 && bits base 63 52 == 0 && strides.all (fun t => t < 2 ^ 52) && sp != 3
    && fieldAt l 20 4 < 2 ^ w && (sp != 2 || bits base 51 8 == 0)

/-- Checks of one descriptor's own fields (R164, R165, R167). -/
def descRejs (l : List Byte) (aux : Nat) (fmts : List Fmt) : List Rej :=
  let nd := bits (fieldAt l 17 1) 2 0
  let sp := bits (fieldAt l 18 1) 1 0
  let code := fieldAt l 16 1
  let strides := (List.range (nd - 1)).map (fun d => fieldAt l (48 + 8 * d) 8)
  let base := fieldAt l 0 8
  need (descClean l) Status.rejReserved aux
    ++ need (match Fmt.ofCode code with | some f => fmts.contains f | none => false) Status.rejFormat aux
    ++ need (nd != 0 && nd != 7 && (List.range nd).all (fun d => fieldAt l (24 + 4 * d) 4 < 2 ^ 31)) Status.rejShape aux
    ++ need ((sp == 2 || base % 64 == 0) && strides.all (fun t => t % 64 == 0) && bits (fieldAt l 8 8) 51 0 % 128 == 0)
      Status.rejAlign aux

/-- Checks of a scale plane against its tensor (R169). An S8 tensor that names one is refused as BF16, FP32, INT32 and BIT are
(DESIGN CHOICE: R169 does not list it; log entry 35). -/
def scaleRejs (t p : Desc) (code aux : Nat) : List Rej :=
  need (code == 0x08 && p.scalePtr == 0 && p.space == t.space && p.ndim == t.ndim && p.outer == t.outer
    && p.ext0 == ceilDiv t.ext0 32 && t.fmt.scalable) Status.rejLayout aux

def dataFmts : List Fmt := [.l4, .l8, .e4m3, .e5m2, .bf16, .fp32]
def anyFmts : List Fmt := dataFmts ++ [.s8, .int32, .bit]

/-- The slot pool of a cluster in bytes (R96), never below the space that open slots hold. -/
def slotUnits (elems : Nat) : Nat := ceilDiv (4 * elems) 65536

/-- Rows of an output of M rows that fall to cluster k of the targets (R88). -/
def bandRows (rows : Nat) (targets : List Nat) (cl : Nat) : List Nat :=
  match targets.findIdx? (· == cl) with
  | none => []
  | some k => (List.range rows).filter (fun i => (i / 512) % targets.length == k)

/-- Bytes that the open slots hold in a cluster (R91). -/
def State.slotBytes (s : State) (cl : Nat) : Nat :=
  s.slots.foldl (fun a k => a + 65536 * slotUnits ((bandRows k.rows k.clusters cl).length * k.cols)) 0

def State.slotPool (s : State) (cl : Nat) : Nat :=
  max (min (bits (s.cluster cl).acc.force.toNat 5 0) 32 * 2 ^ 20) (s.slotBytes cl)

/-- Active cores of a cluster (R20, R493). -/
def Cluster.activeCores (c : Cluster) : Nat :=
  if c.out then 0 else (c.cores.toList.filter (fun k => k.mode == .active)).length

/-- Core scratch outside the staging area, over the active cores of a cluster (R170, R186). -/
def State.scratchRoom (s : State) (cl : Nat) : Nat :=
  let c := s.cluster cl
  let stage := min (max (bits c.feeder.force.toNat 13 8) 2) 40
  c.activeCores * (3 * 2 ^ 20 - stage * 65536)

/-- How a command uses an operand. -/
inductive Use where
  | src | dst
  deriving DecidableEq, Repr

/-- The tags or entry indices that a command names as dependencies (R388, R394). -/
def Cmd.depTags (c : Cmd) : List Nat := (List.range c.depCount).map (fun i => fieldAt c.packet (16 + 4 * i) 4)

/-- The drain destinations of a command, which may lie in core scratch: those of a product, and those to which a fused
kernel drains its slots (R93, R98, R155, R170). -/
def Cmd.drainDests (c : Cmd) : List Nat :=
  match c.opcode with
  | 0x200 => [16, 24, 40, 48]
  | 0x300 => [40, 48]
  | 0x301 => [40, 48]
  | 0x330 => [48]
  | 0x423 => if c.slotDrain then [48, 56] else []
  | 0x425 => if c.slotDrain then [40] else []
  | _ => []

/-- The number of ranges of a SAVE_SHARD or SAVE_RESTORE. -/
def Cmd.saveCount (c : Cmd) : Nat := bits (c.param 26 2) 3 0

/-- The ranges of a SAVE_SHARD or SAVE_RESTORE (R413): address and length. -/
def Cmd.saveRanges (c : Cmd) : List (Nat × Nat) :=
  (List.range (min c.saveCount 8)).map (fun n => (c.param (32 + 16 * n) 8, c.param (40 + 16 * n) 8))

/-- The source descriptor pointers of an opcode that targets clusters. -/
def srcPtrs : Nat → List Nat
  | 0x100 | 0x102 | 0x401 => [0]
  | 0x110 | 0x111 => [0, 16]
  | 0x200 => [0, 8, 32]
  | 0x300 => [0, 8, 16, 24, 32]
  | 0x301 => [0, 8, 16, 24, 80, 88, 96, 104]
  | 0x302 | 0x313 => [0, 8, 16, 24]
  | 0x310 | 0x311 | 0x312 | 0x402 | 0x421 => [0, 8]
  | 0x320 | 0x400 | 0x420 | 0x422 => [0, 8, 16]
  | 0x330 => [0, 8, 16, 24, 32, 40]
  | 0x423 => [0, 8, 16, 24, 32]
  | 0x424 => [0, 8]
  | 0x425 => [0, 8, 16, 24]
  | 0x701 => [0]
  | 0x703 => [0, 8, 16]
  | 0x704 => [0, 8, 16, 24]
  | _ => []

/-- Opcodes that target clusters (R403). -/
def clusterOpcode (op : Nat) : Bool := (0x100 ≤ op && op < 0x500) || (0x701 ≤ op && op ≤ 0x704)

/-- The clusters of a command whose opcode targets clusters. -/
def Cmd.clusters (c : Cmd) : List Nat := if clusterOpcode c.opcode then targetClusters c.target else []

/-- The 128 bytes that a descriptor pointer names, or the failed check of R391 and R540; none for 0. -/
def State.dptr (s : State) (c : Cmd) (off : Nat) : Except Rej (Option (List Byte)) :=
  let v := c.param off 8
  let aux := 64 + off
  if v == 0 then .ok none
  else if bit v 63 then
    let o := bits v 8 0
    if bits v 62 9 != 0 then .error (Status.rejReserved, aux)
    else if o + 128 > c.plen then .error (Status.rejPlen, aux)
    else if o % 64 != 0 then .error (Status.rejAlign, aux)
    else .ok (some (bytesAt c.params o 128))
  else if bits v 62 52 != 0 then .error (Status.rejReserved, aux)
  else if v % 128 != 0 then .error (Status.rejAlign, aux)
  else if !s.allows c.ctx v 128 true false then .error (Status.rejRegion, aux)
  else .ok (some (s.mem.bytes v 128))

/-- The descriptors in core scratch among some of a command's pointers, before an offset: spans of data and scale plane. -/
def State.scratchBefore (s : State) (c : Cmd) (ptrs : List Nat) (off : Nat) : List (Nat × Nat) :=
  (ptrs.filter (fun o => o < off)).filterMap (fun o => match s.dptr c o with
    | .ok (some l) =>
      let d := Desc.ofBytes l
      if d.space == 2 then
        some (d.spanBytes, if d.scalePtr == 0 then 0 else (Desc.ofBytes (s.mem.bytes d.scalePtr 128)).spanBytes)
      else none
    | _ => none)

/-- The core-scratch tensor that a source names (R156, R170; log entry 12): the command's dependencies, DEP0 first, give
the tensors that their producers placed, in the order of the destinations; the source takes the first of its own size
that no earlier source of the command has taken. -/
def State.scratchOf (s : State) (c : Cmd) (off bytes : Nat) : Option Scratch :=
  let all := c.depTags.flatMap (fun t => s.scratch.filter (fun x => x.owner == c.owner && x.tag == t && x.ctx == c.ctx))
  let taken := ((s.scratchBefore c (srcPtrs c.opcode) off).filter (fun n => n.1 == bytes)).length
  (all.filter (fun x => x.bytes == bytes))[taken]?

/-- Bytes that the tensors placed in core scratch hold on a cluster, scale planes included. -/
def State.scratchHeld (s : State) (cl : Nat) : Nat :=
  ((s.scratch.filter (fun t => t.clusters.contains cl)).map (fun t => t.bytes + t.plane)).sum

/-- The span checks of an operand (R170, R227, R540): n bytes from BASE, the pointer at `off`; a tensor in core scratch has
`plane` bytes of scales beside them. -/
def State.spanRejs (s : State) (c : Cmd) (use : Use) (d : Desc) (n plane off : Nat) : List Rej :=
  let aux := 64 + off
  match d.space with
  | 0 =>
    need (n == 0 || (s.allows c.ctx d.base n (use == .src) (use == .dst) && (use == .src || !s.hitsImage d.base n)))
      Status.rejRegion aux
  | 1 =>
    need (!c.clusters.isEmpty && (n == 0 || c.clusters.all (fun k => d.base + n ≤ 48 * 2 ^ 20 - s.slotPool k))) Status.rejRegion
      aux
  | 2 =>
    match use with
    | .src =>
      need (d.base != 0 && !c.clusters.isEmpty
        && (match s.scratchOf c off d.spanBytes with | some t => t.claims != 0 | none => false)) Status.rejScratch aux
    | .dst =>
      let mine := ((s.scratchBefore c c.drainDests off).map (fun x => x.1 + x.2)).sum
      need (d.base != 0 && c.drainDests.contains off && !c.clusters.isEmpty
        && c.clusters.all (fun k => s.scratchHeld k + mine + n + plane ≤ s.scratchRoom k)) Status.rejScratch aux
  | _ => []

/-- The poisoned blocks among the two of a descriptor in module memory. -/
def Mem.foulBlocks (m : Mem) (a : Nat) : List Nat := [a, a + 64].filter m.poisoned

/-- The poisoned blocks that the descriptor of a pointer is read from: none for an inline one. -/
def State.foulDesc (s : State) (c : Cmd) (off : Nat) : List Nat :=
  if bit (c.param off 8) 63 then [] else s.mem.foulBlocks (c.param off 8)

/-- Was a descriptor of an operand read from a poisoned block? Every value that the command reads or writes through it is
poisoned (R187). -/
def Operand.foul (o : Operand) : Bool := !o.bad.isEmpty

/-- A resolved operand with its failed checks. -/
structure Resolved where
  off : Nat
  op : Option Operand
  rejs : List Rej

/-- An operand from its pointer: descriptor, scale plane and every check (R164 to R170, R391, R540). `opt` says that 0
means none. -/
def State.resolve (s : State) (c : Cmd) (off : Nat) (use : Use) (fmts : List Fmt) (opt : Bool := false) : Resolved :=
  let aux := 64 + off
  match s.dptr c off with
  | .error r => { off := off, op := none, rejs := [r] }
  | .ok none => { off := off, op := none, rejs := need opt Status.rejLayout aux }
  | .ok (some l) =>
    let d := Desc.ofBytes l
    let own := descRejs l aux fmts
    let scratch := if d.space != 2 then none
      else if use == .dst then some (8 * c.id + c.drainDests.findIdx (· == off))
      else (s.scratchOf c off d.spanBytes).map (·.id)
    let noShare := need (use == .src || d.noAlias) Status.rejOverlap aux
    if d.scalePtr == 0 then
      { off := off, op := some { d := d, scratch := scratch, bad := s.foulDesc c off }
        rejs := own ++ need (!d.fmt.isL) Status.rejLayout aux ++ s.spanRejs c use d d.spanBytes 0 off ++ noShare }
    else if d.scalePtr % 128 != 0 || !s.allows c.ctx d.scalePtr 128 true false then
      -- no plane descriptor can be read; what does not rest on it is still checked (R169, R396)
      { off := off, op := some { d := d, scratch := scratch, bad := s.foulDesc c off }
        rejs := own ++ need d.fmt.scalable Status.rejLayout aux ++ s.spanRejs c use d d.spanBytes 0 off ++ noShare
          ++ need (d.scalePtr % 128 != 0) Status.rejRegion aux }
    else
      let lp := s.mem.bytes d.scalePtr 128
      let p := Desc.ofBytes lp
      { off := off, op := some { d := d, scale := some p, scratch := scratch, bad := s.foulDesc c off ++ s.mem.foulBlocks d.scalePtr }
        rejs := own ++ descRejs lp aux [.s8]
          ++ scaleRejs d p (fieldAt lp 16 1) aux ++ s.spanRejs c use d d.spanBytes p.spanBytes off
          ++ (if d.space == 2 then [] else s.spanRejs c use p p.spanBytes 0 off) ++ noShare
          ++ need (use == .src || p.noAlias) Status.rejOverlap aux }

/-- The byte ranges of an operand in its space: data, and scale plane. -/
def Operand.ranges (o : Operand) : List (Nat × Nat) :=
  (o.d.base, o.d.spanBytes) :: (match o.scale with | some p => [(p.base, p.spanBytes)] | none => [])

/-- Do two operands of one space share a byte of their spans (R180)? -/
def Operand.meets (a b : Operand) : Bool :=
  a.d.space == b.d.space && a.d.space != 2
    && a.ranges.any (fun x => b.ranges.any (fun y => rangesMeet x.1 x.2 y.1 y.2))

/-- A destination that shares bytes with its own scale plane. -/
def Operand.selfMeets (o : Operand) : Bool :=
  match o.scale with
  | some p => o.d.space != 2 && rangesMeet o.d.base o.d.spanBytes p.base p.spanBytes
  | none => false

/-- A destination that overlaps a source (R180, R542). -/
def overlapRejs (dst : Option Operand) (srcs : List (Option Operand)) (aux : Nat) : List Rej :=
  match dst with
  | none => []
  | some d => need (!(srcs.any (fun o => match o with | some x => d.meets x | none => false))) Status.rejOverlap aux

/-- A destination shares no byte with its own scale plane, with what is read, or with what else is written (R61, R542). -/
def writtenRejs (written : List (Nat × Option Operand)) (read : List (Option Operand)) : List Rej :=
  written.flatMap (fun w => match w.2 with
    | none => []
    | some o =>
      overlapRejs (some o) (read ++ (written.filter (fun x => x.1 != w.1)).map (·.2)) (64 + w.1)
        ++ need (!o.selfMeets) Status.rejOverlap (64 + w.1))

/-- A check that rests on an operand, where it resolved. -/
def given (a : Option Operand) (f : Operand → List Rej) : List Rej :=
  match a with
  | some x => f x
  | none => []

/-- A vector parameter (R541): elements and format. -/
def vectorRejs (o : Option Operand) (n : Nat) (f : Fmt) (aux : Nat) : List Rej :=
  match o with
  | none => []
  | some x => need (x.d.fmt == f) Status.rejFormat aux ++ need (x.d.count == n) Status.rejShape aux

/-! ## Element access -/

/-- Where a byte offset of an operand lies, on a cluster. -/
def Operand.loc (o : Operand) (cl off : Nat) : Nat :=
  match o.d.space with
  | 1 => bufLoc cl (o.d.base + off)
  | 2 => scratchLoc (o.scratch.getD 0) off
  | _ => o.d.base + off

/-- Where a byte offset of an operand's scale plane lies. In core scratch the plane follows the tensor. -/
def Operand.scaleLoc (o : Operand) (cl off : Nat) : Nat :=
  match o.scale with
  | none => 0
  | some p =>
    match o.d.space with
    | 1 => bufLoc cl (p.base + off)
    | 2 => scratchLoc (o.scratch.getD 0) (2 ^ 29 + off)
    | _ => p.base + off

/-- The code of element i of a row that starts at a location (R30, R165). -/
def Mem.codeAt (m : Mem) (f : Fmt) (row i : Nat) : Nat :=
  match f with
  | .l4 => let b := (m.byte (row + i / 2)).toNat; if i % 2 == 0 then b % 16 else b / 16
  | .bit => if (m.byte (row + i / 8)).toNat.testBit (i % 8) then 1 else 0
  | f => leNat (m.bytes (row + i * (f.width / 8)) (f.width / 8))

/-- Element (i, row) of an operand; out of bounds it is FILL with FILL_SCALE (R171). -/
def Operand.elem (o : Operand) (m : Mem) (cl i row : Nat) : Elem :=
  if i < o.d.ext0 && row < o.d.rows then
    let base := o.loc cl (o.d.rowOff row)
    let at0 := base + i * o.d.fmt.width / 8
    match o.scale with
    | none => { fmt := o.d.fmt, code := m.codeAt o.d.fmt base i, scale := 127, poison := o.foul || m.poisoned at0 }
    | some p =>
      let sl := o.scaleLoc cl (p.rowOff row + i / 32)
      { fmt := o.d.fmt, code := m.codeAt o.d.fmt base i, scale := (m.byte sl).toNat
        poison := o.foul || m.poisoned at0 || m.poisoned sl }
  else { fmt := o.d.fmt, code := o.d.fill, scale := if o.scale.isSome then o.d.fillScale else 127, poison := o.foul }

/-- A row of elements. -/
def Operand.row (o : Operand) (m : Mem) (cl row : Nat) : List Elem :=
  (List.range o.d.ext0).map (fun i => o.elem m cl i row)

/-- Element n of a vector in linear order (R541). -/
def Operand.lin (o : Operand) (m : Mem) (cl n : Nat) : Elem := o.elem m cl (n % o.d.ext0) (n / o.d.ext0)

/-- An FP32 element as a word; a poisoned one reads as NaN (R39). -/
def Elem.f32 (x : Elem) : Word32 := if x.poison then 0x7FC00000#32 else BitVec.ofNat 32 x.code

/-- A value widened to FP32. -/
def Elem.widen (x : Elem) : Word32 := toF32 x.val

/-- An index, or none where its block is poisoned (R134). -/
def Elem.index (x : Elem) : Option Int := if x.poison then none else some (sint32 x.code)

/-- An FP32 result as an element. -/
def Elem.ofF32 (w : Word32) (poison : Bool) : Elem := { fmt := .fp32, code := w.toNat, scale := 127, poison := poison }

/-- The 64-byte blocks that elements lo to hi - 1 of a row occupy, data and scales. -/
def Operand.partBlocks (o : Operand) (cl row lo hi : Nat) : List Nat :=
  let span := fun (base w : Nat) (a b : Nat) =>
    (List.range (ceilDiv (b * w) 512 - a * w / 512)).map (fun g => blockOf base + 64 * (a * w / 512 + g))
  if hi ≤ lo then []
  else span (o.loc cl (o.d.rowOff row)) o.d.fmt.width lo hi
    ++ (match o.scale with
        | none => []
        | some p => span (o.scaleLoc cl (p.rowOff row)) 8 (lo / 32) (ceilDiv hi 32))

/-- The blocks that a row occupies. -/
def Operand.rowBlocks (o : Operand) (cl row : Nat) : List Nat := o.partBlocks cl row 0 o.d.ext0

/-- The blocks of the first a elements of each of the first b rows, and of everything else. -/
def Operand.tileBlocks (o : Operand) (cl a b : Nat) : List Nat :=
  dedup ((List.range b).flatMap (fun r => o.partBlocks cl r 0 a))
def Operand.restBlocks (o : Operand) (cl a b : Nat) : List Nat :=
  dedup ((List.range o.d.rows).flatMap (fun r => o.partBlocks cl r (if r < b then a else 0) o.d.ext0))

/-- Every block of an operand. -/
def Operand.blocks (o : Operand) (cl : Nat) : List Nat :=
  if o.d.isEmpty then [] else dedup ((List.range o.d.rows).flatMap (o.rowBlocks cl))

/-- Poisoned blocks among those consumed (R189). A block counts once for a command, however often a stream reads it (DESIGN
CHOICE, log entry 29). -/
def poisonedOf (m : Mem) (blocks : List Nat) : Nat := ((dedup blocks).filter m.poisoned).length

/-- Poisoned blocks of whole operands on a cluster. -/
def poisonIn (m : Mem) (cl : Nat) (os : List (Option Operand)) : Nat :=
  poisonedOf m (os.flatMap (fun o => match o with | some x => x.blocks cl | none => []))

/-! ## Writing rows -/

/-- An element to be written: code, scale byte, poison. -/
structure OutElem where
  code : Nat
  scale : Nat
  poison : Bool
  deriving DecidableEq, Repr

/-- Does an element written as this format count as non-finite (R146, R243)? -/
def OutElem.nonFinite (f : Fmt) (e : OutElem) : Bool := f.isData && (e.poison || (decode f e.code e.scale).nonFinite)

/-- Non-finite elements among those written (R146, R243). -/
def nonFiniteOut (f : Fmt) (es : List OutElem) : Nat := (es.filter (fun e => e.nonFinite f)).length

/-- Block writes of elements of a format at the start of a row; `first` is the index of the first one (R30, R172). -/
def codeWrites (loc : Nat) (f : Fmt) (first : Nat) (carry : Bool) (es : List OutElem) : List BlockWr :=
  let w := f.width
  (enumFrom 0 (chunks (512 / w) es)).map (fun p =>
    let fold := p.2.foldl (fun (acc : Nat × Nat × Nat × Bool) x =>
      let (k, m, v, q) := acc
      (k + 1, m + at' (2 ^ w - 1) (w * k), v + at' (x.code % 2 ^ w) (w * k), q || x.poison)) (0, 0, 0, false)
    { loc := loc + first * w / 8 + 64 * p.1, mask := fold.2.1, val := fold.2.2.1, poison := fold.2.2.2, carry := carry
      nf := nonFiniteOut f p.2 })

/-- A scale byte as an element of its plane. -/
def OutElem.ofScale (b : Nat) : OutElem := { code := b, scale := 127, poison := false }

/-- Elements written through an operand (R187). -/
def Operand.marks (o : Operand) (es : List OutElem) : List OutElem :=
  if o.foul then es.map (fun e => { e with poison := true }) else es

/-- The writes of one row of a destination, codes and scale bytes (R166, R188). -/
def Operand.rowWrites (o : Operand) (cl row : Nat) (carry : Bool) (es : List OutElem) : List BlockWr :=
  codeWrites (o.loc cl (o.d.rowOff row)) o.d.fmt 0 carry (o.marks es)
    ++ (match o.scale with
        | none => []
        | some p => codeWrites (o.scaleLoc cl (p.rowOff row)) .s8 0 carry
            ((chunks 32 es).map (fun b => OutElem.ofScale (b.headD (OutElem.ofScale 0)).scale)))

/-- An element moved bitwise. -/
def Elem.out (e : Elem) : OutElem := { code := e.code, scale := e.scale, poison := e.poison }

/-- The element that an out-of-bounds read of a tensor gives (R171). -/
def Operand.fillElem (o : Operand) : Elem :=
  { fmt := o.d.fmt, code := o.d.fill, scale := if o.scale.isSome then o.d.fillScale else 127, poison := o.foul }

/-- SCALE_MODE of a conversion (R176). -/
inductive ScaleMode where
  | auto | source | fixed (b : Nat)
  deriving DecidableEq, Repr

/-- Rounding of a command: stochastic with seed and stream, or to nearest (R44, R52). -/
structure Rounding where
  sr : Bool := false
  seed : Nat := 0
  stream : Nat := 0
  deriving DecidableEq, Repr

/-- The scale byte of a destination block. -/
def blockScale (f : Fmt) (scaled : Bool) (mode : ScaleMode) (b : List Elem) : Nat :=
  if !scaled then 127
  else match mode with
    | .auto => autoScale f (b.map Elem.val)
    | .source => (b.headD { fmt := .fp32, code := 0, scale := 127, poison := false }).scale
    | .fixed x => x

/-- A row of values converted to a destination format (R44 to R52); `index` is the linear index of its first element. -/
def convertRow (f : Fmt) (scaled : Bool) (mode : ScaleMode) (r : Rounding) (index : Nat) (es : List Elem) : List OutElem :=
  (enumFrom 0 (chunks 32 es)).flatMap (fun p =>
    let b := blockScale f scaled mode p.2
    (enumFrom (index + 32 * p.1) p.2).map (fun q =>
      { code := q.2.convert f (rndFor r.sr r.seed r.stream q.1) b, scale := b, poison := q.2.poison }))

/-- A row converted and written. -/
def Operand.convWrites (o : Operand) (cl row : Nat) (mode : ScaleMode) (r : Rounding) (es : List Elem) : List BlockWr :=
  o.rowWrites cl row false (convertRow o.d.fmt o.scale.isSome mode r (row * o.d.ext0) es)

/-! ## The effect of a data-path command -/

/-- A contribution to an accumulation slot (R92): number, elements in row order with poison. -/
structure SlotAdd where
  num : Nat
  elems : List (Word32 × Bool)
  deriving DecidableEq, Repr

/-- What a command does when it runs to its end. `finals` are writes that follow every other (R216); `sums` the rows of
sums that a product forms in its output tiles (R79), `last` its last stationary tile. -/
structure Effect where
  writes : List BlockWr := []
  finals : List BlockWr := []
  ctrs : List (Ctr × Nat) := []
  poisonIn : Nat := 0
  oob : Nat := 0
  count : Nat := 0
  aux : Nat := 0
  unsorted : Bool := false
  slots : List SlotAdd := []
  closes : List Nat := []
  sums : AccTile := []
  last : Option StatTile := none
  deriving DecidableEq, Repr

/-- Two effects one after the other. -/
def Effect.append (a b : Effect) : Effect :=
  { writes := a.writes ++ b.writes, finals := a.finals ++ b.finals, ctrs := a.ctrs ++ b.ctrs
    poisonIn := a.poisonIn + b.poisonIn, oob := a.oob + b.oob, count := a.count + b.count, aux := a.aux + b.aux
    unsorted := a.unsorted || b.unsorted, slots := a.slots ++ b.slots
    closes := a.closes ++ b.closes, sums := a.sums ++ b.sums, last := b.last.orElse (fun _ => a.last) }

/-- The clusters on which a command runs its work whole: once where no operand lies in a cluster buffer, else once for
each target, in ascending order (log entry 13). -/
def Cmd.runClusters (c : Cmd) : List Nat :=
  let t := targetClusters c.target
  if c.ops.any (fun o => o.2.d.space == 1) then t else t.take 1

/-- The effect of a command over its clusters. -/
def Cmd.overClusters (c : Cmd) (f : Nat → Effect) : Effect := (c.runClusters.map f).foldl Effect.append {}

/-- The rounding of a command (R53, R230): SR, its bound or latched seed, and its stream. -/
def Cmd.rounding (c : Cmd) (sr : Bool) (stream : Nat) : Rounding := { sr := sr, seed := c.seed.toNat, stream := stream }

/-- Rows of sums as the accumulator buffer holds them. -/
def accRows (vals : List (List Elem)) : AccTile := vals.map (fun r => r.map (fun e => (e.f32, e.poison)))

/-! ## The output tiles of a product (R79, R80, R190) -/

/-- The row tile height under a STAGE field (R190). -/
def rowTile (stage : Nat) : Nat := min 512 (2 ^ Nat.log2 ((min (max stage 2) 40 * 65536 - 65536) / 256))

/-- A tile fills: A and B in turn. -/
def Part.fill (p : Part) (t : AccTile) : Part :=
  if p.fillB then { p with tileB := t, fillB := false } else { p with tileA := t, fillB := true }

/-- The shares of a command on the arrays of a cluster: core and partition. -/
def Cluster.shares (c : Cluster) (id : Nat) : List (Nat × Nat) :=
  (List.range 28).flatMap (fun i => ((List.range 4).filter (fun u =>
    (vget (vget c.cores i {}).parts u {}).cmd == some id)).map (fun u => (i, u)))

/-- The output tiles of some rows: row tiles of h rows, each cut into column tiles of 128. -/
def outTiles (h : Nat) (rows : AccTile) : List AccTile :=
  (chunks h rows).flatMap (fun rt =>
    (List.range (ceilDiv (rt.headD []).length 128)).map (fun j => rt.map (fun r => (r.drop (128 * j)).take 128)))

/-- The tiles of a command go to its shares in turn (log entry 32). -/
def Cluster.fillTiles (c : Cluster) (id : Nat) (tiles : List AccTile) (last : Option StatTile) : Cluster :=
  let sh := c.shares id
  let mine := fun (k : Nat) => ((enumFrom 0 tiles).filter (fun t => t.1 % sh.length == k)).map (·.2)
  (enumFrom 0 sh).foldl (fun (c : Cluster) (x : Nat × Nat × Nat) =>
    { c with cores := vmod c.cores x.2.1 (fun k => { k with parts := vmod k.parts x.2.2 (fun p =>
        { (mine x.1).foldl Part.fill p with active := last.orElse (fun _ => p.active) }) }) }) c

/-- A product leaves its sums in the output tiles of its shares, on the cluster of each band (R79, R88). -/
def State.fillTiles (s : State) (c : Cmd) (e : Effect) : State :=
  if e.sums.isEmpty then s
  else c.latched.foldl (fun (s : State) (l : Latched) =>
    let rows := (bandRows e.sums.length (targetClusters c.target) l.cluster).map (fun i => e.sums.getD i [])
    s.modCluster l.cluster (fun k =>
      k.fillTiles c.id (outTiles (rowTile (bits l.feeder.toNat 13 8)) rows) e.last)) s

/-- The tag by which commands name this one as a dependency: its HOST_TAG, or its entry index (R229, R394). -/
def Cmd.ownTag (c : Cmd) : Nat :=
  match c.src with
  | .host _ => c.hostTag
  | .seq _ entry _ _ => entry

/-- The drained tiles of a command that lie in cluster buffers, by the offsets of its destinations (R156). -/
def Cmd.bufTiles (c : Cmd) : List BufTile :=
  (if c.opcode == 0x200 then c.ops else []).filterMap (fun o =>
    let kind : Option BufTileKind := match o.1 with
      | 16 => some .plain
      | 24 => some .turned
      | 40 | 48 => some .stat
      | _ => none
    if o.2.d.space == 1 then
      kind.map (fun k => { ctx := c.ctx, owner := c.owner, tag := c.ownTag, clusters := targetClusters c.target, kind := k, d := o.2.d })
    else none)

/-- A command that starts takes its tag from any earlier tile (R388, R394). -/
def State.dropTiles (s : State) (c : Cmd) : State :=
  { s with tiles := s.tiles.filter (fun t => !(t.ctx == c.ctx && t.owner == c.owner && t.tag == c.ownTag)) }

def State.noteTiles (s : State) (c : Cmd) : State := { s with tiles := s.tiles ++ c.bufTiles }

/-- Contributions added in place (R92): one FP32 addition for each element. -/
def State.addSlots (s : State) (ctx : Nat) (adds : List SlotAdd) : State :=
  adds.foldl (fun (s : State) (a : SlotAdd) => { s with slots := s.slots.map (fun k =>
    if k.ctx == ctx && k.num == a.num then
      { k with acc := (k.acc.zip a.elems).map (fun p => fadd p.1 p.2.1)
               poison := (k.poison.zip a.elems).map (fun p => p.1 || p.2.2) }
    else k) }) s

def State.closeSlots (s : State) (ctx : Nat) (nums : List Nat) : State :=
  { s with slots := s.slots.filter (fun k => !(k.ctx == ctx && nums.contains k.num)) }

/-- Counters counted up. -/
def State.bumps (s : State) : List (Ctr × Nat) → State
  | [] => s
  | (c, n) :: r => (s.bump c n).bumps r

/-- A free choice of n of the elements of a list. -/
def freePick : Nat → Nat → List Nat → List Nat
  | _, _, [] => []
  | k, n, a :: r =>
    if n == 0 then []
    else if r.length + 1 ≤ n || Config.freeBit k then a :: freePick (k + 1) (n - 1) r
    else freePick (k + 1) n r

/-- A free choice of the writes, where `sure` does not decide. -/
def freeKeep (sure : BlockWr → Option Bool) : Nat → List BlockWr → List BlockWr
  | _, [] => []
  | k, w :: r =>
    if (sure w).getD (Config.freeBit k) then w :: freeKeep sure (k + 1) r else freeKeep sure (k + 1) r

/-- Counter increments of a command that stopped part way: a free number up to the whole. -/
def freeCtrs (k : Nat) : List (Ctr × Nat) → List (Ctr × Nat)
  | [] => []
  | (c, n) :: r => (c, Config.freeNat k % (n + 1)) :: freeCtrs (k + 1) r

/-- Non-finite elements among some writes (R146, R243), and those of them that NONFINITE_VEC counts (R146, R221). -/
def nfOf (l : List BlockWr) : Nat := (l.map (fun w => w.nf)).sum
def vecNfOf (l : List BlockWr) : Nat := nfOf (l.filter (fun w => w.vec))

/-- NONFINITE_GRAD and the step flag for the elements that a command has written (R243). -/
def State.noteGrad (s : State) (c : Cmd) (nf : Nat) : State :=
  if c.grad && nf != 0 then (s.bump .nonfiniteGrad nf).setNf c.src else s

/-- Does NONFINITE_VEC count what a command writes (R146, R221)? -/
def Cmd.countsVec (c : Cmd) : Bool := (0x400 ≤ c.opcode && c.opcode < 0x500) || c.opcode == 0x630

/-- A command stops part way (R185, R189): a free choice of its block writes has landed, at most `limit` poisoned ones
(all the choice leaves, where none), a free part of its counts, but of the non-finite elements just those that landed
(R146, R243), and FEED_DISCARD takes a free number where cluster feeders read for it. -/
def State.stopEffect (s : State) (c : Cmd) (e : Effect) (limit : Option Nat) : State :=
  let n := e.writes.length
  let locs := freePick s.free (limit.getD 0) (dedup ((e.writes.filter (fun w => w.poison)).map (fun w => w.loc)))
  let sure := fun (w : BlockWr) => if limit.isSome && w.poison then some (locs.contains w.loc) else none
  let ws := freeKeep sure (s.free + n) e.writes
  let part := freeCtrs (s.free + 2 * n) e.ctrs
  let cs := if c.countsVec then (.nonfiniteVec, vecNfOf ws) :: part.filter (fun p => p.1 != .nonfiniteVec) else part
  let disc := if clusterOpcode c.opcode then Config.freeNat (s.free + 2 * n + e.ctrs.length + 1) else 0
  let s := { s with free := s.free + 2 * n + e.ctrs.length + 2 }
  (((s.writeBlocks ws).bumps cs).bump .feedDiscard disc).noteGrad c (nfOf ws)

/-- Poisoned blocks that the effect writes. -/
def Effect.poisonOut (e : Effect) : Nat :=
  (dedup (((e.writes ++ e.finals).filter (fun w => w.poison)).map (fun w => w.loc))).length

/-- The poisoned blocks of memory that the descriptors of a command were read from (R187, R189). -/
def foulOps (ops : List (Nat × Operand)) : Nat := (dedup (ops.flatMap (fun o => o.2.bad))).length

/-- The completion of a command whose effect ran to its end, with the poisoned blocks of its descriptors. -/
def Effect.compl (e : Effect) (c : Cmd) : Compl :=
  { status := Status.ok, count := e.count, aux := e.aux, oob := e.oob != 0, poison := c.part.poison || e.poisonIn != 0
    unsorted := e.unsorted, poisonIn := c.part.poisonIn + e.poisonIn, poisonOut := e.poisonOut }

/-- Does the effect pass its command's POISON_LIMIT (R189), with what the command has written before it? -/
def Effect.overLimit (e : Effect) (c : Cmd) : Bool := c.poisonLimit != 0xFFFF && c.poisonLimit < c.part.poisonOut + e.poisonOut

/-- A command stops before the poisoned block that would pass its limit (R189, R221), with a free part of COUNT and AUX (R402)
and of the poisoned blocks that it read, since those of unread and discarded blocks do not count (R185). -/
def State.stopPoison (s : State) (c : Cmd) (e : Effect) : State :=
  let n := s.freeNat
  let x := n.2.freeNat
  let i := x.2.freeNat
  let bad := c.part.poisonIn + i.1 % (e.poisonIn + 1)
  (i.2.stopEffect c e (some (c.poisonLimit - c.part.poisonOut))).finish c.id
    { status := Status.fltPoison, count := c.part.count + n.1 % (e.count + 1), aux := x.1 % (e.aux + 1)
      poison := bad != 0, poisonIn := bad, poisonOut := c.poisonLimit }

/-- The whole of an effect happens: writes, counters, output tiles, slots and the non-finite flag. -/
def State.landEffect (s : State) (c : Cmd) (e : Effect) : State :=
  let s := ((s.writeBlocks e.writes).writeBlocks e.finals).bumps e.ctrs
  let s := (s.fillTiles c e).noteTiles c
  ((s.addSlots c.ctx e.slots).closeSlots c.ctx e.closes).noteGrad c (nfOf e.writes)

/-- Would a write of the effect be held, because the retry of its block is pending (R202)? -/
def State.retryBlocks (s : State) (e : Effect) : Bool := (e.writes ++ e.finals).any (fun w => s.memside.pendingUe.contains w.loc)

/-- A running command does its whole work and completes, or stops with FLT_POISON. It waits for the retry of a block that it
writes, so that it completes only once its writes have landed (R398). -/
def State.perform (s : State) (c : Cmd) (e : Effect) : State :=
  if s.retryBlocks e then s
  else if e.overLimit c then s.stopPoison c e else (s.landEffect c e).finish c.id (e.compl c)

/-- Has every earlier command of its queue or playbook that names one of its slots made its contribution (R92)? -/
def State.slotTurn (s : State) (c : Cmd) : Bool :=
  !s.cmds.any (fun x => x.id < c.id && !x.isDone && x.ctx == c.ctx && x.owner == c.owner
    && x.slots.any (fun k => c.slots.contains k))

/-- May a command's share on a core stream? It does not wait behind the command whose partition holds its preloaded tile
(R65, R70), nor for the limiter after its start raised the core's class (R469). -/
def Core.streams (k : Core) (id : Nat) : Bool :=
  k.parts.toList.all (fun p => p.next != some id && (p.cmd != some id || k.said ≤ k.cls))

/-- Does a command stream wherever it has a share? -/
def State.mayStream (s : State) (id : Nat) : Bool := s.clusters.toList.all (fun k => k.cores.toList.all (fun x => x.streams id))

/-- A running command with this opcode does its whole work; no other step acts (log entry 7). -/
def State.runOp (s : State) (id opcode : Nat) (f : State → Cmd → Effect) : State :=
  match s.running? id opcode with
  | some c => if s.slotTurn c && s.mayStream id then s.perform c (f s c) else s
  | none => s

/-! ## Checks at start (R396) -/

/-- What the checks of a command's unit found when it starts: failed checks, resolved operands, parameters held in memory
that are read once (R392), and the slots that it names with their output extents (R91): number, rows, columns. -/
structure Started where
  rejs : List Rej := []
  ops : List (Nat × Operand) := []
  held : List Byte := []
  slots : List (Nat × Nat × Nat) := []

/-- A parameter field: offset, size in bytes, mask of the bits in use. -/
abbrev PField := Nat × Nat × Nat

/-- Inline descriptors named by the pointers at these offsets (R391). -/
def Cmd.inlineRanges (c : Cmd) (dptrs : List Nat) : List (Nat × Nat) :=
  dptrs.filterMap (fun o => let v := c.param o 8; if bit v 63 then some (bits v 8 0, 128) else none)

/-- Every parameter byte and bit outside the fields is 0 (R396, R405). -/
def Cmd.reservedRejs (c : Cmd) (dptrs : List Nat) (fields : List PField) : List Rej :=
  let used := dptrs.map (fun o => (o, 8)) ++ fields.map (fun f => (f.1, f.2.1)) ++ c.inlineRanges dptrs
  (fields.flatMap (fun f =>
      need (c.param f.1 f.2.1 &&& ((2 ^ (8 * f.2.1) - 1) ^^^ f.2.2) == 0) Status.rejReserved (64 + f.1)))
    ++ ((enumFrom 0 (c.params.take c.plen)).flatMap (fun p =>
      need (p.2 == 0#8 || used.any (fun u => u.1 ≤ p.1 && p.1 < u.1 + u.2)) Status.rejReserved (64 + p.1)))

/-- Operands and failed checks of several resolutions. -/
def Started.ofResolved (rs : List Resolved) (more : List Rej) : Started :=
  { rejs := more ++ rs.flatMap (·.rejs)
    ops := rs.filterMap (fun r => r.op.map (fun o => (r.off, o))) }

/-- The operand that a resolution gave, for further checks. -/
def opAt (rs : List Resolved) (off : Nat) : Option Operand := (rs.find? (fun r => r.off == off)).bind (·.op)

/-- A check over two operands, where both resolved. -/
def need2 (a b : Option Operand) (p : Operand → Operand → Bool) (st aux : Nat) : List Rej :=
  match a, b with
  | some x, some y => need (p x y) st aux
  | _, _ => []

/-- A check over one operand, where it resolved. -/
def need1 (a : Option Operand) (p : Operand → Bool) (st aux : Nat) : List Rej :=
  match a with
  | some x => need (p x) st aux
  | none => []

/-- A mask of the low n bits. -/
def low (n : Nat) : Nat := 2 ^ n - 1

end Sys2Proof.Machine
end

