-- ==== Sys2Proof/Machine/Sequence.lean ====
section
/-! DEFINITION. Reading a playbook image and issuing its entries (R225 to R234, R253). -/

namespace Sys2Proof.Machine

/-- Bytes that an entry takes in its image (R225). -/
def entrySize (plen : Nat) : Nat := ceilDiv (64 + plen) 64 * 64

/-- PLEN of the packet at an address. -/
def State.plenAt (s : State) (a : Nat) : Nat := bits (fieldAt (s.mem.bytes a 64) 8 8) 24 16

/-- The address of the entry that follows n others, from the address of the first. -/
def State.entryAddr (s : State) (a : Nat) : Nat → Nat
  | 0 => a
  | n + 1 => s.entryAddr (a + entrySize (s.plenAt a)) n

/-- The address of an entry of a running playbook. -/
def State.seqEntryAddr (s : State) (q : Seq) (n : Nat) : Nat := s.entryAddr (q.image + 64) n

/-- The packet of an entry: header and PLEN parameter bytes, read as the entry is issued (R227). -/
def State.packetAt (s : State) (a : Nat) : List Byte := s.mem.bytes a (64 + s.plenAt a)

/-- The opcode of the next entry to issue. -/
def State.nextOp (s : State) (q : Seq) : Nat := fieldAt (s.mem.bytes (q.image + q.offset) 64) 0 2

/-- The parameters of the next entry. -/
def State.nextParam (s : State) (q : Seq) (off n : Nat) : Nat :=
  fieldAt ((s.packetAt (q.image + q.offset)).drop 64) off n

/-- Control entries that act when they are issued and take no place in flight (R233). -/
def immediateOp (op : Nat) : Bool :=
  op == 0x640 || op == 0x641 || op == 0x642 || (0x647 ≤ op && op ≤ 0x64B)

/-- May the sequencer issue its next entry, as far as its own state goes (R228, R231, R232)? -/
def Seq.issuing (q : Seq) : Bool :=
  (q.st == .running || (q.st == .holding && q.holdAtBoundary)) && q.failed.isNone && !q.stopNow && q.entry < q.entries

/-- Commands of a sequencer in flight. -/
def State.seqInFlight (s : State) (n : Nat) : Nat := (s.cmds.filter (fun c => c.ofSeq n)).length

/-- Places in use of the 512 (R27). -/
def State.placesUsed (s : State) : Nat := (s.cmds.filter (fun c => c.placed)).length

/-- PB_FEED entries of a sequencer in flight. Each takes a slot of its own (log entry 14). -/
def State.feedsInFlight (s : State) (n : Nat) : Nat :=
  (s.cmds.filter (fun c => c.ofSeq n && c.opcode == 0x643)).length

/-- The dependencies of an entry: indices resolved to the commands in flight that are their most recent issues, and whether
one of them ended with a lost-member status (R229, R347). -/
def Seq.resolveDeps (q : Seq) (tags : List Nat) : List Nat :=
  dedup (tags.filterMap (fun t => (q.issues.find? (fun p => p.1 == t)).map (·.2)))

/-- The command that the next entry is when it is issued. -/
def State.nextCmd (s : State) (n : Nat) : Cmd :=
  let q := s.seq n
  { id := s.nextId, src := .seq n q.entry q.step q.phase, ctx := q.ctx, packet := s.packetAt (q.image + q.offset), seed := q.seed }

/-- The dependencies of the next entry that are not met. -/
def State.nextDeps (s : State) (q : Seq) : List Nat :=
  q.resolveDeps (Cmd.depTags { id := 0, src := .seq 0 0 0 0, ctx := 0, packet := s.packetAt (q.image + q.offset) })

/-- Does the sequencer wait for a place with an entry that takes one (R228, R236)? A control entry takes one where it has
dependencies to wait for (R233). -/
def State.seqWantsPlace (s : State) (n : Nat) : Bool :=
  let q := s.seq n
  q.issuing && (!immediateOp (s.nextOp q) || !(s.nextDeps q).isEmpty) && s.seqInFlight n < 256
    && (s.nextOp q != 0x643 || s.feedsInFlight n < (q.feedTail - q.feedHead).toNat)

/-- Is the immediate control entry `op` next to issue? -/
def State.seqAt (s : State) (n op : Nat) : Bool := (s.seq n).issuing && s.nextOp (s.seq n) == op

/-- The window of the current step opens at its first entry (R253). -/
def Seq.openWindow (q : Seq) : Seq :=
  if (q.window? q.step).isSome then q
  else { q with
    windows := q.windows ++ [{ step := q.step, heldCycles := q.heldCycles, heldBefore := q.heldBefore, scale := q.scale }]
    heldCycles := 0, heldBefore := false }

/-- The sequencer goes on to the entry after the one just issued. -/
def State.advance (s : State) (n : Nat) : State :=
  let q := s.seq n
  s.modSeq n (fun q' => { q' with
    entry := q.entry + 1, offset := q.offset + entrySize (s.plenAt (q.image + q.offset)) })

/-- The sequencer goes to another entry. -/
def State.jump (s : State) (n entry : Nat) : State :=
  let q := s.seq n
  s.modSeq n (fun q' => { q' with entry := entry, offset := s.seqEntryAddr q entry - q.image })

/-- The statuses of dependencies that ended with a lost member and have no issue in flight. -/
def Seq.lostDeps (q : Seq) (tags : List Nat) : List (Nat × Word32 × Nat) :=
  tags.filterMap (fun t =>
    if q.issues.any (fun p => p.1 == t) then none else q.lost.find? (fun l => l.1 == t))

/-- The requesters of places in turn: queues 0 to 63, sequencers 64 to 67 (R382). -/
def requesters : Nat := 68

/-- How far requester r stands behind the one that was last served. -/
def State.rank (s : State) (r : Nat) : Nat := (r + requesters - 1 - s.turn % requesters) % requesters

/-- The entries that a completion queue holds for admitted commands and for completions not yet consumed (R381). -/
def State.reserved (s : State) (n : Nat) : Nat :=
  let k := s.cq n
  (s.cmds.filter (fun c => c.isHost && !c.written && c.cq == n)).length
    + (if k.size == 0 then 0 else (k.tail + k.size - k.head) % k.size)

/-- Can an entry of a completion queue be reserved (R381)? -/
def State.canReserve (s : State) (n : Nat) : Bool := (s.cq n).en && s.reserved n + 1 ≤ (s.cq n).size - 1

/-- Does queue n wait to have its oldest fetched packet admitted? -/
def State.queueWants (s : State) (n : Nat) : Bool := (s.sq n).waiting != [] && s.canReserve (s.sq n).cq

def State.wantsPlace (s : State) (r : Nat) : Bool :=
  if r < 64 then s.queueWants r else s.seqWantsPlace (r - 64)

/-- Has requester r its turn: fewer requesters wait before it than places are free (R382)? -/
def State.hasTurn (s : State) (r : Nat) : Bool :=
  let before := ((List.range requesters).filter (fun x => x != r && s.wantsPlace x && s.rank x < s.rank r)).length
  before + s.placesUsed < 512

/-- The group in which a command takes a sequence number: collectives, readmits, and the barriers of PB_VERDICT and of a
playbook's SAVE_SHARD (R321, R244, R346). -/
def Cmd.collGroup? (c : Cmd) : Option Nat :=
  let op := c.opcode
  if (0x500 ≤ op && op ≤ 0x505) || op == 0x511 then some (bits (c.param 24 4) 15 0)
  else if op == 0x646 then some (bits (c.param 0 4) 15 0)
  else if op == 0x810 && !c.isHost then some (c.param 24 2)
  else none

def State.group? (s : State) (g : Nat) : Option Group := s.fabric.groups.find? (fun x => x.num == g)

def State.modGroup (s : State) (g : Nat) (f : Group → Group) : State :=
  s.modFabric (fun b => { b with groups := b.groups.map (fun x => if x.num == g then f x else x) })

/-- A command takes the next sequence number of its group, once, where the group is defined (R321). -/
def State.numberColl (s : State) (id : Nat) : State :=
  match s.cmd? id with
  | none => s
  | some c =>
    match c.seqNo, c.collGroup? with
    | none, some g =>
      match s.group? g with
      | some gr => (s.modCmd id (fun c => { c with seqNo := some gr.seq })).modGroup g
          (fun x => { x with seq := (x.seq + 1) % 2 ^ 32 })
      | none => s
    | _, _ => s

/-- The next entry of a sequencer joins the commands in flight (R228 to R230, R234). -/
def State.joinEntry (s : State) (n : Nat) : State :=
  let q := s.seq n
  let c := s.nextCmd n
  let tags := c.depTags
  let lost := q.lostDeps tags
  let c := { c with deps := q.resolveDeps tags, depFailed := lost != []
                    depLost := lost.any (fun l => l.2.2 == Status.fltMemberLost), depBy := lost.head? }
  let s := s.modSeq n (fun q =>
    let q := q.openWindow
    { q with
      issues := (q.entry, s.nextId) :: q.issues.filter (fun p => p.1 != q.entry)
      lost := q.lost.filter (fun l => l.1 != q.entry) })
  ({ s with cmds := s.cmds ++ [c], nextId := s.nextId + 1, turn := 64 + n }).numberColl c.id

/-- A playbook entry is admitted. -/
def State.admitEntry (s : State) (n : Nat) : State := (s.joinEntry n).advance n

/-- A control entry is issued: its window opens, it acts at once, and the sequencer goes on. Where it has dependencies to wait
for, it stays in flight until they are met, so that an entry that names it waits for them too (R233, log entry 14). -/
def State.issueControl (s : State) (n op : Nat) (f : State → State) : State :=
  if !s.seqAt n op then s
  else if (s.nextDeps (s.seq n)).isEmpty then
    f (s.modSeq n (fun q => { q.openWindow with issues := q.issues.filter (fun p => p.1 != q.entry) }))
  else if s.seqWantsPlace n && s.hasTurn (64 + n) then f (s.joinEntry n)
  else s

/-- PLAYBOOK_ISSUE (R228). Immediate control entries have rows of their own. An image that runs out of entries ends as at
PB_END (log entry 14). -/
def State.doPlaybookIssue (s : State) (n : Nat) : State :=
  let q := s.seq n
  if (q.st == .running || (q.st == .holding && q.holdAtBoundary)) && q.failed.isNone && q.entries ≤ q.entry then
    (s.modSeq n (fun q => { q with st := .stopping })).settleSeq n
  else if !immediateOp (s.nextOp q) && s.seqWantsPlace n && s.hasTurn (64 + n) then s.admitEntry n
  else s

def execPlaybookIssue (n : Nat) (s : State) : Host.Outcome State Fault Refusal := .next (s.doPlaybookIssue n)

end Sys2Proof.Machine
end

