-- ==== Sys2Proof/Machine/Admin.lean ====
section
/-! DEFINITION. Contexts and regions: CTX_CREATE and REGION_SET (R383 to R386, R405, R197). -/

namespace Sys2Proof.Machine

/-- A running command whose checks rest on the state of the module alone, which another queue's command may have changed since
it started: they are made again when it acts, and it acts or completes with the lowest failed check (log entry 15). What a
command reads in memory it reads once, when it starts (R392). -/
def State.runChecked (s : State) (id opcode : Nat) (start : State → Cmd → Started) (act : State → Cmd → State) : State :=
  match s.running? id opcode with
  | none => s
  | some c =>
    match worst (start s c).rejs with
    | some r => s.finish id (rejCompl r.1 r.2)
    | none => act s c

/-! ## CTX_CREATE -/

/-- CTX of an admin command. -/
def Cmd.ctxParam (c : Cmd) : Nat := bits (c.param 0 4) 3 0

def State.ctxCreateStart (s : State) (c : Cmd) : Started :=
  { rejs := c.reservedRejs [] [(0, 4, 0xF)]
      ++ need (c.ctxParam != 0 && !(s.context c.ctxParam).live) Status.rejContext 64 }

def State.ctxDestroyStart (s : State) (c : Cmd) : Started :=
  { rejs := c.reservedRejs [] [(0, 4, 0xF)]
      ++ need (c.ctxParam != 0 && (s.context c.ctxParam).live) Status.rejContext 64 }

/-- CTX_CREATE (R383): the context exists, with no valid region. -/
def State.doCtxCreate (s : State) (id : Nat) : State :=
  s.runChecked id 0x000 State.ctxCreateStart (fun s c =>
    (s.modContext c.ctxParam (fun _ => { live := true })).finish id (plainCompl Status.ok))

def execCtxCreate (id : Nat) (s : State) : Host.Outcome State Fault Refusal := .next (s.doCtxCreate id)

/-! ## REGION_SET -/

/-- A region entry from its 128 bits (R384). VALID = 0 clears the entry (R405). -/
def Region.ofNat (w : Nat) : Region :=
  if bit w 63 then
    { valid := true, place := bit w 60, remote := bit w 59, host := bit w 58, write := bit w 57, read := bit w 56
      base := bits w 51 0, limit := bits w 115 64 }
  else {}

def Cmd.regionEntry (c : Cmd) : Region := Region.ofNat (c.param 16 16)
def Cmd.regionIndex (c : Cmd) : Nat := bits (c.param 0 4) 13 8

/-- The HBM4 placement groups that an entry covers (R196, R197). -/
def Region.groups (r : Region) : List Nat :=
  if r.valid then (List.range 256).filter (fun g => r.base < (g + 1) * 2 ^ 32 && g * 2 ^ 32 ≤ r.limit) else []

/-- Every valid entry but entry n of context c. -/
def State.otherRegions (s : State) (c n : Nat) : List Region :=
  ((enumFrom 0 s.contexts.toList).flatMap (fun x => (enumFrom 0 x.2.regions.toList).filterMap (fun y =>
    if x.1 == c && y.1 == n then none else some y.2))).filter (fun r => r.valid)

/-- May the entry stand (R385, R197)? -/
def State.regionOk (s : State) (c n : Nat) (r : Region) : Bool :=
  !r.valid
  || (r.base % 4096 == 0 && r.limit % 4096 == 0xFFF && r.base ≤ r.limit && s.presentSpan r.base (r.limit + 1 - r.base)
      && (!r.place || (r.base % 2 ^ 32 == 0 && (r.limit + 1) % 2 ^ 32 == 0 && isHbm r.limit))
      && (s.otherRegions c n).all (fun o => o.place == r.place || !((r.groups).any (fun g => o.groups.contains g))))

def State.regionSetStart (s : State) (c : Cmd) : Started :=
  { rejs := c.reservedRejs [] [(0, 4, 0x3F0F), (16, 16, low 52 + 0x1F * 2 ^ 56 + 2 ^ 63 + low 52 * 2 ^ 64)]
      ++ need (s.context c.ctxParam).live Status.rejContext 64
      ++ need (s.regionOk c.ctxParam c.regionIndex c.regionEntry) Status.rejRegion 80 }

/-- Commands of a context that run, but for a REGION_SET itself and for a PLAYBOOK_START whose playbook is accepted, which
keeps the checks made at its start as long as its playbook lasts (R386, R540; log entry 15). -/
def State.ctxRunning (s : State) (ctx id : Nat) : Bool :=
  s.cmds.any (fun c => c.ctx == ctx && c.isRunning && c.id != id && (c.opcode != 0x600 || c.stage == .go))

/-- A group takes the placement of an entry that covers it; its stored bytes stay where they are (R197). -/
def State.setPlace (s : State) (local' : Bool) (g : Nat) : State :=
  if s.placed g == local' then s
  else { s with
    mem := s.mem.replace g (s.placed g) local'
    memside := { s.memside with place := if local' then s.memside.place ||| (1#256 <<< g)
                                         else s.memside.place &&& ~~~(1#256 <<< g) } }

/-- The entry takes effect. -/
def State.setRegion (s : State) (ctx n : Nat) (r : Region) : State :=
  (r.groups.foldl (fun s g => s.setPlace r.place g) s).modContext ctx
    (fun x => { x with regions := vset x.regions n r })

/-- REGION_SET (R386): once no command of the context is running. -/
def State.doRegionSet (s : State) (id : Nat) : State :=
  s.runChecked id 0x002 State.regionSetStart (fun s c =>
    if s.ctxRunning c.ctxParam id then s
    else (s.setRegion c.ctxParam c.regionIndex c.regionEntry).finish id (plainCompl Status.ok))

def execRegionSet (id : Nat) (s : State) : Host.Outcome State Fault Refusal := .next (s.doRegionSet id)

end Sys2Proof.Machine
end

