-- ==== Sys2Proof/Machine/FabRoster.lean ====
section
/-! DEFINITION. The roster as a value: its byte stream (R310), the order of R307, the pass table that it gives (R311,
R312), and the levels of a reorientation (R308). -/

namespace Sys2Proof.Machine

/-! ## Ports and pass-table entries (R14, R312) -/

/-- The pass-table entry in force for a destination (R312). -/
def State.passEntry (s : State) (dst : Nat) : PassEntry :=
  ((s.fabric.inForce.find? (fun e => e.1 == dst)).map (·.2)).getD {}

/-- The ports of a set, rising. -/
def portList (set : BitVec 48) : List Nat := (List.range 48).filter (fun n => set.getLsbD n)

/-! ## The roster stream (R310) -/

def Member.word (m : Member) : Nat := m.id + at' m.level 12 + flagAt m.absent 24

def Member.ofWord (w : Nat) : Member := { id := bits w 11 0, level := bits w 23 12, absent := bits w 25 24 == 1 }

def Link.word (l : Link) : Nat := l.lo + at' l.loPort 12 + at' l.hi 18 + at' l.hiPort 30

def Link.ofWord (w : Nat) : Link := { lo := bits w 11 0, loPort := bits w 17 12, hi := bits w 29 18, hiPort := bits w 35 30 }

/-- The block-owner entry of R334. -/
def BlockOwner.word (b : BlockOwner) : Nat := b.keeper + at' b.owner 12 + flagAt b.kept 30 + flagAt b.valid 31

def BlockOwner.ofWord (w : Nat) : BlockOwner :=
  { valid := bit w 31, kept := bit w 30, owner := bits w 23 12, keeper := bits w 11 0 }

/-- Bytes of the block entries of a section, with their padding. -/
def blockBytes (n : Nat) : Nat := 4 * n + 4 * (n % 2)

def TensorSec.bytes (t : TensorSec) : List Byte :=
  natLe 16 (t.group + at' t.tensor 16 + at' t.blocks.length 32)
    ++ bytesAt (t.blocks.flatMap (fun b => natLe 4 b.word)) 0 (blockBytes t.blocks.length)

def Roster.bytes (r : Roster) : List Byte :=
  natLe 16 (r.members.length + at' r.links.length 32 + at' r.tensors.length 64)
    ++ r.members.flatMap (fun m => natLe 8 m.word) ++ r.links.flatMap (fun l => natLe 8 l.word)
    ++ r.tensors.flatMap TensorSec.bytes

/-- n tensor sections read from a stream. -/
def readTensors : Nat → List Byte → List TensorSec
  | 0, _ => []
  | n + 1, l =>
    if l.isEmpty then []
    else
      let k := min (fieldAt l 4 4) (l.length / 4)
      { group := fieldAt l 0 2, tensor := fieldAt l 2 2
        blocks := (List.range k).map (fun i => BlockOwner.ofWord (fieldAt l (16 + 4 * i) 4)) }
        :: readTensors n (l.drop (16 + blockBytes k))

/-- The roster that a stream gives. -/
def Roster.ofBytes (epoch : Nat) (l : List Byte) : Roster :=
  let m := min (fieldAt l 0 4) (l.length / 8)
  let k := min (fieldAt l 4 4) (l.length / 8)
  { epoch := epoch
    members := (List.range m).map (fun i => Member.ofWord (fieldAt l (16 + 8 * i) 8))
    links := (List.range k).map (fun i => Link.ofWord (fieldAt l (16 + 8 * m + 8 * i) 8))
    tensors := readTensors (min (fieldAt l 8 4) (l.length / 16)) (l.drop (16 + 8 * m + 8 * k)) }

/-- The roster's entry of a global block. -/
def Roster.block (r : Roster) (g t b : Nat) : BlockOwner :=
  ((r.tensors.find? (fun x => x.group == g && x.tensor == t)).map (fun x => x.blocks.getD b {})).getD {}

/-! ## Members and links -/

namespace Roster

def presentIds (r : Roster) : List Nat := (r.members.filter (fun m => !m.absent)).map (·.id)

def isPresent (r : Roster) (id : Nat) : Bool := r.members.any (fun m => m.id == id && !m.absent)

def levelOf (r : Roster) (id : Nat) : Nat := ((r.members.find? (fun m => m.id == id)).map (·.level)).getD 0

/-- The captain: the present member of lowest ID (R306). -/
def captain (r : Roster) : Nat := (r.presentIds.head?).getD 0

/-- The links of a module to present members: its port and the far module. -/
def nbrs (r : Roster) (id : Nat) : List (Nat × Nat) :=
  (r.links.filterMap (fun l =>
    if l.lo == id then some (l.loPort, l.hi) else if l.hi == id then some (l.hiPort, l.lo) else none)).filter
      (fun p => r.isPresent p.2)

/-- Does a come below b in the order of R307? -/
def below (r : Roster) (a b : Nat) : Bool :=
  r.levelOf a < r.levelOf b || (r.levelOf a == r.levelOf b && a < b)

/-- The present members, rising in the order of R307. -/
def rising (r : Roster) : List Nat := sortBy r.below r.presentIds

end Roster

/-- The smaller of two distances, none for no route. -/
def nearer (a b : Option Nat) : Option Nat :=
  match a, b with
  | some x, some y => some (min x y)
  | some x, none => some x
  | none, y => y

def distOf (l : List (Nat × Nat)) (id : Nat) : Option Nat := (l.find? (fun p => p.1 == id)).map (·.2)

/-- One more link than the nearest of some modules. -/
def viaNbrs (l : List (Nat × Nat)) (ids : List Nat) : Option Nat :=
  (ids.foldl (fun acc i => nearer acc (distOf l i)) none).map (· + 1)

/-- Links to a destination by down links only: the order is followed from the highest module to the lowest. -/
def Roster.downDists (r : Roster) (dst : Nat) : List (Nat × Nat) :=
  (r.rising.reverse).foldl (fun (acc : List (Nat × Nat)) x =>
    let d := if x == dst then some 0
             else viaNbrs acc (((r.nbrs x).map (·.2)).filter (fun y => r.below x y))
    match d with
    | some n => (x, n) :: acc
    | none => acc) []

/-- Links to a destination by a legal route (R311): up links, then down links. -/
def Roster.legalDists (r : Roster) (dst : Nat) : List (Nat × Nat) :=
  let down := r.downDists dst
  r.rising.foldl (fun (acc : List (Nat × Nat)) x =>
    let up := viaNbrs acc (((r.nbrs x).map (·.2)).filter (fun y => r.below y x))
    match nearer (distOf down x) up with
    | some n => (x, n) :: acc
    | none => acc) []

/-- A set of ports. -/
def portSet (l : List Nat) : BitVec 48 := l.foldl (fun acc p => acc ||| BitVec.ofNat 48 (2 ^ p)) 0#48

/-- The pass-table entry of a module for a destination (R312). -/
def Roster.passEntry (r : Roster) (me dst : Nat) : PassEntry :=
  let down := r.downDists dst
  let legal := r.legalDists dst
  match distOf legal me with
  | none => {}
  | some n =>
    let nb : List (Nat × Nat) := r.nbrs me
    let starts : List (Nat × Nat) := nb.filter (fun (p : Nat × Nat) =>
      if r.below p.2 me then distOf legal p.2 == some (n - 1) else distOf down p.2 == some (n - 1))
    let downs : List (Nat × Nat) := match distOf down me with
      | some k => nb.filter (fun (p : Nat × Nat) => r.below me p.2 && distOf down p.2 == some (k - 1))
      | none => []
    { ports := portSet (starts.map (·.1)), down := portSet (downs.map (·.1)), hops := satTo 8 n, valid := true }

/-- The table that the Referee computes: an entry for every other present member. -/
def Roster.passTable (r : Roster) (me : Nat) : List (Nat × PassEntry) :=
  (r.presentIds.filter (fun d => d != me)).map (fun d => (d, r.passEntry me d))

/-- Can every pair of present members reach each other by legal routes (R307)? -/
def Roster.connected (r : Roster) : Bool :=
  r.presentIds.all (fun d => let l := r.legalDists d; r.presentIds.all (fun x => (distOf l x).isSome))

/-- Breadth-first levels from a frontier; fuel bounds the levels. -/
def Roster.bfs (r : Roster) : Nat → Nat → List Nat → List (Nat × Nat) → List (Nat × Nat)
  | 0, _, _, seen => seen
  | fuel + 1, lvl, frontier, seen =>
    let next := dedup ((frontier.flatMap (fun x => (r.nbrs x).map (·.2))).filter (fun y => (distOf seen y).isNone))
    if next.isEmpty then seen else r.bfs fuel (lvl + 1) next (seen ++ next.map (fun y => (y, lvl + 1)))

/-- The roster with the levels of a reorientation (R308). -/
def Roster.relevel (r : Roster) : Roster :=
  let c := r.captain
  let d := r.bfs r.members.length 0 [c] [(c, 0)]
  { r with members := r.members.map (fun m => match m.absent, distOf d m.id with
      | false, some n => { m with level := n }
      | _, _ => m) }

/-- A link by its two ends, the lower ID first. -/
def mkLink (a ap b bp : Nat) : Link :=
  if a < b then { lo := a, loPort := ap, hi := b, hiPort := bp } else { lo := b, loPort := bp, hi := a, hiPort := ap }

def Link.before (x y : Link) : Bool := x.lo < y.lo || (x.lo == y.lo && x.loPort < y.loPort)

def Link.hasEnd (l : Link) (id port : Nat) : Bool :=
  (l.lo == id && l.loPort == port) || (l.hi == id && l.hiPort == port)

def Link.touches (l : Link) (id : Nat) : Bool := l.lo == id || l.hi == id

/-- A link added once, in its order. -/
def Roster.addLink (r : Roster) (l : Link) : Roster :=
  { r with links := sortBy Link.before (l :: r.links.filter (fun x => x != l)) }

/-- A member added or admitted again, in ascending ID. -/
def Roster.seat (r : Roster) (id level : Nat) : Roster :=
  let m : Member := { id := id, level := level, absent := false }
  { r with members := sortBy (fun (x y : Member) => x.id < y.id) (m :: r.members.filter (fun m => m.id != id)) }

/-- A member marked absent, with its links removed. -/
def Roster.lose (r : Roster) (id : Nat) : Roster :=
  { r with members := r.members.map (fun m => if m.id == id then { m with absent := true } else m)
           links := r.links.filter (fun l => !l.touches id) }

/-- A member removed. -/
def Roster.drop (r : Roster) (id : Nat) : Roster :=
  { r with members := r.members.filter (fun m => m.id != id), links := r.links.filter (fun l => !l.touches id) }

/-- Links with a lost end removed, and every present member without a link, but for the captain, absent (R306). -/
def Roster.cutLinks (r : Roster) (captain : Nat) (cut : List (Nat × Nat)) : Roster :=
  let r := { r with links := r.links.filter (fun l => !(cut.any (fun e => l.hasEnd e.1 e.2))) }
  { r with members := r.members.map (fun m =>
      if !m.absent && m.id != captain && !(r.links.any (fun l => l.touches m.id)) then { m with absent := true } else m) }

end Sys2Proof.Machine
end

