-- ==== Sys2Proof/Machine/Move.lean ====
section
/-! DEFINITION. The move commands (spec/07_layout_and_feeding.md, R175 to R180; R408). -/

namespace Sys2Proof.Machine

/-! ## Parameters -/

def Cmd.moveMode (c : Cmd) : ScaleMode :=
  match bits (c.param 24 4) 1 0 with
  | 0 => .auto
  | 1 => .source
  | _ => .fixed (bits (c.param 24 4) 10 3)

def Cmd.moveSr (c : Cmd) : Bool := bit (c.param 24 4) 2
def Cmd.moveRounding (c : Cmd) : Rounding := c.rounding c.moveSr (bits (c.param 24 4) 30 11)

/-- π(d) of MOVE_PERMUTE. -/
def Cmd.perm (c : Cmd) (d : Nat) : Nat := (c.param 32 4 >>> (4 * d)) % 16

/-- Is π a permutation of 0 to n - 1 (R408)? -/
def Cmd.permOk (c : Cmd) (n : Nat) : Bool := (List.range n).all (fun d => ((List.range n).map c.perm).contains d)

/-- Does a copy of this form move codes bitwise (R176)? R180 names the cases without stochastic rounding: SCALE_MODE 1, or
a format that carries no scale plane. -/
def Cmd.bitwise (c : Cmd) (src dst : Operand) : Bool :=
  src.d.fmt == dst.d.fmt
    && (!src.d.fmt.isData || (!c.moveSr && (c.moveMode == .source || (src.scale.isNone && dst.scale.isNone))))

/-- The in-place form of MOVE_PERMUTE (R180). "The format carries no scale plane" is taken to hold of an FP8 tensor that names none
(DESIGN CHOICE, log entry 35). -/
def Cmd.inPlace (c : Cmd) (src dst : Operand) : Bool :=
  let n := src.d.ndim
  let moved := (List.range n).filter (fun d => c.perm d != d)
  src == dst && !c.moveSr && (c.moveMode == .source || !src.d.fmt.scalable || src.scale.isNone) && c.permOk n
    && (match moved with
        | [a, b] => src.d.extent a == src.d.extent b && (a != 0 || src.scale.isNone)
        | _ => false)

/-! ## Checks at start -/

/-- Formats of a copy: equal where either is no data format (R176). -/
def copyFormats (s d : Operand) : Bool := s.d.fmt == d.d.fmt || (s.d.fmt.isData && d.d.fmt.isData)

/-- The checks of MOVE_COPY and MOVE_PERMUTE. SCALE_MODE 3 is rejected for formats that ignore SCALE_MODE as well (DESIGN CHOICE:
R176 and R408; log entry 35). -/
def State.moveCopyStart (s : State) (c : Cmd) (permute : Bool) : Started :=
  let rs := [s.resolve c 0 .src anyFmts, s.resolve c 8 .dst anyFmts]
  let src := opAt rs 0
  let dst := opAt rs 8
  let ctrl := c.param 24 4
  let fields : List PField := [(24, 4, low 31)] ++ (if permute then [(32, 4, low 32)] else [])
  let sameExt := fun (x y : Operand) =>
    x.d.ndim == y.d.ndim && (List.range x.d.ndim).all (fun d => y.d.extent d == x.d.extent (if permute then c.perm d else d))
  Started.ofResolved rs (c.reservedRejs [0, 8] fields ++ need (bits ctrl 1 0 != 3) Status.rejReserved 88
    ++ need2 src dst copyFormats Status.rejFormat 64
    ++ need1 src (fun x => !permute || c.permOk x.d.ndim) Status.rejShape 96
    ++ need2 src dst sameExt Status.rejShape 72
    ++ need2 src dst (fun x y => !permute || x.d.ndim == 0 || c.perm 0 == 0 || y.d.scalePtr == 0 || c.moveMode != .source)
        Status.rejLayout 88
    ++ need2 src dst (fun x y => (permute && c.inPlace x y) || !y.meets x) Status.rejOverlap 72
    ++ need1 dst (fun y => !y.selfMeets) Status.rejOverlap 72)

/-- MOVE_FILL fills a tensor of any format, S8 and INT32 among them (DESIGN CHOICE: R165 asks for a data format where a rule
names no other, and R408 names BIT; log entry 35). -/
def State.moveFillStart (s : State) (c : Cmd) : Started :=
  let rs := [s.resolve c 8 .dst anyFmts]
  Started.ofResolved rs (c.reservedRejs [8] [(16, 4, low 32), (20, 1, low 8)]
    ++ need1 (opAt rs 8) (fun x => c.param 16 4 < 2 ^ x.d.fmt.width) Status.rejReserved 80)

/-- NDIM 2, one group a row, one row an entry (R178). -/
def packedGroups (p t : Operand) (n : Nat) : Bool :=
  p.d.ndim == 2 && p.d.ext0 == t.d.fmt.perGroup && p.d.extent 1 == n

def State.moveBlocksStart (s : State) (c : Cmd) (scatter : Bool) : Started :=
  let rs := [s.resolve c 0 .src dataFmts, s.resolve c 8 .dst dataFmts, s.resolve c 16 .src [.int32]]
  let src := opAt rs 0
  let dst := opAt rs 8
  let list := opAt rs 16
  let table := if scatter then dst else src
  let packed := if scatter then src else dst
  Started.ofResolved rs (c.reservedRejs [0, 8, 16] []
    ++ need2 list table (fun l t => l.d.ndim == 1 && l.d.ext0 % t.d.ndim == 0) Status.rejShape 80
    ++ need2 src dst (fun x y => x.d.fmt == y.d.fmt && (x.d.scalePtr != 0) == (y.d.scalePtr != 0)) Status.rejFormat 64
    ++ given list (fun l => need2 packed table (fun p t => packedGroups p t (l.d.ext0 / max t.d.ndim 1))
        Status.rejShape (if scatter then 64 else 72))
    ++ overlapRejs dst [src, list] 72 ++ need1 dst (fun y => !y.selfMeets) Status.rejOverlap 72)

/-! ## Effects -/

/-- The multi-index of a linear row, dimension 1 first. -/
def rowIndex : List Nat → Nat → List Nat
  | [], _ => []
  | e :: es, r => r % e :: rowIndex es (r / e)

/-- The linear row of a multi-index over dimensions 1 to 5. -/
def rowOfIndex : List Nat → List Nat → Nat
  | e :: es, i :: is => i + e * rowOfIndex es is
  | _, _ => 0

/-- The source element of destination element (i, row): i_π(d) = j_d (R179). -/
def permuted (src : Desc) (dst : Desc) (perm : Nat → Nat) (i row : Nat) : Nat × Nat :=
  let j := i :: rowIndex dst.outer row
  let idx := (List.range 6).map (fun k =>
    match (List.range src.ndim).find? (fun d => perm d == k) with
    | some d => j.getD d 0
    | none => 0)
  (idx.headD 0, rowOfIndex src.outer (idx.drop 1))

/-- The effect of a copy or permute on one cluster (R176, R179). -/
def State.copyEffect (s : State) (c : Cmd) (src dst : Operand) (perm : Nat → Nat) (cl : Nat) : Effect :=
  let row := fun r => (List.range dst.d.ext0).map (fun i =>
    let p := permuted src.d dst.d perm i r
    src.elem s.mem cl p.1 p.2)
  let outs := (List.range dst.d.rows).map (fun r =>
    if c.bitwise src dst then (r, true, (row r).map (fun e => { code := e.code, scale := e.scale, poison := e.poison : OutElem }))
    else (r, false, convertRow dst.d.fmt dst.scale.isSome c.moveMode c.moveRounding (r * dst.d.ext0) (row r)))
  { writes := outs.flatMap (fun o => dst.rowWrites cl o.1 o.2.1 o.2.2)
    poisonIn := poisonIn s.mem cl [some src] }

def State.moveCopyEffect (s : State) (c : Cmd) : Effect :=
  match c.op? 0, c.op? 8 with
  | some src, some dst => c.overClusters (s.copyEffect c src dst id)
  | _, _ => {}

def State.movePermuteEffect (s : State) (c : Cmd) : Effect :=
  match c.op? 0, c.op? 8 with
  | some src, some dst => c.overClusters (s.copyEffect c src dst c.perm)
  | _, _ => {}

/-- One value and scale byte in every element (R175, R408). -/
def State.moveFillEffect (_s : State) (c : Cmd) : Effect :=
  match c.op? 8 with
  | some dst => c.overClusters (fun cl =>
      let es := List.replicate dst.d.ext0 { code := c.param 16 4, scale := c.param 20 1, poison := false : OutElem }
      { writes := (List.range dst.d.rows).flatMap (fun r => dst.rowWrites cl r false es) })
  | none => {}

/-- Coordinates of entry e of a block-coordinate list; none where it is out of bounds (R177, R134). -/
def blockCoord (m : Mem) (cl : Nat) (list : Operand) (t : Desc) (e : Nat) : Option (Nat × Nat) :=
  let n := t.ndim
  let xs := (List.range n).map (fun d => (list.elem m cl (e * n + d) 0).index)
  let groups := ceilDiv t.ext0 t.fmt.perGroup
  let ok := (enumFrom 0 xs).all (fun p => match p.2 with
    | some v => 0 ≤ v && v < (if p.1 == 0 then groups else t.extent p.1 : Nat)
    | none => false)
  if ok then
    let ns := xs.map (fun v => (v.getD 0).toNat)
    some (ns.headD 0, rowOfIndex t.outer (ns.drop 1))
  else none

/-- The elements of channel group g of a row. -/
def groupElems (o : Operand) (m : Mem) (cl g row : Nat) : List Elem :=
  (List.range o.d.fmt.perGroup).map (fun k => o.elem m cl (g * o.d.fmt.perGroup + k) row)

/-- The writes of a whole group into row-group (g, row) of an operand: in-bounds elements and their scale bytes, moved
bitwise (R178). -/
def groupWrites (o : Operand) (cl g row : Nat) (es : List Elem) : List BlockWr :=
  let per := o.d.fmt.perGroup
  let es := es.take (o.d.ext0 - g * per)
  codeWrites (o.loc cl (o.d.rowOff row)) o.d.fmt (g * per) true (o.marks (es.map Elem.out))
    ++ (match o.scale with
        | none => []
        | some p => (enumFrom 0 (chunks 32 es)).flatMap (fun b =>
            let i := g * per / 32 + b.1
            let loc := o.scaleLoc cl (p.rowOff row)
            [{ loc := loc + 64 * (i / 64), mask := at' 255 (8 * (i % 64))
               val := at' ((b.2.headD { fmt := .fp32, code := 0, scale := 127, poison := false }).scale % 256) (8 * (i % 64))
               poison := false, carry := true }]))

/-- Entries served by a copy: an equal entry lies at most 255 positions before (R122). Out-of-bounds entries are none. -/
def coalescedFrom {α : Type} [BEq α] : List (Option α) → List (Option α) → Nat
  | _, [] => 0
  | w, x :: r =>
    (match x with
      | some _ => if w.contains x then 1 else 0
      | none => 0) + coalescedFrom ((x :: w).take 255) r

def coalesced {α : Type} [BEq α] (l : List (Option α)) : Nat := coalescedFrom [] l

/-- The gather of channel groups (R178): an out-of-bounds entry writes the source's fill. -/
def State.gatherBlocksEffect (s : State) (c : Cmd) : Effect :=
  match c.op? 0, c.op? 8, c.op? 16 with
  | some src, some dst, some list => c.overClusters (fun cl =>
      let n := list.d.ext0 / src.d.ndim
      let cs := (List.range n).map (fun e => (e, blockCoord s.mem cl list src.d e))
      let fill := List.replicate src.d.fmt.perGroup
        src.fillElem
      let inb := cs.filterMap (·.2)
      let blocks := inb.flatMap (fun p =>
        [blockOf (src.loc cl (src.d.rowOff p.2)) + 64 * p.1]
          ++ (match src.scale with
              | some q => [blockOf (src.scaleLoc cl (q.rowOff p.2 + p.1 * src.d.fmt.perGroup / 32))] | none => []))
      let outs := cs.map (fun p => (p.1, match p.2 with
        | some q => groupElems src s.mem cl q.1 q.2
        | none => fill))
      { writes := outs.flatMap (fun o => groupWrites dst cl 0 o.1 o.2)
        ctrs := [(.oobCount, n - inb.length), (.gatherCoalesced, coalesced (cs.map (·.2)))]
        poisonIn := poisonIn s.mem cl [some list] + poisonedOf s.mem blocks
        oob := n - inb.length, count := n - inb.length })
  | _, _, _ => {}

/-- Entries that name one destination group: the last in list order remains (R124). -/
def State.scatterBlocksEffect (s : State) (c : Cmd) : Effect :=
  match c.op? 0, c.op? 8, c.op? 16 with
  | some src, some dst, some list => c.overClusters (fun cl =>
      let n := list.d.ext0 / dst.d.ndim
      let cs := (List.range n).filterMap (fun e => (blockCoord s.mem cl list dst.d e).map (fun p => (e, p)))
      let last := cs.filter (fun x => !(cs.any (fun y => y.2 == x.2 && x.1 < y.1)))
      { writes := last.flatMap (fun x => groupWrites dst cl x.2.1 x.2.2 (groupElems src s.mem cl 0 x.1))
        ctrs := [(.oobCount, n - cs.length)]
        poisonIn := poisonIn s.mem cl [some list, some src]
        oob := n - cs.length, count := n - cs.length })
  | _, _, _ => {}

/-! ## Meanings -/

/-- MOVE_COPY (R176). -/
def execMoveCopy (id : Nat) (s : State) : Host.Outcome State Fault Refusal := .next (s.runOp id 0x100 State.moveCopyEffect)

/-- MOVE_FILL (R175). -/
def execMoveFill (id : Nat) (s : State) : Host.Outcome State Fault Refusal := .next (s.runOp id 0x101 State.moveFillEffect)

/-- MOVE_PERMUTE (R179). -/
def execMovePermute (id : Nat) (s : State) : Host.Outcome State Fault Refusal :=
  .next (s.runOp id 0x102 State.movePermuteEffect)

/-- MOVE_GATHER_BLOCKS (R178). -/
def execMoveGatherBlocks (id : Nat) (s : State) : Host.Outcome State Fault Refusal :=
  .next (s.runOp id 0x110 State.gatherBlocksEffect)

/-- MOVE_SCATTER_BLOCKS (R178). -/
def execMoveScatterBlocks (id : Nat) (s : State) : Host.Outcome State Fault Refusal :=
  .next (s.runOp id 0x111 State.scatterBlocksEffect)

end Sys2Proof.Machine
end

