-- ==== Sys2Proof/Machine/Playbook.lean ====
section
/-! DEFINITION. Playbooks: PLAYBOOK_START, HOLD and RESUME, the control entries, feed and post, the loss, step boundaries and
step records (spec/09_playbook_training_step.md; R345, R411, R420). -/

namespace Sys2Proof.Machine

/-! ## Loss scale and PB_CFG (R249, R251) -/

/-- 2^k as FP32, k from 0 to 126. -/
def pow2F32 (k : Nat) : Word32 := BitVec.ofNat 32 (at' (127 + k) 23)

def scaleMaxExp (cfg : Nat) : Nat := min (bits cfg 31 24) 126
def scaleMinExp (cfg : Nat) : Nat := if scaleMaxExp cfg < bits cfg 23 16 then scaleMaxExp cfg else bits cfg 23 16

/-- A power of two from 2^SCALE_MIN_EXP to 2^SCALE_MAX_EXP (R249). -/
def scaleOk (cfg : Nat) (w : Word32) : Bool :=
  w.toNat % 2 ^ 23 == 0 && 127 + scaleMinExp cfg ≤ w.toNat / 2 ^ 23 && w.toNat / 2 ^ 23 ≤ 127 + scaleMaxExp cfg

/-- SPIKE_THR as it acts. -/
def spikeThr (cfg : Nat) : Word32 :=
  let w := BitVec.ofNat 32 (bits cfg 63 32)
  let v := ofF32 w
  if v.nonFinite || v.lt Val.zero then 0x3F000000#32 else w

/-- The 128 bytes of a verdict record (R245). -/
def verdictBytes (valid noBall localNf degraded : Bool) (members step clean : Nat) (scale gs : Word32) : List Byte :=
  natLe 128 (flagAt valid 0 + flagAt noBall 1 + flagAt localNf 2 + flagAt degraded 3 + at' (members % 8192) 16
    + at' (step % 2 ^ 32) 32 + at' (clean % 2 ^ 32) 64 + at' scale.toNat 512 + at' gs.toNat 544)

/-- A verdict record written as two whole blocks. -/
def State.writeVerdict (s : State) (a : Nat) (b : List Byte) : State :=
  s.writeBlocks [BlockWr.full a (bytesAt b 0 64) false false, BlockWr.full (a + 64) (bytesAt b 64 64) false false]

/-! ## Checks of an image (R225, R226, R241, R420) -/

/-- An entry of an image: its packet, and whether it ends within IMAGE_BYTES. -/
structure Entry where
  packet : List Byte
  fits : Bool

/-- The entries of an image from an address, `n` of them, while they fit. -/
def State.imageEntries (s : State) (a limit : Nat) : Nat → List Entry
  | 0 => []
  | n + 1 =>
    if a + 64 ≤ limit then
      let e := a + entrySize (s.plenAt a)
      { packet := s.packetAt a, fits := e ≤ limit } :: (if e ≤ limit then s.imageEntries e limit n else [])
    else [{ packet := [], fits := false }]

/-- A packet as a command, to read its fields. -/
def entryCmd (ctx : Nat) (p : List Byte) : Cmd := { id := 0, src := .seq 0 0 0 0, ctx := ctx, packet := p }

/-- Opcodes that a playbook may hold (R226, R403). -/
def playbookOp (op : Nat) : Bool :=
  (0x100 ≤ op && op < 0x600) || op == 0x630 || (0x640 ≤ op && op ≤ 0x64B) || (0x700 ≤ op && op < 0xA00)

/-- The parameter fields of the control entries (R420). -/
def controlFields (op : Nat) : List Nat × List PField :=
  match op with
  | 0x640 => ([], [(0, 4, 0xF)])
  | 0x641 => ([], [(0, 4, 0xFFFF)])
  | 0x643 => ([0], [])
  | 0x644 => ([0], [(8, 4, 1)])
  | 0x645 => ([0], [])
  | 0x646 => ([], [(0, 4, 0xFFFF)])
  | 0x64B => ([], [(0, 8, low 64), (8, 4, 1)])
  | _ => ([], [])

/-- Are the bits of a descriptor pointer that must be 0 all 0, and those of a descriptor that lies in the parameters (R391, R420)? -/
def Cmd.ptrClean (c : Cmd) (off : Nat) : Bool :=
  let v := c.param off 8
  let o := bits v 8 0
  if bit v 63 then bits v 62 9 == 0 && (c.plen < o + 128 || descClean (bytesAt c.params o 128)) else bits v 62 52 == 0

/-- One entry obeys R226, R393, R420 and R493, and R241 and R261 in a relay playbook. -/
def State.entryOk (s : State) (relay : Bool) (ctx : Nat) (reserved : List Byte → Bool) (known : Nat → Bool) (e : Entry) : Bool :=
  let c := entryCmd ctx e.packet
  let op := c.opcode
  e.fits && playbookOp op && known op && !reserved e.packet && c.plen ≤ 448 && c.plen % 8 == 0
    && (if clusterOpcode op then (c.target ≤ 11 || c.target == 15) && (targetClusters c.target).all (fun n => !(s.cluster n).out)
        else c.target == 0)
    && (!(0x640 ≤ op && op ≤ 0x64B)
        || (c.reservedRejs (controlFields op).1 (controlFields op).2 == [] && (controlFields op).1.all c.ptrClean))
    && (op != 0x640 || bits (c.param 0 4) 3 0 ≤ (if relay then 2 else 6))
    && (!relay || !((0x500 ≤ op && op < 0x600) || op == 0x630 || (0x700 ≤ op && op < 0x900) || op == 0x646 || op == 0x647
          || c.slots != []))

/-- PB_LOOP and PB_ENDLOOP pair, nest at most 4 deep, and a count of 0 is outermost; PB_IF_CLEAN and PB_ENDIF pair and are not
nested (R226). The open loops (true) and IFs (false), innermost first, close in order (log entry 14). -/
def blocksOk : List Bool → List (Nat × Nat) → Bool
  | st, [] => st == []
  | st, (op, count) :: r =>
    let loops := (st.filter id).length
    match op with
    | 0x641 => loops < 4 && (count != 0 || loops == 0) && blocksOk (true :: st) r
    | 0x642 => st.headD false && blocksOk st.tail r
    | 0x647 => !st.contains false && blocksOk (false :: st) r
    | 0x648 => !st.headD true && blocksOk st.tail r
    | _ => blocksOk st r

/-- IMAGE_BYTES of an image. -/
def State.imageSize (s : State) (a : Nat) : Nat := fieldAt (s.mem.bytes a 64) 12 4

/-- The whole image obeys R225 and R226. -/
def State.imageOk (s : State) (relay : Bool) (ctx a : Nat) (reserved : List Byte → Bool) (known : Nat → Bool) : Bool :=
  let h := s.mem.bytes a 64
  let n := fieldAt h 8 4
  let size := s.imageSize a
  let es := s.imageEntries (a + 64) (a + size) n
  let ops := es.map (fun e => (fieldAt e.packet 0 2, bits (fieldAt e.packet 64 4) 15 0))
  fieldAt h 0 4 == 0x42504C47 && fieldAt h 4 2 == 1 && fieldAt h 6 2 == 0 && fieldAt h 16 48 == 0
    && 1 ≤ n && n ≤ 65536 && size == 64 + (es.map (fun e => entrySize (entryCmd 0 e.packet).plen)).sum && size ≤ 2 ^ 24
    && es.length == n && es.all (s.entryOk relay ctx reserved known) && blocksOk [] ops

/-! ## PLAYBOOK_START (R226, R235, R238, R245, R411) -/

namespace Cmd
def pbImage (c : Cmd) : Nat := c.param 0 8
def pbVerdict (c : Cmd) : Nat := c.param 40 8
def pbCtrl (c : Cmd) : Nat := c.param 52 4
def pbRelay (c : Cmd) : Bool := bit c.pbCtrl 8
def pbRelaySeq (c : Cmd) : Nat := bits c.pbCtrl 10 9
/-- The sequencer that a PLAYBOOK_START took when it started. -/
def pbSeq (c : Cmd) : Nat := fieldAt c.held 0 1
/-- The image header that it read then. -/
def pbHeader (c : Cmd) : List Byte := c.held.drop 1
/-- Has it started without its playbook being accepted yet? -/
def pbPending (c : Cmd) : Bool := c.opcode == 0x600 && c.isRunning && c.stage == .go
end Cmd

/-- The lowest free sequencer (R411): idle, and not taken by a PLAYBOOK_START that has started. -/
def State.freeSeq (s : State) : Option Nat :=
  (List.range 4).find? (fun n => (s.seq n).st == .idle && !s.cmds.any (fun c => c.pbPending && c.pbSeq == n))

/-- A ring's slot size and count (R235). -/
def ringOk (slot slots : Nat) : Bool := slot != 0 && slot % 4096 == 0 && isPow2 slots && slots ≤ 4096

def State.playbookStartStart (s : State) (reserved : List Byte → Bool) (known : Nat → Bool) (c : Cmd) : Started :=
  let a := c.pbImage
  let v := c.pbVerdict
  let inOk := ringOk (c.param 24 4) (c.param 32 2)
  let resOk := ringOk (c.param 28 4) (c.param 34 2)
  -- a sequencer without a playbook is at a boundary, where the word last written is in force (R428, R429)
  let cfg := (s.seq (s.freeSeq.getD 0)).cfg.shadow.toNat
  let readable := s.allows c.ctx a 64 true false
  { held := BitVec.ofNat 8 (s.freeSeq.getD 0) :: s.mem.bytes a 64
    rejs := c.reservedRejs [] [(0, 8, low 64), (8, 8, low 64), (16, 8, low 64), (24, 4, low 32), (28, 4, low 32),
        (32, 2, low 16), (34, 2, low 16), (36, 4, low 32), (40, 8, low 64), (48, 4, low 32), (52, 4, 0x73F),
        (56, 8, low 64), (64, 4, low 32), (68, 4, low 32)]
      ++ need (a % 64 == 0) Status.rejAlign 64
      ++ need (readable && s.allows c.ctx a (max 64 (s.imageSize a)) true false) Status.rejRegion 64
      ++ need (v % 128 == 0) Status.rejAlign 104
      ++ need (s.allows c.ctx v 128 false true && !s.hitsImage v 128 && !rangesMeet v 128 a (s.imageSize a))
          Status.rejRegion 104
      ++ need (s.allows c.ctx (c.param 8 8) (c.param 24 4 * c.param 32 2) true false) Status.rejRegion 72
      ++ need (s.allows c.ctx (c.param 16 8) (c.param 28 4 * c.param 34 2) false true) Status.rejRegion 80
      ++ need inOk Status.rejPlaybook 88
      ++ need resOk Status.rejPlaybook 92
      ++ need (c.param 64 4 ≤ c.param 32 2) Status.rejPlaybook 128
      ++ need (scaleOk cfg (BitVec.ofNat 32 (c.param 48 4))) Status.rejPlaybook 112
      ++ need (s.freeSeq.isSome && s.seqs.toList.all (fun q => q.st == .idle || q.ctx != c.ctx)
          && !s.cmds.any (fun x => x.pbPending && x.id != c.id && x.ctx == c.ctx)) Status.rejPlaybook 0xFFFF
      ++ need (!c.pbRelay || ((s.seq c.pbRelaySeq).st != .idle)) Status.rejPlaybook 116
      ++ need (!readable || s.imageOk c.pbRelay c.ctx a reserved known) Status.rejPlaybook 64 }

/-- The 128 bytes of a step record (R254). -/
def recordBytes (q : Seq) (w : Window) (scout : Nat) : List Byte :=
  let cyc := fun (n k : Nat) => at' (n % 2 ^ 48) (48 * k)
  let ph := fun k => vget w.phaseCycles k 0
  natLe 128 (cyc (ph 0) 0 + cyc (ph 1) 1 + cyc (ph 2) 2 + cyc (ph 3) 3 + cyc (ph 4) 4 + cyc (ph 5) 5 + cyc (ph 6) 6
    + cyc w.heldCycles 7 + cyc w.idleCycles 8 + cyc w.cycles 9
    + at' w.step.toNat 480 + at' w.loss.toNat 512 + at' w.ewma.toNat 544
    + at' (satTo 32 w.nfGrad) 576 + at' (satTo 32 w.nfDense) 608 + at' (satTo 32 w.nfVec) 640
    + at' (satTo 32 w.drafted) 672 + at' (satTo 32 w.undrafted) 704
    + at' (if w.verdict then w.scale else q.scale).toNat 736 + at' (w.members % 8192) 768 + at' (scout % 256) 784
    + flagAt w.noBall 792 + flagAt w.degraded 793 + flagAt w.spike 794 + flagAt w.nf 795 + flagAt w.lossNf 796
    + flagAt w.heldBefore 797 + flagAt w.relay 798 + flagAt w.poison 799)

/-- The record of the oldest window is written and its window goes. -/
def Seq.closeOldest (q : Seq) (scout : Nat) : Seq :=
  match q.windows with
  | [] => q
  | w :: r =>
    let k := w.step.toNat % 256
    { q with records := (k, recordBytes q w scout) :: q.records.filter (fun x => x.1 != k), windows := r }

/-- Every window that is left is recorded; `n` bounds their number. -/
def Seq.closeAll (q : Seq) (scout : Nat) : Nat → Seq
  | 0 => q
  | n + 1 => (q.closeOldest scout).closeAll scout n

/-- SR of a command that may round stochastically (R52). -/
def Cmd.usesSr (c : Cmd) : Bool :=
  match c.opcode with
  | 0x100 | 0x102 => bit (c.param 24 4) 2
  | 0x200 => bit (c.param 60 4) 3
  | 0x300 | 0x301 => bit (c.param 64 4) 10
  | 0x313 => bit (c.param 40 4) 2
  | 0x330 => bit (c.param 84 4) 2
  | 0x400 => bit (c.param 32 4) 4
  | 0x401 => bit (c.param 16 4) 4
  | 0x402 => bit (c.param 24 4) 4
  | 0x420 | 0x421 | 0x422 | 0x423 | 0x424 | 0x425 => bit (c.param 64 4) 0
  | 0x630 => bit (c.param 80 4) 3
  | 0x703 | 0x704 => bit (c.param 56 4) 11
  | _ => false

/-- A write to a shadow (R10, R429): an idle unit takes it at once. -/
def Rs.write (r : Rs) (busy : Bool) (w : Word64) : Rs := if busy then { r with shadow := w } else Rs.init w

/-- Does a host command with SR = 1 run (R428)? -/
def State.rngBusy (s : State) : Bool := s.cmds.any (fun c => c.isRunning && c.isHost && c.usesSr)

/-- RNG_SEED, which the host writes, and a playbook with PLAYBOOK_START and PB_SEED (R53, R230). -/
def State.writeSeed (s : State) (w : Word64) : State :=
  let busy := s.rngBusy
  let s := { s with rngSeed := s.rngSeed.write busy w }
  if busy then { s with cfgLate := { s.cfgLate with rng := true } } else s

/-- A sequencer takes a playbook (R227, R230, R238, R245). It keeps LOSS_EWMA, its records, counters and PB_CFG. -/
def Seq.bind (q : Seq) (c : Cmd) (size entries relayOf : Nat) (digest : BitVec 256) : Seq :=
  { q with
    st := .running, starter := c.id, ctx := c.ctx, image := c.pbImage, imageBytes := size, entries := entries
    entry := 0, offset := 64, step := BitVec.ofNat 32 (c.param 36 4), phase := 0, loops := []
    seed := BitVec.ofNat 64 (c.param 56 8), relay := c.pbRelay, relaySeq := c.pbRelaySeq, relayOf := relayOf
    inBase := c.param 8 8, inSlot := c.param 24 4, inSlots := c.param 32 2
    resBase := c.param 16 8, resSlot := c.param 28 4, resSlots := c.param 34 2
    feedHead := 0#32, feedTail := BitVec.ofNat 32 (c.param 64 4), resultHead := 0#32, resultTail := 0#32
    postVector := bits c.pbCtrl 5 0, verdictAddr := c.pbVerdict
    scale := BitVec.ofNat 32 (c.param 48 4), cleanRun := BitVec.ofNat 32 (c.param 68 4)
    issues := [], heldCycles := 0, heldBefore := false, stopAtBoundary := false, holdAtBoundary := false
    failed := none, lost := [], stopNow := false, cancelled := false, digest := digest }

/-- The playbook of a PLAYBOOK_START is accepted. -/
def State.acceptPlaybook (s : State) (digest : List Byte → BitVec 256) (c : Cmd) (n : Nat) : State :=
  let size := fieldAt c.pbHeader 12 4
  let entries := fieldAt c.pbHeader 8 4
  let d := digest (s.mem.bytes c.pbImage size)
  let scale := BitVec.ofNat 32 (c.param 48 4)
  let other := (s.seq c.pbRelaySeq).starter
  let s := s.modSeq n (fun q => (q.closeAll s.scout.index q.windows.length).bind c size entries other d)
  let s := s.writeSeed (BitVec.ofNat 64 (c.param 56 8))
  let s := s.writeVerdict c.pbVerdict
    (verdictBytes false false false false 0 ((c.param 36 4 + 2 ^ 32 - 1) % 2 ^ 32) (c.param 68 4) scale (frecip scale))
  s.setStage c.id .begun

/-! ## PLAYBOOK_HOLD and PLAYBOOK_RESUME (R227, R232, R411) -/

def Cmd.seqParam (c : Cmd) : Nat := bits (c.param 0 4) 1 0

/-- The checks of PLAYBOOK_STOP, HOLD and RESUME. -/
def State.playbookCtlStart (s : State) (c : Cmd) : Started :=
  let q := s.seq c.seqParam
  { rejs := c.reservedRejs [] [(0, 4, if c.opcode == 0x601 then 0x103 else 0x3)]
      ++ need (q.st != .idle && q.ctx == c.ctx) Status.rejPlaybook 64 }

/-- PLAYBOOK_HOLD: a running playbook holds at its next step boundary. -/
def Seq.hold (q : Seq) : Seq :=
  if q.st == .running then { q with st := .holding, holdAtBoundary := true } else q

/-- PLAYBOOK_RESUME: a held playbook goes on. In another state it has no effect (log entry 14). -/
def Seq.resume (q : Seq) : Seq := if q.st == .held then { q with st := .running, heldBefore := true } else q

def execPlaybookHold (id : Nat) (s : State) : Host.Outcome State Fault Refusal :=
  .next (s.runChecked id 0x602 State.playbookCtlStart (fun s c =>
    (s.modSeq c.seqParam Seq.hold).finish id (plainCompl Status.ok)))

def execPlaybookResume (id : Nat) (s : State) : Host.Outcome State Fault Refusal :=
  .next (s.runChecked id 0x603 State.playbookCtlStart (fun s c =>
    (s.modSeq c.seqParam Seq.resume).finish id (plainCompl Status.ok)))

/-! ## Control entries that act at issue (R233) -/

/-- PB_PHASE (R234). -/
def execPbPhase (n : Nat) (s : State) : Host.Outcome State Fault Refusal :=
  .next (s.issueControl n 0x640 (fun t =>
    (t.modSeq n (fun q => { q with phase := bits (s.nextParam (s.seq n) 0 4) 3 0 })).advance n))

/-- PB_LOOP. -/
def execPbLoop (n : Nat) (s : State) : Host.Outcome State Fault Refusal :=
  .next (s.issueControl n 0x641 (fun t =>
    (t.modSeq n (fun q => { q with
      loops := { entry := q.entry, count := bits (s.nextParam (s.seq n) 0 4) 15 0, passes := 0 } :: q.loops })).advance n))

/-- PB_ENDLOOP. -/
def execPbEndloop (n : Nat) (s : State) : Host.Outcome State Fault Refusal :=
  .next (s.issueControl n 0x642 (fun t =>
    match (t.seq n).loops with
    | [] => t.advance n
    | l :: r =>
      if l.count == 0 || l.passes + 1 < l.count then
        (t.modSeq n (fun q => { q with loops := { l with passes := l.passes + 1 } :: r })).jump n (l.entry + 1)
      else (t.modSeq n (fun q => { q with loops := r })).advance n))

/-- The index of the first entry with an opcode among `k` entries, from entry i at address a. -/
def State.findEntry (s : State) (op : Nat) (i a : Nat) : Nat → Nat
  | 0 => i
  | k + 1 =>
    if fieldAt (s.mem.bytes a 64) 0 2 == op then i else s.findEntry op (i + 1) (a + entrySize (s.plenAt a)) k

/-- PB_IF_CLEAN: waits for the step's verdict, then goes on or skips to its PB_ENDIF. -/
def execPbIfClean (n : Nat) (s : State) : Host.Outcome State Fault Refusal :=
  .next (
    let q := s.seq n
    match q.window? q.step with
    | none => s
    | some w =>
      if !w.verdict then s
      else s.issueControl n 0x647 (fun t =>
        if w.noBall then t.jump n (s.findEntry 0x648 q.entry (q.image + q.offset) (q.entries - q.entry)) else t.advance n))

/-- PB_ENDIF. -/
def execPbEndif (n : Nat) (s : State) : Host.Outcome State Fault Refusal :=
  .next (s.issueControl n 0x648 (fun t => t.advance n))

/-- PB_SEED (R230). -/
def execPbSeed (n : Nat) (s : State) : Host.Outcome State Fault Refusal :=
  .next (s.issueControl n 0x64B (fun t =>
    let base := BitVec.ofNat 64 (s.nextParam (s.seq n) 0 8)
    let add := if bit (s.nextParam (s.seq n) 8 4) 0 then BitVec.ofNat 64 (s.seq n).step.toNat else 0#64
    ((t.modSeq n (fun q => { q with seed := base + add })).writeSeed (base + add)).advance n))

/-- PB_END (R231). -/
def execPbEnd (n : Nat) (s : State) : Host.Outcome State Fault Refusal :=
  .next (s.issueControl n 0x64A (fun t => ((t.advance n).modSeq n (fun q => { q with st := .stopping })).settleSeq n))

/-! ## Step boundaries (R227, R232, R345) -/

/-- A natural number in binary64. -/
def f64 (n : Nat) : Val := rnd64 (.fin false n 0)

/-- The integer part of an interval, 1000 for one without bound. -/
def intervalFloor (v : Val) : Nat :=
  match v with
  | .fin _ _ _ => v.floorNat
  | _ => 1000

/-- The save interval T (R345): failure rate, group size, last duration in ms or the default in s, wall-clock times of the
boundaries, newest first, and the scout index. -/
def saveInterval (failFit g : Nat) (cMs : Option Nat) (cDefault : Nat) (times : List Nat) (scout : Nat) : Nat :=
  let t :=
    if failFit == 0 || times.length < 2 then 1000
    else
      let mS := rnd64 ((f64 3600000000000).div (f64 (failFit * g)))
      let cS := match cMs with
        | some ms => rnd64 ((f64 ms).div (f64 1000))
        | none => f64 (max cDefault 1)
      let span := times.headD 0 - times.getLastD 0
      let stepS := rnd64 ((Val.fin false span 0).div (.fin false (720720 * 10 ^ 9 * (times.length - 1)) 0))
      let young := rnd64 ((rnd64 (rnd64 ((rnd64 ((f64 2).mul cS)).mul mS)).sqrt).div stepS)
      if 160 ≤ scout then intervalFloor (rnd64 (young.mul (.fin false 1 (-2)))) else intervalFloor young
  min (max t 1) 1000

/-- A step boundary counts for the save interval and the due flag (R345) and opens a bucket of the scout (R344). -/
def State.stepBoundary (s : State) : State :=
  let times := (s.wall :: s.save.boundaries).take 16
  let since := min (s.save.since + 1) 2047
  let t := saveInterval s.save.failFit.toNat s.save.groupSize (if s.save.anySave then some s.save.lastMs else none) s.save.cDefault times s.scout.index
  let s := s.modSave (fun v => { v with
    boundaries := times, since := since, t := t, due := t ≤ since || v.rose })
  s.modScout (fun v => { v with steps := ((0, 0) :: v.steps).take 64 })

/-- After a step boundary the playbook goes on, stops, or waits for the step before HELD. -/
def Seq.afterBoundary (q : Seq) : Seq :=
  if q.stopAtBoundary then { q with st := .stopping }
  else if q.holdAtBoundary then { q with holdAtBoundary := false }
  else q

/-- PLAYBOOK_ENTER_HELD (R232): the held step's commands have completed. -/
def State.doEnterHeld (s : State) (n : Nat) : State :=
  let q := s.seq n
  if q.st == .holding && !q.holdAtBoundary && q.failed.isNone && (s.inStep n (q.step - 1#32)).isEmpty then
    s.modSeq n (fun q => { q with st := .held, heldCycles := 0 })
  else s

def execPlaybookEnterHeld (n : Nat) (s : State) : Host.Outcome State Fault Refusal := .next (s.doEnterHeld n)

/-- PLAYBOOK_ENTRY_FAILED (R231): issue stops; the playbook ends once its commands in flight have completed. -/
def State.doEntryFailed (s : State) (n : Nat) : State :=
  let q := s.seq n
  if q.failed.isSome && q.st != .idle then (s.modSeq n (fun q => { q with st := .stopping })).settleSeq n else s

def execPlaybookEntryFailed (n : Nat) (s : State) : Host.Outcome State Fault Refusal := .next (s.doEntryFailed n)

/-- STEP_WINDOW_CLOSE (R253, R254): in step order. -/
def State.doWindowClose (s : State) (n : Nat) : State :=
  match (s.seq n).windows with
  | [] => s
  | w :: _ => if w.closed && (s.inStep n w.step).isEmpty then s.modSeq n (fun q => q.closeOldest s.scout.index) else s

def execStepWindowClose (n : Nat) (s : State) : Host.Outcome State Fault Refusal := .next (s.doWindowClose n)

/-! ## Feed and result rings (R235 to R238) -/

/-- Strides of a packed tensor above dimension 0 (R319). -/
def packedStrides (below : Nat) : List Nat → List Nat
  | [] => []
  | e :: es => below :: packedStrides (below * e) es

/-- A tensor laid out packed from a base. -/
def Desc.packedAt (d : Desc) (base : Nat) : Desc :=
  { d with base := base, space := 0, stride := packedStrides d.rowBytes d.outer }

/-- A tensor as it lies in a ring slot: packed elements, then its packed scale plane (log entry 16). -/
def Operand.inSlot (o : Operand) (base : Nat) : Operand :=
  let d := o.d.packedAt base
  { d := d, scale := o.scale.map (fun p => p.packedAt (base + d.spanBytes)) }

/-- Bytes that a tensor takes of a slot. -/
def Operand.slotBytes (o : Operand) : Nat :=
  let x := o.inSlot 0
  x.d.spanBytes + ((x.scale.map Desc.spanBytes).getD 0)

/-- The slot of a ring that an index names. -/
def ringSlot (base size slots : Nat) (index : Word32) : Nat := base + (index.toNat % max slots 1) * size

/-- The copy between a tensor and a slot, bitwise. -/
def State.ringCopy (s : State) (src dst : Operand) : Effect :=
  { writes := (List.range dst.d.rows).flatMap (fun r => dst.rowWrites 0 r true ((src.row s.mem 0 r).map Elem.out))
    poisonIn := poisonIn s.mem 0 [some src] }

/-- The sequencer of a playbook command. -/
def Cmd.seqNum (c : Cmd) : Nat :=
  match c.src with
  | .seq n _ _ _ => n
  | .host _ => 0

/-- Is an earlier command of the same sequencer with the same opcode in flight (log entry 14)? -/
def State.earlierSame (s : State) (c : Cmd) : Bool :=
  s.cmds.any (fun x => x.owner == c.owner && x.opcode == c.opcode && x.id < c.id)

def State.pbFeedStart (s : State) (c : Cmd) : Started :=
  let rs := [s.resolve c 0 .dst anyFmts]
  Started.ofResolved rs (need1 (opAt rs 0) (fun o => o.slotBytes ≤ (s.seq c.seqNum).inSlot) Status.rejShape 64)

/-- PB_FEED (R236): the copy of the slot at FEED_HEAD, then FEED_HEAD moves on. -/
def State.doPbFeed (s : State) (id : Nat) : State :=
  match s.running? id 0x643 with
  | none => s
  | some c =>
    let q := s.seq c.seqNum
    match c.op? 0 with
    | none => s.finish id (plainCompl Status.ok)
    | some d =>
      if s.earlierSame c then s
      else
        let e := s.ringCopy (d.inSlot (ringSlot q.inBase q.inSlot q.inSlots q.feedHead)) d
        let s := if s.retryBlocks e || e.overLimit c then s else s.modSeq c.seqNum (fun q => { q with feedHead := q.feedHead + 1#32 })
        s.perform c e

def execPbFeed (id : Nat) (s : State) : Host.Outcome State Fault Refusal := .next (s.doPbFeed id)

def State.pbPostStart (s : State) (c : Cmd) : Started :=
  let q := s.seq c.seqNum
  let rs := [s.resolve c 0 .src anyFmts]
  -- the slot that it will write: that of its turn among the posts in flight
  let turn := (s.cmds.filter (fun x => x.owner == c.owner && x.opcode == c.opcode && x.id < c.id)).length
  let slot := ringSlot q.resBase q.resSlot q.resSlots (q.resultTail + BitVec.ofNat 32 turn)
  Started.ofResolved rs (need1 (opAt rs 0) (fun o => o.slotBytes ≤ q.resSlot) Status.rejShape 64
    ++ need1 (opAt rs 0) (fun o => !s.hitsImage slot o.slotBytes) Status.rejRegion 64)

/-- Has the result ring a slot for one more post (R237)? Posts that have started count as taken. -/
def State.postRoom (s : State) (n : Nat) : Bool :=
  let q := s.seq n
  let going := (s.cmds.filter (fun c => c.ofSeq n && c.opcode == 0x644 && c.isRunning)).length
  (q.resultTail - q.resultHead + BitVec.ofNat 32 going).toNat != q.resSlots

/-- PB_POST (R237, R369): the copy into the slot at RESULT_TAIL, then RESULT_TAIL moves on and the interrupt is sent, which
is lost while the link is down (log entry 28). -/
def State.doPbPost (s : State) (id : Nat) : State :=
  match s.running? id 0x644 with
  | none => s
  | some c =>
    let q := s.seq c.seqNum
    match c.op? 0 with
    | none => s.finish id (plainCompl Status.ok)
    | some d =>
      if s.earlierSame c then s
      else
        let e := s.ringCopy d (d.inSlot (ringSlot q.resBase q.resSlot q.resSlots q.resultTail))
        if s.retryBlocks e || e.overLimit c then s.perform c e
        else
          let s := (s.modSeq c.seqNum (fun q => { q with resultTail := q.resultTail + 1#32 })).perform c e
          if bit (c.param 8 4) 0 && s.linkUp then s.sendHost (.msgInt q.postVector) else s

def execPbPost (id : Nat) (s : State) : Host.Outcome State Fault Refusal := .next (s.doPbPost id)

/-- FEED_TAIL_WRITE (R236, R238). -/
def State.doFeedTail (s : State) (n : Nat) (v : Word32) : State :=
  let q := s.seq n
  if !s.hostUp || q.st == .idle then s
  else if (v - q.feedHead).toNat ≤ q.inSlots then s.modSeq n (fun q => { q with feedTail := v })
  else s.modSeq n (fun q => { q with feedOverrun := true })

def execFeedTailWrite (n : Nat) (v : Word32) (s : State) : Host.Outcome State Fault Refusal := .next (s.atHost (fun s => s.doFeedTail n v))

/-- RESULT_HEAD_WRITE (R237, R238). -/
def execResultHeadWrite (n : Nat) (v : Word32) (s : State) : Host.Outcome State Fault Refusal :=
  .next (s.atHost (fun s => if (s.seq n).st != .idle then s.modSeq n (fun q => { q with resultHead := v }) else s))

/-! ## The loss (R243, R252) -/

def State.pbLossStart (s : State) (c : Cmd) : Started :=
  let rs := [s.resolve c 0 .src [.fp32]]
  let k := Started.ofResolved rs (need1 (opAt rs 0) (fun o => o.d.count == 1) Status.rejShape 64)
  { k with held := natLe 8 (s.seq c.seqNum).cfg.shadow.toNat }

/-- What the loss does to the average: the new average, and whether it is a spike. -/
def spikeTest (cfg : Nat) (l e : Word32) : Word32 × Bool :=
  if (ofF32 l).nonFinite then (e, false)
  else if (ofF32 e).isNan then (l, false)
  else
    let bound := fmul e (fadd f32One (spikeThr cfg))
    (fadd e (fmul 0x3C800000#32 (fsub l e)), bit cfg 2 && (ofF32 bound).lt (ofF32 l))

/-- A spike counts in LOSS_SPIKE and in the scout's bucket of the step (R250, R344). -/
def State.noteSpike (s : State) : State :=
  (s.bump .lossSpike).modScout (fun v => { v with steps := match v.steps with
    | [] => [(1, 0)]
    | p :: r => (p.1 + 1, p.2) :: r })

/-- PB_LOSS. -/
def State.doPbLoss (s : State) (id : Nat) : State :=
  match s.running? id 0x645, (s.cmd? id).bind (fun c => c.op? 0) with
  | some c, some o =>
    let n := c.seqNum
    let x := o.lin s.mem 0 0
    let l := x.f32
    let r := spikeTest (leNat c.held) l (s.seq n).ewma
    let nf := (ofF32 l).nonFinite
    let s := s.modSeq n (fun q => { q with
      ewma := r.1
      windows := q.windows.map (fun (w : Window) =>
        if some w.step == c.step? then
          { w with loss := l, ewma := r.1, spike := w.spike || r.2, lossNf := w.lossNf || nf, nf := w.nf || nf }
        else w) })
    let s := if r.2 then s.noteSpike else s
    let p := poisonIn s.mem 0 [some o]
    s.finish id { poison := p != 0, poisonIn := p }
  | _, _ => s

def execPbLoss (id : Nat) (s : State) : Host.Outcome State Fault Refusal := .next (s.doPbLoss id)

end Sys2Proof.Machine
end

