-- ==== Sys2Proof/Machine/FabNet.lean ====
section
/-! DEFINITION. The fabric's packets: routing and injection (R293 to R299, R312 to R314), remote requests and responses (R303,
R304), FAB_PUT and FAB_GET, and PACKET_FORWARD. -/

namespace Sys2Proof.Machine

/-! ## Settings and membership -/

/-- FAB_CFG as the ports read it: a packet boundary takes the last value written (R328, R429). -/
def State.fabCfg (s : State) : Nat := s.fabric.cfg.shadow.toNat

/-- LIFETIME_US (R328). -/
def State.lifetime (s : State) : Nat := max 100 (bits s.fabCfg 12 0)

/-- PASS_SRC, one of the Referee's fields, as the last heartbeat took it. -/
def Fabric.passSrc (f : Fabric) : Bool := bit f.cfg.force.toNat 32

def State.passSrc (s : State) : Bool := s.fabric.passSrc

/-- Is this module a present member (R303, R329)? -/
def State.isMember (s : State) : Bool := s.fabric.state == .member || s.fabric.state == .hold

/-- Does this module's roster give a module as present? This module is present to itself. -/
def State.presentModule (s : State) (m : Nat) : Bool := m == s.moduleId || !s.fabric.roster.absent m

/-- Does the roster list a module as absent (R306, R347)? -/
def State.declaredAbsent (s : State) (m : Nat) : Bool := s.fabric.roster.members.any (fun x => x.id == m && x.absent)

/-- The ranks that are absent for a group's collectives (R318). -/
def State.absentRanks (s : State) (g : Group) : List Nat :=
  (List.range g.members.length).filter (fun r =>
    let m := g.members.getD r 0
    g.absent.contains m || !s.presentModule m)

/-- How a command that acts in several steps ends with a fault: the poison so far and, for a collective, its absent members
and its sequence number (R402). -/
def State.faultCompl (s : State) (id st : Nat) : Compl :=
  match s.cmd? id with
  | none => plainCompl st
  | some c =>
    let coll := 0x500 ≤ c.opcode && c.opcode ≤ 0x505
    let absent := match s.fabric.colls.find? (fun k => k.id == id) with
      | some k => k.absent.length
      | none => ((c.collGroup?.bind s.group?).map (fun g => (s.absentRanks g).length)).getD 0
    { status := st, poisonIn := c.part.poisonIn, poisonOut := c.part.poisonOut
      count := if coll then absent else c.part.count, aux := if coll then c.seqNo.getD 0 else 0 }

/-! ## Packets -/

/-- Virtual channel of a packet type (R293, R296). -/
def pktVc : PktType → Nat
  | .rdReq | .wr | .collReady | .barrierFlag => 0
  | .rdResp | .wrAck | .collAck | .barrierResult | .errResp => 1
  | .wrBulk | .collData | .draft => 2
  | _ => 3

/-- The length rule of a packet's type, and whole blocks for addressed data (R296, R319). -/
def lenOk (p : Packet) : Bool :=
  let n := p.payload.length
  let h := p.hdr
  let whole := h.len % 64 == 0 && h.addr % 64 == 0 -- RD_REQ, WR, WR_BULK and RD_RESP only
  match p.type with
  | .rdReq => n == 0 && whole && 64 ≤ h.len && h.len ≤ 4096
  | .wr => n == h.len && whole && 64 ≤ n && n ≤ 256
  | .wrBulk => n == h.len && whole && 320 ≤ n && n ≤ 4096
  | .rdResp => n == h.len && whole && 64 ≤ n && n ≤ 4096
  | .collData => n == h.len && n ≤ 4096 && (n != 0 || h.empty)
  | .draft => n == h.len && 16 ≤ n && n ≤ 4096
  | .barrierFlag => n == h.len && (n == 0 || n == 8)
  | .barrierResult => n == h.len && n == 8
  | .collReady | .wrAck | .collAck | .errResp => n == 0 && h.len == 0
  | _ => false

/-- Does a port's link lead up (R307)? -/
def State.leadsUp (s : State) (n : Nat) : Bool :=
  let p := s.port n
  p.nbrLevel < s.fabric.level || (p.nbrLevel == s.fabric.level && p.nbrId < s.moduleId)

/-- Where a packet goes: to no valid entry, to a port, or nowhere while no port of its set takes it. -/
inductive Route where
  | none
  | wait
  | port (n : Nat)
  deriving DecidableEq, Repr

/-- The port of a packet on a fixed path (R313): it waits while that port retrains (R291). Where that port is down the others
of the set that are up are numbered (R292; DEDUCED, log entry 20). -/
def fixedPort (sum : Nat) (all up retraining : List Nat) : Option Nat :=
  match all[sum % max all.length 1]? with
  | some n => if up.contains n then some n
              else if retraining.contains n then none
              else up[sum % max up.length 1]?
  | none => none

/-- The bulk port with the most free credits, the lowest among equals (R313). -/
def creditPort (credits : List Nat) : List Nat → Option Nat
  | [] => none
  | n :: r => match creditPort credits r with
    | none => some n
    | some m => if credits.getD n 0 < credits.getD m 0 then some m else some n

/-- Does a packet carry the module address of a block (R296)? -/
def addressed (t : PktType) : Bool := t == .rdReq || t == .wr || t == .wrBulk || t == .rdResp

/-- The links that a packet crosses to an output port (R17). Between the hub dies it passes the compute die that bits [13:12]
of its block's address choose, or the port's number where it carries none. A packet without data of this module starts on H0, a
read response where its block lies; the way of other data is that of its command (log entry 20). -/
def State.crossLinks (s : State) (p : Packet) (inPort : Option Nat) (n : Nat) : List (Nat × Nat) :=
  let via := if addressed p.type then bits p.hdr.addr 13 12 else n % 4
  match inPort with
  | some i => hubRoute (portHub i) (portHub n) via
  | none =>
    if p.type == .rdResp then dieRoute (s.dieOf p.hdr.addr) (portHub n) p.hdr.addr
    else if p.payload.isEmpty then hubRoute 4 (portHub n) via
    else []

/-- The domains at the ends of some links. -/
def linkDomains (l : List (Nat × Nat)) : List Nat := (linkDies l).map dieDomain

/-- Do some links carry traffic now? What needs a link that is lost, or a die that does not answer, waits (R476, R481, R495). -/
def State.linksOpen (s : State) (l : List (Nat × Nat)) : Bool :=
  l.all (fun x => !s.errors.dlinkDown.contains x) && (linkDomains l).all s.awake

/-- Is the way of a packet to an output port open? -/
def State.crossOpen (s : State) (p : Packet) (inPort : Option Nat) (n : Nat) : Bool := s.linksOpen (s.crossLinks p inPort n)

/-- The route of a packet (R312, R313) that came in on a port or is this module's own, with the free bulk credits seen at
each port. -/
def State.route (s : State) (p : Packet) (inPort : Option Nat) (credits : List Nat) : Route :=
  let e := s.passEntry p.hdr.dst
  let all := portList (if p.hdr.down then e.down else e.ports)
  let up := all.filter (fun n => (s.port n).state == .up)
  let back := all.filter (fun n => (s.port n).state == .retraining)
  if !e.valid then .none
  else match (if pktVc p.type == 2 then creditPort credits up else fixedPort (p.hdr.src + p.hdr.dst) all up back) with
    | some n => if s.crossOpen p inPort n then .port n else .wait
    | none => .wait

/-- Does a waiting packet need a die that does not answer yet? It holds a transit vote for it (R476). -/
def State.transit (s : State) (c : Nat) : Bool :=
  s.fabric.queued.any (fun w => !w.held
    && (portList (if w.packet.hdr.down then (s.passEntry w.packet.hdr.dst).down else (s.passEntry w.packet.hdr.dst).ports)).any
      (fun n => (s.port n).state == .up && (linkDomains (s.crossLinks w.packet w.inPort n)).contains c))

/-- A packet sent on a port. It sets DOWN when the link leads down (R311). -/
def State.sendOn (s : State) (n : Nat) (p : Packet) : State :=
  s.sendFab (.packet n { p with hdr := { p.hdr with down := p.hdr.down || !s.leadsUp n } })

/-- Whole microseconds, rounded up, that a packet has waited here. -/
def State.waited (s : State) (w : Waiting) : Nat := ceilDiv (s.wall - w.since) (720720 * 1000)

/-- AGE of a waiting packet with the time that it waits here (R297). -/
def State.ageOf (s : State) (w : Waiting) : Nat := satTo 16 (w.packet.hdr.age + s.waited w)

/-- A waiting packet leaves on a port. -/
def State.sendWaiting (s : State) (n : Nat) (w : Waiting) : State :=
  s.sendOn n { w.packet with hdr := { w.packet.hdr with age := s.ageOf w } }

/-- A packet waits. -/
def State.wait (s : State) (w : Waiting) : State := s.modFabric (fun f => { f with queued := f.queued ++ [w] })

/-- Free bulk credits at the 48 ports, which no register shows: a free choice. -/
def State.freeCredits (s : State) : List Nat := (List.range 48).map (fun i => Config.freeNat (s.free + i))

/-- The route of a packet that is ready to leave; for bulk it takes the free choice of credits. -/
def State.chooseRoute (s : State) (w : Waiting) : Route × State :=
  (s.route w.packet w.inPort s.freeCredits, { s with free := s.free + (if pktVc w.packet.type == 2 then 48 else 0) })

/-- A packet that is ready to leave the module leaves it, waits or is discarded (R312). -/
def State.transmit (s : State) (w : Waiting) : State :=
  match s.chooseRoute w with
  | (.none, s) => s.bump .fabDiscardRoute
  | (.wait, s) => s.wait w
  | (.port n, s) => s.sendWaiting n w

/-- A packet of this module enters the fabric. A hold stops request and bulk packets (R308). -/
def State.inject (s : State) (p : Packet) : State :=
  let p := { p with hdr := { p.hdr with src := s.moduleId, age := 0, down := false, vc := pktVc p.type, len :=
    if p.type == .rdReq then p.hdr.len else p.payload.length } }
  let w : Waiting := { packet := p, since := s.wall }
  if s.fabric.state == .hold && (pktVc p.type == 0 || pktVc p.type == 2) then s.wait { w with held := true }
  else s.transmit w

/-! ## Packets that wait (R297, R308, R312, R314) -/

/-- The input port of a waiting packet, 48 for this module's own. -/
def Waiting.input (w : Waiting) : Nat := w.inPort.getD 48

/-- Does packet a leave an output port before packet b, which stands before it in the queue? The larger AGE goes first;
equals take turns over the input ports, counted on from the one served last (R314). -/
def State.goesFirst (s : State) (last : Nat) (a b : Waiting) : Bool :=
  let d := fun (w : Waiting) => (w.input + 48 - last) % 49
  s.ageOf b < s.ageOf a || (s.ageOf a == s.ageOf b && d a < d b)

/-- The first of a list under an order, and the others in their order. -/
def takeFirst {α : Type} (before : α → α → Bool) : List α → Option (α × List α)
  | [] => none
  | x :: r => match takeFirst before r with
    | none => some (x, [])
    | some (y, ys) => if before y x then some (y, x :: ys) else some (x, r)

/-- The packets that contend for an output port and virtual channel leave one after another (R314). -/
def State.contend (s : State) (n vc : Nat) : Nat → List Waiting → State
  | 0, _ => s
  | fuel + 1, ws =>
    let last := ((s.fabric.turns.find? (fun t => t.1 == (n, vc))).map (·.2)).getD 48
    match takeFirst (s.goesFirst last) ws with
    | none => s
    | some (w, r) =>
      ((s.modFabric (fun f => { f with
        turns := ((n, vc), w.input) :: f.turns.filter (fun t => t.1 != (n, vc)) })).sendWaiting n w).contend n vc fuel r

/-- Waiting packets choose their routes in turn: one without a valid entry is discarded, one without a port waits on, and the
others are given with their output port. -/
def State.routeAll (s : State) : List Waiting → State × List (Nat × Waiting)
  | [] => (s, [])
  | w :: r => match s.chooseRoute w with
    | (.none, s) => (s.bump .fabDiscardRoute).routeAll r
    | (.wait, s) => (s.wait w).routeAll r
    | (.port n, s) => let t := s.routeAll r; (t.1, (n, w) :: t.2)

/-- Packets past their lifetime are discarded where they wait; those kept back by a hold have not entered the fabric (R297,
R312). -/
def State.ageOut (s : State) : State :=
  let old := s.fabric.queued.filter (fun w => !w.held && s.lifetime ≤ s.ageOf w)
  if old.isEmpty then s
  else (s.modFabric (fun f => { f with queued := f.queued.filter (fun w => w.held || s.ageOf w < s.lifetime) })).bump
    .fabDiscardAge old.length

/-- Waiting packets try again, after a hold, a port that changed or a new pass table. -/
def State.flushQueue (s : State) : State :=
  let s := s.ageOut
  let kept := fun (w : Waiting) => w.held && s.fabric.state == .hold
  let go := (s.fabric.queued.filter (fun w => !kept w)).map (fun (w : Waiting) =>
    if w.held then { w with held := false, since := s.wall } else w)
  let t := (s.modFabric (fun f => { f with queued := f.queued.filter kept })).routeAll go
  let key := fun (x : Nat × Waiting) => (x.1, pktVc x.2.packet.type)
  (dedup (t.2.map key)).foldl (fun (s : State) (k : Nat × Nat) =>
    let ws := (t.2.filter (fun x => key x == k)).map (·.2)
    s.contend k.1 k.2 ws.length ws) t.1

/-- A packet of a type that has arrived for this module: past its lifetime, truncated or malformed it is discarded (R292,
R296, R297). -/
def State.receive (s : State) (p : Packet) (t : PktType) (f : State → State) : State :=
  if p.type != t || p.hdr.dst != s.moduleId || !s.fabOn then s
  else if s.lifetime ≤ p.hdr.age then s.bump .fabDiscardAge
  else if p.bad || !lenOk p then s.bump .fabDiscardBad
  else f s

/-! ## PACKET_FORWARD (R297, R299, R312 to R314) -/

/-- Is a type one of R296? -/
def typeKnown : PktType → Bool
  | .unknown _ => false
  | _ => true

/-- A packet that came in on a port: `micros` whole microseconds spent here, and the bulk credits seen at each port. One of an
unknown type is discarded, whatever its destination (R296). A truncated one is forwarded with its BAD end (R292); it has no
length to check. A module that was refused forwards nothing (R306), and counts what it discards. -/
def State.doForward (s : State) (inPort : Nat) (p : Packet) (micros : Nat) (credits : List Nat) : State :=
  if !s.fabOn then s
  else if s.lifetime ≤ p.hdr.age then (if p.hdr.dst == s.moduleId && typeKnown p.type then s else s.bump .fabDiscardAge)
  else if !typeKnown p.type then s.bump .fabDiscardBad
  else if p.hdr.dst == s.moduleId then s
  else if !p.bad && !lenOk p then s.bump .fabDiscardBad
  else if s.fabric.state == .refused then s
  else
    let p := { p with hdr := { p.hdr with age := satTo 16 (p.hdr.age + micros + 1) } }
    match s.route p (some inPort) credits with
    | .none => s.bump .fabDiscardRoute
    | .wait => s.wait { packet := p, inPort := some inPort, since := s.wall }
    | .port n => s.sendOn n p

def execPacketForward (inPort : Nat) (p : Packet) (micros : Nat) (credits : List Nat) (s : State) :
    Host.Outcome State Fault Refusal :=
  .next (if (s.port inPort).state == .up then s.doForward inPort p micros credits else s)

/-! ## Blocks with padding (R172) and their elements -/

/-- The bits of block j of a row that hold elements. -/
def Desc.blockMask (d : Desc) (j : Nat) : Nat := low (min 512 (d.ext0 * d.fmt.width - 512 * j))

/-- Non-finite elements of a block under a mask; every element of a poisoned one. -/
def blockNonFinite (f : Fmt) (mask v : Nat) (poison : Bool) : Nat :=
  ((List.range (512 / f.width)).filter (fun i =>
    bit mask (f.width * i) && (poison || (f.isData && (decode f (v >>> (f.width * i) % 2 ^ f.width) 127).nonFinite)))).length

/-- Blocks of a command land one after another: poison and, under GRAD, non-finite elements are counted, and the command
stops with FLT_POISON in place of the block that would pass its limit (R189, R243). True while it goes on. -/
def State.landBlocks (s : State) (id : Nat) (f : Fmt) : List BlockWr → State × Bool
  | [] => (s, (s.cmd? id).isSome)
  | w :: r =>
    match s.cmd? id with
    | none => (s, false)
    | some c =>
      if w.poison && c.poisonLimit != 0xFFFF && c.poisonLimit ≤ c.part.poisonOut then
        (s.finish id (s.faultCompl id Status.fltPoison), false)
      else
        let nf := if c.grad then blockNonFinite f w.mask w.val w.poison else 0
        let s := s.writeBlock w
        let s := if nf == 0 then s else (s.bump .nonfiniteGrad nf).setNf c.src
        let s := s.modCmd id (fun c => { c with
          part := { c.part with poisonOut := c.part.poisonOut + (if w.poison then 1 else 0) } })
        s.landBlocks id f r

/-- What a command has consumed poisoned so far. -/
def State.addPoisonIn (s : State) (id n : Nat) : State :=
  s.modCmd id (fun c => { c with part := { c.part with poisonIn := c.part.poisonIn + n, poison := c.part.poison || n != 0 } })

/-- A command that acts in several steps completes normally. -/
def State.finishPart (s : State) (id : Nat) (k : Compl) : State :=
  match s.cmd? id with
  | none => s
  | some c => s.finish id { k with poison := c.part.poison, poisonIn := c.part.poisonIn, poisonOut := c.part.poisonOut }

/-- The set bits below n. -/
def countBits (x n : Nat) : Nat := ((List.range n).filter (fun i => bit x i)).length

/-! ## Remote requests on this module (R303) -/

/-- The reason to refuse a remote request, 0 for none. The order of the checks is DEDUCED (log entry 17). -/
def State.remoteRej (s : State) (p : Packet) (n : Nat) (write : Bool) : Nat :=
  if !s.isMember then 4
  else if !s.presentSpan p.hdr.addr n then 1
  else if !(s.context p.hdr.tctx).live then 3
  else if !s.covered p.hdr.tctx p.hdr.addr n (fun r => r.remote && (if write then r.write else r.read))
      || (write && s.hitsImage p.hdr.addr n) then 2
  else 0

/-- The response to a request. -/
def answer (p : Packet) (t : PktType) : Packet :=
  { type := t, hdr := { tag := p.hdr.tag, group := p.hdr.group, seq := p.hdr.seq, addr := p.hdr.addr, dst := p.hdr.src } }

def errAnswer (p : Packet) (reason : Nat) : Packet :=
  { type := .errResp, hdr := { tag := p.hdr.tag, seq := reason, dst := p.hdr.src } }

/-- A read request performed or refused: the state and the response. -/
def State.serveRead (s : State) (p : Packet) : State × Packet :=
  let r := s.remoteRej p p.hdr.len false
  if r != 0 then (s.bump .fabRemoteReject, errAnswer p r)
  else
    let poison := s.poisonBits p.hdr.addr (p.hdr.len / 64)
    let q := answer p .rdResp
    (s, { q with hdr := { q.hdr with psn := poison != 0 }, payload := s.mem.bytes p.hdr.addr p.hdr.len, poison := poison })

/-- A write request performed or refused. -/
def State.serveWrite (s : State) (p : Packet) : State × Packet :=
  let r := s.remoteRej p p.payload.length true
  if r != 0 then (s.bump .fabRemoteReject, errAnswer p r)
  else (s.writeBlocks (blockWrites p.hdr.addr p.payload p.poison), answer p .wrAck)

/-- A request is answered: one that is refused at once, another once its memory can be reached (R476, R481). -/
def State.serve (s : State) (p : Packet) (n : Nat) (write : Bool) (f : State → Packet → State × Packet) : State :=
  let go := fun (s : State) => let r := f s p; r.1.inject r.2
  if s.remoteRej p n write != 0 then go s else s.access [] p.hdr.addr n go

/-- RD_REQ. -/
def execRemoteRdReq (p : Packet) (s : State) : Host.Outcome State Fault Refusal :=
  .next (s.receive p .rdReq (fun s => s.serve p p.hdr.len false State.serveRead))

/-- WR. -/
def execRemoteWr (p : Packet) (s : State) : Host.Outcome State Fault Refusal :=
  .next (s.receive p .wr (fun s => s.serve p p.payload.length true State.serveWrite))

/-- WR_BULK. -/
def execRemoteWrBulk (p : Packet) (s : State) : Host.Outcome State Fault Refusal :=
  .next (s.receive p .wrBulk (fun s => s.serve p p.payload.length true State.serveWrite))

/-! ## Responses (R298, R304) -/

/-- The outstanding request that a response answers. -/
def State.remote? (s : State) (p : Packet) : Option Remote :=
  s.fabric.remotes.find? (fun r => r.tag == p.hdr.tag && r.dst == p.hdr.src)

/-- A request that has its response is outstanding no longer. Tags of outstanding requests differ. -/
def State.dropRemote (s : State) (tag : Nat) : State :=
  s.modFabric (fun f => { f with remotes := f.remotes.filter (fun r => r.tag != tag) })

/-- Packets of a request that have not left the module are not sent any more. -/
def State.dropQueued (s : State) (tags : List Nat) : State :=
  s.modFabric (fun f => { f with queued := f.queued.filter (fun (w : Waiting) =>
    let p := w.packet
    !((p.type == .rdReq || p.type == .wr || p.type == .wrBulk) && w.inPort.isNone && tags.contains p.hdr.tag)) })

/-- A remote command ends with a fault; its requests are forgotten. -/
def State.failRemote (s : State) (id st : Nat) : State :=
  let tags := (s.fabric.remotes.filter (fun r => r.id == id)).map (·.tag)
  (s.dropQueued tags).finish id (match s.cmd? id with
    | some c => { status := st, poisonIn := c.part.poisonIn, poisonOut := c.part.poisonOut }
    | none => plainCompl st)

/-! ## FAB_PUT and FAB_GET (R304) -/

/-- A remote request of a command recorded and sent, under a tag that no other outstanding request has. -/
def State.remoteRequest (s : State) (id localAddr first : Nat) (p : Packet) : State :=
  let t := freeTag (s.fabric.remotes.map (·.tag)) (s.fabric.remotes.length + 1) s.fabric.nextTag
  let r : Remote := { tag := t, id := id, dst := p.hdr.dst, addr := localAddr, len := p.hdr.len, write := p.type != .rdReq
                      first := first }
  (s.modFabric (fun f => { f with remotes := f.remotes ++ [r], nextTag := (t + 1) % 65536 })).inject
    { p with hdr := { p.hdr with tag := t } }

/-- The checks of the remote descriptor, whose span is the target's to check. -/
def State.remoteDescRejs (s : State) (c : Cmd) (dst : Bool) : Option Desc × List Rej :=
  match s.dptr c 8 with
  | .error r => (none, [r])
  | .ok none => (none, [(Status.rejLayout, 72)])
  | .ok (some l) =>
    let d := Desc.ofBytes l
    (some d, descRejs l 72 anyFmts ++ need (d.space == 0) Status.rejLayout 72
      ++ need (!dst || d.noAlias) Status.rejOverlap 72
      ++ (if d.scalePtr == 0 then need (!d.fmt.isL) Status.rejLayout 72
          else if d.scalePtr % 128 != 0 || !s.allows c.ctx d.scalePtr 128 true false then
            need d.fmt.scalable Status.rejLayout 72 ++ need (d.scalePtr % 128 != 0) Status.rejRegion 72
          else
            let lp := s.mem.bytes d.scalePtr 128
            descRejs lp 72 [.s8]
              ++ scaleRejs d (Desc.ofBytes lp) (fieldAt lp 16 1) 72))

def State.remoteStart (s : State) (c : Cmd) : Started :=
  let put := c.opcode == 0x520
  let rs := [s.resolve c 0 (if put then .src else .dst) anyFmts]
  -- a remote tensor in this module is a local one (R199)
  let own := s.resolve c 8 (if put then .dst else .src) anyFmts
  let rem := if c.remoteId == s.moduleId then
      (own.op.map (·.d), own.rejs ++ need1 own.op (fun o => o.d.space == 0) Status.rejLayout 72)
    else s.remoteDescRejs c put
  let k := Started.ofResolved rs (c.reservedRejs [0, 8] [(28, 4, low 16)] ++ rem.2
    ++ (match opAt rs 0, rem.1 with
        | some o, some d => need (o.d.fmt == d.fmt && o.d.ndim == d.ndim && o.d.ext == d.ext) Status.rejShape 72
        | _, _ => []))
  { k with ops := k.ops ++ (match rem.1 with | some d => [(8, { d := d })] | none => []) }

/-- The pieces of a tensor that move in one packet each: row, first block of the row, blocks. -/
def Desc.pieces (d : Desc) : List (Nat × Nat × Nat) :=
  let per := d.rowBytes / 64
  (List.range (if d.isEmpty then 0 else d.rows)).flatMap (fun r =>
    (List.range (ceilDiv per 64)).map (fun k => (r, 64 * k, min 64 (per - 64 * k))))

/-- One packet of FAB_PUT or FAB_GET. -/
def State.sendPiece (s : State) (c : Cmd) (o r : Operand) (p : Nat × Nat × Nat) : State :=
  let la := o.d.base + o.d.rowOff p.1 + 64 * p.2.1
  let ra := r.d.base + r.d.rowOff p.1 + 64 * p.2.1
  let n := 64 * p.2.2
  let hdr : PacketHdr := { addr := ra, dst := c.remoteId, tctx := bits (c.param 28 4) 15 12, len := n }
  if c.opcode == 0x521 then s.remoteRequest c.id la p.2.1 { type := .rdReq, hdr := hdr }
  else
    let poison := s.foulBits o la p.2.2
    let data := s.mem.bytes la n
    let nf := if c.grad then ((enumFrom 0 (chunks 64 data)).map (fun (x : Nat × List Byte) =>
      blockNonFinite o.d.fmt (o.d.blockMask (p.2.1 + x.1)) (leNat x.2) (bit poison x.1))).sum else 0
    let s := if nf == 0 then s else (s.bump .nonfiniteGrad nf).setNf c.src
    let s := s.addPoisonIn c.id (countBits (s.poisonBits la p.2.2) p.2.2)
    s.remoteRequest c.id la p.2.1
      { type := if n ≤ 256 then .wr else .wrBulk, hdr := { hdr with psn := poison != 0 }, payload := data, poison := poison }

/-- One 4 KiB part of a block of KEEP_RESTORE goes to the keeper's partner, with its poison marks (R350). -/
def State.sendPart (s : State) (c : Cmd) (dst la ra : Nat) : State :=
  let poison := s.poisonBits la 64
  let s := s.addPoisonIn c.id (countBits poison 64)
  s.remoteRequest c.id la 0
    { type := .wrBulk, hdr := { addr := ra, dst := dst, tctx := c.ctx, len := 4096, psn := poison != 0 }
      payload := s.mem.bytes la 4096, poison := poison }

/-- One piece of the backlog is sent for its command. -/
def State.sendNext (s : State) (b : Nat × Nat × Nat × Nat) : State :=
  match s.cmd? b.1 with
  | none => s
  | some c =>
    if c.opcode == 0x802 then s.sendPart c b.2.2.2 b.2.1 b.2.2.1
    else match c.op? 0, c.op? 8 with
      | some o, some r => s.sendPiece c o r b.2
      | _, _ => s

/-- Pieces of the backlog are sent in order while a tag is free for each: at most 65,536 requests are outstanding (R298). -/
def State.pumpRemotes (s : State) : State :=
  let n := 65536 - s.fabric.remotes.length
  let go := s.fabric.backlog.take n
  go.foldl State.sendNext (s.modFabric (fun f => { f with backlog := f.backlog.drop n }))

/-- A remote command whose last response has come completes. A KEEP_RESTORE does so only when the STATE records of both copies
hold equal t (R350); what the partner's hold by then is a free choice, which is made again until they do. None completes while a write waits for a
retry (R398). -/
def State.settleRemote (s : State) (id : Nat) : State :=
  if s.fabric.remotes.any (fun r => r.id == id) || s.fabric.backlog.any (fun b => b.1 == id) || !s.memside.held.isEmpty then s
  else if (s.running? id 0x802).isSome then
    let f := s.freeBit
    if f.1 then f.2.finishPart id (plainCompl Status.ok) else f.2
  else s.finishPart id (plainCompl Status.ok)

/-- A remote command that waits for no response looks again at the writes held, and a KEEP_RESTORE at the STATE records. -/
def State.settleRestores (s : State) : State :=
  (s.cmds.filter (fun c => (c.opcode == 0x802 || c.opcode == 0x520 || c.opcode == 0x521) && c.isRunning
    && c.stage == .begun)).foldl
    (fun (s : State) c => s.settleRemote c.id) s

/-- FAB_PUT or FAB_GET whose remote module is this one: a local access (R199). Its pieces are copied in order, whole blocks,
the destination's padding preserved (R172); tensors that overlap are read as the copy goes (log entry 17). -/
def State.copyPiece (s : State) (id : Nat) (src dst : Operand) (p : Nat × Nat × Nat) : State :=
  if (s.cmd? id).isNone then s
  else
    let la := src.d.base + src.d.rowOff p.1 + 64 * p.2.1
    let poison := s.foulBits src la p.2.2
    let ws := (enumFrom 0 (chunks 64 (s.settledMem.bytes la (64 * p.2.2)))).map (fun (x : Nat × List Byte) =>
      { loc := dst.d.base + dst.d.rowOff p.1 + 64 * (p.2.1 + x.1), mask := dst.d.blockMask (p.2.1 + x.1), val := leNat x.2
        poison := dst.foul || bit poison x.1, carry := true : BlockWr })
    ((s.addPoisonIn id (countBits (s.poisonBits la p.2.2) p.2.2)).landBlocks id dst.d.fmt ws).1

/-- FAB_PUT and FAB_GET: their packets are sent; responses, a refusal, a timeout or a roster ends them. -/
def State.doRemote (s : State) (id opcode : Nat) : State :=
  match s.running? id opcode with
  | none => s
  | some c =>
    if c.stage != .go then s
    else if c.remoteId != s.moduleId && s.declaredAbsent c.remoteId then s.finish id (plainCompl Status.fltMemberLost)
    else
      match c.op? 0, c.op? 8 with
      | some o, some r =>
        if c.remoteId == s.moduleId then
          let s := o.d.pieces.foldl (fun (s : State) p =>
            if opcode == 0x520 then s.copyPiece id o r p else s.copyPiece id r o p) (s.setStage id .begun)
          s.settleRemote id
        else
          let s := (s.setStage id .begun).modFabric (fun f => { f with
            backlog := f.backlog ++ o.d.pieces.map (fun p => (id, p)) })
          s.pumpRemotes.settleRemote id
      | _, _ => s

def execFabPut (id : Nat) (s : State) : Host.Outcome State Fault Refusal := .next (s.doRemote id 0x520)
def execFabGet (id : Nat) (s : State) : Host.Outcome State Fault Refusal := .next (s.doRemote id 0x521)

/-! ## Responses as they come (R298, R304) -/

/-- A response that this module awaits. -/
def State.takeResponse (s : State) (p : Packet) : State :=
  match s.remote? p with
  | none => s
  | some r =>
    match p.type with
    | .errResp => (s.failRemote r.id Status.fltRemote).pumpRemotes
    | .wrAck => if r.write then (s.dropRemote r.tag).pumpRemotes.settleRemote r.id else s
    | .rdResp =>
      match r.write, (s.cmd? r.id).bind (fun c => c.op? 0) with
      | false, some o =>
        let s := (s.dropRemote r.tag).pumpRemotes.addPoisonIn r.id (countBits p.poison (p.payload.length / 64))
        let ws := (enumFrom 0 (chunks 64 p.payload)).map (fun (x : Nat × List Byte) =>
          { loc := r.addr + 64 * x.1, mask := o.d.blockMask (r.first + x.1), val := leNat x.2
            poison := o.foul || bit p.poison x.1, carry := true : BlockWr })
        let t := s.landBlocks r.id o.d.fmt ws
        if t.2 then t.1.settleRemote r.id else t.1
      | _, _ => s
    | _ => s

def execRemoteRdResp (p : Packet) (s : State) : Host.Outcome State Fault Refusal :=
  .next (s.receive p .rdResp (fun s => s.takeResponse p))

def execRemoteWrAck (p : Packet) (s : State) : Host.Outcome State Fault Refusal :=
  .next (s.receive p .wrAck (fun s => s.takeResponse p))

def execErrResp (p : Packet) (s : State) : Host.Outcome State Fault Refusal :=
  .next (s.receive p .errResp (fun s => s.takeResponse p))

/-- FAB_REMOTE_TIMEOUT. -/
def execFabRemoteTimeout (tag : Nat) (s : State) : Host.Outcome State Fault Refusal :=
  .next (match s.fabric.remotes.find? (fun r => r.tag == tag) with
    | none => s
    | some r => ((s.bump .fabTimeout).failRemote r.id Status.fltRemoteTimeout).pumpRemotes)

end Sys2Proof.Machine
end

