-- ==== Sys2Proof/Machine/Ssu.lean ====
section
/-! DEFINITION. Stack-side and merge units: block arithmetic, and the reads, writes, reductions, retries and scrubs of memory
blocks (R200 to R212). -/

namespace Sys2Proof.Machine

/-! ## Block arithmetic (R208 to R210) -/

/-- The elements of a 64-byte block, widened to FP32. -/
def blockWords (bf : Bool) (b : List Byte) : List Word32 :=
  if bf then (List.range 32).map (fun i => toF32 (ofBf16 (fieldAt b (2 * i) 2)))
  else (List.range 16).map (fun i => BitVec.ofNat 32 (fieldAt b (4 * i) 4))

/-- The bytes of a block from its elements; BF16 rounds each once (R48). -/
def wordsBlock (bf : Bool) (ws : List Word32) : List Byte :=
  ws.flatMap (fun w => if bf then natLe 2 (toBf16R .near (ofF32 w)) else natLe 4 w.toNat)

/-- A word that is stored as it is: a NaN is written canonical (R38). -/
def canonWord (w : Word32) : Word32 := if (ofF32 w).isNan then 0x7FC00000#32 else w

/-- A block that is stored as it is: its NaNs are written canonical (R38). -/
def canonBlock (bf : Bool) (b : List Byte) : List Byte :=
  if bf then (List.range 32).flatMap (fun i =>
    let x := fieldAt b (2 * i) 2
    natLe 2 (if (ofBf16 x).isNan then Fmt.bf16.nanCode else x))
  else (blockWords bf b).flatMap (fun w => natLe 4 (canonWord w).toNat)

/-- Two lists of elements added in FP32. -/
def addWords (a b : List Word32) : List Word32 := (a.zip b).map (fun p => fadd p.1 p.2)

/-- Contributions added in order, in FP32. -/
def addAll (d : List Word32) (cs : List (List Word32)) : List Word32 := cs.foldl addWords d

/-! ## Reads of a block (R201, R203, R204, R435) -/

/-- Adds n to element i of a vector of counters. -/
def bumpAt {n : Nat} (v : Vector Word64 n) (i : Nat) : Vector Word64 n := vmod v i (fun w => satAdd w 1)

namespace State

/-- The unit that holds an address: DDR5 or not, and its number. -/
def unitOf (s : State) (a : Nat) : Bool × Nat :=
  match ddrChannel a with
  | some n => (true, n)
  | none => (false, s.stackOf a)

/-- A corrected error counts (R201). -/
def countCe (s : State) (a : Nat) : State :=
  let u := s.unitOf a
  let s := s.modMemside (fun m => if u.1 then { m with ddrCe := bumpAt m.ddrCe u.2 } else { m with hbmCe := bumpAt m.hbmCe u.2 })
  s.modScout (fun v => { v with pend := { v.pend with ce := v.pend.ce + 1 } })

/-- A transient error counts. -/
def countTransient (s : State) (a : Nat) : State :=
  let u := s.unitOf a
  let s := s.modMemside (fun m =>
    if u.1 then { m with ddrUeT := bumpAt m.ddrUeT u.2 } else { m with hbmUeT := bumpAt m.hbmUeT u.2 })
  s.modScout (fun v => { v with pend := { v.pend with ueT := v.pend.ueT + 1 } })

/-- A lasting error: the block is marked poisoned, the error counted, its sticky bit set and its address logged. -/
def lastingError (s : State) (a : Nat) : State :=
  let u := s.unitOf a
  let s := s.setMem (s.mem.setPoison a true)
  let s := s.modMemside (fun m =>
    let m := if u.1 then { m with ddrUeL := bumpAt m.ddrUeL u.2, ddrLasting := m.ddrLasting ||| BitVec.ofNat 12 (2 ^ u.2) }
      else { m with hbmUeL := bumpAt m.hbmUeL u.2, hbmLasting := m.hbmLasting ||| BitVec.ofNat 16 (2 ^ u.2) }
    { m with log := vset m.log m.logNext (some { ddr := u.1, unit := u.2, addr := blockOf a })
             logNext := (m.logNext + 1) % 16 })
  s.modScout (fun v => { v with pend := { v.pend with ueL := v.pend.ueL + 1 } })

/-- Is the address in a channel of x8 devices (R200)? -/
def isX8 (s : State) (a : Nat) : Bool :=
  match ddrChannel a with
  | some n => (vget s.memside.ddr n {}).x8
  | none => false

/-- The outcome that the check code gives a read (R200): HBM4 corrects one 16-bit symbol and detects two, a channel of x4
devices corrects one device and detects two, one of x8 devices corrects one part of a device and detects one device.
What happens beyond that is a free choice. A block in which a corrected error stayed meets it again (R201). -/
def classify (s : State) (a : Nat) (o : ReadOutcome) : ReadOutcome × State :=
  match o with
  | .clean => (if s.memside.uncured.contains a then .correctable else .clean, s)
  | .correctable => (.correctable, s)
  | .uncorrectable => (.uncorrectable, s)
  | .bad parts =>
    let devices := (dedup (parts.map (·.1))).length
    let cells := if s.isX8 a then (dedup parts).length else devices
    if cells == 0 then (if s.memside.uncured.contains a then .correctable else .clean, s)
    else if cells == 1 then (.correctable, s)
    else if devices ≤ (if s.isX8 a then 1 else 2) then (.uncorrectable, s)
    else
      let k := s.freeNat
      (if k.1 % 3 == 0 then .clean else if k.1 % 3 == 1 then .correctable else .uncorrectable, k.2)

/-- MEM_CFG as the units read it: a block boundary takes the last value written (R212, R429). -/
def memCfg (s : State) : Nat := s.memside.cfg.shadow.toNat

/-- A correctable error: it counts, and the corrected block is written back where WRITEBACK_CE says so (R201, R212). -/
def corrected (s : State) (a : Nat) : State :=
  (s.countCe a).modMemside (fun m => { m with
    uncured := if bit s.memCfg 0 then m.uncured.filter (fun x => x != a) else insertNat a m.uncured })

/-- Is a write to the block held until its retry is complete (R202)? -/
def retryPending (s : State) (a : Nat) : Bool := s.memside.pendingUe.contains a

/-- The writes held for a block land in their order (R202). -/
def landHeld (s : State) (a : Nat) : State :=
  (s.memside.held.filter (fun w => w.loc == a)).foldl State.land
    (s.modMemside (fun m => { m with held := m.held.filter (fun w => w.loc != a) }))

/-- The second read after an uncorrectable one (R201): a transient error's block is written back. -/
def secondRead (s : State) (a : Nat) (second : ReadOutcome) : State :=
  let k := s.classify a second
  let s := k.2.modMemside (fun m => { m with
    pendingUe := m.pendingUe.filter (fun x => x != a), uncured := m.uncured.filter (fun x => x != a) })
  let s := match k.1 with
    | .uncorrectable => s.lastingError a
    | _ => s.countTransient a
  s.landHeld a

/-- The first read of a block. A poisoned block is no error (R200), and one whose retry is pending is not read again. -/
def firstRead (s : State) (a : Nat) (o : ReadOutcome) : State :=
  if s.mem.poisoned a || s.retryPending a then s
  else
    let k := s.classify a o
    match k.1 with
    | .correctable => k.2.corrected a
    | .uncorrectable => k.2.modMemside (fun m => { m with pendingUe := insertNat a m.pendingUe })
    | _ => k.2

/-- Contributions added to the elements of a block in order, which is written once (R208, R209). -/
def addTo (s : State) (a : Nat) (bf : Bool) (cs : List (List Word32)) (poisoned : Bool) : State :=
  s.writeBlock { BlockWr.full a (wordsBlock bf (addAll (blockWords bf (s.settledMem.bytes a 64)) cs)) poisoned false with
    merge := true }

/-- One SSU operation on a present block (R206, R207, R209). -/
def ssuOp (s : State) (op : SsuOp) : State :=
  match op with
  | .read a o n =>
    let s := s.firstRead a o
    if bit s.memCfg 1 then s.bump .ssuCoalesced n else s
  | .write a mask data poisoned o =>
    let m := (List.range 64).foldl (fun acc i => if mask.getLsbD i then acc + at' 0xFF (8 * i) else acc) 0
    let s := if m == fullMask then s else s.firstRead a o
    s.writeBlock { loc := a, mask := m, val := leNat data, poison := poisoned }
  | .sum a bf c poisoned o => (s.firstRead a o).addTo a bf [c] poisoned

end State

/-- The block that an SSU operation acts on. -/
def ssuAddr : SsuOp → Nat
  | .read a _ _ => a
  | .write a _ _ _ _ => a
  | .sum a _ _ _ _ => a

/-- A step on a memory block that the address map has (R195): nothing while the module is held in reset (R26). -/
def State.onBlock (s : State) (a : Nat) (f : State → State) : Host.Outcome State Fault Refusal :=
  if !s.present a then .fault .absentAddress
  else .next (if s.alive then s.access [] a 1 f else s)

/-- SSU_OPERATION (R206). -/
def execSsuOperation (op : SsuOp) (s : State) : Host.Outcome State Fault Refusal :=
  s.onBlock (ssuAddr op) (fun s => s.ssuOp op)

/-- SCATTER_ADD_BATCH (R208): the block is read, the batch added in list order, and the block written once. A poisoned
contribution poisons it (R187). -/
def execScatterAddBatch (addr : Nat) (bf16 : Bool) (batch : AddBatch) (s : State) :
    Host.Outcome State Fault Refusal :=
  s.onBlock addr (fun s =>
    (s.firstRead addr batch.outcome).addTo addr bf16 (batch.contribs.map (·.1)) (batch.contribs.any (·.2)))

/-- MEM_READ_RETRY (R201): the second read of a block whose first read was uncorrectable. -/
def execMemReadRetry (addr : Nat) (second : ReadOutcome) (s : State) : Host.Outcome State Fault Refusal :=
  s.onBlock addr (fun s => if s.retryPending addr then s.secondRead addr second else s)

/-- SCRUB_READ (R203). SCRUB_HOURS 0 stops scrubbing (R212). -/
def execScrubRead (addr : Nat) (first second : ReadOutcome) (s : State) : Host.Outcome State Fault Refusal :=
  s.onBlock addr (fun s =>
    if bits s.memCfg 23 16 == 0 || s.mem.poisoned addr || s.retryPending addr then s
    else
      let k := s.classify addr first
      match k.1 with
      | .correctable => k.2.corrected addr
      | .uncorrectable => k.2.secondRead addr second
      | _ => k.2)

end Sys2Proof.Machine
end

