-- ==== Sys2Proof/Machine/Coll.lean ====
section
/-! DEFINITION. Fabric groups, collectives and the barrier (R317 to R326, R348, R243, R244): the commands, and the packets that
carry them on. -/

namespace Sys2Proof.Machine

/-! ## Groups (R317, R318, R321) -/

/-- The rank of a module in a member list. -/
def rankIn (members : List Nat) (m : Nat) : Nat := members.findIdx (fun x => x == m)

def Cmd.groupParam (c : Cmd) : Nat := bits (c.param 24 4) 15 0
def Cmd.gctrl (c : Cmd) : Nat := c.param 24 4

/-- A save whose barrier is over streams on, and its group goes on to the next number. -/
def Cmd.pastBarrier (c : Cmd) : Bool :=
  match c.stage with
  | .dma _ => true
  | _ => false

/-- The collective commands of a group in flight that have not ended. -/
def State.groupCmds (s : State) (g : Nat) : List Cmd :=
  s.cmds.filter (fun c => c.collGroup? == some g && !c.isDone && !c.pastBarrier)

/-- Has a collective its turn in its group (R512)? -/
def State.collTurn (s : State) (c : Cmd) : Bool :=
  match c.collGroup? with
  | none => true
  | some g => (s.groupCmds g).all (fun x => x.id == c.id || c.id < x.id)

/-- The sequence number that a group is at: that of the collective that runs, else the one before the next (R321). -/
def State.currentSeq (s : State) (g : Group) : Nat :=
  match s.fabric.colls.find? (fun k => k.group == g.num) with
  | some k => k.seq
  | none =>
    let next := match ((s.groupCmds g.num).filterMap (fun c => c.seqNo)).head? with
      | some n => n
      | none => g.seq
    (next + 2 ^ 32 - 1) % 2 ^ 32

/-- A signed list of the INT32 elements of an operand, or none where one is poisoned. -/
def State.intList (s : State) (o : Operand) : Option (List Int) :=
  ((List.range o.d.count).map (fun n => (o.lin s.mem 0 n).index)).foldr
    (fun x l => match x, l with | some a, some r => some (a :: r) | _, _ => none) (some [])

/-- Strictly ascending. -/
def strictlyUp : List Int → Bool
  | a :: b :: r => a < b && strictlyUp (b :: r)
  | _ => true

def State.groupDefineStart (s : State) (c : Cmd) : Started :=
  let rs := [s.resolve c 0 .src [.int32]]
  let listOk := fun (o : Operand) => match s.intList o with
    | none => false
    | some l => strictlyUp l && l.contains (s.moduleId : Int) && l.all (fun x => 0 ≤ x && x < 4096)
  let st := Started.ofResolved rs (c.reservedRejs [0] [(24, 4, low 16), (28, 4, low 32)]
    ++ need1 (opAt rs 0) (fun o => 1 ≤ o.d.count && o.d.count ≤ 4096) Status.rejShape 64
    ++ need1 (opAt rs 0) listOk Status.rejGroup 64
    ++ need ((s.group? c.groupParam).isNone && s.fabric.groups.length < 64) Status.rejGroup 88)
  { st with held := (((opAt rs 0).bind s.intList).getD []).flatMap (fun x => natLe 2 x.toNat) }

/-- The member list that a FAB_GROUP_DEFINE read when it started (R392). -/
def Cmd.memberList (c : Cmd) : List Nat := (chunks 2 c.held).map leNat

/-- FAB_GROUP_DEFINE (R317). Collectives admitted before it take their numbers in order of admission (log entry 18). -/
def State.doGroupDefine (s : State) (id : Nat) : State :=
  match s.running? id 0x510 with
  | none => s
  | some c =>
    -- another queue's command may have defined the group since this one started
    if (s.group? c.groupParam).isSome || 64 ≤ s.fabric.groups.length then s.finish id (rejCompl Status.rejGroup 88)
    else
      -- another member that is absent already is absent for the group until it is readmitted (R318)
      let g : Group := { num := c.groupParam, members := c.memberList, seq := c.param 28 4
                         absent := c.memberList.filter (fun m => !s.presentModule m) }
      let s := s.modFabric (fun f => { f with groups := f.groups ++ [g] })
      let s := (s.groupCmds g.num).foldl (fun (s : State) (x : Cmd) => s.numberColl x.id) s
      s.finish id (plainCompl Status.ok)

def execFabGroupDefine (id : Nat) (s : State) : Host.Outcome State Fault Refusal := .next (s.doGroupDefine id)

def State.groupReleaseStart (s : State) (c : Cmd) : Started :=
  { rejs := c.reservedRejs [] [(24, 4, low 16)] ++ need (s.group? c.groupParam).isSome Status.rejGroup 88 }

/-- FAB_GROUP_RELEASE (R317). -/
def execFabGroupRelease (id : Nat) (s : State) : Host.Outcome State Fault Refusal :=
  .next (s.runChecked id 0x512 State.groupReleaseStart (fun s c =>
    (s.modFabric (fun f => { f with groups := f.groups.filter (fun g => g.num != c.groupParam) })).finish id
      (plainCompl Status.ok)))

def Cmd.memberParam (c : Cmd) : Nat := bits (c.param 28 4) 11 0

def State.groupReadmitStart (s : State) (c : Cmd) : Started :=
  { rejs := c.reservedRejs [] [(24, 4, low 16), (28, 4, low 12)]
      ++ (match s.group? c.groupParam with
          | none => [(Status.rejGroup, 88)]
          | some g => need (g.members.contains c.memberParam) Status.rejGroup 92) }

/-- The completion of a collective or readmit (R323, R402). -/
def collCompl (absent seq : Nat) : Compl := { status := Status.ok, count := absent, aux := seq, absent := absent != 0 }

/-- FAB_GROUP_READMIT (R318). -/
def execFabGroupReadmit (id : Nat) (s : State) : Host.Outcome State Fault Refusal :=
  .next (s.runChecked id 0x511 State.groupReadmitStart (fun s c =>
    let s := s.modGroup c.groupParam (fun g => { g with absent := g.absent.filter (fun m => m != c.memberParam) })
    let n := ((s.group? c.groupParam).map (fun g => (s.absentRanks g).length)).getD 0
    s.finish id (collCompl n (c.seqNo.getD 0))))

/-! ## Checks of a collective (R319, R409) -/

/-- Blocks of a tensor's rows, all of them where it is packed. -/
def Operand.blockCount (o : Operand) : Nat := if o.d.isEmpty then 0 else o.d.rows * o.d.rowBytes / 64

/-- First block of shard i of B blocks over G (R319). -/
def shardLo (b g i : Nat) : Nat := i * b / g
def shardLen (b g i : Nat) : Nat := shardLo b g (i + 1) - shardLo b g i

def Cmd.rootRank (c : Cmd) : Nat := bits c.gctrl 27 16

/-- Starting a collective (R319, R409). On a group that is not defined the checks that ask for its members are left out, and
the lowest of the statuses that apply is the one reported (R396). -/
def State.collStart (s : State) (c : Cmd) : Started :=
  let op := c.opcode
  let reduce := op == 0x500 || op == 0x501
  let g? := s.group? c.groupParam
  let n := (g?.map (fun g => g.members.length)).getD 0
  let me := (g?.map (fun g => rankIn g.members s.moduleId)).getD 0
  let fmts := if reduce then [Fmt.fp32, Fmt.bf16] else anyFmts
  let order := reduce && bit c.gctrl 28
  let rs := [s.resolve c 0 .src anyFmts (op == 0x504 && (g?.isNone || me != c.rootRank)), s.resolve c 8 .dst fmts]
    ++ (if order then [s.resolve c 16 .dst fmts true] else [])
  let src := opAt rs 0
  let dst := opAt rs 8
  let fits := fun (x y : Operand) =>
    let b := x.blockCount
    let t := y.blockCount
    if op == 0x501 then t == shardLen b n me
    else if op == 0x502 then t == n * b
    else if op == 0x503 then t == b && b % n == 0
    else t == b
  Started.ofResolved rs (c.reservedRejs (if reduce then [0, 8, 16] else [0, 8]) [(24, 4, low 31)]
    ++ need1 src (fun o => o.d.packed) Status.rejLayout 64
    ++ need1 dst (fun o => o.d.packed) Status.rejLayout 72
    ++ need1 (opAt rs 16) (fun o => o.d.packed) Status.rejLayout 80
    ++ need2 src dst (fun x y => !reduce || x.d.fmt == y.d.fmt) Status.rejFormat 64
    ++ need2 src dst (fun x y => g?.isNone && [0x501, 0x502, 0x503].contains op || fits x y) Status.rejShape 72
    ++ need (g?.isNone || op != 0x504 || c.rootRank < n) Status.rejShape 88
    ++ need g?.isSome Status.rejGroup 88
    ++ (if order then
          need (opAt rs 16).isSome Status.rejShape 80
            ++ need2 (opAt rs 16) dst (fun x y => n * y.blockCount ≤ x.blockCount) Status.rejShape 80
        else []))

def State.barrierStart (s : State) (c : Cmd) : Started :=
  let a := c.param 8 8
  { rejs := c.reservedRejs [] [(8, 8, low 64), (24, 4, low 31)]
      ++ need (a % 64 == 0) Status.rejAlign 72
      ++ need (s.allows c.ctx a 8 false true && !s.hitsImage a 8) Status.rejRegion 72
      ++ need (s.group? c.groupParam).isSome Status.rejGroup 88 }

/-! ## Shards, owners, and what is complete -/

namespace Coll

def g (k : Coll) : Nat := k.members.length
def present (k : Coll) (r : Nat) : Bool := !k.absent.contains r

/-- Blocks that are divided into shards or slots. -/
def blocks (k : Coll) : Nat := (k.src.map Operand.blockCount).getD ((k.dst.map Operand.blockCount).getD 0)
/-- The code of the element format (R165, R300). -/
def code (k : Coll) : Nat := ((k.src.or k.dst).map (fun (o : Operand) => o.d.fmt.code)).getD 0

def targetBlocks (k : Coll) : Nat := (k.dst.map Operand.blockCount).getD 0

/-- The present owner of a shard of a reduction (R319, R323): for a reduce-scatter a shard stays with its rank. -/
def owner (k : Coll) (i : Nat) : Option Nat :=
  if k.kind == 0 then ((List.range k.g).map (fun d => (i + d) % k.g)).find? k.present
  else if k.present i then some i else none

/-- The byte range of shard i within a target: whole tensors for an all-reduce, one shard for a reduce-scatter. -/
def shardAt (k : Coll) (i : Nat) : Nat × Nat :=
  (if k.kind == 0 then 64 * shardLo k.blocks k.g i else 0, 64 * shardLen k.blocks k.g i)

/-- The byte range of the target that rank r fills in an all-gather, all-to-all or broadcast. -/
def slotAt (k : Coll) (r : Nat) : Nat × Nat :=
  if k.kind == 4 then (0, 64 * k.targetBlocks)
  else let n := 64 * (k.targetBlocks / max k.g 1); (r * n, n)

/-- The shards that rank me owns, empty ones apart. -/
def owned (k : Coll) (me : Nat) : List Nat :=
  (List.range k.g).filter (fun i => shardLen k.blocks k.g i != 0 && k.owner i == some me)

/-- The contributions of a rank to the byte range of a shard. -/
def landed (k : Coll) (r : Nat) (range : Nat × Nat) : List Contribution :=
  k.contribs.filter (fun c => c.rank == r && range.1 ≤ c.offset && (c.offset < range.1 + range.2))

/-- Has rank r's contribution to a shard landed whole? -/
def whole (k : Coll) (r : Nat) (range : Nat × Nat) : Bool :=
  let l := k.landed r range
  l.any (fun c => c.empty) || range.2 ≤ (l.map (fun c => c.len)).sum

/-- Has every present rank landed in a shard? -/
def shardFull (k : Coll) (i : Nat) : Bool :=
  (List.range k.g).all (fun r => !k.present r || k.whole r (k.shardAt i))

/-- Bytes gathered within a range. -/
def gatheredIn (k : Coll) (range : Nat × Nat) : Nat :=
  ((k.gathered.filter (fun x => range.1 ≤ x.1 && x.1 < range.1 + range.2)).map (·.2)).sum

/-- Is the target final on rank me (R322, R323)? -/
def final (k : Coll) (me : Nat) : Bool :=
  match k.kind with
  | 0 => (List.range k.g).all (fun i =>
      shardLen k.blocks k.g i == 0
        || (if k.owner i == some me then k.formed.contains i else (k.shardAt i).2 ≤ k.gatheredIn (k.shardAt i)))
  | 1 => (k.owned me).all (fun i => k.formed.contains i)
  | 4 => me == k.root || !k.present k.root || k.whole k.root (k.slotAt k.root)
  | _ => (List.range k.g).all (fun r => r == me || !k.present r || k.whole r (k.slotAt r))

end Coll

def State.modColl (s : State) (id : Nat) (f : Coll → Coll) : State :=
  s.modFabric (fun b => { b with colls := b.colls.map (fun k => if k.id == id then f k else k) })

def State.coll? (s : State) (id : Nat) : Option Coll := s.fabric.colls.find? (fun k => k.id == id)

def State.collRank (s : State) (k : Coll) : Nat := rankIn k.members s.moduleId

/-! ## Sending (R321, R322, R243) -/

/-- The bits of block `off` of a target that hold elements. -/
def Operand.offMask (o : Operand) (off : Nat) : Nat := o.d.blockMask (off / 64 % max (o.d.rowBytes / 64) 1)

/-- Does a contribution of `len` bytes hold a non-finite or poisoned element? -/
def State.nonFiniteIn (s : State) (o : Operand) (off len : Nat) : Bool :=
  (List.range (len / 64)).any (fun i =>
    let a := o.d.base + off + 64 * i
    blockNonFinite o.d.fmt (o.offMask (off + 64 * i)) (leNat (s.mem.bytes a 64))
      (s.mem.poisoned a) != 0)

/-- The packets of bytes [off, off + len) of an operand, for `rank`, at byte `addr` of its target. -/
def State.dataSends (s : State) (k : Coll) (o : Operand) (off len rank shard addr : Nat) : List Send :=
  let nf := s.nonFiniteIn o off len
  (List.range (ceilDiv len 4096)).map (fun i =>
    let n := min 4096 (len - 4096 * i)
    let a := o.d.base + off + 4096 * i
    let poison := s.foulBits o a (n / 64)
    { rank := rank, shard := shard
      packet :=
        { type := .collData
          hdr := { group := k.group, seq := k.seq, fmt := o.d.fmt.code, rank := s.collRank k, addr := addr + 4096 * i
                   dst := k.members.getD rank 0, nf := nf, psn := poison != 0 }
          payload := s.mem.bytes a n, poison := poison } })

/-- A header-only contribution (R322, R347). -/
def State.emptySend (s : State) (k : Coll) (rank shard addr : Nat) : Send :=
  { rank := rank, shard := shard
    packet := { type := .collData, hdr := { group := k.group, seq := k.seq, fmt := k.code, rank := s.collRank k, addr := addr
                                            dst := k.members.getD rank 0, empty := true } } }

/-- Is the step flag NF set for a command's step (R243)? -/
def State.stepNf (s : State) (src : Src) : Bool :=
  match src with
  | .host _ => false
  | .seq n _ step _ => (((s.seq n).window? step).map (·.nf)).getD false

/-- Sends with a tag of their own, in order, while one is free: `used` are the tags of sends that await their
acknowledgement. -/
def tagSends (go : Send → Bool) : List Nat → List Send → List Send
  | _, [] => []
  | used, x :: r =>
    if go x && used.length < 65536 then
      let t := freeTag used (used.length + 1) 0
      { x with sent := true, tag := t } :: tagSends go (t :: used) r
    else x :: tagSends go used r

/-- The sends whose receiver is ready go out, at most 65,536 at a time unacknowledged. -/
def State.trySends (s : State) (id : Nat) : State :=
  match s.coll? id, s.cmd? id with
  | some k, some c =>
    let go := fun (x : Send) => !x.sent && k.ready.contains x.rank && k.present x.rank
    let nf := s.stepNf c.src
    let sends := tagSends go ((k.sends.filter (fun x => x.sent && !x.acked)).map (·.tag)) k.sends
    let out := (k.sends.zip sends).filter (fun (x : Send × Send) => !x.1.sent && x.2.sent)
    let s := s.modColl id (fun k => { k with sends := sends })
    out.foldl (fun (s : State) (x : Send × Send) =>
      let p := x.2.packet
      s.inject { p with hdr := { p.hdr with tag := x.2.tag, nf := p.hdr.nf || nf } }) s
  | _, _ => s

def State.addSends (s : State) (id : Nat) (l : List Send) : State := s.modColl id (fun k => { k with sends := k.sends ++ l })

/-! ## Landing -/

/-- The part of a packet's data that lies in one block of the target: the block's byte offset, its 64 bytes, the bits that
the packet covers, and its poison. -/
structure BlockPart where
  off : Nat
  bytes : List Byte
  mask : Nat
  poison : Bool

/-- Data for byte `off` of a target, by blocks. COLL_DATA may start and end within a block (R296 asks whole blocks of other
types only). -/
def blockParts (off : Nat) (data : List Byte) (poison : Nat) : List BlockPart :=
  let lead := off % 64
  (enumFrom 0 (chunks 64 (List.replicate lead 0#8 ++ data))).map (fun x =>
    { off := off - lead + 64 * x.1, bytes := bytesAt x.2 0 64
      mask := low (8 * x.2.length) - low (if x.1 == 0 then 8 * lead else 0)
      poison := bit poison x.1 || (lead != 0 && x.1 != 0 && bit poison (x.1 - 1)) })

/-- Block writes into a target, padding preserved. -/
def targetWrites (o : Operand) (off : Nat) (data : List Byte) (poison : Nat) : List BlockWr :=
  (blockParts off data poison).map (fun x =>
    { loc := o.d.base + x.off, mask := o.offMask x.off &&& x.mask, val := leNat x.bytes, poison := o.foul || x.poison
      carry := true })

/-- One block of a sum on arrival (R209): the first contribution is stored, a later one added. -/
def State.sumBlock (s : State) (o : Operand) (n : Nat) (x : BlockPart) : BlockWr :=
  let a := o.d.base + x.off
  let bf := o.d.fmt == .bf16
  let m := o.offMask x.off &&& x.mask
  let b := x.bytes
  let poison := o.foul || x.poison
  if n == 0 then { loc := a, mask := m, val := leNat (canonBlock bf b), poison := poison, carry := true }
  else
    { loc := a, mask := m
      val := leNat (wordsBlock bf (addWords (blockWords bf (s.settledMem.bytes a 64)) (blockWords bf b)))
      poison := poison || s.settledMem.poisoned a, merge := true }

/-- Non-empty contributions that have entered a block of the target. -/
def Coll.entered (k : Coll) (off : Nat) : Nat :=
  (k.contribs.filter (fun c => !c.empty && c.offset < off + 64 && off < c.offset + c.len)).length

/-- A contribution to a shard that this module owns lands (R320): in its rank's slot of the staging tensor, or summed into
the target. True while the command goes on. -/
def State.landContribution (s : State) (k : Coll) (r off : Nat) (data : List Byte) (poison : Nat) (empty : Bool) :
    State × Bool :=
  let note := fun (s : State) => s.modColl k.id (fun k => { k with
    contribs := k.contribs ++ [{ rank := r, offset := off, len := data.length, empty := empty }] })
  if empty then (note s, true)
  else if k.order then
    match k.staging with
    | some o => (note (s.writeBlocks ((blockParts off data poison).map (fun (x : BlockPart) =>
        { loc := o.d.base + r * 64 * k.targetBlocks + x.off, val := leNat x.bytes, poison := o.foul || x.poison
          mask := (k.dst.elim x.mask (fun d => d.offMask x.off)) &&& x.mask
          carry := true : BlockWr }))), true)
    | none => (note s, true)
  else
    match k.dst with
    | none => (note s, true)
    | some o =>
      let step := fun (a : State × Bool) (x : BlockPart) =>
        if !a.2 then a
        else
          let w := a.1.sumBlock o (k.entered x.off) x
          if w.poison && a.1.settledMem.poisoned w.loc && k.entered x.off != 0 then (a.1.writeBlock w, true)
          else match a.1.cmd? k.id with
            | none => (a.1, false)
            | some c =>
              if w.poison && c.poisonLimit != 0xFFFF && c.poisonLimit ≤ c.part.poisonOut then
                (a.1.finish k.id (a.1.faultCompl k.id Status.fltPoison), false)
              else
                ((a.1.writeBlock w).modCmd k.id (fun c => { c with
                  part := { c.part with poisonOut := c.part.poisonOut + (if w.poison then 1 else 0) } }), true)
      let t := (blockParts off data poison).foldl step (s, true)
      (note t.1, t.2)

/-- Bytes of another module land in the target unchanged. -/
def State.landGather (s : State) (k : Coll) (r off : Nat) (data : List Byte) (poison : Nat) (empty : Bool) : State × Bool :=
  match k.dst with
  | none => (s, true)
  | some o =>
    let s := s.modColl k.id (fun k => { k with
      contribs := if k.kind == 0 then k.contribs
        else k.contribs ++ [{ rank := r, offset := off, len := data.length, empty := empty }]
      gathered := if k.gathered.contains (off, data.length) then k.gathered else k.gathered ++ [(off, data.length)] })
    s.landBlocks k.id o.d.fmt (targetWrites o off data poison)

/-! ## Forming a shard (R209, R210, R320, R348) -/

/-- Elements of a formed block: the mean, then one rounding. -/
def formBlock (bf mean : Bool) (n : Nat) (ws : List Word32) : List Byte :=
  let inv := frecip (f32OfNat n)
  wordsBlock bf (if mean && n != 0 then ws.map (fun w => fmul w inv) else ws)

/-- The sum of some blocks in order, +0 of none. A single block takes part in no addition: its NaNs alone change, to the
canonical one (R38). -/
def sumParts (bf : Bool) : List (List Byte) → List Word32
  | [] => List.replicate (if bf then 32 else 16) 0#32
  | b :: r => (addAll (blockWords bf b) (r.map (blockWords bf))).map canonWord

/-- The final write of block `off` of an owned shard. -/
def State.formWrite (s : State) (k : Coll) (o : Operand) (range : Nat × Nat) (off : Nat) : BlockWr :=
  let bf := o.d.fmt == .bf16
  let a := o.d.base + off
  let m := o.offMask off
  if k.order then
    let base := (k.staging.map (fun t => t.d.base)).getD 0
    let ranks := (List.range k.g).filter (fun r => k.whole r range && !((k.landed r range).any (fun c => c.empty)))
    let at0 := fun r => base + r * 64 * k.targetBlocks + off
    { loc := a, mask := m, val := leNat (formBlock bf k.mean ranks.length (sumParts bf (ranks.map (fun r => s.mem.bytes (at0 r) 64))))
      poison := o.foul || ranks.any (fun r => s.mem.poisoned (at0 r)) }
  else
    let n := k.entered off
    let old := s.settledMem
    let ws := if n == 0 then sumParts bf [] else blockWords bf (old.bytes a 64)
    { loc := a, mask := m, val := leNat (if n != 0 && !k.mean then old.bytes a 64 else formBlock bf k.mean n ws)
      poison := o.foul || (n != 0 && old.poisoned a), carry := n != 0 && old.poisoned a, merge := n != 0 }

/-- Blocks already counted as poisoned, when they were summed on arrival, are not counted again. -/
def State.uncount (s : State) (id n : Nat) : State :=
  s.modCmd id (fun c => { c with part := { c.part with poisonOut := c.part.poisonOut - n } })

/-- A shard is formed; an all-reduce then sends it to every present member. -/
def State.formShard (s : State) (id i : Nat) : State :=
  match s.coll? id with
  | none => s
  | some k =>
    match k.dst with
    | none => s
    | some o =>
      let range := k.shardAt i
      let ws := (List.range (range.2 / 64)).map (fun b => s.formWrite k o range (range.1 + 64 * b))
      let s := if k.order then s else s.uncount id ((ws.filter (fun w => w.poison)).length)
      let t := s.landBlocks id o.d.fmt ws
      if !t.2 then t.1
      else
        let s := t.1.modColl id (fun k => { k with formed := i :: k.formed })
        if k.kind != 0 then s
        else
          let me := s.collRank k
          let ranks := (List.range k.g).filter (fun r => r != me && k.present r)
          (s.addSends id (ranks.flatMap (fun r => s.dataSends k o range.1 range.2 r i range.1))).trySends id

/-- The shards that may be formed on this module. -/
def State.formable (s : State) (k : Coll) : List Nat :=
  (k.owned (s.collRank k)).filter (fun i => !k.formed.contains i && k.shardFull i)

/-- The completion of a collective. -/
def State.endColl (s : State) (k : Coll) : State := s.finishPart k.id (collCompl k.absent.length k.seq)

/-- In arrival order full shards are formed at once; a collective whose sends are acknowledged and whose target is final
completes (R322). -/
def State.settleColl (s : State) (id : Nat) : State :=
  match s.coll? id with
  | none => s
  | some k =>
    if k.kind == 5 then s
    else
      let s := if (k.kind == 0 || k.kind == 1) && !k.order then (s.formable k).foldl (fun s i => s.formShard id i) s else s
      match s.coll? id with
      | none => s
      | some k =>
        if k.final (s.collRank k) && k.sends.all (fun x => x.acked || !k.present x.rank) then s.endColl k else s

/-! ## Starting a collective -/

/-- This module's own contribution to a shard that it owns. -/
def State.landOwn (s : State) (id i : Nat) : State :=
  match s.coll? id with
  | none => s
  | some k =>
    match k.src with
    | none => s
    | some o =>
      let lo := 64 * shardLo k.blocks k.g i
      let range := k.shardAt i
      let a := o.d.base + lo
      (s.landContribution k (s.collRank k) range.1 (s.mem.bytes a range.2) (s.foulBits o a (range.2 / 64)) k.empty).1

/-- What this module sends, and what it copies into its own target. -/
def State.launch (s : State) (id : Nat) : State :=
  match s.coll? id with
  | none => s
  | some k =>
    let me := s.collRank k
    let others := (List.range k.g).filter (fun r => r != me && k.present r)
    match k.src, k.dst with
    | some o, some d =>
      if k.kind == 0 || k.kind == 1 then
        let shards := (List.range k.g).filter (fun i => shardLen k.blocks k.g i != 0)
        let sends := shards.flatMap (fun i =>
          match k.owner i with
          | some r =>
            if r == me then []
            else if k.empty then [s.emptySend k r i (k.shardAt i).1]
            else s.dataSends k o (64 * shardLo k.blocks k.g i) (k.shardAt i).2 r i (k.shardAt i).1
          | none => [])
        (k.owned me).foldl (fun s i => s.landOwn id i) (s.addSends id sends)
      else
        let slot := fun r => if k.kind == 3 then k.slotAt r else (0, 64 * k.blocks)
        let sends := if k.kind == 4 && me != k.root then []
          else others.flatMap (fun r =>
            if k.empty then [s.emptySend k r r (k.slotAt me).1]
            else s.dataSends k o (slot r).1 (slot r).2 r r (k.slotAt me).1)
        let s := s.addSends id sends
        if (k.kind == 4 && me != k.root) || k.empty then s
        else
          let a := o.d.base + (slot me).1
          let n := (slot me).2
          (s.landBlocks id d.d.fmt (targetWrites d (k.slotAt me).1 (s.mem.bytes a n) (s.foulBits o a (n / 64)))).1
    | _, _ => s

/-- COLL_READY to the members that send here (R321). -/
def State.sendReady (s : State) (k : Coll) : State :=
  let me := s.collRank k
  let ranks := (List.range k.g).filter (fun r => r != me && k.present r && (k.kind != 4 || (r == k.root && me != k.root)))
  ranks.foldl (fun (s : State) r => s.inject
    { type := .collReady, hdr := { group := k.group, seq := k.seq, rank := me, dst := k.members.getD r 0 } }) s

/-- A member's COLL_READY for a collective that runs. -/
def State.takeReady (s : State) (id r : Nat) : State :=
  (s.modColl id (fun k => { k with ready := if k.ready.contains r then k.ready else k.ready ++ [r] })).trySends id

/-! ## The verdict that a barrier forms (R244, R245) -/

/-- A no-ball step counts in NO_BALL_STEPS and in the scout's bucket of the step (R250, R344). -/
def State.noteNoBall (s : State) : State :=
  (s.bump .noBallSteps).modScout (fun v => { v with steps := match v.steps with
    | [] => [(0, 1)]
    | p :: r => (p.1, p.2 + 1) :: r })

/-- Scale and clean-step count after a verdict. -/
def afterVerdict (cfg : Nat) (noBall : Bool) (scale clean : Word32) : Word32 × Word32 :=
  if noBall then
    (if bit cfg 1 then fmax (fmul scale 0x3F000000#32) (pow2F32 (scaleMinExp cfg)) else scale, 0#32)
  else
    let clean := clean + 1#32
    if bits cfg 15 4 != 0 && clean.toNat == bits cfg 15 4 then
      (fmin (fmul scale 0x40000000#32) (pow2F32 (scaleMaxExp cfg)), 0#32)
    else (scale, clean)

def State.formVerdict (s : State) (c : Cmd) (localNf : Bool) (r : Barrier) : State :=
  let n := c.seqNum
  let q := s.seq n
  let next := afterVerdict (leNat c.held) r.or q.scale q.cleanRun
  let s := if r.or then s.noteNoBall else s
  let s := s.writeVerdict q.verdictAddr (verdictBytes true r.or localNf (r.absent != 0) r.members
    ((c.step?.map (fun (x : Word32) => x.toNat)).getD 0) next.2.toNat next.1 (frecip q.scale))
  let s := s.modSeq n (fun q => { q with
    scale := next.1, cleanRun := next.2
    windows := q.windows.map (fun (w : Window) =>
      if some w.step == c.step? then
        { w with noBall := r.or, degraded := r.absent != 0, members := r.members, scale := q.scale, verdict := true }
      else w) })
  s.finish c.id (plainCompl Status.ok)

/-! ## The barrier (R325, R326) -/

/-- The result word of a barrier. -/
def Barrier.word (b : Barrier) : Nat := flagAt b.or 0 + at' (b.members % 8192) 16 + at' (b.absent % 8192) 32

def Barrier.ofNat (w : Nat) : Barrier := { or := bit w 0, members := bits w 28 16, absent := bits w 44 32 }

/-- The leader: the present member of lowest rank. -/
def Coll.leader (k : Coll) : Nat := ((List.range k.g).find? k.present).getD 0

/-- A member takes the result of a barrier: it keeps it, and the command that ran the barrier goes on. -/
def State.takeBarrier (s : State) (id : Nat) (r : Barrier) : State :=
  match s.coll? id, s.cmd? id with
  | some k, some c =>
    let s := s.modGroup k.group (fun g => { g with held := [(k.seq, k.flag, r)] })
    match c.opcode with
    | 0x505 =>
      let a := c.param 8 8
      let s := s.writeBlock { loc := a, mask := low 64, val := r.word }
      s.finishPart id (collCompl r.absent k.seq)
    | 0x646 => s.formVerdict c k.flag r
    | _ =>
      let s := s.modFabric (fun f => { f with colls := f.colls.filter (fun x => x.id != id) })
      if r.or then s.setStage id (.dma 0) else s.finish id (plainCompl Status.ok)
  | _, _ => s

/-- The leader forms the result once every present member's flag is in, and sends it to the others in ascending rank. -/
def State.settleBarrier (s : State) (id : Nat) : State :=
  match s.coll? id with
  | none => s
  | some k =>
    let me := s.collRank k
    let have' := fun r => k.flags.find? (fun f => f.1 == r)
    let ranks := (List.range k.g).filter k.present
    if k.kind != 5 || k.leader != me || ranks.any (fun r => (have' r).isNone) then s
    else
      let flags := ranks.filterMap have'
      let r := match (flags.filterMap (fun f => f.2.2)).head? with
        | some r => r
        | none => { or := flags.any (fun f => f.2.1), members := flags.length, absent := k.g - flags.length : Barrier }
      let s := (ranks.filter (fun x => x != me)).foldl (fun (s : State) x => s.inject
        { type := .barrierResult, hdr := { group := k.group, seq := k.seq, rank := me, dst := k.members.getD x 0 }
          payload := natLe 8 r.word }) s
      s.takeBarrier id r

/-- A flag, with a held result if any, recorded for a barrier that runs. -/
def State.noteFlag (s : State) (id r : Nat) (flag : Bool) (held : Option Barrier) : State :=
  (s.modColl id (fun k => { k with flags := k.flags.filter (fun f => f.1 != r) ++ [(r, flag, held)] })).settleBarrier id

/-- This module's flag goes to the leader. -/
def State.sendFlag (s : State) (id : Nat) : State :=
  match s.coll? id with
  | none => s
  | some k =>
    let me := s.collRank k
    if k.leader == me then s.noteFlag id me k.flag none
    else s.inject { type := .barrierFlag
                    hdr := { group := k.group, seq := k.seq, rank := me, dst := k.members.getD k.leader 0, nf := k.flag } }

/-! ## Packets that came early (R321) -/

/-- COLL_READY and BARRIER_FLAG packets held for a collective that has now started. -/
def State.takeEarly (s : State) (id : Nat) : State :=
  match s.coll? id with
  | none => s
  | some k =>
    let mine := fun (p : Packet) => p.hdr.group == k.group && p.hdr.seq == k.seq
    let ps := s.fabric.early.filter mine
    let s := s.modFabric (fun f => { f with early := f.early.filter (fun p => !mine p) })
    ps.foldl (fun (s : State) (p : Packet) =>
      match p.type with
      | .collReady => s.takeReady id p.hdr.rank
      | .barrierFlag => s.noteFlag id p.hdr.rank p.hdr.nf
          (if p.payload.length == 8 then some (Barrier.ofNat (leNat p.payload)) else none)
      | _ => s) s

/-- A collective, readmit or barrier packet that matches nothing here is dropped and counted, or held for the next number. -/
def State.earlyOrDrop (s : State) (p : Packet) : State :=
  match s.group? p.hdr.group with
  | some g =>
    if (p.type == .collReady || p.type == .barrierFlag) && p.hdr.seq == (s.currentSeq g + 1) % 2 ^ 32 then
      s.modFabric (fun f => { f with early := f.early ++ [p] })
    else s.bump .fabDiscardSeq
  | none => s.bump .fabDiscardSeq

/-- The collective that runs under a packet's group and sequence number. -/
def State.collOf (s : State) (p : Packet) : Option Coll :=
  s.fabric.colls.find? (fun k => k.group == p.hdr.group && k.seq == p.hdr.seq)

/-! ## The commands -/

/-- The collective of a command that starts. -/
def State.newColl (s : State) (c : Cmd) (g : Group) (kind : Nat) (flag : Bool) : Coll :=
  { id := c.id, kind := kind, group := g.num, seq := c.seqNo.getD 0, members := g.members
    order := kind < 2 && bit c.gctrl 28, mean := kind < 2 && bit c.gctrl 29, root := c.rootRank
    src := c.op? 0, dst := c.op? 8, staging := c.op? 16, flag := flag, empty := c.depLost && !c.depAny
    absent := s.absentRanks g }

/-- A collective that starts on this module. -/
def State.doColl (s : State) (id opcode kind : Nat) : State :=
  match s.running? id opcode with
  | none => s
  | some c =>
    match c.stage, s.group? c.groupParam with
    | .go, some g =>
      let k := s.newColl c g kind false
      let s := (s.setStage id .begun).modFabric (fun f => { f with colls := f.colls ++ [k] })
      let s := s.addPoisonIn id (poisonIn s.mem 0 [k.src])
      (((s.sendReady k).launch id).takeEarly id).settleColl id
    | .go, none => s.finish id (rejCompl Status.rejGroup 88)
    | _, _ => s

def execCollAllReduce (id : Nat) (s : State) : Host.Outcome State Fault Refusal := .next (s.doColl id 0x500 0)
def execCollReduceScatter (id : Nat) (s : State) : Host.Outcome State Fault Refusal := .next (s.doColl id 0x501 1)
def execCollAllGather (id : Nat) (s : State) : Host.Outcome State Fault Refusal := .next (s.doColl id 0x502 2)
def execCollAllToAll (id : Nat) (s : State) : Host.Outcome State Fault Refusal := .next (s.doColl id 0x503 3)
def execCollBroadcast (id : Nat) (s : State) : Host.Outcome State Fault Refusal := .next (s.doColl id 0x504 4)

/-- A barrier that starts on this module for a command. -/
def State.runBarrier (s : State) (c : Cmd) (group : Nat) (flag : Bool) : State :=
  match s.group? group with
  | none => s.finish c.id (rejCompl Status.rejGroup)
  | some g =>
    let k := { s.newColl c g 5 flag with src := none, dst := none, staging := none, order := false, mean := false }
    let s := (s.setStage c.id .barrier).modFabric (fun f => { f with colls := f.colls ++ [k] })
    (s.sendFlag c.id).takeEarly c.id

/-- COLL_BARRIER_OR (R326). -/
def execCollBarrierOr (id : Nat) (s : State) : Host.Outcome State Fault Refusal :=
  .next (match s.running? id 0x505 with
    | some c => if c.stage == .go then s.runBarrier c c.groupParam (bit c.gctrl 30) else s
    | none => s)

/-- PB_VERDICT's settings are taken when it starts (R251). -/
def State.pbVerdictStart (s : State) (c : Cmd) : Started :=
  { rejs := need (s.group? (bits (c.param 0 4) 15 0)).isSome Status.rejGroup 64
      ++ need (!s.hitsImage (s.seq c.seqNum).verdictAddr 128) Status.rejRegion 0xFFFF
    held := natLe 8 (s.seq c.seqNum).cfg.shadow.toNat }

/-- PB_VERDICT (R244). -/
def execPbVerdict (id : Nat) (s : State) : Host.Outcome State Fault Refusal :=
  .next (match s.running? id 0x646 with
    | some c => if c.stage == .go then s.runBarrier c (bits (c.param 0 4) 15 0) (s.stepNf c.src) else s
    | none => s)

/-! ## The packets -/

/-- COLL_READY (R321). -/
def execCollReady (p : Packet) (s : State) : Host.Outcome State Fault Refusal :=
  .next (s.receive p .collReady (fun s =>
    match s.collOf p with
    | some k => if k.kind == 5 then s.earlyOrDrop p else (s.takeReady k.id p.hdr.rank).settleColl k.id
    | none => s.earlyOrDrop p))

/-- A COLL_DATA for a collective that runs lands, and is acknowledged (R320, R322). -/
def State.takeData (s : State) (k : Coll) (p : Packet) : State :=
  let off := p.hdr.addr
  let n := p.payload.length
  let me := s.collRank k
  let shard := (k.owned me).find? (fun i =>
    let r := k.shardAt i
    r.1 ≤ off && off + n ≤ r.1 + r.2 && (off < r.1 + r.2))
  let reduce := (k.kind == 0 || k.kind == 1) && shard.isSome
  let s := if reduce && p.hdr.nf then (match s.cmd? k.id with | some c => s.setNf c.src | none => s) else s
  let s := s.addPoisonIn k.id (countBits p.poison (ceilDiv n 64))
  let t := if reduce then s.landContribution k p.hdr.rank off p.payload p.poison p.hdr.empty
    else s.landGather k p.hdr.rank off p.payload p.poison p.hdr.empty
  if t.2 then (t.1.inject (answer p .collAck)).settleColl k.id else t.1

/-- COLL_DATA. -/
def execCollData (p : Packet) (s : State) : Host.Outcome State Fault Refusal :=
  .next (s.receive p .collData (fun s =>
    match s.collOf p with
    | some k =>
      if k.kind == 5 then s.bump .fabDiscardSeq
      else if !k.present p.hdr.rank || k.g ≤ p.hdr.rank then s
      else if 64 * k.targetBlocks < p.hdr.addr + p.payload.length then s.bump .fabDiscardBad
      else s.takeData k p
    | none => s.bump .fabDiscardSeq))

/-- COLL_ACK (R322). -/
def execCollAck (p : Packet) (s : State) : Host.Outcome State Fault Refusal :=
  .next (s.receive p .collAck (fun s =>
    match s.collOf p with
    | some k =>
      let hit := fun (x : Send) => x.tag == p.hdr.tag && x.sent && !x.acked && k.members.getD x.rank 4096 == p.hdr.src
      ((s.modColl k.id (fun k => { k with sends := k.sends.map (fun (x : Send) =>
        if hit x then { x with acked := true } else x) })).trySends k.id).settleColl k.id
    | none => s.bump .fabDiscardSeq))

/-- The barrier completed last in a group, where it is the one that a packet names. -/
def State.heldFor (s : State) (p : Packet) : Option Barrier :=
  (s.group? p.hdr.group).bind (fun g => (g.held.find? (fun h => h.1 == p.hdr.seq)).map (fun h => h.2.2))

/-- BARRIER_FLAG (R326). A module that holds the result answers with it (log entry 18). -/
def execBarrierFlag (p : Packet) (s : State) : Host.Outcome State Fault Refusal :=
  .next (s.receive p .barrierFlag (fun s =>
    match s.collOf p with
    | some k =>
      if k.kind != 5 then s.bump .fabDiscardSeq
      else s.noteFlag k.id p.hdr.rank p.hdr.nf (if p.payload.length == 8 then some (Barrier.ofNat (leNat p.payload)) else none)
    | none =>
      match s.heldFor p with
      | some r => s.inject { answer p .barrierResult with payload := natLe 8 r.word }
      | none => s.earlyOrDrop p))

/-- BARRIER_RESULT (R326). A second result for a completed barrier is ignored. -/
def execBarrierResult (p : Packet) (s : State) : Host.Outcome State Fault Refusal :=
  .next (s.receive p .barrierResult (fun s =>
    match s.collOf p with
    | some k => if k.kind == 5 then s.takeBarrier k.id (Barrier.ofNat (leNat p.payload)) else s.bump .fabDiscardSeq
    | none => if (s.heldFor p).isSome then s else s.bump .fabDiscardSeq))

/-- COLL_TIMEOUT (R324): while a member that is present is waited for. -/
def execCollTimeout (id : Nat) (s : State) : Host.Outcome State Fault Refusal :=
  .next (match s.coll? id with
    | some k =>
      if (List.range k.g).any (fun r => r != s.collRank k && k.present r) then
        s.finish id (s.faultCompl id Status.fltCollTimeout)
      else s
    | none => s)

/-! ## Members that the roster declares absent (R318, R323, R326) -/

/-- A send that was to go to a rank now absent goes to the shard's new owner, unless it was acknowledged; a rank that has no
further part is dropped. -/
def Coll.reroute (k : Coll) (me : Nat) (x : Send) : Option Send :=
  if k.present x.rank || x.acked then some x
  else if k.kind == 0 && !k.formed.contains x.shard then
    match k.owner x.shard with
    | some r => if r == me then none else some { x with
        rank := r, sent := false
        packet := { x.packet with hdr := { x.packet.hdr with dst := k.members.getD r 0 } } }
    | none => none
  else none

/-- A collective that runs takes in the ranks now absent. What had come of a shard that its lost owner did not send whole is
awaited again from the new owner (DEDUCED from R320, log entry 18). -/
def State.collLoses (s : State) (gone : List Nat) (k0 : Coll) : State :=
  let ranks := (List.range k0.g).filter (fun r => gone.contains (k0.members.getD r 0) && k0.present r)
  if ranks == [] then s
  else
    let me := s.collRank k0
    let k := { k0 with absent := k0.absent ++ ranks }
    let taken := (k.owned me).filter (fun i => !(k0.owned me).contains i)
    let passed := (List.range k.g).filter (fun i => k0.owner i != k.owner i && k0.gatheredIn (k0.shardAt i) < (k0.shardAt i).2)
    let s := s.modColl k0.id (fun _ => { k with
      sends := k.sends.filterMap (k.reroute me)
      gathered := k.gathered.filter (fun x => !(k.kind == 0 && passed.any (fun i =>
        (k.shardAt i).1 ≤ x.1 && x.1 < (k.shardAt i).1 + (k.shardAt i).2)))
      flags := k.flags.filter (fun f => k.present f.1) })
    if k.kind == 5 then
      if k0.leader != k.leader then s.sendFlag k.id else s.settleBarrier k.id
    else ((taken.foldl (fun s i => s.landOwn k.id i) s).trySends k.id).settleColl k.id

/-- The held result of a group's latest barrier goes to the new leader when the leader is lost. -/
def State.leaderLost (s : State) (before : List Nat) (g : Group) : State :=
  let lead := fun (absent : List Nat) => (List.range g.members.length).find? (fun r => !absent.contains r)
  match g.held.head?, lead before, lead (s.absentRanks g) with
  | some h, some a, some b =>
    let m := g.members.getD b 0
    if a == b || m == s.moduleId then s
    else s.inject
      { type := .barrierFlag
        hdr := { group := g.num, seq := h.1, rank := rankIn g.members s.moduleId, dst := m, nf := h.2.1 }
        payload := natLe 8 h.2.2.word }
  | _, _, _ => s

/-- Modules that were present and are so no longer: absent for their groups until readmitted, and for what runs.
`before` is the state in which they were present. -/
def State.groupsLose (s before : State) (gone : List Nat) : State :=
  let s := s.modFabric (fun f => { f with groups := f.groups.map (fun (g : Group) =>
    { g with absent := g.absent ++ gone.filter (fun m => g.members.contains m && !g.absent.contains m) }) })
  let s := s.fabric.colls.foldl (fun (s : State) k => match s.coll? k.id with
    | some k => s.collLoses gone k
    | none => s) s
  s.fabric.groups.foldl (fun (s : State) (g : Group) =>
    if gone.any (fun m => g.members.contains m) then
      s.leaderLost ((before.group? g.num).elim [] before.absentRanks) g
    else s) s

end Sys2Proof.Machine
end

