-- ==== Sys2Proof/Machine/Drain.lean ====
section
/-! DEFINITION. Accumulation slots at the start of a command, and the drain of a finished output
(spec/04_accumulation_and_drain.md, R91 to R102). -/

namespace Sys2Proof.Machine

/-! ## Slots at start (R91, R96) -/

def State.slot? (s : State) (ctx num : Nat) : Option Slot := s.slots.find? (fun k => k.ctx == ctx && k.num == num)

/-- The playbook that issues a command, by the command that started it; 0 for a command of a queue. -/
def State.slotPlaybook (s : State) (c : Cmd) : Nat :=
  match c.owner with
  | .inl _ => 0
  | .inr n => (s.seq n).starter

/-- Bytes that a slot of this extent takes of a cluster's pool (R91). -/
def slotShare (rows cols : Nat) (targets : List Nat) (cl : Nat) : Nat :=
  65536 * slotUnits ((bandRows rows targets cl).length * cols)

/-- A command that names an open slot matches it; one that opens slots finds room for all of them (R91). -/
def State.slotRejs (s : State) (c : Cmd) (names : List (Nat × Nat × Nat)) (aux : Nat) : List Rej :=
  let ts := targetClusters c.target
  let opened := names.filter (fun n => (s.slot? c.ctx n.1).isNone)
  names.flatMap (fun n => match s.slot? c.ctx n.1 with
      | some k => need (k.clusters == ts && k.rows == n.2.1 && k.cols == n.2.2 && k.owner == c.owner
          && k.starter == s.slotPlaybook c) Status.rejSlot aux
      | none => [])
    ++ need (ts.all (fun cl =>
        let share := (opened.map (fun n => slotShare n.2.1 n.2.2 ts cl)).sum
        share == 0 || s.slotBytes cl + share ≤ min (bits (s.cluster cl).acc.force.toNat 5 0) 32 * 2 ^ 20))
        Status.rejSlotSpace aux

/-- The slots that a starting command opens, each at +0 (R91, R92). -/
def State.openSlots (s : State) (c : Cmd) (names : List (Nat × Nat × Nat)) : State :=
  { s with slots := s.slots ++ (names.filter (fun n => (s.slot? c.ctx n.1).isNone)).map (fun n =>
      { ctx := c.ctx, num := n.1, clusters := targetClusters c.target, rows := n.2.1, cols := n.2.2, owner := c.owner
        starter := s.slotPlaybook c
        acc := List.replicate (n.2.1 * n.2.2) 0#32, poison := List.replicate (n.2.1 * n.2.2) false }) }

/-- The cluster that computes a row of an output: bands of 512 rows in turn over the targets (R88). -/
def bandCluster (targets : List Nat) (row : Nat) : Nat := targets.getD ((row / 512) % max targets.length 1) 0

/-- Target clusters that receive a band. -/
def bandClusters (targets : List Nat) (rows : Nat) : List Nat :=
  targets.filter (fun cl => !(bandRows rows targets cl).isEmpty)

/-! ## Row statistics (R99, R100) -/

def negInf32 : Word32 := 0xFF800000#32
def nan32 : Word32 := 0x7FC00000#32

/-- Maximum and sum of a group of at most 32 values, none of them NaN or +infinity. -/
def groupStat (vs : List Word32) : Word32 × Word32 :=
  let m := vs.foldl fmax negInf32
  if m == negInf32 then (m, 0#32)
  else (m, treeSum (vs.map (fun v => if v == negInf32 then 0#32 else fexp (fsub v m))))

/-- The merge of two groups. -/
def mergeStat (a b : Word32 × Word32) : Word32 × Word32 :=
  let m := fmax a.1 b.1
  let term := fun (x : Word32 × Word32) => if x.1 == negInf32 then 0#32 else fmul x.2 (fexp (fsub x.1 m))
  if m == negInf32 then (m, 0#32) else (m, fadd (term a) (term b))

/-- ROWMAX and ROWSUM of a row. -/
def rowStat (vs : List Word32) : Word32 × Word32 :=
  if vs.any (fun v => (ofF32 v).isNan || ofF32 v == .inf false) then (nan32, nan32)
  else (tree mergeStat ((chunks 32 vs).map groupStat)).getD (negInf32, 0#32)

/-! ## The drain (R98) -/

/-- Step 1: one fused operation; with ALPHA 1.0 and no bias the value as it is. -/
def drainValue (alpha : Word32) (bias : Option Elem) (acc : Elem) : Elem :=
  match bias with
  | some b => Elem.ofF32 (ffma alpha acc.f32 b.f32) (acc.poison || b.poison)
  | none => if alpha == f32One then acc else Elem.ofF32 (fmul alpha acc.f32) acc.poison

/-- The writes of a part of a row that starts at element `first`, a multiple of 512: whole blocks of codes, and one byte
for each scale, merged alone, so that a block of scales keeps an old mark of poison even where every byte of it is written
(DESIGN CHOICE: R98 does not say how its scale bytes land). -/
def Operand.partWrites (o : Operand) (cl row first : Nat) (es : List OutElem) : List BlockWr :=
  codeWrites (o.loc cl (o.d.rowOff row)) o.d.fmt first false (o.marks es)
    ++ (match o.scale with
        | none => []
        | some p => (enumFrom (first / 32) (chunks 32 es)).map (fun b =>
            { loc := o.scaleLoc cl (p.rowOff row) + 64 * (b.1 / 64), mask := at' 255 (8 * (b.1 % 64))
              val := at' ((b.2.headD { code := 0, scale := 127, poison := false }).scale % 256) (8 * (b.1 % 64)) }))

/-- What a drain needs of its command. -/
structure DrainSpec where
  dst : Option Operand := none
  dstt : Option Operand := none
  rowMax : Option Operand := none
  rowSum : Option Operand := none
  mode : ScaleMode := .auto
  rounding : Rounding := {}
  targets : List Nat := []

/-- One FP32 value written into element n of a vector. Each element is merged alone, so that a block keeps an old mark of
poison even where all 16 of its elements are written (DESIGN CHOICE: R99 and R541 do not say how they land). -/
def Operand.writeLin (o : Operand) (cl n : Nat) (w : Word32) (poison : Bool) : BlockWr :=
  let i := n % o.d.ext0
  { loc := o.loc cl (o.d.rowOff (n / o.d.ext0)) + 64 * (i / 16), mask := at' (low32) (32 * (i % 16))
    val := at' w.toNat (32 * (i % 16)), poison := poison || o.foul
    nf := if poison || o.foul || (ofF32 w).nonFinite then 1 else 0 }
where low32 : Nat := 2 ^ 32 - 1

/-- The writes of a drained output: rows of values, each written by the cluster of its band (R88), in tile orientation,
transposed or both, and the row statistics. -/
def drainEffect (p : DrainSpec) (vals : List (List Elem)) : Effect :=
  let rows : List (Nat × List Elem) := enumFrom 0 vals
  let cl := bandCluster p.targets
  let n := (vals.headD []).length
  let tile : List (Nat × List OutElem) := match p.dst with
    | none => []
    | some o => rows.map (fun (r : Nat × List Elem) => (r.1, convertRow o.d.fmt o.scale.isSome p.mode p.rounding (r.1 * n) r.2))
  let turned : List (Nat × Nat × List OutElem) := match p.dstt with
    | none => []
    | some o => (chunks 512 rows).flatMap (fun (band : List (Nat × List Elem)) =>
        let first := (band.headD (0, [])).1
        (List.range n).map (fun j =>
          (first, j, convertRow o.d.fmt o.scale.isSome p.mode p.rounding (j * vals.length + first)
            (band.map (fun r => r.2.getD j default)))))
  let stats : List (Nat × (Word32 × Word32) × Bool) := if p.rowMax.isSome then rows.map (fun r =>
      (r.1, rowStat (r.2.map Elem.f32), r.2.any (fun e => e.poison))) else []
  { writes :=
      (match p.dst with
        | some o => tile.flatMap (fun t => o.rowWrites (cl t.1) t.1 false t.2)
        | none => [])
      ++ (match p.dstt with
        | some o => turned.flatMap (fun t => o.partWrites (cl t.1) t.2.1 t.1 t.2.2)
        | none => [])
      ++ (match p.rowMax, p.rowSum with
        | some a, some b => stats.flatMap (fun t =>
            [a.writeLin (cl t.1) t.1 t.2.1.1 t.2.2, b.writeLin (cl t.1) t.1 t.2.1.2 t.2.2])
        | _, _ => [])
    ctrs := [(.nonfiniteDense, (vals.map (fun r => (r.filter (fun e => e.val.nonFinite)).length)).sum)] }

/-- The contribution of a command's finished elements to its slot (R92), and the slot's value with it. -/
def Slot.plus (k : Slot) (vals : List (List Elem)) : List (List Elem) :=
  let flat := vals.flatten
  let sum := ((k.acc.zip k.poison).zip flat).map (fun p => Elem.ofF32 (fadd p.1.1 p.2.f32) (p.1.2 || p.2.poison))
  chunks k.cols sum

def slotAdd (num : Nat) (vals : List (List Elem)) : SlotAdd :=
  { num := num, elems := vals.flatten.map (fun e => (e.f32, e.poison)) }

end Sys2Proof.Machine
end

