-- ==== Sys2Proof/Machine/Place.lean ====
section
/-! DEFINITION. Where a command's shares run: partitions of the dense arrays, general threads and feeder slots (R65, R70 to R72,
R76, R78, R137, R181, R513). Which of the places that are open a command takes is a free choice; log entry 32 names it and what
else the manual leaves to the cluster controller. -/

namespace Sys2Proof.Machine

/-! ## What a command asks of a core -/

namespace Cmd
/-- A dense or Scrum product command: it occupies partitions (R137). -/
def onArray (c : Cmd) : Bool := c.opcode == 0x200 || c.opcode == 0x300 || c.opcode == 0x301

/-- A vector, fused, move or other Scrum command: it runs on general threads (R137). A draft command that cluster controllers
run does so too, with feeder streams (R270, R403; log entry 32). -/
def onThread (c : Cmd) : Bool :=
  (0x100 ≤ c.opcode && c.opcode < 0x500 && !c.onArray) || (0x701 ≤ c.opcode && c.opcode ≤ 0x704)

/-- Feeder slots of one share: one for each source pointer that its feeder walks, at most 4 (R181). That a scale plane takes
none of its own, and that up to six sources share four slots, is a DESIGN CHOICE (log entry 35). -/
def streams (c : Cmd) : Nat := min 4 ((srcPtrs c.opcode).filter (fun o => c.param o 8 != 0)).length

/-- ARRAY_PART (R71, R406, R415). -/
def arrayPart (c : Cmd) : Nat := if c.opcode == 0x200 then bits (c.param 60 4) 1 0 else bits (c.param 64 4) 9 8

/-- Pointer of the operand that fixes a product's format. -/
def fmtPtr (c : Cmd) : Nat := if c.opcode == 0x200 then 8 else 0
end Cmd

/-- The descriptor that a pointer names, where it can be read. -/
def State.descAt (s : State) (c : Cmd) (off : Nat) : Option Desc :=
  match s.dptr c off with
  | .ok (some l) => some (Desc.ofBytes l)
  | _ => none

/-- Rows and columns of a product; none where its descriptors cannot be read, and it will be rejected. -/
def State.productRows (s : State) (c : Cmd) : Nat :=
  if c.opcode == 0x200 then ((s.descAt c 8).map (fun d => d.extent 1)).getD 0 else c.param 56 4

def State.productCols (s : State) (c : Cmd) : Nat :=
  match c.opcode with
  | 0x200 => ((s.descAt c 0).map (fun d => if bit (c.param 60 4) 21 then d.ext0 else d.extent 1)).getD 0
  | 0x300 => ((s.descAt c 32).map (fun d => d.ext0)).getD 0
  | _ => c.param 116 4

/-- Width of a command's tiles after the column tiling by 128 (R71, R79). -/
def State.tileWidth (s : State) (c : Cmd) : Nat := min 128 (s.productCols c)

/-- The clusters on which a command runs a share: those with a band of a product (R88), else every target. -/
def State.shareClusters (s : State) (c : Cmd) : List Nat :=
  if c.onArray then
    let rows := s.productRows c
    ((enumFrom 0 c.clusters).filter (fun p => 512 * p.1 < rows)).map (·.2)
  else c.clusters

/-! ## Partition modes (R71, R72) -/

/-- Do ARRAY_PART and PART_POLICY allow partitions of this mode's width? -/
def PartMode.allowed (m : PartMode) (arrayPart policy : Nat) : Bool :=
  match m with
  | .full => true
  | .halves => arrayPart != 1 && policy != 1
  | .quarters => arrayPart != 1 && arrayPart != 2 && policy != 1 && policy != 2

/-- Is a command eligible for the partitions of a mode on a cluster? -/
def State.fits (s : State) (c : Cmd) (n : Nat) (m : PartMode) : Bool :=
  s.tileWidth c ≤ m.width && m.allowed c.arrayPart (bits (s.cluster n).array.shadow.toNat 3 2)

/-- The mode that a cluster's controller chooses for a core from the commands that are ready for it. -/
def State.chosenMode (s : State) (n : Nat) (seeking : List Cmd) : PartMode :=
  if 3 ≤ (seeking.filter (fun c => s.fits c n .quarters)).length then .quarters
  else if 2 ≤ (seeking.filter (fun c => s.fits c n .halves)).length then .halves
  else .full

/-- A core takes the mode chosen before once every partition is at a boundary. With every partition at a boundary it
chooses anew; while one runs it chooses another mode only when none of the ready commands fits its partitions, and then
takes no further work (R72, log entry 32). -/
def Core.settleMode (want : PartMode) (served : Bool) (k : Core) : Core :=
  if k.mode != .active then k
  else if k.atBoundary then { k with split := k.nextSplit.getD want, nextSplit := none }
  else if k.nextSplit.isNone && !served && k.split != want then { k with nextSplit := some want }
  else k

/-- The controllers of a command's clusters choose modes for the commands that are ready. -/
def State.settleModes (s : State) (clusters : List Nat) (seeking : List Cmd) : State :=
  clusters.foldl (fun (s : State) n =>
    let here := seeking.filter (fun c => c.onArray && (s.shareClusters c).contains n)
    if here.isEmpty then s
    else
      let want := s.chosenMode n here
      s.modCluster n (fun k => { k with cores := k.cores.map (fun x =>
        x.settleMode want (here.any (fun c => s.fits c n x.split))) })) s

/-! ## Open places -/

/-- Are the active cores of a cluster under test one after another (R499)? -/
def State.underTest (s : State) (n : Nat) : Bool :=
  s.cmds.any (fun c => c.isRunning && c.opcode == 0xA00 && bit (c.param 8 4) 8 && bit (c.param 8 4) n)

/-- Does a core run commands? An active one does, and a bench core that stands in for a core of its row that is under test
(R492, R499; log entry 26). -/
def State.stands (s : State) (n : Nat) (k : Core) : Bool :=
  k.mode == .active
    || (k.mode == .bench && (s.underTest n || !k.atBoundary || k.threads.toList.any (fun t => t.cmd.isSome)))

/-- A core that admits new shares (R489). -/
def State.admits (s : State) (n : Nat) (k : Core) : Bool :=
  (k.mode == .active || (k.mode == .bench && s.underTest n)) && !k.failing

/-- Partitions that can stream a command at once. -/
def Core.openParts (k : Core) : List Nat :=
  if k.nextSplit.isSome then []
  else (List.range k.split.parts).filter (fun u =>
    (vget k.parts u {}).cmd.isNone && (vget k.threads u {}).cmd.isNone)

/-- Partitions that can preload a command's first tile while another streams (R65). -/
def Core.nextParts (k : Core) : List Nat :=
  if k.nextSplit.isSome then []
  else (List.range k.split.parts).filter (fun u =>
    let p := vget k.parts u {}
    p.cmd.isSome && p.next.isNone && bit p.word.toNat 1)

/-- A general thread without work. -/
def Core.openThread (k : Core) : Option Nat :=
  (List.range 8).find? (fun t => k.split.parts ≤ t && (vget k.threads t {}).cmd.isNone)

/-- Feeder slots that nothing holds. -/
def Core.openFeeds (k : Core) : List Nat := (List.range 16).filter (fun i => (vget k.feeds i none).isNone)

/-- Is a partition or a thread of a core open to a command? -/
def State.hasPlace (s : State) (c : Cmd) (n : Nat) (k : Core) : Bool :=
  if c.onArray then s.fits c n k.split && (k.openParts != [] || k.nextParts != []) else k.openThread.isSome

/-- The places on a cluster that a command may take: core, and partition or thread. Places and feeder slots go in admission
order (R513): `before` lists the commands admitted earlier that are ready as well, and a core's free slots serve first those of
them that have a place open there. A place of each core at most; partitions that stream at once come before those that
preload. -/
def State.places (s : State) (c : Cmd) (n : Nat) (before : List Cmd) : List (Nat × Nat) :=
  let here := before.filter (fun x => (s.shareClusters x).contains n)
  let claimed := fun (k : Core) => ((here.filter (fun x => s.hasPlace x n k)).map (fun x => x.streams)).sum
  let cores := (enumFrom 0 (s.cluster n).cores.toList).filter (fun k =>
    s.admits n k.2 && c.streams + claimed k.2 ≤ k.2.openFeeds.length)
  let ahead := here.filter (fun x => x.onArray == c.onArray)
  if c.onArray then
    let fit := cores.filter (fun k => s.fits c n k.2.split && !ahead.any (fun x => s.fits x n k.2.split))
    let now := fit.filterMap (fun k => k.2.openParts.head?.map (fun u => (k.1, u)))
    if now.isEmpty then fit.filterMap (fun k => k.2.nextParts.head?.map (fun u => (k.1, u))) else now
  else if ahead.isEmpty then cores.filterMap (fun k => k.2.openThread.map (fun t => (k.1, t)))
  else []

/-- Is another command an earlier contributor to one of its slots that has still to take its places? -/
def Cmd.behindSlots (c x : Cmd) : Bool :=
  (c.onArray || c.onThread) && x.id < c.id && x.isWaiting && x.ctx == c.ctx && x.owner == c.owner
    && x.slots.any (fun k => c.slots.contains k)

/-- Can a command take a place on each cluster where it runs a share? A contributor to a slot takes one only after the
earlier contributors have taken theirs, so that none holds tiles that those still need (R92, R518). -/
def State.placeable (s : State) (c : Cmd) (before : List Cmd) : Bool :=
  (!c.onArray && !c.onThread)
  || ((s.shareClusters c).all (fun n => !(s.places c n before).isEmpty) && !s.cmds.any c.behindSlots)

/-! ## Taking places -/

/-- A free choice of places, at least one. -/
def chooseSome (k : Nat) (l : List (Nat × Nat)) : List (Nat × Nat) :=
  let p := Config.freeNat k % max l.length 1
  ((enumFrom 0 l).filter (fun x => x.1 == p || Config.freeBit (k + 1 + x.1))).map (·.2)

/-- Feeder slots taken, all at once (R181). -/
def Core.takeFeeds (k : Core) (id n : Nat) : Core :=
  let l := k.openFeeds.take n
  { k with feeds := Vector.ofFn (fun i : Fin 16 => if l.contains i.val then some id else k.feeds[i.val]) }

/-- A share takes a partition, to stream at once or with its first tile preloaded. -/
def Core.takePart (k : Core) (id u : Nat) (word : Word64) (cls : Nat) (tile : Option StatTile) : Core :=
  if (vget k.parts u {}).cmd.isSome then
    { k with parts := vmod k.parts u (fun p => { p with next := some id, preload := tile, nextCls := cls }) }
  else
    { k with
      parts := vmod k.parts u (fun p => { p with cmd := some id, word := word, cls := cls })
      threads := vmod k.threads u (fun t => { t with cmd := some id }) }

def Core.takeThread (k : Core) (id t : Nat) : Core := { k with threads := vmod k.threads t (fun x => { x with cmd := some id }) }

/-- The power class of dense work of a format in a mode (R75). -/
def powerClass (f : Fmt) (m : PartMode) : Nat :=
  let whole := match f with
    | .l8 | .e4m3 | .e5m2 => 2
    | _ => 3
  if m == .quarters then whole - 1 else whole

/-- The first stationary tile of a dense command on a cluster: Kp contraction indices of 128 columns (R55, R65). -/
def State.firstTile (s : State) (c : Cmd) (cl : Nat) : Option StatTile :=
  match c.op? 0, c.op? 8 with
  | some stat, some strm =>
    if c.opcode != 0x200 then none
    else
      let t := bit (c.param 60 4) 21
      let n := min 128 (if t then stat.d.ext0 else stat.d.extent 1)
      let kp := min (kpOf strm.d.fmt) strm.d.ext0
      some { cmd := c.id
             elems := (List.range n).map (fun j => (List.range kp).map (fun k =>
               if t then stat.elem s.mem cl j k else stat.elem s.mem cl k j))
             bad := (if t then stat.tileBlocks cl n kp else stat.tileBlocks cl kp n).filter s.mem.poisoned }
  | _, _ => none

/-- A command takes its places on a cluster, under the words that it took at its start (R429). -/
def State.placeOn (s : State) (c : Cmd) (before : List Cmd) (n : Nat) : State :=
  let l := s.places c n before
  let take := chooseSome s.free l
  let s := { s with free := s.free + 1 + l.length }
  let word := ((c.latched.find? (fun x => x.cluster == n)).map (·.array)).getD (s.cluster n).array.shadow
  let f := ((s.descAt c c.fmtPtr).map (fun d => d.fmt)).getD .bf16
  let tile := s.firstTile c n
  take.foldl (fun (s : State) p => s.modCluster n (fun k => { k with cores := vmod k.cores p.1 (fun x =>
    let x := x.takeFeeds c.id c.streams
    if c.onArray then x.takePart c.id p.2 word (powerClass f x.split) tile else x.takeThread c.id p.2) })) s

/-- A command that has passed its checks takes its places. -/
def State.place (s : State) (c : Cmd) (before : List Cmd) : State :=
  if !c.onArray && !c.onThread then s else (s.shareClusters c).foldl (fun (s : State) n => s.placeOn c before n) s

/-- Failing shares of a command on a core restart on another active core of the cluster: on one where the command has
none yet while it has no other left, else on those (R489). -/
def State.moveShare (s : State) (n core id : Nat) : State :=
  match s.cmd? id with
  | none => s
  | some c =>
    let s := { s.modCluster n (fun k => { k with cores := vmod k.cores core (fun x => x.release k.array.shadow s.free id) }) with
      free := s.free + 8 * threadDraws }
    if (s.cluster n).cores.toList.any (fun k => k.runs id) || (s.places c n []).isEmpty then s else s.placeOn c [] n

end Sys2Proof.Machine
end

