-- ==== Sys2Proof/Machine/Dense.lean ====
section
/-! DEFINITION. DENSE_MM (spec/03_dense_array.md, spec/04_accumulation_and_drain.md, R406). -/

namespace Sys2Proof.Machine

/-! ## Parameters (R406) -/

def Cmd.denseCtrl (c : Cmd) : Nat := c.param 60 4

/-- STAT_T: the stationary operand is stored [K, N]. -/
def Cmd.statT (c : Cmd) : Bool := bit c.denseCtrl 21

def Cmd.alphaOf (c : Cmd) (off : Nat) : Word32 :=
  if c.param off 4 == 0 then f32One else BitVec.ofNat 32 (c.param off 4)

def Cmd.denseMode (c : Cmd) : ScaleMode :=
  if bits c.denseCtrl 12 11 == 2 then .fixed (bits c.denseCtrl 20 13) else .auto

/-- Extents of the product: rows M, contraction K, columns N. -/
def denseM (strm : Operand) : Nat := strm.d.extent 1
def denseK (strm : Operand) : Nat := strm.d.ext0
def Cmd.denseN (c : Cmd) (stat : Operand) : Nat := if c.statT then stat.d.ext0 else stat.d.extent 1

/-- The form that contributes to its slot and drains nothing (R92, R93). -/
def Cmd.slotOnly (c : Cmd) : Bool := c.slot?.isSome && !c.slotDrain

/-! ## Checks at start -/

def State.denseStart (s : State) (c : Cmd) : Started :=
  let ctrl := c.denseCtrl
  let rs := [s.resolve c 0 .src dataFmts, s.resolve c 8 .src dataFmts, s.resolve c 16 .dst dataFmts true,
    s.resolve c 24 .dst dataFmts true, s.resolve c 32 .src [.fp32] true, s.resolve c 40 .dst [.fp32] true,
    s.resolve c 48 .dst [.fp32] true]
  let stat := opAt rs 0
  let strm := opAt rs 8
  let outs := [16, 24, 40, 48]
  let named := fun o => c.param o 8 != 0
  let m := (strm.map denseM).getD 0
  let n := (stat.map c.denseN).getD 0
  let st := Started.ofResolved rs
    (c.reservedRejs [0, 8, 16, 24, 32, 40, 48] [(56, 4, low 32), (60, 4, low 22), (64, 4, low 20)]
      ++ need (bits ctrl 12 11 != 3) Status.rejReserved 124
      ++ need (bits ctrl 12 11 != 1) Status.rejLayout 124
      ++ need1 stat (fun x => x.d.ndim == 2) Status.rejLayout 64
      ++ need1 strm (fun x => x.d.ndim == 2) Status.rejLayout 72
      ++ need2 stat strm (fun x y => pairOk x.d.fmt y.d.fmt) Status.rejFormat 64
      ++ need2 stat strm (fun x y => x.d.extent (if c.statT then 1 else 0) == y.d.ext0) Status.rejShape 64
      ++ need1 strm (fun y => 1 ≤ denseM y && denseM y ≤ 2 ^ 20 && 1 ≤ denseK y && denseK y ≤ 65536) Status.rejShape 72
      ++ need1 stat (fun x => 1 ≤ c.denseN x && c.denseN x ≤ 16384) Status.rejShape 64
      ++ (if stat.isSome && strm.isSome then
            need1 (opAt rs 16) (fun d => d.d.ndim == 2 && d.d.ext0 == n && d.d.extent 1 == m) Status.rejShape 80
              ++ need1 (opAt rs 24) (fun d => d.d.ndim == 2 && d.d.ext0 == m && d.d.extent 1 == n) Status.rejShape 88
              ++ vectorRejs (opAt rs 32) (if bit ctrl 2 then n else m) .fp32 96
              ++ vectorRejs (opAt rs 40) m .fp32 104 ++ vectorRejs (opAt rs 48) m .fp32 112
          else [])
      ++ need (named 40 == named 48) Status.rejShape 104
      ++ (if c.slotOnly then outs.flatMap (fun o => need (!named o) Status.rejLayout (64 + o))
          else need (named 16 || named 24) Status.rejLayout 80)
      ++ writtenRejs (outs.map (fun o => (o, opAt rs o))) [stat, strm, opAt rs 32])
  let slots := c.slots.map (fun k => (k, m, n))
  { st with
    slots := slots
    rejs := st.rejs ++ (if stat.isSome && strm.isSome then s.slotRejs c slots 124 else []) }

/-! ## Effect -/

/-- The products of one output element, in ascending contraction index. -/
def denseProducts (a : List Elem) (b : Nat → Elem) : List (Val × Bool) :=
  (enumFrom 0 a).map (fun p => let y := b p.1; (product p.2 y, p.2.poison || y.poison))

/-- One output element before the drain: column passes of Kp products, summed by class (R81 to R87). -/
def denseElem (kp : Nat) (ps : List (Val × Bool)) : Elem :=
  Elem.ofF32 (sumPasses ((chunks kp ps).map (fun q => columnPass (q.map (·.1))))) (ps.any (·.2))

/-- The first stationary tile that a command's shares on a cluster preloaded, while another command streamed (R62, R65). -/
def State.preloaded (s : State) (c : Cmd) (cl : Nat) : Option StatTile :=
  (s.cluster cl).cores.toList.findSome? (fun k => k.parts.toList.findSome? (fun p =>
    p.active.filter (fun t => p.cmd == some c.id && t.cmd == c.id && t.pass == 0 && t.col == 0)))

/-- Stationary element (k, j): from the preloaded tile where it lies there, else from memory. -/
def State.statElem (s : State) (c : Cmd) (stat : Operand) (tile : Option StatTile) (cl j k : Nat) : Elem :=
  match tile.bind (fun t => (t.elems[j]?).bind (fun col => col[k]?)) with
  | some e => e
  | none => if c.statT then stat.elem s.mem cl j k else stat.elem s.mem cl k j

/-- Rows of the output, each on the cluster of its band (R88). -/
def State.denseRows (s : State) (c : Cmd) (stat strm : Operand) : List (List Elem) :=
  let kp := kpOf strm.d.fmt
  (List.range (denseM strm)).map (fun i =>
    let cl := bandCluster (targetClusters c.target) i
    let a := strm.row s.mem cl i
    let tile := s.preloaded c cl
    (List.range (c.denseN stat)).map (fun j => denseElem kp (denseProducts a (s.statElem c stat tile cl j))))

/-- The last stationary tile of a command, which stays in the active sets. -/
def State.lastTile (s : State) (c : Cmd) (stat strm : Operand) : StatTile :=
  let kp := kpOf strm.d.fmt
  let n := c.denseN stat
  let p := (denseK strm - 1) / kp
  let q := (n - 1) / 128
  let cl := (targetClusters c.target).headD 0
  { cmd := c.id, pass := p, col := q
    elems := (List.range (n - 128 * q)).map (fun j => (List.range (denseK strm - kp * p)).map (fun k =>
      s.statElem c stat (if p == 0 && q == 0 then s.preloaded c cl else none) cl (128 * q + j) (kp * p + k))) }

def Cmd.denseDrain (c : Cmd) : DrainSpec :=
  { dst := c.op? 16, dstt := c.op? 24, rowMax := c.op? 40, rowSum := c.op? 48, mode := c.denseMode
    rounding := c.rounding (bit c.denseCtrl 3) (c.param 64 4), targets := targetClusters c.target }

/-- The bias that a command read when it started (R102): per cluster of its bands, the elements in order. -/
def State.readBias (s : State) (c : Cmd) : List (Nat × List Elem) :=
  match c.op? 32 with
  | some b =>
    if c.opcode == 0x200 && !c.slotOnly then
      c.latched.map (fun l => (l.cluster, (List.range b.d.count).map (fun i => b.lin s.mem l.cluster i)))
    else []
  | none => []

/-- The poisoned blocks among those of the bias, as the command read it. -/
def State.readBiasBad (s : State) (c : Cmd) : List Nat :=
  match c.op? 32 with
  | some b => if c.opcode == 0x200 && !c.slotOnly then (c.latched.flatMap (fun l => b.blocks l.cluster)).filter s.mem.poisoned else []
  | none => []

/-- Every drained value: ALPHA and the bias along rows or columns (R98), as the command read them at its start. -/
def denseBiased (c : Cmd) (vals : List (List Elem)) : List (List Elem) :=
  let alpha := c.alphaOf 56
  (enumFrom 0 vals).map (fun r =>
    let b := (c.bias.find? (fun b => b.1 == bandCluster (targetClusters c.target) r.1)).map (·.2)
    (enumFrom 0 r.2).map (fun e => drainValue alpha (b.bind (fun l => l[if bit c.denseCtrl 2 then e.1 else r.1]?)) e.2))

/-- The poisoned blocks of the stationary operand on a cluster: those of a preloaded tile as they were read then (R62). -/
def State.statBad (s : State) (c : Cmd) (stat : Operand) (cl : Nat) : List Nat :=
  match s.preloaded c cl with
  | none => (stat.blocks cl).filter s.mem.poisoned
  | some t =>
    let k := (t.elems.headD []).length
    let n := t.elems.length
    t.bad ++ (if c.statT then stat.restBlocks cl n k else stat.restBlocks cl k n).filter s.mem.poisoned

/-- Poisoned blocks that a dense command consumes: stationary on each cluster with a band, streamed rows on theirs, and
the bias where it is used. -/
def State.densePoison (s : State) (c : Cmd) (stat strm : Operand) : Nat :=
  let ts := targetClusters c.target
  let strmBlocks := (List.range (denseM strm)).flatMap (fun i => strm.rowBlocks (bandCluster ts i) i)
  (dedup ((bandClusters ts (denseM strm)).flatMap (s.statBad c stat) ++ strmBlocks.filter s.mem.poisoned ++ c.biasBad)).length

def State.denseEffect (s : State) (c : Cmd) : Effect :=
  match c.op? 0, c.op? 8 with
  | some stat, some strm =>
    let vals := s.denseRows c stat strm
    let pin := s.densePoison c stat strm
    let tiles : Effect := { sums := accRows vals, last := some (s.lastTile c stat strm) }
    let drain := fun (v : List (List Elem)) (closes : List Nat) =>
      { drainEffect c.denseDrain (denseBiased c v) with
        poisonIn := pin, closes := closes, sums := tiles.sums, last := tiles.last }
    match c.slot? with
    | none => drain vals []
    | some n =>
      if c.slotDrain then drain (match s.slot? c.ctx n with | some k => k.plus vals | none => vals) [n]
      else { tiles with poisonIn := pin, slots := [slotAdd n vals] }
  | _, _ => {}

/-- DENSE_MM (R406). -/
def execDenseMm (id : Nat) (s : State) : Host.Outcome State Fault Refusal := .next (s.runOp id 0x200 State.denseEffect)

end Sys2Proof.Machine
end

