-- ==== Sys2Proof/Machine/ScrumList.lean ====
section
/-! DEFINITION. Scrum commands over index lists: gather, scatter, scatter-add, embedding bag and top-C
(spec/05_scrum_engine.md, R121 to R129, R134; R415, R416). -/

namespace Sys2Proof.Machine

/-! ## Rows of the outermost dimension (R121) -/

/-- Rows of dimension 0 that share one index of the outermost dimension. -/
def Desc.innerRows (d : Desc) : Nat := (d.outer.take (d.ndim - 2)).foldl (· * ·) 1

def Desc.outermost (d : Desc) : Nat := d.extent (d.ndim - 1)

/-- Index of entry e of a list into n rows; none where it is out of bounds or its block is poisoned (R121, R134). -/
def listIndex (m : Mem) (cl : Nat) (list : Operand) (n e : Nat) : Option Nat :=
  match (list.lin m cl e).index with
  | some v => if 0 ≤ v && v < (n : Int) then some v.toNat else none
  | none => none

/-- Entries served by a copy (R122): the most recent equal entry lies at most 255 list positions before. Entries come in
the order in which they are gathered, each with its position. An equal entry that was gathered before and lies later in the
list, as where bags overlap or step back, counts as 0 positions before (DESIGN CHOICE: R122 speaks of list order alone; log
entry 35). -/
def servedByCopy : List (Nat × Nat) → List (Nat × Nat) → Nat
  | _, [] => 0
  | before, x :: r =>
    (match before.find? (fun y => y.2 == x.2) with
      | some y => if x.1 - y.1 ≤ 255 then 1 else 0
      | none => 0) + servedByCopy (x :: before) r

/-- The outermost row e of an operand: its inner rows of elements. -/
def Operand.slab (o : Operand) (m : Mem) (cl e : Nat) : List (List Elem) :=
  (List.range o.d.innerRows).map (fun q => o.row m cl (e * o.d.innerRows + q))

/-- The blocks of outermost row e. -/
def Operand.slabBlocks (o : Operand) (cl e : Nat) : List Nat :=
  (List.range o.d.innerRows).flatMap (fun q => o.rowBlocks cl (e * o.d.innerRows + q))

/-- Every in-range element of a fill row (R121, R171). -/
def Operand.fillSlab (o : Operand) : List (List Elem) :=
  List.replicate o.d.innerRows (List.replicate o.d.ext0 o.fillElem)

/-- A slab written bitwise as outermost row e. -/
def Operand.slabWrites (o : Operand) (cl e : Nat) (rows : List (List Elem)) : List BlockWr :=
  (enumFrom 0 rows).flatMap (fun p => o.rowWrites cl (e * o.d.innerRows + p.1) true (p.2.map Elem.out))

/-! ## Gather, scatter, scatter-add: checks (R125, R415) -/

/-- 310h gathers, 311h scatters, 312h scatters and adds. -/
def State.scrumListStart (s : State) (c : Cmd) (gather add : Bool) : Started :=
  let rs := [s.resolve c 0 .src dataFmts, s.resolve c 8 .src [.int32],
    s.resolve c 16 .dst (if add then [.fp32, .bf16] else dataFmts)]
  let src := opAt rs 0
  let list := opAt rs 8
  let dst := opAt rs 16
  let packed := if gather then dst else src
  Started.ofResolved rs (c.reservedRejs [0, 8, 16] []
    ++ (if add then [] else need2 src dst (fun x y => x.d.fmt == y.d.fmt && (x.d.scalePtr != 0) == (y.d.scalePtr != 0))
        Status.rejFormat 80)
    ++ need1 src (fun x => 2 ≤ x.d.ndim) Status.rejShape 64
    ++ need1 dst (fun x => 2 ≤ x.d.ndim) Status.rejShape 80
    ++ need2 src dst (fun x y => x.d.ndim == y.d.ndim && x.d.ext.take (x.d.ndim - 1) == y.d.ext.take (x.d.ndim - 1))
        Status.rejShape 64
    ++ need1 list (fun l => l.d.ndim == 1) Status.rejShape 72
    ++ need2 packed list (fun p l => p.d.outermost == l.d.ext0) Status.rejShape (if gather then 80 else 64)
    ++ (if add then need1 dst (fun t => t.d.space != 0 || s.allows c.ctx t.d.base t.d.spanBytes true true || t.d.isEmpty)
        Status.rejRegion 80 else [])
    ++ writtenRejs [(16, dst)] [src, list])

/-! ## Gather (R121, R122) -/

/-- The effect of a gather. The fill row of a poisoned index entry is written without a mark (DESIGN CHOICE: R134 treats the
entry as out of bounds, while R187 lets a poisoned index poison what is computed from it). -/
def State.gatherEffect (s : State) (c : Cmd) : Effect :=
  match c.op? 0, c.op? 8, c.op? 16 with
  | some src, some list, some dst => c.overClusters (fun cl =>
      let n := list.d.count
      let ix := (List.range n).map (fun e => (e, listIndex s.mem cl list src.d.outermost e))
      let inb := ix.filterMap (fun p => p.2.map (fun r => (p.1, r)))
      let outs := ix.map (fun p => (p.1, match p.2 with
        | some r => src.slab s.mem cl r
        | none => src.fillSlab))
      { writes := outs.flatMap (fun o => dst.slabWrites cl o.1 o.2)
        ctrs := [(.oobCount, n - inb.length), (.gatherCoalesced, servedByCopy [] inb)]
        poisonIn := poisonedOf s.mem (list.blocks cl ++ inb.flatMap (fun p => src.slabBlocks cl p.2))
        oob := n - inb.length, count := n - inb.length })
  | _, _, _ => {}

/-- SCRUM_GATHER (R122). -/
def execScrumGather (id : Nat) (s : State) : Host.Outcome State Fault Refusal :=
  .next (s.runOp id 0x310 State.gatherEffect)

/-! ## Scatter (R124): the last entry in list order remains -/

def State.scatterEffect (s : State) (c : Cmd) : Effect :=
  match c.op? 0, c.op? 8, c.op? 16 with
  | some src, some list, some dst => c.overClusters (fun cl =>
      let n := list.d.count
      let ix := (List.range n).filterMap (fun e => (listIndex s.mem cl list dst.d.outermost e).map (fun r => (e, r)))
      let last := ix.filter (fun x => !(ix.any (fun y => y.2 == x.2 && x.1 < y.1)))
      { writes := last.flatMap (fun x => dst.slabWrites cl x.2 (src.slab s.mem cl x.1))
        ctrs := [(.oobCount, n - ix.length)]
        poisonIn := poisonedOf s.mem (list.blocks cl ++ ix.flatMap (fun p => src.slabBlocks cl p.1))
        oob := n - ix.length, count := n - ix.length })
  | _, _, _ => {}

/-- SCRUM_SCATTER (R124). -/
def execScrumScatter (id : Nat) (s : State) : Host.Outcome State Fault Refusal :=
  .next (s.runOp id 0x311 State.scatterEffect)

/-! ## Scatter-add (R125) -/

/-- d plus the contributions in list order, each addition an FP32 addition. -/
def addInOrder (d : Elem) (cs : List Elem) : Elem :=
  cs.foldl (fun acc x => Elem.ofF32 (fadd acc.f32 x.widen) (acc.poison || x.poison)) (Elem.ofF32 d.widen d.poison)

def State.scatterAddEffect (s : State) (c : Cmd) : Effect :=
  match c.op? 0, c.op? 8, c.op? 16 with
  | some src, some list, some dst => c.overClusters (fun cl =>
      let n := list.d.count
      let ix := (List.range n).filterMap (fun e => (listIndex s.mem cl list dst.d.outermost e).map (fun r => (e, r)))
      let inner := dst.d.innerRows
      let outs := (dedup (ix.map (·.2))).flatMap (fun r =>
        let es := (ix.filter (fun x => x.2 == r)).map (·.1)
        (List.range inner).map (fun q =>
          (r * inner + q, (List.range dst.d.ext0).map (fun i =>
            let sum := addInOrder (dst.elem s.mem cl i (r * inner + q)) (es.map (fun e => src.elem s.mem cl i (e * inner + q)))
            { code := sum.convert dst.d.fmt .near 127, scale := 127, poison := sum.poison : OutElem }))))
      { writes := outs.flatMap (fun o => dst.rowWrites cl o.1 false o.2)
        ctrs := [(.oobCount, n - ix.length)]
        poisonIn := poisonedOf s.mem (list.blocks cl ++ ix.flatMap (fun p => src.slabBlocks cl p.1 ++ dst.slabBlocks cl p.2))
        oob := n - ix.length, count := n - ix.length })
  | _, _, _ => {}

/-- SCRUM_SCATTER_ADD (R125). -/
def execScrumScatterAdd (id : Nat) (s : State) : Host.Outcome State Fault Refusal :=
  .next (s.runOp id 0x312 State.scatterAddEffect)

/-! ## Embedding bag (R126) -/

inductive BagMode where
  | sum | mean | max
  deriving DecidableEq, Repr

def Cmd.bagMode (c : Cmd) : BagMode :=
  match bits (c.param 40 4) 1 0 with
  | 0 => .sum
  | 1 => .mean
  | _ => .max

def State.embedBagStart (s : State) (c : Cmd) : Started :=
  let rs := [s.resolve c 0 .src dataFmts, s.resolve c 8 .src [.int32], s.resolve c 16 .src [.int32],
    s.resolve c 24 .src [.fp32] true, s.resolve c 32 .dst dataFmts]
  let table := opAt rs 0
  let list := opAt rs 8
  let offs := opAt rs 16
  let dst := opAt rs 32
  Started.ofResolved rs (c.reservedRejs [0, 8, 16, 24, 32] [(40, 4, low 23)]
    ++ need (bits (c.param 40 4) 1 0 != 3) Status.rejReserved 104
    ++ need1 table (fun x => x.d.ndim == 2) Status.rejShape 64
    ++ need1 list (fun x => x.d.ndim == 1) Status.rejShape 72
    ++ need1 offs (fun x => x.d.ndim == 1 && 1 ≤ x.d.ext0) Status.rejShape 80
    ++ need2 offs dst (fun o d => d.d.ndim == 2 && d.d.extent 1 + 1 == o.d.ext0) Status.rejShape 96
    ++ need2 table dst (fun t d => d.d.ext0 == t.d.ext0) Status.rejShape 96
    ++ given list (fun l => vectorRejs (opAt rs 24) l.d.count .fp32 88)
    ++ writtenRejs [(32, dst)] [table, list, offs, opAt rs 24])

/-- The range that row i of an offset list gives; none where it breaks R127 or an offset is poisoned (R134). -/
def offsetRow (m : Mem) (cl : Nat) (offs : Operand) (limit i : Nat) : Option (Nat × Nat) :=
  match (offs.lin m cl i).index, (offs.lin m cl (i + 1)).index with
  | some a, some b => if 0 ≤ a && a ≤ b && b ≤ (limit : Int) then some (a.toNat, b.toNat) else none
  | _, _ => none

/-- The reduction of one column of a bag of weighted elements (R126). -/
def bagValue (mode : BagMode) (heavy : Nat) (xs : List Word32) : Word32 :=
  match xs with
  | [] => 0#32
  | x :: r =>
    match mode with
    | .max => r.foldl fmax x
    | m =>
      let seg := fun (l : List Word32) => l.tail.foldl fadd (l.headD 0#32)
      let sum := if xs.length ≤ heavy then seg xs else seg ((chunks heavy xs).map seg)
      -- the count divides as it is, however large, and the quotient is rounded once
      if m == .mean then toF32 ((ofF32 sum).div (.fin false xs.length 0)) else sum

/-- HEAVY_THRESH in force for a command (R120). -/
def Cmd.heavy (c : Cmd) (cl : Nat) : Nat :=
  max 512 (bits (((c.latched.find? (fun l => l.cluster == cl)).map (fun l => l.scrum.toNat)).getD 0) 47 32)

/-- The gathered indices of a bag, with their list positions. -/
def bagEntries (m : Mem) (cl : Nat) (list : Operand) (rows : Nat) (r : Nat × Nat) : List (Nat × Option Nat) :=
  (List.range (r.2 - r.1)).map (fun k => (r.1 + k, listIndex m cl list rows (r.1 + k)))

def State.embedBagEffect (s : State) (c : Cmd) : Effect :=
  match c.op? 0, c.op? 8, c.op? 16, c.op? 32 with
  | some table, some list, some offs, some dst => c.overClusters (fun cl =>
      let bags := (List.range (offs.d.ext0 - 1)).map (fun i =>
        (i, (offsetRow s.mem cl offs list.d.ext0 i).map (bagEntries s.mem cl list table.d.outermost)))
      let all := bags.flatMap (fun b => b.2.getD [])
      let inb := all.filterMap (fun p => p.2.map (fun r => (p.1, r)))
      let oob := (bags.filter (fun b => b.2.isNone)).length + (all.length - inb.length)
      let weight := fun (p : Nat) => (c.op? 24).map (fun w => w.lin s.mem cl p)
      let col := fun (i : Nat) (es : List (Nat × Option Nat)) =>
        let xs := es.map (fun p =>
          let x := match p.2 with
            | some r => table.elem s.mem cl i r
            | none => table.fillElem
          match weight p.1 with
          | some w => Elem.ofF32 (fmul x.widen w.f32) (x.poison || w.poison)
          | none => Elem.ofF32 x.widen x.poison)
        Elem.ofF32 (bagValue c.bagMode (c.heavy cl) (xs.map Elem.f32)) (xs.any (fun x => x.poison))
      let rnd := c.rounding (bit (c.param 40 4) 2) (bits (c.param 40 4) 22 3)
      let outs := bags.map (fun b => (b.1, convertRow dst.d.fmt dst.scale.isSome .auto rnd (b.1 * dst.d.ext0)
        ((List.range dst.d.ext0).map (fun i => col i (b.2.getD [])))))
      { writes := outs.flatMap (fun o => dst.rowWrites cl o.1 false o.2)
        ctrs := [(.oobCount, oob), (.gatherCoalesced, servedByCopy [] inb)]
        poisonIn := poisonedOf s.mem (offs.blocks cl ++ list.blocks cl
          ++ (match c.op? 24 with | some w => w.blocks cl | none => []) ++ inb.flatMap (fun p => table.slabBlocks cl p.2))
        oob := oob, count := oob })
  | _, _, _, _ => {}

/-- SCRUM_EMBED_BAG (R126). -/
def execScrumEmbedBag (id : Nat) (s : State) : Host.Outcome State Fault Refusal :=
  .next (s.runOp id 0x313 State.embedBagEffect)

/-! ## Top-C (R128, R129) -/

/-- A candidate of one row: score as read, module ID, token index, and its score's code. -/
structure TopCand where
  score : Val
  modId : Nat
  token : Int
  code : Nat
  deriving DecidableEq, Repr

/-- The key of a precedes the key of b. -/
def TopCand.before (a b : TopCand) : Bool :=
  b.score.lt a.score || (a.score.eqv b.score && (a.modId < b.modId || (a.modId == b.modId && a.token < b.token)))

def TopCand.same (a b : TopCand) : Bool := a.score.eqv b.score && a.modId == b.modId && a.token == b.token

/-- The c best candidates in rank order, a repeated key once; NaN scores must be left out before. -/
def topC (c : Nat) (l : List TopCand) : List TopCand :=
  let distinct := l.foldl (fun acc x => if acc.any (TopCand.same x) then acc else acc ++ [x]) []
  (sortBy TopCand.before distinct).take c

/-- C of SCRUM_TOPC. -/
def Cmd.topN (c : Cmd) : Nat := bits (c.param 56 4) 14 0

def State.topcStart (s : State) (c : Cmd) : Started :=
  let rs := [s.resolve c 0 .src [.fp32, .bf16], s.resolve c 8 .src [.int32] true, s.resolve c 16 .src [.int32] true,
    s.resolve c 24 .dst [.int32], s.resolve c 32 .dst [.fp32, .bf16], s.resolve c 40 .dst [.int32] true,
    s.resolve c 48 .dst [.int32]]
  let score := opAt rs 0
  let like := fun (off : Nat) => need2 score (opAt rs off) (fun x y => y.d.ndim == 2 && y.d.ext0 == x.d.ext0
    && y.d.extent 1 == x.d.extent 1) Status.rejShape (64 + off)
  let best := fun (off : Nat) => need2 score (opAt rs off) (fun x y => y.d.ndim == 2 && y.d.ext0 == c.topN
    && y.d.extent 1 == x.d.extent 1) Status.rejShape (64 + off)
  Started.ofResolved rs (c.reservedRejs [0, 8, 16, 24, 32, 40, 48] [(56, 4, low 15)]
    ++ need (1 ≤ c.topN && c.topN ≤ 16384) Status.rejShape 120
    ++ need1 score (fun x => x.d.ndim == 2) Status.rejShape 64
    ++ like 8 ++ like 16 ++ best 24 ++ best 32 ++ best 40
    ++ need2 score (opAt rs 32) (fun x y => x.d.fmt == y.d.fmt) Status.rejFormat 96
    ++ given score (fun x => vectorRejs (opAt rs 48) x.d.rows .int32 112)
    ++ writtenRejs ([24, 32, 40, 48].map (fun o => (o, opAt rs o))) [score, opAt rs 8, opAt rs 16])

/-- A 32-bit integer as an element code. -/
def int32Code (v : Int) : Nat := (v % (2 ^ 32 : Nat)).toNat

/-- The entries of one row: score codes, module IDs, tokens of the C places, the number selected, NaN scores. -/
def topRow (c : Nat) (fmt : Fmt) (l : List TopCand) : List (Nat × Nat × Nat) × Nat × Nat :=
  let good := l.filter (fun x => !x.score.isNan)
  let best := topC c good
  let blank := (encode fmt .near 127 (.inf true), 0, int32Code (-1))
  (best.map (fun x => (x.code, x.modId, int32Code x.token)) ++ List.replicate (c - best.length) blank,
    best.length, l.length - good.length)

/-- The candidates of a row of scores: module and token operands, or this module's ID and the column index (R416). Of a module
number beyond 12 bits the low 12 are taken (DESIGN CHOICE: R128 gives the ID 12 bits and no check). -/
def State.topCands (s : State) (cl : Nat) (score : Operand) (mods toks : Option Operand) (row : Nat) : List TopCand :=
  (List.range score.d.ext0).map (fun i =>
    let x := score.elem s.mem cl i row
    { score := x.val
      modId := match mods with
        | some o => (o.elem s.mem cl i row).code % 4096
        | none => s.moduleId
      token := match toks with
        | some o => sint32 (o.elem s.mem cl i row).code
        | none => (i : Int)
      code := x.code })

def State.topcEffect (s : State) (c : Cmd) : Effect :=
  match c.op? 0, c.op? 24, c.op? 32, c.op? 48 with
  | some score, some otok, some oscore, some cnt => c.overClusters (fun cl =>
      let ins := [some score, c.op? 8, c.op? 16]
      let rows := (List.range score.d.rows).map (fun r =>
        (r, topRow c.topN score.d.fmt (s.topCands cl score (c.op? 8) (c.op? 16) r),
          ins.any (fun o => match o with
            | some x => (x.row s.mem cl r).any (fun e => e.poison)
            | none => false)))
      let out := fun (o : Operand) (pick : Nat × Nat × Nat → Nat) => rows.flatMap (fun r =>
        o.rowWrites cl r.1 false (r.2.1.1.map (fun e => { code := pick e, scale := 127, poison := r.2.2 })))
      { writes := out otok (fun e => e.2.2) ++ out oscore (fun e => e.1)
          ++ (match c.op? 40 with | some o => out o (fun e => e.2.1) | none => [])
          ++ rows.flatMap (fun r =>
              let i := r.1 % cnt.d.ext0
              [{ loc := cnt.loc cl (cnt.d.rowOff (r.1 / cnt.d.ext0)) + 64 * (i / 16), mask := at' (low 32) (32 * (i % 16))
                 val := at' r.2.1.2.1 (32 * (i % 16)), poison := r.2.2 }])
        ctrs := [(.nonfiniteVec, (rows.map (fun r => r.2.1.2.2)).sum)]
        poisonIn := poisonIn s.mem cl ins })
  | _, _, _, _ => {}

/-- SCRUM_TOPC (R128). -/
def execScrumTopc (id : Nat) (s : State) : Host.Outcome State Fault Refusal := .next (s.runOp id 0x320 State.topcEffect)

end Sys2Proof.Machine
end

