-- ==== Sys2Proof/Machine/ScrumSparse.lean ====
section
/-! DEFINITION. Sparse operands, index matching, and SCRUM_SPMM, SCRUM_SPSP, SCRUM_INTERSECT
(spec/05_scrum_engine.md, R105 to R122, R134, R542, R544; R407, R415). -/

namespace Sys2Proof.Machine

/-! ## Sparse operands (R106, R544) -/

/-- A sparse operand: packed values, index data, offsets, headers, format code, block width, rows, contraction extent. -/
structure SparseOp where
  val : Operand
  idx : Option Operand
  off : Option Operand
  hdr : Option Operand
  form : Nat
  bw : Nat
  rows : Nat
  k : Nat
  unsorted : Bool

/-- A present element: row, contraction index, position in the packed values, and whether a poisoned mask block makes it a
poisoned value (R134). -/
structure Present where
  row : Nat
  k : Nat
  pos : Nat
  bad : Bool
  deriving DecidableEq, Repr

/-- A stored block of COORD or BCR: its present elements, and 1 where it is out of bounds or lacks a value (R544). -/
def SparseOp.block (o : SparseOp) (b : Nat) (row : Option Nat) (col : Option Int) : List Present × Nat :=
  match row, col with
  | some r, some c =>
    if r < o.rows && 0 ≤ c && c < (ceilDiv o.k o.bw : Nat) then
      let ks := (List.range o.bw).filter (fun e => c.toNat * o.bw + e < o.k)
      let have' := ks.filter (fun e => b * o.bw + e < o.val.d.count)
      (have'.map (fun e => { row := r, k := c.toNat * o.bw + e, pos := b * o.bw + e, bad := false }),
        if have'.length == ks.length then 0 else 1)
    else ([], 1)
  | _, _ => ([], 1)

/-- A coordinate as a row number. -/
def rowCoord (v : Option Int) : Option Nat :=
  match v with
  | some x => if 0 ≤ x then some x.toNat else none
  | none => none

/-- The present elements of a MASKED operand (R106, R134): from a poisoned block on, every element is present and
poisoned. -/
def maskedPresent (k nv : Nat) : List (Nat × Elem) → Nat → Bool → List Present × Nat
  | [], _, _ => ([], 0)
  | (lin, e) :: r, t, bad =>
    let bad := bad || e.poison
    if bad || e.code == 1 then
      let rest := maskedPresent k nv r (t + 1) bad
      if bad || t < nv then ({ row := lin / k, k := lin % k, pos := t, bad := bad } :: rest.1, rest.2)
      else (rest.1, rest.2 + 1)
    else maskedPresent k nv r t bad

/-- Present elements in storage order, and the out-of-bounds entries and rows. -/
def SparseOp.present (o : SparseOp) (m : Mem) (cl : Nat) : List Present × Nat :=
  let join := fun (l : List (List Present × Nat)) => (l.flatMap (·.1), (l.map (·.2)).sum)
  match o.form, o.idx, o.off with
  | 0, some ix, _ =>
    join ((List.range (ix.d.count / 2)).map (fun b =>
      o.block b (rowCoord (ix.lin m cl (2 * b)).index) (ix.lin m cl (2 * b + 1)).index))
  | 1, some ix, some off =>
    join ((List.range o.rows).map (fun i => match offsetRow m cl off ix.d.count i with
      | none => ([], 1)
      | some r => join ((List.range (r.2 - r.1)).map (fun n => o.block (r.1 + n) (some i) (ix.lin m cl (r.1 + n)).index))))
  | 2, _, some off =>
    join ((List.range o.rows).map (fun i => match offsetRow m cl off o.val.d.count i with
      | none => ([], 1)
      | some r => ((List.range (min (r.2 - r.1) o.k)).map (fun n => { row := i, k := n, pos := r.1 + n, bad := false }),
          r.2 - r.1 - o.k)))
  | 3, some ix, _ =>
    maskedPresent o.k o.val.d.count ((List.range (o.k * o.rows)).map (fun l => (l, ix.lin m cl l))) 0 false
  | _, _, _ => ([], 0)

/-- The value of a present element. -/
def SparseOp.value (o : SparseOp) (m : Mem) (cl : Nat) (p : Present) : Elem :=
  if p.bad then { o.val.fillElem with poison := true } else o.val.lin m cl p.pos

/-- The block that holds a packed value. For an element after a poisoned mask block it is the one at the place that the element is
taken to have, and counts in POISON_IN (DESIGN CHOICE: R134 leaves the place unknown; log entry 35). -/
def SparseOp.valueBlocks (o : SparseOp) (cl : Nat) (p : Present) : List Nat :=
  let d := o.val.d
  let i := p.pos % d.ext0
  let r := p.pos / d.ext0
  if p.pos < d.count then
    blockOf (o.val.loc cl (d.rowOff r) + i * d.fmt.width / 8) ::
      (match o.val.scale with
        | some q => [blockOf (o.val.scaleLoc cl (q.rowOff r) + i / 32)]
        | none => [])
  else []

def optBlocks (cl : Nat) (o : Option Operand) : List Nat :=
  match o with
  | some x => x.blocks cl
  | none => []

/-! ## Checks at start (R106, R108, R407, R544) -/

/-- Block width of a control word. -/
def blockWidth (ctrl : Nat) : Nat := 2 ^ min (bits ctrl 4 2) 5

/-- Tiles of an operand of M rows (R108). -/
def tileCount (m k : Nat) (f : Fmt) : Nat := ceilDiv m 512 * ceilDiv k (16 * kpOf f)

/-- The resolutions of the parts of a sparse operand, and their checks. -/
def State.sparseStart (s : State) (c : Cmd) (base ctrlOff : Nat) (rows k : Nat) (needHdr : Bool) : List Resolved × List Rej :=
  let ctrl := c.param ctrlOff 4
  let form := bits ctrl 1 0
  let val := s.resolve c base .src dataFmts
  let idx := s.resolve c (base + 8) .src (if form == 3 then [.bit] else [.int32]) (form == 2)
  let off := s.resolve c (base + 16) .src [.int32] (form == 0 || form == 3)
  let hdr := s.resolve c (base + 24) .src [.int32] (!needHdr)
  ([val, idx, off, hdr],
    need (bits ctrl 4 2 < 6) Status.rejReserved (64 + ctrlOff)
      ++ need (form != 2 || c.param (base + 8) 8 == 0) Status.rejReserved (72 + base)
      ++ need (form == 1 || form == 2 || c.param (base + 16) 8 == 0) Status.rejReserved (80 + base)
      ++ need1 idx.op (fun x => match form with
          | 3 => x.d.ndim == 2 && x.d.ext0 == k && x.d.extent 1 == rows
          | 0 => x.d.count % 2 == 0
          | _ => true) Status.rejShape (72 + base)
      ++ need1 off.op (fun x => x.d.count == rows + 1) Status.rejShape (80 + base)
      ++ need2 val.op hdr.op (fun v x => x.d.ndim == 2 && x.d.ext0 == 2 && x.d.extent 1 == tileCount rows k v.d.fmt)
          Status.rejShape (88 + base))

/-- The sparse operand that a started command's parameters name. -/
def Cmd.sparseOp (c : Cmd) (base ctrlOff rows : Nat) : Option SparseOp :=
  let ctrl := c.param ctrlOff 4
  let form := bits ctrl 1 0
  (c.op? base).map (fun v =>
    { val := v, idx := c.op? (base + 8), off := c.op? (base + 16), hdr := c.op? (base + 24), form := form
      bw := blockWidth ctrl, rows := rows, k := c.param 60 4, unsorted := bit ctrl 5 && form < 2 })

/-- Checks that SCRUM_SPMM and SCRUM_SPSP share: control word, extents, destinations, slot. -/
def State.productRejs (s : State) (c : Cmd) (m n : Nat) (known : Bool) (rs : List Resolved) : List Rej :=
  let named := fun (o : Nat) => c.param o 8 != 0
  need (bits (c.param 64 4) 7 6 != 3) Status.rejReserved 128
    ++ need (1 ≤ c.param 60 4 && c.param 60 4 < 2 ^ 31) Status.rejShape 124
    ++ (if known then
          need1 (opAt rs 40) (fun d => d.d.ndim == 2 && d.d.ext0 == n && d.d.extent 1 == m) Status.rejShape 104
            ++ need1 (opAt rs 48) (fun d => d.d.ndim == 2 && d.d.ext0 == m && d.d.extent 1 == n) Status.rejShape 112
            ++ s.slotRejs c (c.slots.map (fun k => (k, m, n))) 128
        else [])
    ++ (if c.slotOnly then [40, 48].flatMap (fun o => need (!named o) Status.rejLayout (64 + o))
        else need (named 40) Status.rejLayout 104)
    ++ writtenRejs [(40, opAt rs 40), (48, opAt rs 48)]
        ((rs.filter (fun r => r.off != 40 && r.off != 48)).map (·.op))

def State.spmmStart (s : State) (c : Cmd) : Started :=
  let m := c.param 56 4
  let k := c.param 60 4
  let sp := s.sparseStart c 0 64 m k true
  let rs := sp.1 ++ [s.resolve c 32 .src dataFmts, s.resolve c 40 .dst dataFmts true, s.resolve c 48 .dst dataFmts true]
  let dns := opAt rs 32
  let n := (dns.map (fun d => d.d.ext0)).getD 0
  let st := Started.ofResolved rs
    (c.reservedRejs [0, 8, 16, 24, 32, 40, 48]
        [(56, 4, low 32), (60, 4, low 32), (64, 4, low 18), (68, 4, low 20), (72, 4, low 32)]
      ++ sp.2
      ++ need1 dns (fun d => d.d.ndim == 2 && d.d.extent 1 == k) Status.rejShape 96
      ++ need2 (opAt rs 0) dns (fun v d => pairOk v.d.fmt d.d.fmt) Status.rejFormat 64
      ++ s.productRejs c m n dns.isSome rs)
  { st with slots := c.slots.map (fun x => (x, m, n)) }

def State.spspStart (s : State) (c : Cmd) : Started :=
  let m := c.param 56 4
  let k := c.param 60 4
  let n := c.param 116 4
  let a := s.sparseStart c 0 64 m k false
  let b := s.sparseStart c 80 112 n k false
  let rs := a.1 ++ b.1 ++ [s.resolve c 40 .dst dataFmts true, s.resolve c 48 .dst dataFmts true]
  let st := Started.ofResolved rs
    (c.reservedRejs [0, 8, 16, 24, 40, 48, 80, 88, 96, 104]
        [(56, 4, low 32), (60, 4, low 32), (64, 4, low 18), (68, 4, low 20), (72, 4, low 32), (112, 4, low 6),
          (116, 4, low 32)]
      ++ a.2 ++ b.2
      ++ need2 (opAt rs 0) (opAt rs 80) (fun v d => pairOk v.d.fmt d.d.fmt) Status.rejFormat 64
      ++ s.productRejs c m n true rs)
  { st with slots := c.slots.map (fun x => (x, m, n)) }

/-! ## Sums (R115) -/

/-- The sum of the products of one output element, each with its contraction index, in the dense order. -/
def sparseElem (kp k : Nat) (ps : List (Nat × Val × Bool)) : Elem :=
  Elem.ofF32 (sumPasses ((List.range (ceilDiv k kp)).map (fun p =>
      columnPass ((ps.filter (fun q => q.1 / kp == p)).map (fun q => q.2.1)))))
    (ps.any (fun q => q.2.2))

/-! ## Matching (R110 to R113) -/

/-- The merge of two streams of (position, index): matched positions, and how many entries of each stream it has read. -/
def mergeStreams : Nat → List (Nat × Int) → List (Nat × Int) → Nat → Nat → List (Nat × Nat) × Nat × Nat
  | n + 1, (i, x) :: a, (j, y) :: b, ra, rb =>
    let ra := max ra (i + 1)
    let rb := max rb (j + 1)
    if x < y then mergeStreams n a ((j, y) :: b) ra rb
    else if y < x then mergeStreams n ((i, x) :: a) b ra rb
    else
      let ea := (i, x) :: a.takeWhile (fun p => p.2 == x)
      let eb := (j, y) :: b.takeWhile (fun p => p.2 == y)
      let a' := a.dropWhile (fun p => p.2 == x)
      let b' := b.dropWhile (fun p => p.2 == y)
      let r := mergeStreams n a' b' (i + ea.length + min a'.length 1) (j + eb.length + min b'.length 1)
      (ea.flatMap (fun u => eb.map (fun v => (u.1, v.1))) ++ r.1, r.2)
  | _, _, _, ra, rb => ([], ra, rb)

/-- Is a list of indices nowhere below its predecessor? -/
def ascending : List Int → Bool
  | x :: y :: r => decide (x ≤ y) && ascending (y :: r)
  | _ => true

/-- The set of an index (R111). -/
def hashSet (x : Int) : Nat := ((x % (2 ^ 32 : Nat)).toNat * 0x9E3779B1 % 2 ^ 32) >>> 23

/-- The chunks of the hashed stream: a chunk closes when it holds 4,096 entries or the next entry's set holds 8. -/
def hashChunks : List (Nat × Int) → List (Nat × Int) → List (List (Nat × Int))
  | [], cur => if cur.isEmpty then [] else [cur]
  | x :: r, cur =>
    if cur.length == 4096 || (cur.filter (fun y => hashSet y.2 == hashSet x.2)).length == 8 then cur :: hashChunks r [x]
    else hashChunks r (cur ++ [x])

/-- The hash method: ascending chunk, then probe position, then hashed position. -/
def hashMatch (a b : List (Nat × Int)) : List (Nat × Nat) :=
  if b.length < a.length then
    (hashChunks b []).flatMap (fun ch => a.flatMap (fun q => (ch.filter (fun h => h.2 == q.2)).map (fun h => (q.1, h.1))))
  else
    (hashChunks a []).flatMap (fun ch => b.flatMap (fun q => (ch.filter (fun h => h.2 == q.2)).map (fun h => (h.1, q.1))))

/-- The matches of one stream pair, and whether it fell back to the hash method (R110, R112). -/
def matchStreams (a b : List Int) (ua ub : Bool) : List (Nat × Nat) × Bool :=
  let la := a.length
  let lb := b.length
  if la == 0 || lb == 0 then ([], false)
  else
    let ia := enumFrom 0 a
    let ib := enumFrom 0 b
    if ua || ub || max la lb > 64 * min la lb then (hashMatch ia ib, false)
    else
      let r := mergeStreams (la + lb) ia ib 0 0
      if ascending (a.take r.2.1) && ascending (b.take r.2.2) then (r.1, false) else (hashMatch ia ib, true)

/-! ## SCRUM_SPMM (R117 to R119) -/

/-- The kinds of tile: skipped, on the Scrum engine, densified. -/
inductive TileKind where
  | skip | scrum | dense
  deriving DecidableEq, Repr

/-- The Scrum word that the command took from a cluster when it started (R120, R429). -/
def Cmd.scrumWord (c : Cmd) (cl : Nat) : Nat :=
  ((c.latched.find? (fun l => l.cluster == cl)).map (fun l => l.scrum.toNat)).getD 0

/-- The threshold of a format in units of 0.01%. -/
def thrOf (w : Nat) : Fmt → Nat
  | .l4 => bits w 15 8
  | .bf16 => bits w 31 24
  | _ => bits w 23 16

/-- ENGINE, or ENGINE_FORCE where ENGINE is 0: 1 Scrum, 2 dense, else by the header (R118). -/
def Cmd.engine (c : Cmd) (cl : Nat) : Nat :=
  let e := bits (c.param 64 4) 7 6
  if e != 0 then e else bits (c.scrumWord cl) 1 0 % 3

/-- The kind of tile t of a sparse operand (R109, R117). -/
def SparseOp.tileKind (o : SparseOp) (c : Cmd) (m : Mem) (cl t : Nat) : TileKind :=
  let span := 16 * kpOf o.val.d.fmt
  let nch := ceilDiv o.k span
  let rows := min 512 (o.rows - 512 * (t / nch))
  let ks := min span (o.k - span * (t % nch))
  let forced := c.engine cl
  match o.hdr with
  | none => .scrum
  | some h =>
    let e := h.elem m cl 0 t
    if e.poison || (h.elem m cl 1 t).poison then (if forced == 2 then .dense else .scrum)
    else if e.code == 0 then .skip
    else if forced == 1 then .scrum
    else if forced == 2 then .dense
    else if e.code * 10000 ≤ thrOf (c.scrumWord cl) o.val.d.fmt * rows * ks then .scrum else .dense

/-- The tile of element (row, k). -/
def SparseOp.tileOf (o : SparseOp) (row k : Nat) : Nat :=
  let span := 16 * kpOf o.val.d.fmt
  row / 512 * ceilDiv o.k span + k / span

/-- The work of SCRUM_SPMM on the bands of one cluster: rows of sums, poisoned blocks consumed, coalesced fetches,
out-of-bounds entries. -/
structure SpmmBand where
  rows : List (Nat × List Elem)
  blocks : List Nat
  coalesced : Nat
  oob : Nat

/-- The rows of a band with what they read. The 255 positions of R122 run over one list for each cluster: the elements of all
its Scrum tiles in storage order (DESIGN CHOICE: R122 names no list for SCRUM_SPMM). An element that is out of bounds or has no
value counts in OOB_COUNT although the OCCUPANCY of its tile is 0 (DESIGN CHOICE: R109 treats the tile's elements as absent and
does not speak of the count; log entry 35). -/
def State.spmmBand (s : State) (c : Cmd) (o : SparseOp) (dns : Operand) (cl : Nat) : SpmmBand :=
  let m := s.mem
  let f := o.val.d.fmt
  let span := 16 * kpOf f
  let nch := ceilDiv o.k span
  let mine := bandRows o.rows (targetClusters c.target) cl
  let p := o.present m cl
  let live := p.1.filter (fun x => mine.contains x.row && o.tileKind c m cl (o.tileOf x.row x.k) != .skip)
  let onScrum := live.filter (fun x => o.tileKind c m cl (o.tileOf x.row x.k) == .scrum)
  let denseTiles := (List.range (tileCount o.rows o.k f)).filter (fun t =>
    mine.contains (512 * (t / nch)) && o.tileKind c m cl t == .dense)
  let denseRows := denseTiles.flatMap (fun t => (List.range (min span (o.k - span * (t % nch)))).map (fun k => span * (t % nch) + k))
  { rows := mine.map (fun i =>
      let es := (live.filter (fun x => x.row == i)).map (fun x => (x.k, o.value m cl x))
      (i, (List.range dns.d.ext0).map (fun j => sparseElem (kpOf f) o.k (es.map (fun e =>
        let y := dns.elem m cl j e.1
        (e.1, product e.2 y, e.2.poison || y.poison))))))
    blocks := optBlocks cl o.idx ++ optBlocks cl o.off ++ optBlocks cl o.hdr ++ live.flatMap (o.valueBlocks cl)
      ++ (dedup (onScrum.map (·.k) ++ denseRows)).flatMap (dns.rowBlocks cl)
    coalesced := servedByCopy [] (enumFrom 0 (onScrum.map (·.k)))
    oob := p.2 }

/-- What the two products share after their sums: the slot, or the drain. -/
def State.productEffect (s : State) (c : Cmd) (vals : List (List Elem)) : Effect :=
  let alpha := c.alphaOf 72
  let spec : DrainSpec := { dst := c.op? 40, dstt := c.op? 48, targets := targetClusters c.target
                            rounding := c.rounding (bit (c.param 64 4) 10) (c.param 68 4) }
  let drained := fun (v : List (List Elem)) => drainEffect spec (v.map (fun r => r.map (drainValue alpha none)))
  match c.slot? with
  | none => { drained vals with sums := accRows vals }
  | some n =>
    if c.slotDrain then
      { drained (match s.slot? c.ctx n with
          | some k => k.plus vals
          | none => vals) with closes := [n], sums := accRows vals }
    else { slots := [slotAdd n vals], sums := accRows vals }

/-- The effect of SCRUM_SPMM. With its sparse operand in the buffers of several targets, OOB_COUNT is taken once, from the copy of
the first cluster that has a band (DESIGN CHOICE: R121 does not say; log entry 35). -/
def State.spmmEffect (s : State) (c : Cmd) : Effect :=
  match c.sparseOp 0 64 (c.param 56 4), c.op? 32 with
  | some o, some dns =>
    let bands := (bandClusters (targetClusters c.target) o.rows).map (s.spmmBand c o dns)
    let vals := (sortBy (fun a b => a.1 < b.1) (bands.flatMap (·.rows))).map (·.2)
    let oob := (bands.head?.map (·.oob)).getD 0
    let e := s.productEffect c vals
    { e with
      ctrs := e.ctrs ++ [(.oobCount, oob), (.gatherCoalesced, (bands.map (·.coalesced)).sum)]
      poisonIn := poisonedOf s.mem (bands.flatMap (·.blocks)), oob := oob, count := oob }
  | _, _ => {}

/-- SCRUM_SPMM (R117). -/
def execScrumSpmm (id : Nat) (s : State) : Host.Outcome State Fault Refusal := .next (s.runOp id 0x300 State.spmmEffect)

/-! ## SCRUM_SPSP (R115) -/

/-- One output element of SCRUM_SPSP: the value, whether the pair fell back, the value positions consumed. With Bw above 1 the
elements of repeated block coordinates step back, which is taken as disorder (DESIGN CHOICE: R107 calls such an operand
sorted and R112 speaks of elements). Elements that are out of bounds are dropped before lengths, the ratio of 64 to 1 and the
order are looked at (DESIGN CHOICE: R110 and R111 do not say; log entry 35). -/
def State.spspElem (s : State) (cl : Nat) (a b : SparseOp) (ra rb : List Present) : Elem × Bool × List Nat :=
  let r := matchStreams (ra.map (fun x => (x.k : Int))) (rb.map (fun x => (x.k : Int))) a.unsorted b.unsorted
  let hits := r.1.filterMap (fun p => match ra[p.1]?, rb[p.2]? with
    | some x, some y => some (x, y)
    | _, _ => none)
  let ps := hits.map (fun h =>
    let x := a.value s.mem cl h.1
    let y := b.value s.mem cl h.2
    (h.1.k, product x y, x.poison || y.poison))
  (sparseElem (kpOf a.val.d.fmt) a.k ps, r.2,
    hits.flatMap (fun h => a.valueBlocks cl h.1 ++ b.valueBlocks cl h.2))

def State.spspEffect (s : State) (c : Cmd) : Effect :=
  match c.sparseOp 0 64 (c.param 56 4), c.sparseOp 80 112 (c.param 116 4) with
  | some a, some b =>
    let ts := targetClusters c.target
    let parsed := (bandClusters ts a.rows).map (fun cl => (cl, a.present s.mem cl, b.present s.mem cl))
    let out := (List.range a.rows).map (fun i =>
      let cl := bandCluster ts i
      match parsed.find? (fun p => p.1 == cl) with
      | none => []
      | some p => (List.range b.rows).map (fun j =>
          s.spspElem cl a b (p.2.1.1.filter (fun x => x.row == i)) (p.2.2.1.filter (fun x => x.row == j))))
    let oob := (parsed.head?.map (fun p => p.2.1.2 + p.2.2.2)).getD 0
    let fell := (out.flatten.filter (fun e => e.2.1)).length
    let e := s.productEffect c (out.map (fun r => r.map (·.1)))
    { e with
      ctrs := e.ctrs ++ [(.oobCount, oob), (.sortFallback, fell)]
      poisonIn := poisonedOf s.mem (parsed.flatMap (fun p => optBlocks p.1 a.idx ++ optBlocks p.1 a.off
          ++ optBlocks p.1 b.idx ++ optBlocks p.1 b.off) ++ out.flatten.flatMap (fun e => e.2.2))
      oob := oob, count := oob, unsorted := fell != 0 }
  | _, _ => {}

/-- SCRUM_SPSP (R115). -/
def execScrumSpsp (id : Nat) (s : State) : Host.Outcome State Fault Refusal := .next (s.runOp id 0x301 State.spspEffect)

/-! ## SCRUM_INTERSECT (R113) -/

def State.intersectStart (s : State) (c : Cmd) : Started :=
  let rs := [s.resolve c 0 .src [.int32], s.resolve c 8 .src [.int32], s.resolve c 16 .src [.int32] true,
    s.resolve c 24 .src [.int32] true, s.resolve c 32 .dst [.int32], s.resolve c 40 .dst [.int32]]
  let ao := opAt rs 16
  -- a list of offsets that cannot be read gives no number of stream pairs, and has a check of its own that fails (R396)
  let known := c.param 16 8 == 0 || ao.isSome
  let pairs := (ao.map (fun o => o.d.count - 1)).getD 1
  Started.ofResolved rs (c.reservedRejs [0, 8, 16, 24, 32, 40] [(48, 4, low 2)]
    ++ need1 (opAt rs 0) (fun x => x.d.ndim == 1) Status.rejShape 64
    ++ need1 (opAt rs 8) (fun x => x.d.ndim == 1) Status.rejShape 72
    ++ need ((c.param 16 8 == 0) == (c.param 24 8 == 0)) Status.rejShape 80
    ++ need2 ao (opAt rs 24) (fun x y => x.d.count == y.d.count && 1 ≤ x.d.count) Status.rejShape 80
    ++ need1 (opAt rs 32) (fun x => x.d.ndim == 2 && x.d.ext0 == 2) Status.rejShape 96
    ++ (if known then vectorRejs (opAt rs 40) pairs .int32 104 else [])
    ++ writtenRejs [(32, opAt rs 32), (40, opAt rs 40)] [opAt rs 0, opAt rs 8, ao, opAt rs 24])

/-- One stream of a pair: (position in the stream, index) of the entries in bounds, and the entries out of bounds. A
poisoned or negative index is out of bounds (R121, R134). -/
def indexStream (m : Mem) (cl : Nat) (list : Operand) (r : Nat × Nat) : List (Nat × Int) × Nat :=
  let es := (List.range (r.2 - r.1)).map (fun i => (i, (list.lin m cl (r.1 + i)).index))
  let ok := es.filterMap (fun e => match e.2 with
    | some v => if 0 ≤ v then some (e.1, v) else none
    | none => none)
  (ok, es.length - ok.length)

/-- The range of stream q of a list: all of it without offsets; none counts as one out-of-bounds row (R127). That offsets of
SCRUM_INTERSECT which decrease or pass the list make the stream empty and count one out of bounds is a DESIGN CHOICE: R127
names only BCR, RAGGED and bag lists (log entry 35). -/
def streamRange (m : Mem) (cl : Nat) (list : Operand) (offs : Option Operand) (q : Nat) : Option (Nat × Nat) :=
  match offs with
  | none => some (0, list.d.ext0)
  | some o => offsetRow m cl o list.d.ext0 q

/-- Matches of stream pair q as positions in the streams, whether it fell back, entries and rows out of bounds. Entries out of
bounds and poisoned ones are dropped first: they count neither in the stream lengths of the 64:1 ratio and of R111 nor in the
check of the order (DESIGN CHOICE: R110 does not say). -/
def State.intersectPair (s : State) (c : Cmd) (cl : Nat) (a b : Operand) (q : Nat) : List (Nat × Nat) × Bool × Nat :=
  let take := fun (l : Operand) (o : Option Operand) => match streamRange s.mem cl l o q with
    | some r => indexStream s.mem cl l r
    | none => ([], 1)
  let x := take a (c.op? 16)
  let y := take b (c.op? 24)
  let r := matchStreams (x.1.map (·.2)) (y.1.map (·.2)) (bit (c.param 48 4) 0) (bit (c.param 48 4) 1)
  (r.1.map (fun p => ((x.1.getD p.1 (0, 0)).1, (y.1.getD p.2 (0, 0)).1)), r.2, x.2 + y.2)

def State.intersectEffect (s : State) (c : Cmd) : Effect :=
  match c.op? 0, c.op? 8, c.op? 32, c.op? 40 with
  | some a, some b, some out, some cnt => c.overClusters (fun cl =>
      let n := ((c.op? 16).map (fun o => o.d.count - 1)).getD 1
      let ps := (List.range n).map (s.intersectPair c cl a b)
      let hits := (ps.flatMap (·.1)).take (out.d.extent 1)
      let fell := (ps.filter (fun p => p.2.1)).length
      let oob := (ps.map (fun p => p.2.2)).sum
      { writes := (enumFrom 0 hits).flatMap (fun h => out.rowWrites cl h.1 false
            [{ code := h.2.1, scale := 127, poison := false }, { code := h.2.2, scale := 127, poison := false }])
          ++ (enumFrom 0 ps).map (fun p => cnt.writeLin cl p.1 (BitVec.ofNat 32 p.2.1.length) false)
        ctrs := [(.oobCount, oob), (.sortFallback, fell)]
        poisonIn := poisonedOf s.mem (a.blocks cl ++ b.blocks cl ++ optBlocks cl (c.op? 16) ++ optBlocks cl (c.op? 24))
        oob := oob, count := oob, aux := hits.length, unsorted := fell != 0 })
  | _, _, _, _ => {}

/-- SCRUM_INTERSECT (R113). -/
def execScrumIntersect (id : Nat) (s : State) : Host.Outcome State Fault Refusal :=
  .next (s.runOp id 0x302 State.intersectEffect)

end Sys2Proof.Machine
end

