-- ==== Sys2Proof/Machine/ScrumFfn.lean ====
section
/-! DEFINITION. SCRUM_PREDICT_FFN (spec/05_scrum_engine.md, R130 to R133; R416). -/

namespace Sys2Proof.Machine

def Cmd.ffnCtrl (c : Cmd) : Nat := c.param 84 4
def Cmd.train (c : Cmd) : Bool := bit c.ffnCtrl 0
def Cmd.acceptLoss (c : Cmd) : Bool := bit c.ffnCtrl 1

def State.predictStart (s : State) (c : Cmd) : Started :=
  let rs := [s.resolve c 0 .src dataFmts, s.resolve c 8 .src dataFmts, s.resolve c 16 .src [.l4] true,
    s.resolve c 24 .src (if c.train then [.l4] else dataFmts) true, s.resolve c 32 .src [.l4] true,
    s.resolve c 40 .src [.l4] true, s.resolve c 48 .dst dataFmts, s.resolve c 56 .dst [.bit], s.resolve c 64 .dst [.int32]]
  let x := opAt rs 0
  let w := opAt rs 8
  let named := fun (o : Nat) => c.param o 8 != 0
  let same := fun (a b : Operand) => a.d.ndim == 2 && b.d.ndim == 2 && a.d.ext0 == b.d.ext0 && a.d.extent 1 == b.d.extent 1
  let out := fun (off : Nat) => match x, w, opAt rs off with
    | some x, some w, some o =>
      need (o.d.ndim == 2 && o.d.ext0 == w.d.extent 1 && o.d.extent 1 == x.d.extent 1) Status.rejShape (64 + off)
    | _, _, _ => []
  Started.ofResolved rs
    (c.reservedRejs [0, 8, 16, 24, 32, 40, 48, 56, 64]
        [(72, 4, low 32), (76, 4, low 32), (80, 4, low 32), (84, 4, low 23)]
      ++ need2 x w (fun a b => pairOk a.d.fmt b.d.fmt) Status.rejFormat 64
      ++ [16, 32, 40].flatMap (fun o => need (named o) Status.rejFormat (64 + o))
      ++ need (!c.train || named 24) Status.rejFormat 88
      ++ need2 x w (fun a b => a.d.ndim == 2 && b.d.ndim == 2 && a.d.ext0 == b.d.ext0 && 1 ≤ a.d.ext0) Status.rejShape 72
      ++ need2 x (opAt rs 16) same Status.rejShape 80
      ++ need2 w (opAt rs 24) same Status.rejShape 88
      ++ need2 x (opAt rs 32) (fun a p => p.d.ndim == 2 && p.d.ext0 == a.d.ext0 && 1 ≤ p.d.extent 1 && p.d.extent 1 ≤ 512)
          Status.rejShape 96
      ++ need2 (opAt rs 32) (opAt rs 40) (fun p q => q.d.ndim == 2 && q.d.ext0 == p.d.extent 1) Status.rejShape 104
      ++ need2 w (opAt rs 40) (fun a q => q.d.extent 1 == a.d.extent 1) Status.rejShape 104
      ++ out 48 ++ out 56
      ++ (match x, w, opAt rs 48, opAt rs 64 with
          | some x, some w, some d, some h => need (h.d.ndim == 2 && h.d.ext0 == 2
              && h.d.extent 1 == tileCount (x.d.extent 1) (w.d.extent 1) d.d.fmt) Status.rejShape 128
          | _, _, _, _ => [])
      ++ writtenRejs ([48, 56, 64].map (fun o => (o, opAt rs o))) ([0, 8, 16, 24, 32, 40].map (opAt rs)))

/-- a > b by value, or a is NaN. -/
def aboveOrNan (a b : Word32) : Bool := (ofF32 a).isNan || (ofF32 b).lt (ofF32 a)

/-- The dense product of row i of a and row j of b, both with the contraction innermost. -/
def rowProduct (m : Mem) (cl : Nat) (a : List Elem) (b : Operand) (f : Fmt) (j : Nat) : Elem :=
  denseElem (kpOf f) (denseProducts a (fun k => b.elem m cl k j))

/-- One pair (token, neuron): its output value, computed or not, missed, and whether a poisoned value decided it. -/
structure FfnPair where
  value : Elem
  computed : Bool
  missed : Bool
  doubt : Bool
  deriving DecidableEq, Repr

/-- The pairs of one token, and the non-finite elements of its a[t] (R101, R130 to R132). -/
def State.ffnRow (s : State) (c : Cmd) (cl : Nat) (x w xs pa pb : Operand) (ws : Option Operand) (t : Nat) :
    List FfnPair × Nat :=
  let m := s.mem
  let xr := x.row m cl t
  let sr := xs.row m cl t
  let a := (List.range (pa.d.extent 1)).map (fun r => rowProduct m cl sr pa .l4 r)
  let al := (convertRow .l4 true .auto {} 0 a).map (fun e => { fmt := .l4, code := e.code, scale := e.scale, poison := e.poison : Elem })
  let skip := Elem.ofF32 (BitVec.ofNat 32 (c.param 80 4)) false
  ((List.range (w.d.extent 1)).map (fun f =>
    let score := rowProduct m cl al pb .l4 f
    let selected := aboveOrNan score.f32 (BitVec.ofNat 32 (c.param 72 4))
    let shadow := match ws with
      | some q => if c.train && !selected then some (rowProduct m cl sr q .l4 f) else none
      | none => none
    let missed := match shadow with
      | some v => aboveOrNan v.f32 (BitVec.ofNat 32 (c.param 76 4))
      | none => false
    let made := selected || (missed && !c.acceptLoss)
    let bad := score.poison || (match shadow with | some v => v.poison | none => false)
    let v := if made then rowProduct m cl xr w x.d.fmt f else skip
    { value := { v with poison := v.poison || bad }, computed := made, missed := missed, doubt := bad }),
   (a.filter (fun e => e.val.nonFinite)).length)

/-- The effect of a predicted product. POISON_IN counts every block of W1 and X, those of neurons that are never computed
included (DESIGN CHOICE: R134 and R189 do not say which blocks are consumed). -/
def State.predictEffect (s : State) (c : Cmd) : Effect :=
  match c.op? 0, c.op? 8, c.op? 16, c.op? 32, c.op? 40, c.op? 48, c.op? 56, c.op? 64 with
  | some x, some w, some xs, some pa, some pb, some dst, some mask, some hdr =>
    let ts := targetClusters c.target
    let tokens := x.d.extent 1
    let fs := w.d.extent 1
    let cl := bandCluster ts
    let used := bandClusters ts tokens
    let ws := c.op? 24
    let rows := (List.range tokens).map (fun t => (t, s.ffnRow c (cl t) x w xs pa pb ws t))
    let rnd := c.rounding (bit c.ffnCtrl 2) (bits c.ffnCtrl 22 3)
    let outs := rows.map (fun r => (r.1, convertRow dst.d.fmt dst.scale.isSome .auto rnd (r.1 * fs) (r.2.1.map (·.value))))
    let span := 16 * kpOf dst.d.fmt
    let nch := ceilDiv fs span
    let missed := (rows.map (fun r => (r.2.1.filter (·.missed)).length)).sum
    let heads := (List.range (tileCount tokens fs dst.d.fmt)).map (fun t =>
      let ps := ((rows.drop (512 * (t / nch))).take 512).flatMap (fun r => (r.2.1.drop (span * (t % nch))).take span)
      (t, (ps.filter (·.computed)).length, ps.any (·.doubt)))
    { writes := outs.flatMap (fun o => dst.rowWrites (cl o.1) o.1 false o.2)
        ++ rows.flatMap (fun r => mask.rowWrites (cl r.1) r.1 false (r.2.1.map (fun p =>
            { code := if p.computed then 1 else 0, scale := 127, poison := p.doubt })))
        ++ heads.flatMap (fun h => hdr.rowWrites (cl (512 * (h.1 / nch))) h.1 false
            [{ code := h.2.1, scale := 127, poison := h.2.2 }, { code := 0, scale := 127, poison := h.2.2 }])
      ctrs := [(.missedNeurons, missed),
        (.nonfiniteDense, (rows.map (fun r => r.2.2 + (r.2.1.filter (fun p => p.computed && p.value.val.nonFinite)).length)).sum)]
      poisonIn := poisonedOf s.mem (used.flatMap (fun k => w.blocks k ++ pa.blocks k ++ pb.blocks k
          ++ (if c.train then optBlocks k ws else []))
        ++ (List.range tokens).flatMap (fun t => x.rowBlocks (cl t) t ++ xs.rowBlocks (cl t) t))
      aux := missed }
  | _, _, _, _, _, _, _, _ => {}

/-- SCRUM_PREDICT_FFN (R130). -/
def execScrumPredictFfn (id : Nat) (s : State) : Host.Outcome State Fault Refusal :=
  .next (s.runOp id 0x330 State.predictEffect)

end Sys2Proof.Machine
end

