-- ==== Sys2Proof/Machine/Vector.lean ====
section
/-! DEFINITION. The vector commands: element-wise operations, activation tables and their loads
(spec/06_cores_threads_vector.md, R142 to R150, R163; R414, R417). -/

namespace Sys2Proof.Machine

/-! ## What every vector command writes -/

/-- Rows of results written into a destination: conversion, writes and NONFINITE_VEC (R146). -/
def vecOut (dst : Operand) (cl : Nat) (mode : ScaleMode) (r : Rounding) (rows : List (Nat × List Elem)) : Effect :=
  let outs := rows.map (fun x => (x.1, convertRow dst.d.fmt dst.scale.isSome mode r (x.1 * dst.d.ext0) x.2))
  let nf := (outs.map (fun o => nonFiniteOut dst.d.fmt o.2)).sum
  { writes := outs.flatMap (fun o => dst.rowWrites cl o.1 false o.2)
    ctrs := [(.nonfiniteVec, nf)] }

/-- The extents of an operand are those of another, through any strides (R168, R414). -/
def sameExtents (x y : Operand) : Bool := x.d.ndim == y.d.ndim && x.d.ext == y.d.ext

/-! ## VEC_ELTWISE (R414) -/

def Cmd.eltOp (c : Cmd) : Nat := bits (c.param 32 4) 3 0

/-- The operands that an operation uses. -/
def eltUses : Nat → List Nat
  | 2 => [0, 8, 16]
  | 5 => [0]
  | _ => [0, 8]

def State.eltwiseStart (s : State) (c : Cmd) : Started :=
  let uses := eltUses c.eltOp
  let ins := uses.map (fun o => s.resolve c o .src dataFmts)
  let rs := ins ++ [s.resolve c 24 .dst dataFmts]
  Started.ofResolved rs (c.reservedRejs [0, 8, 16, 24] [(32, 4, low 25)]
    ++ need (c.eltOp ≤ 5) Status.rejReserved 96
    ++ uses.flatMap (fun o => need2 (opAt rs o) (opAt rs 24) sameExtents Status.rejShape (64 + o)))

/-- One operation on values, rounded once to BF16 or FP32 (R144). -/
def eltValue (op : Nat) (bf : Bool) (a b x : Val) : Word32 :=
  let v := match op with
    | 0 => a.add b
    | 1 => a.mul b
    | 2 => (a.mul b).add x
    | 3 => a.min b
    | _ => a.max b
  if bf then toF32 (ofBf16 (toBf16R .near v)) else toF32 v

def State.eltwiseEffect (s : State) (c : Cmd) : Effect :=
  match c.op? 24 with
  | none => {}
  | some dst => c.overClusters (fun cl =>
      let ins := (eltUses c.eltOp).filterMap (fun o => c.op? o)
      let bf := ins.all (fun o => o.d.fmt == .bf16)
      let elem := fun (i r : Nat) =>
        let xs := ins.map (fun o => o.elem s.mem cl i r)
        if c.eltOp == 5 then xs.headD default
        else
          -- shorter formats are taken as FP32 (R47)
          let v := fun (k : Nat) => match xs[k]? with
            | some e => if bf then e.val else ofF32 e.widen
            | none => .zero
          Elem.ofF32 (eltValue c.eltOp bf (v 0) (v 1) (v 2)) (xs.any (fun e => e.poison))
      let rows := (List.range dst.d.rows).map (fun r => (r, (List.range dst.d.ext0).map (fun i => elem i r)))
      { vecOut dst cl .auto (c.rounding (bit (c.param 32 4) 4) (bits (c.param 32 4) 24 5)) rows with
        poisonIn := poisonIn s.mem cl (ins.map some) })

/-- VEC_ELTWISE (R414). -/
def execVecEltwise (id : Nat) (s : State) : Host.Outcome State Fault Refusal :=
  .next (s.runOp id 0x400 State.eltwiseEffect)

/-! ## Activation tables (R147, R148) -/

/-- Bytes of a table image, and the blocks whose poison marks follow it in a slot: byte 8256 + k is 1 where block k of the
image was poisoned when it was read. -/
def tableBytes : Nat := 8256
def tableBlocks : Nat := 129
def tableHeld : Nat := tableBytes + tableBlocks

/-- STEP_EXP, signed. -/
def tableStep (l : List Byte) : Int :=
  let b := fieldAt l 4 1
  if b < 128 then b else (b : Int) - 256

def tableWord (l : List Byte) (off : Nat) : Word32 := BitVec.ofNat 32 (fieldAt l off 4)

/-- Does a descriptor keep R147? -/
def tableOk (l : List Byte) : Bool :=
  let s := tableStep l
  fieldAt l 40 24 == 0 && fieldAt l 5 3 == 0 && -16 ≤ s && s ≤ 16
    && (match ofF32 (tableWord l 0) with
        | .fin _ m e => m == 0 || s ≤ e || m % 2 ^ (s - e).toNat == 0
        | _ => false)

/-- Was a block of the image poisoned? -/
def tablePoison (l : List Byte) (k : Nat) : Bool := fieldAt l (tableBytes + k) 1 == 1

/-- A tail: a constant, or one fused multiply-add. -/
def tableTail (a b x : Word32) : Word32 := if (ofF32 b).isZero then a else ffma b x a

/-- A node of F (g = 0) or D (g = 1). -/
def tableNode (l : List Byte) (g i : Nat) : Word32 := tableWord l (64 + 4096 * g + 4 * i)

/-- Evaluation of F or D at x (R148), with the poison of what it read (R187). -/
def tableEval (l : List Byte) (g : Nat) (x : Word32) : Word32 × Bool :=
  let head := tablePoison l 0
  let xmin := ofF32 (tableWord l 0)
  let step := tableStep l
  let top := xmin.add (.fin false 1023 step)
  let v := ofF32 x
  let w := fun (k : Nat) => tableWord l (8 + 16 * g + 4 * k)
  if v.isNan then (nan32, head)
  else if v.lt xmin then (tableTail (w 0) (w 1) x, head)
  else if top.lt v then (tableTail (w 2) (w 3) x, head)
  else
    let u := ((v.add xmin.neg).mul (.fin false 1 (16 - step))).floorNat
    let i := u / 65536
    let base := 1 + 64 * g
    if i ≥ 1023 then (tableNode l g 1023, head || tablePoison l (base + 63))
    else
      let a := ofF32 (tableNode l g i)
      let b := ofF32 (tableNode l g (i + 1))
      (toF32 (a.add ((Val.fin false (u % 65536) (-16)).mul (b.add a.neg))),
        head || tablePoison l (base + i / 16) || tablePoison l (base + (i + 1) / 16))

/-- The contents of a slot that a command starting now takes: a shadowed load, or what is in force (R150). -/
def TableSlot.latest (t : TableSlot) : Option (List Byte) := t.shadow.orElse (fun _ => t.image)

def State.tableSlot (s : State) (cl n : Nat) : TableSlot := vget (s.cluster cl).tables n {}

/-- Has the slot been loaded in the command's context on each of its clusters (R150)? -/
def State.tableReady (s : State) (c : Cmd) (n : Nat) : Bool :=
  (targetClusters c.target).all (fun cl =>
    (s.tableSlot cl n).ctxs.contains c.ctx && (s.tableSlot cl n).latest.isSome)

/-- The images of a slot on each target cluster, one after the other. -/
def State.tableImages (s : State) (c : Cmd) (n : Nat) : List Byte :=
  (targetClusters c.target).flatMap (fun cl => bytesAt ((s.tableSlot cl n).latest.getD []) 0 tableHeld)

/-- The image that a started command evaluates on a cluster. -/
def Cmd.tableImage (c : Cmd) (cl : Nat) : List Byte :=
  (c.held.drop (tableHeld * ((targetClusters c.target).findIdx (· == cl)))).take tableHeld

/-! ## VEC_ACTIVATE, VEC_ACTIVATE_BWD (R149) -/

def State.activateStart (s : State) (c : Cmd) (bwd : Bool) : Started :=
  let co := if bwd then 24 else 16
  let slot := bits (c.param co 4) 3 0
  let ins := if bwd then [0, 8] else [0]
  let out := if bwd then 16 else 8
  let rs := ins.map (fun o => s.resolve c o .src dataFmts) ++ [s.resolve c out .dst dataFmts]
  let st := Started.ofResolved rs (c.reservedRejs (ins ++ [out]) [(co, 4, low 25)]
    ++ ins.flatMap (fun o => need2 (opAt rs o) (opAt rs out) sameExtents Status.rejShape (64 + o))
    ++ need (s.tableReady c slot) Status.rejTable (64 + co))
  { st with held := s.tableImages c slot }

def State.activateEffect (s : State) (c : Cmd) (bwd : Bool) : Effect :=
  let co := if bwd then 24 else 16
  match c.op? 0, c.op? (if bwd then 16 else 8) with
  | some x, some dst => c.overClusters (fun cl =>
      let img := c.tableImage cl
      let g := if bwd then c.op? 8 else none
      let elem := fun (i r : Nat) =>
        let e := x.elem s.mem cl i r
        let t := tableEval img (if bwd then 1 else 0) e.widen
        match g with
        | none => Elem.ofF32 t.1 (e.poison || t.2)
        | some o =>
          let q := o.elem s.mem cl i r
          Elem.ofF32 (fmul q.widen t.1) (e.poison || t.2 || q.poison)
      let rows := (List.range dst.d.rows).map (fun r => (r, (List.range dst.d.ext0).map (fun i => elem i r)))
      { vecOut dst cl .auto (c.rounding (bit (c.param co 4) 4) (bits (c.param co 4) 24 5)) rows with
        poisonIn := poisonIn s.mem cl [some x, g] })
  | _, _ => {}

/-- VEC_ACTIVATE (R149). -/
def execVecActivate (id : Nat) (s : State) : Host.Outcome State Fault Refusal :=
  .next (s.runOp id 0x401 (fun s c => s.activateEffect c false))

/-- VEC_ACTIVATE_BWD (R149). -/
def execVecActivateBwd (id : Nat) (s : State) : Host.Outcome State Fault Refusal :=
  .next (s.runOp id 0x402 (fun s c => s.activateEffect c true))

/-! ## VEC_TABLE_LOAD (R150) -/

def State.tableLoadStart (s : State) (c : Cmd) : Started :=
  let a := c.param 0 8
  let img := s.mem.bytes a tableBytes
  { rejs := c.reservedRejs [] [(0, 8, low 52), (8, 4, low 4)]
      ++ need (a % 64 == 0) Status.rejAlign 64
      ++ need (s.allows c.ctx a tableBytes true false) Status.rejRegion 64
      ++ need (tableOk img) Status.rejTable 64
    held := img ++ (List.range tableBlocks).map (fun k => if s.mem.poisoned (a + 64 * k) then 1#8 else 0#8) }

/-- The activation slots that a command names: VEC_ACTIVATE, VEC_ACTIVATE_BWD, DRAFT_RUN_FWD, DRAFT_RUN_BWD. -/
def Cmd.tableNamed (c : Cmd) : Option Nat :=
  match c.opcode with
  | 0x401 => some (bits (c.param 16 4) 3 0)
  | 0x402 => some (bits (c.param 24 4) 3 0)
  | 0x703 => some (bits (c.param 56 4) 9 6)
  | 0x704 => some (bits (c.param 56 4) 9 6)
  | _ => none

/-- A load lands in the shadow of the slot on a cluster; a running command there that names the slot sets the cluster's
CFG_LATE bit. -/
def State.landTable (s : State) (c : Cmd) (n cl : Nat) : State :=
  let busy := s.cmds.any (fun x => x.id != c.id && x.isRunning && x.latched.any (fun l => l.cluster == cl))
  let s := s.modCluster cl (fun k => { k with
    tables := vmod k.tables n (fun t => { t with
      shadow := some c.held, ctxs := if t.ctxs.contains c.ctx then t.ctxs else c.ctx :: t.ctxs }) })
  if busy then { s with cfgLate := { s.cfgLate with cluster := s.cfgLate.cluster ||| BitVec.ofNat 8 (2 ^ cl) } } else s

/-- VEC_TABLE_LOAD (R150). -/
def execVecTableLoad (id : Nat) (s : State) : Host.Outcome State Fault Refusal :=
  .next (match s.running? id 0x408 with
    | none => s
    | some c =>
      let n := bits (c.param 8 4) 3 0
      let s := (targetClusters c.target).foldl (fun (t : State) cl => t.landTable c n cl) s
      let p := ((List.range tableBlocks).filter (tablePoison c.held)).length
      s.finish id { poison := p != 0, poisonIn := p })

/-- A context goes: a slot that only it had loaded is invalid (R163, R387). -/
def TableSlot.leave (t : TableSlot) (x : Nat) : TableSlot :=
  let rest := t.ctxs.filter (fun k => k != x)
  if rest.isEmpty && t.ctxs.contains x then {} else { t with ctxs := rest }

/-- The shadowed loads of a cluster taken into force at a command boundary (R150). -/
def State.takeTables (s : State) (cl : Nat) : State :=
  s.modCluster cl (fun k => { k with tables := k.tables.map (fun t =>
    match t.shadow with
    | some i => { t with image := some i, shadow := none }
    | none => t) })

end Sys2Proof.Machine
end

