-- ==== Sys2Proof/Machine/Draft.lean ====
section
/-! DEFINITION. Expert draft and routed layers (spec/10_expert_draft.md; R412, R418): tables, draft packets, proposing and
merging, fetches and loans, the runs, transfer windows. DRAFT_OPEN and DRAFT_CANCEL are in Stop.lean. -/

namespace Sys2Proof.Machine

/-! ## Descriptor and placement (R257, R281) -/

def DraftDesc.ofBytes (l : List Byte) : DraftDesc :=
  { own := fieldAt l 56 8, loan := fieldAt l 48 8, stage := fieldAt l 40 8, placePtr := fieldAt l 32 8
    expertBytes := fieldAt l 28 4, loanSlots := fieldAt l 26 2, stageSlots := fieldAt l 24 2, window := fieldAt l 22 2
    group := fieldAt l 20 2, capacity := fieldAt l 16 2, experts := fieldAt l 14 2 }

def Placement.ofBytes (l : List Byte) : Placement :=
  let w := leNat l
  { owner := bits w 11 0
    holders := (List.range (min (bits w 19 16) 8)).map (fun n =>
      let h := bits w (63 + 32 * n) (32 + 32 * n)
      (bits h 31 16, bits h 11 0)) }

def Placement.bytes (p : Placement) : List Byte :=
  natLe 64 (p.owner % 4096 + at' (p.holders.length % 16) 16
    + ((enumFrom 0 p.holders).map (fun h => at' (h.2.2 % 4096 + at' (h.2.1 % 65536) 16) (32 + 32 * h.1))).sum)

/-- The placement table that lies in memory. -/
def State.readPlacement (s : State) (a n : Nat) : List Placement :=
  (List.range n).map (fun e => Placement.ofBytes (s.mem.bytes (a + 64 * e) 64))

def ownerOf (pl : List Placement) (e : Nat) : Nat := (pl[e]?.map (fun p => p.owner)).getD 4096

/-- The number of experts below e with the same owner. -/
def ownIndex (pl : List Placement) (e : Nat) : Nat := ((pl.take e).filter (fun p => p.owner == ownerOf pl e)).length

/-- The experts of a placement that a module owns. -/
def ownedBy (pl : List Placement) (m : Nat) : List Nat := (List.range pl.length).filter (fun e => ownerOf pl e == m)

/-- The loan slot in which a module holds an expert. -/
def holderSlot (pl : List Placement) (e m : Nat) : Option Nat :=
  (pl[e]?).bind (fun p => (p.holders.find? (fun h => h.2 == m)).map (·.1))

/-! ## Retiring a generation (R275, R280) -/

/-- Some of the copies asked for, with the parts of them that have arrived. -/
def Draft.keepAsks (d : Draft) (keep : List Ask) : Draft :=
  { d with
    asked := keep
    parts := d.parts.filter (fun p => p.kind == 2 && keep.any (fun a => a.expert == p.expert && a.source == p.source)) }

/-- Is a copy asked for by a transfer window, which belongs to no generation? -/
def Ask.ofWindow (a : Ask) : Bool :=
  match a.use with
  | .window _ => true
  | _ => false

/-- The current generation of a table is no longer open; what it has collected goes, but for the copies that fill loans: the
requests of other members wait for them (R274). -/
def Draft.close (d : Draft) : Draft :=
  { d.keepAsks (d.asked.filter (fun a => a.use != .run)) with genOpen := false, copies := [], x := none }

/-- The current generation is retired: nothing of it remains (R280). -/
def Draft.retire (d : Draft) : Draft :=
  { d.close.keepAsks (d.asked.filter Ask.ofWindow) with retired := true, fetches := d.fetches.filter (fun r => r.fill) }

def State.closeGen (s : State) (t : Nat) : State := s.modDraft t Draft.close
def State.retireGen (s : State) (t : Nat) : State := s.modDraft t Draft.retire

/-! ## DRAFT_OPEN (R257, R258, R412) -/

/-- A range wholly in HBM4 that the context may read and write. -/
def State.draftRegion (s : State) (c : Cmd) (a n : Nat) : Bool :=
  n == 0 || (a + n ≤ hbmBytes && s.allows c.ctx a n true true)

/-- The "must be 0" bits of a placement entry are 0, and it names at most 8 loans (R281). -/
def placementOk (l : List Byte) : Bool :=
  let w := leNat l
  bits w 511 288 == 0 && bits w 31 20 == 0 && bits w 15 12 == 0 && bits w 19 16 ≤ 8
    && (List.range 8).all (fun n => bits (bits w (63 + 32 * n) (32 + 32 * n)) 15 12 == 0)

def Cmd.draftTableByte (l : List Byte) : Nat := fieldAt l 12 1

def State.draftOpenStart (s : State) (c : Cmd) : Started :=
  let a := c.param 0 8
  let ok := a % 128 == 0 && s.draftRegion c a 128
  let l := s.mem.bytes a 128
  let d := DraftDesc.ofBytes l
  let zero := fun (off n : Nat) => need (fieldAt l off n == 0) Status.rejReserved 64
  let pl := s.readPlacement d.placePtr d.experts
  let shape := 1 ≤ d.capacity && d.capacity ≤ 16384 && 1 ≤ d.experts && d.experts ≤ 4096 && 1 ≤ d.stageSlots
    && d.stageSlots ≤ 4096 && d.loanSlots ≤ 4096
  { rejs := c.reservedRejs [] [(0, 8, low 64)]
      ++ need (a % 128 == 0) Status.rejAlign 64
      ++ need (s.draftRegion c a 128) Status.rejRegion 64
      ++ (if ok then
            zero 64 64 ++ zero 18 2 ++ zero 13 1 ++ zero 0 12
              ++ need (bits d.own 63 52 == 0 && bits d.loan 63 52 == 0 && bits d.stage 63 52 == 0
                && Cmd.draftTableByte l < 64) Status.rejReserved 64
              ++ need shape Status.rejShape 64
              ++ need (d.own % 4096 == 0 && d.loan % 4096 == 0 && d.stage % 4096 == 0 && d.expertBytes % 4096 == 0)
                  Status.rejAlign 64
              ++ need (s.draftRegion c d.placePtr (64 * d.experts)
                && s.draftRegion c d.own ((ownedBy pl s.moduleId).length * d.expertBytes)
                && s.draftRegion c d.loan (d.loanSlots * d.expertBytes)
                && s.draftRegion c d.stage (d.stageSlots * d.expertBytes)) Status.rejRegion 64
              ++ need (!shape || !s.draftRegion c d.placePtr (64 * d.experts)
                || (List.range d.experts).all (fun e => placementOk (s.mem.bytes (d.placePtr + 64 * e) 64)))
                  Status.rejReserved 64
          else [])
    held := l ++ (if shape then s.mem.bytes d.placePtr (64 * d.experts) else []) }

/-- The table as DRAFT_OPEN binds it anew, at generation 0, from the descriptor and the placement table that it read when it
started (R392). -/
def Cmd.openedDraft (c : Cmd) : Draft :=
  let d := DraftDesc.ofBytes c.held
  let pl := (List.range d.experts).map (fun e => Placement.ofBytes ((c.held.drop (128 + 64 * e)).take 64))
  { bound := true, ctx := c.ctx, desc := d, place := pl, genPlace := pl, demands := List.replicate d.experts 0 }

/-! ## Draft packets (R276, R277) -/

/-- The table that a draft command names. -/
def Cmd.draftTable (c : Cmd) : Nat :=
  match c.opcode with
  | 0x700 => 64
  | 0x701 => bits (c.param 24 4) 5 0
  | 0x703 | 0x704 => bits (c.param 56 4) 5 0
  | _ => bits (c.param 0 4) 5 0

/-- The draft header. -/
def draftHead (gen table kind source expert : Nat) (empty : Bool) (count part : Nat) (last : Bool) : List Byte :=
  natLe 8 (at' (gen % 65536) 48 + at' (table % 64) 42 + at' kind 40 + at' (source % 4096) 28 + at' (expert % 4096) 16
    + flagAt empty 15 + count % 32768) ++ natLe 8 (part % 2 ^ 32 + flagAt last 63)

/-- One part as it was read from a packet. -/
def partOf (p : Packet) : DraftPart :=
  let w := fieldAt p.payload 0 8
  let v := fieldAt p.payload 8 8
  { kind := bits w 41 40, source := bits w 39 28, expert := bits w 27 16, part := bits v 31 0, last := bit v 63
    empty := bit w 15, nf := p.hdr.nf, psn := p.hdr.psn, rank := p.hdr.rank, bytes := p.payload.drop 16, poison := p.poison
    seq := p.hdr.seq }

/-- What one part carries: bytes, entries, whether it holds a non-finite element, and poison. -/
structure DraftPiece where
  bytes : List Byte
  count : Nat := 0
  nf : Bool := false
  psn : Bool := false
  poison : Nat := 0

/-- The packets of a list, copy or contribution; none to send is one header-only packet. -/
def State.draftPackets (s : State) (t gen kind expert dst : Nat) (pieces : List DraftPiece) (nf : Bool) : List Packet :=
  let d := s.draft t
  let hdr : PacketHdr :=
    { group := d.desc.group, tctx := d.ctx, dst := dst
      rank := ((s.group? d.desc.group).map (fun g => rankIn g.members s.moduleId)).getD 0 }
  match pieces with
  | [] => [{ type := .draft, hdr := { hdr with empty := true, nf := nf, src := s.moduleId }
             payload := draftHead gen t kind s.moduleId expert true 0 0 true }]
  | l => (enumFrom 0 l).map (fun (x : Nat × DraftPiece) =>
      { type := .draft, hdr := { hdr with nf := x.2.nf || nf, psn := x.2.psn, src := s.moduleId }
        payload := draftHead gen t kind s.moduleId expert false x.2.count x.1 (x.1 + 1 == l.length) ++ x.2.bytes
        poison := x.2.poison })

/-- The parts of a whole that has arrived from a source, in order; none while some are missing. -/
def Draft.whole (d : Draft) (kind source expert : Nat) : Option (List DraftPart) :=
  let l := d.parts.filter (fun p => p.kind == kind && p.source == source && p.expert == expert)
  match l.find? (fun p => p.last) with
  | none => none
  | some z =>
    let ps := (List.range (z.part + 1)).filterMap (fun i => l.find? (fun p => p.part == i))
    if ps.length == z.part + 1 then some ps else none

/-- The bytes of a whole. -/
def wholeBytes (ps : List DraftPart) : List Byte := ps.flatMap (fun p => p.bytes)

/-- A part taken into a list, once. -/
def addPart (l : List DraftPart) (p : DraftPart) : List DraftPart :=
  if l.any (fun x => x.kind == p.kind && x.source == p.source && x.expert == p.expert && x.part == p.part) then l
  else l ++ [p]

/-! ## The draft list (R263, R265, R266, R267) -/

/-- Every expert of a table. -/
def Draft.all (d : Draft) : List Nat := List.range d.desc.experts

/-- The experts whose owner is present for the generation (R266). -/
def Draft.liveExperts (d : Draft) : List Nat := d.all.filter (fun e => !d.genLost.contains (ownerOf d.genPlace e))

/-- Members of the generation that are present (R260). -/
def Draft.present (d : Draft) : List Nat := d.genMembers.filter (fun m => !d.genLost.contains m)

/-- Is a module present for a group's draft: by the roster, and readmitted where it is a member that was absent (R318)? -/
def State.presentFor (s : State) (g : Group) (m : Nat) : Bool := s.presentModule m && !g.absent.contains m

/-- The modules that a placement and a group name and that are absent when a generation starts. -/
def State.absentFor (s : State) (g : Group) (pl : List Placement) : List Nat :=
  dedup ((g.members ++ pl.flatMap (fun p => p.owner :: p.holders.map (·.2))).filter (fun m => !s.presentFor g m))

/-- The counts of a step's record (R254, R267). -/
def State.creditDraft (s : State) (d : Draft) (drafted undrafted : Nat) : State :=
  match d.genSeq with
  | none => s
  | some n => s.modSeq n (fun q => q.modWindow d.genStep (fun w =>
      { w with drafted := w.drafted + drafted, undrafted := w.undrafted + undrafted }))

/-- The list is written: offsets, then token and gate of each drafted pair. Each expert's tokens come with the poison of the
answer that gave them: it enters the pairs of the expert and the offsets after it (R187). -/
def State.writeDraftList (s : State) (t : Nat) (lists : List (List Nat × Bool)) : State :=
  let d := s.draft t
  match d.scores, d.offs, d.entry with
  | some sc, some oo, some eo =>
    let offs := lists.foldl (fun (acc : List (Nat × Bool)) l =>
      let z := acc.getLastD (0, false)
      acc ++ [(z.1 + l.1.length, z.2 || l.2)]) [(0, false)]
    -- a gate is poisoned where its score is (R187)
    let entries := (enumFrom 0 lists).flatMap (fun (x : Nat × List Nat × Bool) => x.2.1.flatMap (fun i =>
      let g := sc.elem s.mem d.cl x.1 i
      [(i, x.2.2), (g.widen.toNat, x.2.2 || g.poison)]))
    let out := fun (l : List (Nat × Bool)) => l.map (fun v =>
      { code := v.1 % 2 ^ 32, scale := 127, poison := v.2 : OutElem })
    let pairs := (lists.map (fun l => l.1.length)).sum
    let hit := fun (i : Nat) => lists.any (fun l => l.1.contains i)
    let un := ((List.range d.tokens).filter (fun i => !hit i)).length
    let s := s.writeBlocks (oo.rowWrites d.cl 0 false (out offs) ++ eo.rowWrites d.cl 0 false (out entries))
    let s := (s.bump .drafted pairs).bump .undrafted un
    (s.creditDraft d pairs un).modDraft t (fun d => { d with
      listDone := true, drafted := lists.map (·.1)
      demands := (List.range d.desc.experts).map (fun e =>
        d.demands.getD e 0 + (if (lists.getD e ([], false)).1.isEmpty then 0 else 1)) })
  | _, _, _ => s

/-- The draft list is complete once the last answer list is. -/
def State.settleList (s : State) (t : Nat) : State :=
  let d := s.draft t
  let live := d.liveExperts
  if d.genOpen && !d.listDone && live.all (fun e => (d.whole 1 (ownerOf d.genPlace e) e).isSome) then
    s.writeDraftList t (d.all.map (fun e =>
      if live.contains e then
        match d.whole 1 (ownerOf d.genPlace e) e with
        | some ps => ((chunks 4 (wholeBytes ps)).map (fun b => bits (leNat b) 19 0), ps.any (fun p => p.psn))
        | none => ([], false)
      else ([], false)))
  else s

/-! ## Fetching (R273, R274) -/

/-- A request for an expert's working copy at a step: a header-only packet of KIND 2 that carries the step as its SEQ, and 1 as
its PART where it serves a transfer window. One request serves every use of the copy. The manual lays out no request (log
entry 19). -/
def State.askFor (s : State) (t : Nat) (a : Ask) : State :=
  let had := (s.draft t).asked.any (fun x => x.expert == a.expert && x.step == a.step && x.source == a.source)
  let s := s.modDraft t (fun d => { d with asked := d.asked ++ [a] })
  if had then s
  else s.inject
    { type := .draft
      hdr := { group := (s.draft t).desc.group, tctx := (s.draft t).ctx, dst := a.source, src := s.moduleId, empty := true
               seq := a.step.toNat
               rank := ((s.group? (s.draft t).desc.group).map (fun g => rankIn g.members s.moduleId)).getD 0 }
      payload := draftHead (s.draft t).gen t 2 s.moduleId a.expert true 0 (if a.ofWindow then 1 else 0) true }

/-- The address of the copy of an expert that this module owns. -/
def Draft.ownAt (d : Draft) (e : Nat) : Nat := d.desc.own + ownIndex d.genPlace e * d.desc.expertBytes

def Draft.loanAt (d : Draft) (slot : Nat) : Nat := d.desc.loan + slot * d.desc.expertBytes

/-- Was the loan copy filled during the step? -/
def Draft.fresh (d : Draft) (e slot : Nat) (step : Word32) : Bool := d.loanSteps.contains (e, slot, step)

/-- Step a precedes step b. -/
def stepBefore (a b : Word32) : Bool := (a - b).msb

/-- Must the owner hold a request for a step (R274)? An OPT_UPDATE of the step before that writes the copy has not
completed, or a playbook of the table's context has not yet reached the step. -/
def State.ownerHolds (s : State) (d : Draft) (e : Nat) (step : Word32) : Bool :=
  s.seqs.toList.any (fun q => q.st != .idle && q.ctx == d.ctx && stepBefore q.step step)
    || s.cmds.any (fun c => c.opcode == 0x630 && !c.isDone && c.step? == some (step - 1#32)
        && (match (match c.op? 32 with | some o => some o | none => (s.resolve c 32 .dst anyFmts true).op) with
            | some o => o.ranges.any (fun r => rangesMeet r.1 r.2 (d.ownAt e) d.desc.expertBytes)
            | none => false))

/-- A copy cut into parts of 4,032 bytes. -/
def State.copyPieces (s : State) (a n : Nat) : List DraftPiece :=
  (List.range (ceilDiv n 4032)).map (fun i =>
    let k := min 4032 (n - 4032 * i)
    let poison := s.poisonBits (a + 4032 * i) (ceilDiv k 64)
    { bytes := s.mem.bytes (a + 4032 * i) k, psn := poison != 0, poison := poison })

def State.sendCopy (s : State) (t : Nat) (r : FetchReq) (a : Nat) : State :=
  (s.draftPackets t r.gen 2 r.expert r.source (s.copyPieces a (s.draft t).desc.expertBytes) false).foldl
    (fun (s : State) p => s.inject p) s

/-- One request that this module holds is served, waits, or is dropped by a module that is no source. A loan slot that lies in
the image of a running playbook is not refilled (R227). -/
def State.serveFetch (s : State) (t : Nat) (r : FetchReq) : State :=
  let d := s.draft t
  let drop := fun (s : State) => s.modDraft t (fun d => { d with fetches := d.fetches.filter (fun x => x != r) })
  if ownerOf d.genPlace r.expert == s.moduleId then
    if s.ownerHolds d r.expert r.step then s else drop (s.sendCopy t r (d.ownAt r.expert))
  else
    match holderSlot d.genPlace r.expert s.moduleId with
    | none => drop s
    | some k =>
      if d.fresh r.expert k r.step then drop (s.sendCopy t r (d.loanAt k))
      else if d.asked.any (fun a => a.expert == r.expert && a.step == r.step && a.use == .refill k)
        || s.hitsImage (d.loanAt k) d.desc.expertBytes then s
      else s.askFor t { expert := r.expert, step := r.step, source := ownerOf d.genPlace r.expert, use := .refill k }

/-- Every request that a table holds. -/
def State.serveFetches (s : State) (t : Nat) : State :=
  (s.draft t).fetches.foldl (fun (s : State) r => s.serveFetch t r) s

/-- Every request that this module holds, table by table. -/
def State.serveAll (s : State) : State :=
  (List.range 64).foldl (fun (s : State) t => if (s.draft t).fetches.isEmpty then s else s.serveFetches t) s

/-- DRAFT_TRANSFER ends once its new loan copies are filled (R284). -/
def State.settleTransfer (s : State) (t : Nat) : State :=
  let d := s.draft t
  match d.newPlace, s.cmds.find? (fun c => c.isRunning && c.opcode == 0x706 && c.draftTable == t) with
  | some pl, some c =>
    if !d.asked.any Ask.ofWindow then
      (s.modDraft t (fun d => { d with
        demands := List.replicate d.desc.experts 0, nextPlace := some pl, newPlace := none })).finish c.id
          (plainCompl Status.ok)
    else s
  | _, _ => s

/-- One use of a working copy that has arrived whole: it fills a loan slot (LOAN_REFILL), or waits for the run that fetched it
(EXPERT_FETCH, R286). The bytes of a running image are left alone (R227). -/
def State.useCopy (s : State) (t : Nat) (bytes : List Byte) (poison : Nat) (a : Ask) : State :=
  let fill := fun (s : State) (k : Nat) =>
    let at0 := (s.draft t).loanAt k
    if s.hitsImage at0 bytes.length then s
    else ((s.bump .loanRefill).writeBlocks (blockWrites at0 bytes poison)).modDraft t (fun d => { d with
      loanSteps := (a.expert, k, a.step) :: d.loanSteps.filter (fun x => !(x.2.1 == k)) })
  match a.use with
  | .refill k => fill s k
  | .window k => fill s k
  | .run => (s.bump .expertFetch).modDraft t (fun d => { d with
      copies := d.copies.filter (fun x => x.1 != a.expert) ++ [(a.expert, bytes, poison)] })

/-- A working copy that has arrived whole serves every use that was asked for. -/
def State.settleCopy (s : State) (t source e : Nat) : State :=
  let d := s.draft t
  match d.whole 2 source e, d.asked.find? (fun a => a.expert == e && a.source == source) with
  | some ps, some ask =>
    let mine := d.asked.filter (fun a => a.expert == e && a.source == source && a.step == ask.step)
    let s := s.modDraft t (fun d => { d with
      asked := d.asked.filter (fun a => !mine.contains a)
      parts := d.parts.filter (fun p => !(p.kind == 2 && p.source == source && p.expert == e)) })
    let s := mine.foldl (fun (s : State) a =>
      s.useCopy t (wholeBytes ps) (ps.map (fun p => p.poison * 2 ^ (63 * p.part))).sum a) s
    (s.serveFetches t).settleTransfer t
  | _, _ => s

/-! ## Arrival (R278) -/

/-- The step flag of the step that a table's generation is bound to becomes 1 (R243). -/
def State.draftNf (s : State) (t : Nat) : State :=
  match (s.draft t).genSeq with
  | some n => s.modSeq n (fun q => q.modWindow (s.draft t).genStep (fun w => { w with nf := true }))
  | none => s

/-- A request for a working copy: from a source, at a step, of a generation. -/
def DraftPart.request (p : DraftPart) (gen : Nat) : FetchReq :=
  { source := p.source, expert := p.expert, step := BitVec.ofNat 32 p.seq, gen := gen, fill := p.part == 1 }

/-- A part of the open generation. A contribution with its NF flag set sets the step flag as it arrives (R243, R272). -/
def State.takePart (s : State) (t : Nat) (p : DraftPart) : State :=
  let s := s.modDraft t (fun d => { d with parts := addPart d.parts p })
  let s := if p.kind == 3 && p.nf then s.draftNf t else s
  match p.kind with
  | 1 => s.settleList t
  | 2 => s.settleCopy t p.source p.expert
  | _ => s

/-- A packet of this module to a member, to itself at once. -/
def State.deliver (s : State) (t : Nat) (p : Packet) : State :=
  if p.hdr.dst == s.moduleId then s.takePart t (partOf p) else s.inject p

def State.deliverAll (s : State) (t : Nat) (l : List Packet) : State := l.foldl (fun (s : State) p => s.deliver t p) s

/-- DRAFT_PACKET (R278). A packet of the open generation is taken, one of the next is held, and any other is stale. Copies that
fill loans are taken after their generation has completed as well, and a transfer window's requests and copies belong to no
generation (DEDUCED from R274 and R284, log entry 19). -/
def State.doDraftPacket (s : State) (p : Packet) : State :=
  let w := fieldAt p.payload 0 8
  let gen := bits w 63 48
  let t := bits w 47 42
  let d := s.draft t
  let x := partOf p
  let request := x.kind == 2 && x.empty
  let asked := x.kind == 2 && d.asked.any (fun a => a.expert == x.expert && a.source == x.source)
  if !d.bound || d.ctx != p.hdr.tctx then s.bump .staleReturn
  else if request && gen == d.gen && (d.genOpen || (x.request gen).fill) then
    (s.modDraft t (fun d => { d with fetches := d.fetches ++ [x.request gen] })).serveFetches t
  else if !request && gen == d.gen && (d.genOpen || asked) then s.takePart t x
  else if gen == (d.gen + 1) % 65536 then s.modDraft t (fun d => { d with nextParts := addPart d.nextParts x })
  else s.bump .staleReturn

def execDraftPacket (p : Packet) (s : State) : Host.Outcome State Fault Refusal :=
  .next (s.receive p .draft (fun s => s.doDraftPacket p))

/-! ## DRAFT_PROPOSE (R262, R275) -/

/-- A table opened in the context (R261). -/
def State.draftRejs (s : State) (c : Cmd) (aux : Nat) : List Rej :=
  let d := s.draft c.draftTable
  need (d.bound && d.ctx == c.ctx) Status.rejDraft aux

def State.draftProposeStart (s : State) (c : Cmd) : Started :=
  let d := s.draft c.draftTable
  let rs := [s.resolve c 0 .src [.fp32, .bf16], s.resolve c 8 .dst [.int32], s.resolve c 16 .dst [.int32]]
  let score := opAt rs 0
  let open' := d.bound && d.ctx == c.ctx
  Started.ofResolved rs (c.reservedRejs [0, 8, 16] [(24, 4, 0x3F)]
    ++ s.draftRejs c 88
    ++ need (!open' || (s.group? d.desc.group).isSome) Status.rejGroup 88
    ++ need1 score (fun x => x.d.ndim == 2 && (!open' || x.d.ext0 == d.desc.experts) && 1 ≤ x.d.extent 1
        && x.d.extent 1 ≤ 2 ^ 20) Status.rejShape 64
    ++ need1 (opAt rs 8) (fun o => !open' || o.d.ext0 == d.desc.experts + 1) Status.rejShape 72
    ++ need2 score (opAt rs 16) (fun x o => !open' || 2 * d.desc.experts * min d.desc.capacity (x.d.extent 1) ≤ o.d.ext0)
        Status.rejShape 80)

/-- This module's candidates for an expert, in rank order: score as FP32, module ID, token. -/
def State.localCands (s : State) (cl : Nat) (score : Operand) (e capacity : Nat) : List TopCand :=
  topC capacity (((List.range (score.d.extent 1)).map (fun i =>
    let x := score.elem s.mem cl e i
    { score := x.val, modId := s.moduleId, token := i, code := x.widen.toNat : TopCand })).filter (fun x => !x.score.isNan))

/-- Is a score of expert e poisoned? It enters the selection of every candidate of the expert (R187). -/
def State.foulScores (s : State) (cl : Nat) (score : Operand) (e : Nat) : Bool :=
  (List.range (score.d.extent 1)).any (fun i => (score.elem s.mem cl e i).poison)

/-- A candidate as 8 bytes. -/
def TopCand.bytes (x : TopCand) : List Byte :=
  natLe 8 (x.token.toNat % 2 ^ 20 + at' (x.modId % 4096) 20 + at' (x.code % 2 ^ 32) 32)

def TopCand.ofBytes (b : List Byte) : TopCand :=
  let w := leNat b
  let f := bits w 63 32
  { score := ofF32 (BitVec.ofNat 32 f), modId := bits w 31 20, token := bits w 19 0, code := f }

/-- Entries cut into parts, poisoned where what selected them was. -/
def entryPieces (per : Nat) (bad : Bool) (l : List (List Byte)) : List DraftPiece :=
  (chunks per l).map (fun p =>
    { bytes := p.flatten, count := p.length, psn := bad, poison := if bad then low (ceilDiv p.flatten.length 64) else 0 })

/-- NaN scores of a score tensor (R129). -/
def State.nanScores (s : State) (cl : Nat) (score : Operand) : Nat :=
  ((List.range (score.d.extent 1)).map (fun i => ((score.row s.mem cl i).filter (fun x => x.val.isNan)).length)).sum

/-- A new generation of a table (R275). -/
def Draft.begin (d : Draft) (c : Cmd) (members lost : List Nat) : Draft :=
  { d with
    gen := (d.gen + 1) % 65536, genOpen := true, genPlace := d.place, genStep := c.step?.getD 0#32
    genSeq := (if c.isHost then none else some c.seqNum), genMembers := members, genLost := lost, retired := false
    cl := (targetClusters c.target).headD 0, scores := c.op? 0, offs := c.op? 8, entry := c.op? 16, x := none
    tokens := ((c.op? 0).map (fun o => o.d.extent 1)).getD 0, drafted := [], listDone := false
    parts := d.nextParts.filter (fun p => !(p.kind == 2 && p.empty)), nextParts := [], copies := [], asked := [], reduced := []
    fetches := d.fetches ++ (d.nextParts.filter (fun p => p.kind == 2 && p.empty)).map (fun p =>
      p.request ((d.gen + 1) % 65536)) }

def State.doDraftPropose (s : State) (id : Nat) : State :=
  match s.running? id 0x701, (s.cmd? id).bind (fun c => c.op? 0) with
  | some c, some score =>
    let t := c.draftTable
    match s.group? (s.draft t).desc.group with
    | none => s.finish id (rejCompl Status.rejGroup 88)
    | some g =>
      let s := s.modDraft t (fun d => d.begin c (g.members.filter (s.presentFor g)) (s.absentFor g d.place))
      let d := s.draft t
      let s := if d.parts.any (fun p => p.kind == 3 && p.nf) then s.draftNf t else s
      let off0 : List BlockWr := match d.offs with
        | some o => o.rowWrites d.cl 0 false [{ code := 0, scale := 127, poison := false }]
        | none => []
      let s := (s.writeBlocks off0).bump .nonfiniteVec (s.nanScores d.cl score)
      let p := poisonIn s.mem d.cl [some score]
      let lists := d.liveExperts.map (fun e =>
        (e, if c.depLost && !c.depAny then [] else s.localCands d.cl score e d.desc.capacity))
      let s := lists.foldl (fun (s : State) (x : Nat × List TopCand) => s.deliverAll t
        (s.draftPackets t d.gen 0 x.1 (ownerOf d.genPlace x.1) (entryPieces 510 (s.foulScores d.cl score x.1) (x.2.map TopCand.bytes)) false)) s
      ((s.serveFetches t).settleList t).finish id { poison := p != 0, poisonIn := p }
  | _, _ => s

def execDraftPropose (id : Nat) (s : State) : Host.Outcome State Fault Refusal := .next (s.doDraftPropose id)

/-! ## DRAFT_MERGE (R263, R264) -/

def State.draftMergeStart (s : State) (c : Cmd) : Started :=
  { rejs := c.reservedRejs [] [(0, 4, 0x3F)] ++ s.draftRejs c 64 }

/-- The drafted set of an owned expert. -/
def Draft.draftedSet (d : Draft) (e : Nat) : List TopCand :=
  topC d.desc.capacity (d.present.flatMap (fun m => match d.whole 0 m e with
    | some ps => (chunks 8 (wholeBytes ps)).map TopCand.ofBytes
    | none => []))

/-- Did a poisoned candidate list enter an owned expert's drafted set? -/
def Draft.foulSet (d : Draft) (e : Nat) : Bool :=
  d.present.any (fun m => (d.whole 0 m e).any (fun ps => ps.any (fun p => p.psn)))

/-- The answer of an expert to a member: its tokens in ascending order. -/
def answerList (l : List TopCand) (m : Nat) : List Nat :=
  sortBy (fun a b => a < b) ((l.filter (fun x => x.modId == m)).map (fun x => x.token.toNat))

def State.doDraftMerge (s : State) (id : Nat) : State :=
  match s.running? id 0x702 with
  | none => s
  | some c =>
    let t := c.draftTable
    let d := s.draft t
    let mine := ownedBy d.genPlace s.moduleId
    let members := d.present
    if !d.genOpen || !(mine.all (fun e => members.all (fun m => (d.whole 0 m e).isSome))) then s
    else
      let s := mine.foldl (fun (s : State) e =>
        let set := if c.depLost && !c.depAny then [] else d.draftedSet e
        members.foldl (fun (s : State) m => s.deliverAll t
          (s.draftPackets t d.gen 1 e m (entryPieces 1020 (d.foulSet e) ((answerList set m).map (natLe 4))) false)) s) s
      s.finish id (plainCompl Status.ok)

def execDraftMerge (id : Nat) (s : State) : Host.Outcome State Fault Refusal := .next (s.doDraftMerge id)

/-! ## What a run reads (R265, R269, R273) -/

/-- A drafted pair: its place in the list, token and gate. -/
structure Pair where
  k : Nat
  token : Nat
  gate : Elem

/-- The pairs of an expert in a draft list that lies in memory, and entries that name no token. -/
def State.pairsOf (s : State) (cl tokens : Nat) (offs entry : Operand) (e : Nat) : List Pair × Nat :=
  match (offs.lin s.mem cl e).index, (offs.lin s.mem cl (e + 1)).index with
  | some a, some b =>
    if 0 ≤ a && a ≤ b && 2 * b.toNat ≤ entry.d.count then
      let l := (List.range (b.toNat - a.toNat)).map (fun i => a.toNat + i)
      let ok := l.filterMap (fun k => match (entry.lin s.mem cl (2 * k)).index with
        | some i => if 0 ≤ i && i.toNat < tokens then
            let g := entry.lin s.mem cl (2 * k + 1)
            some { k := k, token := i.toNat, gate := { g with fmt := .fp32 } : Pair } else none
        | none => none)
      (ok, l.length - ok.length)
    else ([], 0)
  | _, _ => ([], 0)

/-- The pairs of every expert whose owner is present, with the expert; and the entries that name no token. -/
def State.runPairs (s : State) (d : Draft) (c : Cmd) (tokens : Nat) : List (Nat × List Pair) × Nat :=
  match c.op? 8, c.op? 16 with
  | some o, some en =>
    let l := d.liveExperts.map (fun e => (e, s.pairsOf ((targetClusters c.target).headD 0) tokens o en e))
    (l.filterMap (fun x => if x.2.1.isEmpty then none else some (x.1, x.2.1)), (l.map (fun x => x.2.2)).sum)
  | _, _ => ([], 0)

/-- Does the run use a copy of this module, its own or a loan? -/
def State.localExpert (s : State) (d : Draft) (e : Nat) : Bool :=
  ownerOf d.genPlace e == s.moduleId || (holderSlot d.genPlace e s.moduleId).isSome

/-- The source from which a member fetches an expert; the owner for one that is absent for the generation (R274). -/
def State.fetchSource (s : State) (d : Draft) (e : Nat) : Nat :=
  match d.genPlace[e]? with
  | none => 4096
  | some p =>
    let k := (s.moduleId + e) % (p.holders.length + 1)
    let m := if k == 0 then p.owner else ((p.holders[k - 1]?).map (·.2)).getD p.owner
    if d.genLost.contains m then p.owner else m

/-- Requests for the experts that have pairs here: a fetch, or the refill of a loan. -/
def State.askExpert (s : State) (t e : Nat) : State :=
  let d := s.draft t
  if ownerOf d.genPlace e == s.moduleId || d.asked.any (fun a => a.expert == e && !a.ofWindow) then s
  else
    match holderSlot d.genPlace e s.moduleId with
    | some k =>
      if d.fresh e k d.genStep then s
      else s.askFor t { expert := e, step := d.genStep, source := ownerOf d.genPlace e, use := .refill k }
    | none => s.askFor t { expert := e, step := d.genStep, source := s.fetchSource d e, use := .run }

/-- Is the copy of an expert at hand? -/
def State.haveExpert (s : State) (d : Draft) (e : Nat) : Bool :=
  if ownerOf d.genPlace e == s.moduleId then true
  else match holderSlot d.genPlace e s.moduleId with
    | some k => d.fresh e k d.genStep
    | none => d.copies.any (fun x => x.1 == e)

/-- The address of the copy of an expert that the run reads: its own, its loan, or staging slot i in turn, into which the
fetched copy is written (R269). -/
def State.placeCopy (s : State) (d : Draft) (e i : Nat) : State × Nat :=
  if ownerOf d.genPlace e == s.moduleId then (s, d.ownAt e)
  else match holderSlot d.genPlace e s.moduleId with
    | some k => (s, d.loanAt k)
    | none =>
      let a := d.desc.stage + (i % max d.desc.stageSlots 1) * d.desc.expertBytes
      match d.copies.find? (fun x => x.1 == e) with
      | some x => (s.writeBlocks (blockWrites a x.2.1 x.2.2), a)
      | none => (s, a)

/-- An operand whose BASE counts from the start of a copy. -/
def Operand.inCopy (o : Operand) (a : Nat) : Operand :=
  { o with d := { o.d with base := o.d.base + a }, scale := o.scale.map (fun p => { p with base := p.base + a }) }

/-- Formats that form a pair of R41 with themselves, as the products of a run need (R269): FP32 does not, and is rejected with
REJ_FORMAT. -/
def weightFmts : List Fmt := dataFmts.filter (fun f => pairOk f f)

/-- The layout of W1 or W2 within a working copy: the checks of its descriptor. The copy's size is known of an open table
only. -/
def State.copyDesc (s : State) (c : Cmd) (off : Nat) (bytes : Option Nat) : Option Operand × List Rej :=
  let aux := 64 + off
  match s.dptr c off with
  | .error r => (none, [r])
  | .ok none => (none, [(Status.rejLayout, aux)])
  | .ok (some l) =>
    let d := Desc.ofBytes l
    let own := descRejs l aux weightFmts ++ need (d.space == 0 && d.ndim == 2) Status.rejLayout aux
      ++ need (bytes.all (fun n => d.base + d.spanBytes ≤ n)) Status.rejShape aux
    let bad := s.foulDesc c off
    if d.scalePtr == 0 then (some { d := d, bad := bad }, own ++ need (!d.fmt.isL) Status.rejLayout aux)
    else if d.scalePtr % 128 != 0 || !s.allows c.ctx d.scalePtr 128 true false then
      (some { d := d, bad := bad }, own ++ need d.fmt.scalable Status.rejLayout aux ++ [(Status.rejRegion, aux)])
    else
      let lp := s.mem.bytes d.scalePtr 128
      let p := Desc.ofBytes lp
      (some { d := d, scale := some p, bad := bad ++ s.mem.foulBlocks d.scalePtr }, own ++ descRejs lp aux [.s8]
        ++ scaleRejs d p (fieldAt lp 16 1) aux ++ need (bytes.all (fun n => p.base + p.spanBytes ≤ n)) Status.rejShape aux)

/-- An element list as elements of a format. -/
def elemsOf (f : Fmt) (l : List OutElem) : List Elem :=
  l.map (fun e => { fmt := f, code := e.code, scale := e.scale, poison := e.poison })

/-- A row converted to a weight's format with automatic scale, to nearest (R269). -/
def toWeight (w : Operand) (es : List Elem) : List Elem := elemsOf w.d.fmt (convertRow w.d.fmt w.scale.isSome .auto {} 0 es)

/-- A gathered row of X in W1's format. -/
def gatherX (m : Mem) (cl : Nat) (x w1 : Operand) (token : Nat) : List Elem :=
  let r := x.row m cl token
  if x.d.fmt == w1.d.fmt then r else toWeight w1 r

/-- The activation of z and its derivative, from a table image (R148). -/
def actOf (img : List Byte) (g : Nat) (z : Elem) : Elem :=
  let t := tableEval img g z.widen
  Elem.ofF32 t.1 (z.poison || t.2)

/-- Non-finite elements of finished dense sums (R101). -/
def badSums (l : List Elem) : Nat := (l.filter (fun e => e.poison || e.val.nonFinite)).length

/-- FP32 sums of rows in order: the first as it is (R269). -/
def sumRows (n : Nat) : List (List Elem) → List Elem
  | [] => List.replicate n (Elem.ofF32 0#32 false)
  | r :: rest => rest.foldl (fun (acc : List Elem) (x : List Elem) =>
      (acc.zip x).map (fun p => Elem.ofF32 (fadd p.1.f32 p.2.f32) (p.1.poison || p.2.poison))) r

def Cmd.draftCtrl (c : Cmd) : Nat := c.param 56 4

/-! ## DRAFT_RUN_FWD (R269, R270) -/

/-- Products of one pair in forward. -/
structure FwdPair where
  k : Nat
  token : Nat
  z : List Elem
  c : List Elem
  bad : Nat

/-- One expert of the forward run, its copy at address a. -/
def State.expertFwd (s : State) (cl a : Nat) (img : List Byte) (x w1 w2 : Operand) (ps : List Pair) : List FwdPair :=
  let w1 := w1.inCopy a
  let w2 := w2.inCopy a
  ps.map (fun p =>
    let xr := gatherX s.mem cl x w1 p.token
    let z := (List.range (w1.d.extent 1)).map (fun f => rowProduct s.mem cl xr w1 w1.d.fmt f)
    let h := toWeight w2 (z.map (actOf img 0))
    let o := (List.range (w2.d.extent 1)).map (fun j => rowProduct s.mem cl h w2 w2.d.fmt j)
    { k := p.k, token := p.token, z := z, bad := badSums z + badSums o
      c := o.map (fun v => Elem.ofF32 (fmul p.gate.f32 v.f32) (v.poison || p.gate.poison)) })

/-- Every expert in ascending order, its copy placed first. -/
def State.overExperts {α : Type} (s : State) (d : Draft) (l : List (Nat × List Pair)) (f : State → Nat → Nat → List Pair → α) :
    State × List (Nat × α) :=
  let staged := fun (e : Nat) => !(s.localExpert d e)
  let r := l.foldl (fun (acc : State × Nat × List (Nat × α)) (x : Nat × List Pair) =>
    let p := acc.1.placeCopy d x.1 acc.2.1
    (p.1, acc.2.1 + (if staged x.1 then 1 else 0), acc.2.2 ++ [(x.1, f p.1 p.2 x.1 x.2)])) (s, 0, [])
  (r.1, r.2.2)

/-- A run may write the staging slots and this module's loan slots: none may lie in the image of a running playbook (R227; the
offset in AUX is log entry 19's). -/
def State.copyRejs (s : State) (d : Draft) (open' : Bool) : List Rej :=
  let loans := (List.range d.place.length).filterMap (fun e => holderSlot d.place e s.moduleId)
  need (!open' || (!s.hitsImage d.desc.stage (d.desc.stageSlots * d.desc.expertBytes)
    && loans.all (fun k => !s.hitsImage (d.loanAt k) d.desc.expertBytes))) Status.rejRegion 120

def State.draftFwdStart (s : State) (c : Cmd) : Started :=
  let d := s.draft c.draftTable
  let open' := d.bound && d.ctx == c.ctx
  let rs := [s.resolve c 0 .src dataFmts, s.resolve c 8 .src [.int32], s.resolve c 16 .src [.int32],
    s.resolve c 24 .dst [.fp32, .bf16], s.resolve c 32 .dst [.fp32]]
  let w1 := s.copyDesc c 40 (if open' then some d.desc.expertBytes else none)
  let w2 := s.copyDesc c 48 (if open' then some d.desc.expertBytes else none)
  let x := opAt rs 0
  let slot := bits c.draftCtrl 9 6
  let k := Started.ofResolved rs (c.reservedRejs [0, 8, 16, 24, 32, 40, 48] [(56, 4, low 32)]
    ++ s.draftRejs c 120 ++ w1.2 ++ w2.2
    ++ need1 x (fun o => o.d.ndim == 2) Status.rejShape 64
    ++ need2 x w1.1 (fun o w => w.d.ext0 == o.d.ext0) Status.rejShape 104
    ++ need2 w1.1 w2.1 (fun w v => v.d.ext0 == w.d.extent 1 && v.d.extent 1 == w.d.ext0) Status.rejShape 112
    ++ need2 x (opAt rs 24) (fun o y => y.d.ndim == 2 && y.d.ext == o.d.ext) Status.rejShape 88
    ++ need2 w1.1 (opAt rs 32) (fun w y => y.d.ndim == 2 && y.d.ext0 == w.d.extent 1) Status.rejShape 96
    ++ need1 (opAt rs 8) (fun o => !open' || o.d.ext0 == d.desc.experts + 1) Status.rejShape 72
    ++ need (s.tableReady c slot) Status.rejTable 120 ++ s.copyRejs d open')
  { k with
    ops := k.ops ++ (w1.1.toList.map (fun w => (40, w))) ++ (w2.1.toList.map (fun w => (48, w)))
    held := s.tableImages c slot }

/-- The effect of the forward run, its copies placed. -/
def State.fwdEffect (s : State) (d : Draft) (c : Cmd) (pairs : List (Nat × List Pair)) (bad : Nat) : State × Effect :=
  match c.op? 0, c.op? 24, c.op? 32, c.op? 40, c.op? 48 with
  | some x, some out, some sv, some w1, some w2 =>
    let cl := (targetClusters c.target).headD 0
    let r := s.overExperts d pairs (fun s a _ ps =>
      (s.expertFwd cl a (c.tableImage cl) x w1 w2 ps, poisonIn s.mem cl [some (w1.inCopy a), some (w2.inCopy a)]))
    let res : List FwdPair := r.2.flatMap (fun e => e.2.1)
    let rnd := c.rounding (bit c.draftCtrl 11) (bits c.draftCtrl 31 12)
    let rows := (List.range out.d.rows).map (fun t =>
      (t, convertRow out.d.fmt out.scale.isSome .auto rnd (t * out.d.ext0)
        (sumRows out.d.ext0 ((res.filter (fun p => p.token == t)).map (fun p => p.c)))))
    let saved := res.filter (fun p => p.k < sv.d.rows)
    (r.1,
      { writes := saved.flatMap (fun p => sv.rowWrites cl p.k false
            (p.z.map (fun e => { code := e.code, scale := 127, poison := e.poison })))
          ++ rows.flatMap (fun t => out.rowWrites cl t.1 false t.2)
        ctrs := [(.nonfiniteDense, (res.map (fun p => p.bad)).sum), (.oobCount, bad + res.length - saved.length)]
        oob := bad + res.length - saved.length, count := bad + res.length - saved.length
        poisonIn := poisonedOf s.mem ((res.map (fun p => x.rowBlocks cl p.token)).flatten
            ++ optBlocks cl (c.op? 8) ++ optBlocks cl (c.op? 16)) + (r.2.map (fun e => e.2.2)).sum })
  | _, _, _, _, _ => (s, {})

/-- A run waits where a staging slot or a block of its outputs is under retry (R202, R398): `s'` is the state with its copies
placed. -/
def State.runWaits (s s' : State) (e : Effect) : Bool := s'.memside.held != s.memside.held || s.retryBlocks e

/-- DRAFT_RUN_FWD: it waits for the draft list, asks for the copies that it lacks, and runs once it has them. -/
def State.doDraftFwd (s : State) (id : Nat) : State :=
  match s.running? id 0x703 with
  | none => s
  | some c =>
    let t := c.draftTable
    let d := s.draft t
    if !d.genOpen || !d.listDone then s
    else
      let tokens := ((c.op? 0).map (fun o => o.d.extent 1)).getD 0
      let l := s.runPairs d c tokens
      let s := if c.stage == .go then l.1.foldl (fun (s : State) x => s.askExpert t x.1) (s.setStage id .begun) else s
      let d := s.draft t
      if !(l.1.all (fun x => s.haveExpert d x.1)) then s
      else
        let r := s.fwdEffect d c l.1 l.2
        if s.runWaits r.1 r.2 then s
        else
        let s := r.1.modDraft t (fun d => { d with x := c.op? 0, copies := [] })
        let s := s.perform c r.2
        if bit c.draftCtrl 10 then s.closeGen t else s

def execDraftRunFwd (id : Nat) (s : State) : Host.Outcome State Fault Refusal := .next (s.doDraftFwd id)

/-! ## DRAFT_RUN_BWD (R271, R272) -/

def Cmd.gradBase (c : Cmd) : Nat := c.param 72 8
def Cmd.gradStage (c : Cmd) : Nat := c.param 80 8

/-- D and F of a run, and the bytes of one expert's gradient. -/
def Cmd.runD (c : Cmd) : Nat := ((c.op? 40).map (fun w => w.d.ext0)).getD 0
def Cmd.runF (c : Cmd) : Nat := ((c.op? 40).map (fun w => w.d.extent 1)).getD 0
def Cmd.gradBytes (c : Cmd) : Nat := 8 * c.runD * c.runF

def State.draftBwdStart (s : State) (c : Cmd) : Started :=
  let d := s.draft c.draftTable
  let open' := d.bound && d.ctx == c.ctx
  let rs := [s.resolve c 0 .src dataFmts, s.resolve c 8 .src [.int32], s.resolve c 16 .src [.int32],
    s.resolve c 24 .src [.fp32], s.resolve c 32 .dst [.fp32, .bf16], s.resolve c 64 .dst [.fp32]]
  let w1 := s.copyDesc c 40 (if open' then some d.desc.expertBytes else none)
  let w2 := s.copyDesc c 48 (if open' then some d.desc.expertBytes else none)
  let dy := opAt rs 0
  let slot := bits c.draftCtrl 9 6
  let mine := (ownedBy d.genPlace s.moduleId).length
  let g := ((s.group? d.desc.group).map (fun g => g.members.length)).getD 0
  let bytes := (w1.1.map (fun w => 8 * w.d.ext0 * w.d.extent 1)).getD 0
  let k := Started.ofResolved rs (c.reservedRejs [0, 8, 16, 24, 32, 40, 48, 64]
      [(56, 4, low 32 - 2 ^ 10), (72, 8, low 52), (80, 8, low 52)]
    ++ s.draftRejs c 120 ++ w1.2 ++ w2.2
    ++ need (!d.bound || d.x.isSome || !d.genOpen) Status.rejDraft 120
    ++ need1 dy (fun o => o.d.ndim == 2) Status.rejShape 64
    ++ need2 dy w1.1 (fun o w => w.d.ext0 == o.d.ext0) Status.rejShape 104
    ++ need2 w1.1 w2.1 (fun w v => v.d.ext0 == w.d.extent 1 && v.d.extent 1 == w.d.ext0) Status.rejShape 112
    ++ need2 dy (opAt rs 32) (fun o y => y.d.ndim == 2 && y.d.ext == o.d.ext) Status.rejShape 96
    ++ need2 w1.1 (opAt rs 24) (fun w y => y.d.ndim == 2 && y.d.ext0 == w.d.extent 1) Status.rejShape 88
    ++ need2 dy (opAt rs 64) (fun o y => y.d.ndim == 2 && (!open' || y.d.ext0 == d.desc.experts) && y.d.extent 1 == o.d.extent 1)
        Status.rejShape 128
    ++ need1 (opAt rs 8) (fun o => !open' || o.d.ext0 == d.desc.experts + 1) Status.rejShape 72
    ++ need (s.tableReady c slot) Status.rejTable 120
    -- GRAD_BASE is written only, GRAD_STAGE is written and read (R540)
    ++ need (!open' || mine * bytes == 0 || (c.gradBase + mine * bytes ≤ hbmBytes
        && s.allows c.ctx c.gradBase (mine * bytes) false true && !s.hitsImage c.gradBase (mine * bytes))) Status.rejRegion 136
    ++ need (!open' || (s.draftRegion c c.gradStage (mine * g * bytes) && !s.hitsImage c.gradStage (mine * g * bytes)))
        Status.rejRegion 144
    ++ s.copyRejs d open')
  { k with
    ops := k.ops ++ (w1.1.toList.map (fun w => (40, w))) ++ (w2.1.toList.map (fun w => (48, w)))
    held := s.tableImages c slot }

/-- Products of one pair in backward: gate gradient, data gradient, and the converted rows of the weight gradients. -/
structure BwdPair where
  token : Nat
  ds : Elem
  dx : List Elem
  h : List Elem
  out : List Elem
  dz : List Elem
  x : List Elem
  bad : Nat

/-- One expert of the backward run. -/
def State.expertBwd (s : State) (cl a : Nat) (img : List Byte) (x dy sv w1 w2 : Operand) (ps : List Pair) : List BwdPair :=
  let w1 := w1.inCopy a
  let w2 := w2.inCopy a
  ps.map (fun p =>
    let z := sv.row s.mem cl p.k
    let h := toWeight w2 (z.map (actOf img 0))
    let o := (List.range (w2.d.extent 1)).map (fun j => rowProduct s.mem cl h w2 w2.d.fmt j)
    let g := (dy.row s.mem cl p.token).map (fun e => Elem.ofF32 e.widen e.poison)
    let ds := Elem.ofF32 (rowTreeSum ((o.zip g).map (fun q => fmul q.1.f32 q.2.f32)))
      (o.any (fun e => e.poison) || g.any (fun e => e.poison))
    let out := toWeight w2 (g.map (fun e => Elem.ofF32 (fmul p.gate.f32 e.f32) (e.poison || p.gate.poison)))
    let dh := (List.range (w2.d.ext0)).map (fun f =>
      denseElem (kpOf w2.d.fmt) (denseProducts out (fun j => w2.elem s.mem cl f j)))
    let dz := toWeight w1 ((dh.zip z).map (fun q =>
      let t := actOf img 1 q.2
      Elem.ofF32 (fmul q.1.f32 t.f32) (q.1.poison || t.poison)))
    let dx := (List.range (w1.d.ext0)).map (fun j =>
      denseElem (kpOf w1.d.fmt) (denseProducts dz (fun f => w1.elem s.mem cl j f)))
    { token := p.token, ds := ds, dx := dx, h := h, out := out, dz := dz, x := gatherX s.mem cl x w1 p.token
      bad := badSums o + badSums dh + badSums dx })

/-- A weight gradient over the local tokens: row elements of a by row elements of b, with K the number of pairs (R271). -/
def gradProduct (f : Fmt) (a b : List (List Elem)) (n m : Nat) : List Elem :=
  (List.range n).flatMap (fun i => (List.range m).map (fun j =>
    denseElem (kpOf f) (denseProducts (a.map (fun r => r.getD i default)) (fun k => (b.getD k []).getD j default))))

/-- The contribution of an expert: dW1 [F, D], then dW2 [D, F]. -/
def contribution (c : Cmd) (ps : List BwdPair) : List Elem :=
  match c.op? 40, c.op? 48 with
  | some w1, some w2 =>
    gradProduct w1.d.fmt (ps.map (fun p => p.dz)) (ps.map (fun p => p.x)) c.runF c.runD
      ++ gradProduct w2.d.fmt (ps.map (fun p => p.out)) (ps.map (fun p => p.h)) c.runD c.runF
  | _, _ => []

/-- A contribution cut into parts of 1,008 elements. -/
def gradPieces (l : List Elem) : List DraftPiece :=
  (chunks 1008 l).map (fun p =>
    { bytes := p.flatMap (fun e => natLe 4 e.code), nf := p.any (fun e => e.poison || e.val.nonFinite)
      psn := p.any (fun e => e.poison) })

/-- The backward run: effect on this module, and what goes to the owner of each expert. -/
def State.bwdEffect (s : State) (d : Draft) (c : Cmd) (pairs : List (Nat × List Pair)) (bad : Nat) :
    State × Effect × List (Nat × List Elem) :=
  match c.op? 0, c.op? 24, c.op? 32, c.op? 40, c.op? 48, c.op? 64, d.x with
  | some dy, some sv, some dx, some w1, some w2, some dsv, some x =>
    let cl := (targetClusters c.target).headD 0
    let r := s.overExperts d pairs (fun s a _ ps =>
      (s.expertBwd cl a (c.tableImage cl) x dy sv w1 w2 ps, poisonIn s.mem cl [some (w1.inCopy a), some (w2.inCopy a)]))
    let res : List (Nat × List BwdPair) := r.2.map (fun e => (e.1, e.2.1))
    let flat := res.flatMap (fun e => e.2)
    let rnd := c.rounding (bit c.draftCtrl 11) (bits c.draftCtrl 31 12)
    let rows := (List.range dx.d.rows).map (fun t =>
      (t, convertRow dx.d.fmt dx.scale.isSome .auto rnd (t * dx.d.ext0)
        (sumRows dx.d.ext0 ((flat.filter (fun p => p.token == t)).map (fun p => p.dx)))))
    let gates := (List.range dsv.d.rows).map (fun t => (t, (List.range dsv.d.ext0).map (fun e =>
      match ((res.find? (fun x => x.1 == e)).map (fun x => x.2)).bind (fun l => l.find? (fun p => p.token == t)) with
      | some p => { code := p.ds.code, scale := 127, poison := p.ds.poison : OutElem }
      | none => { code := 0, scale := 127, poison := false })))
    let grads := res.map (fun e => (e.1, contribution c e.2))
    (r.1,
      { writes := rows.flatMap (fun t => dx.rowWrites cl t.1 false t.2) ++ gates.flatMap (fun t => dsv.rowWrites cl t.1 false t.2)
        ctrs := [(.nonfiniteDense, (flat.map (fun p => p.bad)).sum + (grads.map (fun g => badSums g.2)).sum), (.oobCount, bad)]
        oob := bad, count := bad
        poisonIn := poisonedOf s.mem (flat.flatMap (fun p => dy.rowBlocks cl p.token ++ x.rowBlocks cl p.token)
            ++ pairs.flatMap (fun e => e.2.flatMap (fun p => sv.rowBlocks cl p.k))
            ++ optBlocks cl (c.op? 8) ++ optBlocks cl (c.op? 16)) + (r.2.map (fun e => e.2.2)).sum }, grads)
  | _, _, _, _, _, _, _ => (s, {}, [])

/-- A running command does its own work but does not complete: what it has counted is kept. True while it goes on. -/
def State.performPart (s : State) (c : Cmd) (e : Effect) : State × Bool :=
  if e.overLimit c then (s.perform c e, false)
  else
    ((s.landEffect c e).modCmd c.id (fun c => { c with part := { c.part with
      poisonIn := c.part.poisonIn + e.poisonIn, poison := c.part.poison || e.poisonIn != 0
      poisonOut := c.part.poisonOut + e.poisonOut, count := e.count, oob := e.oob != 0 } }), true)

/-- The run completes, and its generation closes, once every gradient that this module owns is formed. -/
def State.settleBwd (s : State) (t id : Nat) : State :=
  let d := s.draft t
  match s.running? id 0x704 with
  | none => s
  | some c =>
    if c.stage == .dma 1 && (ownedBy d.genPlace s.moduleId).all (fun e => d.reduced.contains e) then
      (s.closeGen t).finishPart id { status := Status.ok, count := c.part.count, oob := c.part.oob }
    else s

/-- DRAFT_RUN_BWD. -/
def State.doDraftBwd (s : State) (id : Nat) : State :=
  match s.running? id 0x704 with
  | none => s
  | some c =>
    let t := c.draftTable
    let d := s.draft t
    if !d.genOpen || !d.listDone || c.stage == .dma 1 then s
    else
      let tokens := ((c.op? 0).map (fun o => o.d.extent 1)).getD 0
      let l := s.runPairs d c tokens
      let s := if c.stage == .go then l.1.foldl (fun (s : State) x => s.askExpert t x.1) (s.setStage id .begun) else s
      let d := s.draft t
      if !(l.1.all (fun x => s.haveExpert d x.1)) then s
      else
        let r := s.bwdEffect d c l.1 l.2
        if s.runWaits r.1 r.2.1 then s
        else
        let s := r.1.modDraft t (fun d => { d with copies := [] })
        let p := s.performPart c r.2.1
        if !p.2 then p.1.closeGen t
        else
          let s := p.1.setStage id (.dma 1)
          let nf := s.stepNf c.src
          let s := d.liveExperts.foldl (fun (s : State) e =>
            let g := ((r.2.2.find? (fun x => x.1 == e)).map (fun x => x.2)).getD []
            let pieces := if c.depLost && !c.depAny then [] else gradPieces g
            s.deliverAll t (s.draftPackets t d.gen 3 e (ownerOf d.genPlace e) pieces nf)) s
          s.settleBwd t id

def execDraftRunBwd (id : Nat) (s : State) : Host.Outcome State Fault Refusal := .next (s.doDraftBwd id)

/-! ## The owner's gradient (R210, R271, R272) -/

/-- Block writes of bytes at any address. -/
def spanWrites (a : Nat) (data : List Byte) (poison : Nat → Bool) : List BlockWr :=
  (List.range ((a + data.length + 63) / 64 - a / 64)).map (fun i =>
    let b := (a / 64 + i) * 64
    let lo := max a b
    let hi := min (a + data.length) (b + 64)
    { loc := b, mask := at' (low (8 * (hi - lo))) (8 * (lo - b))
      val := at' (leNat ((data.drop (lo - a)).take (hi - lo))) (8 * (lo - b)), poison := poison (lo - a) })

/-- The words of a contribution. -/
def gradWords (ps : List DraftPart) : List Word32 := (chunks 4 (wholeBytes ps)).map (fun b => BitVec.ofNat 32 (leNat b))

/-- Is byte i of a contribution in a poisoned part? -/
def gradPoison (ps : List DraftPart) (i : Nat) : Bool := ps.any (fun p => p.psn && p.part * 4032 < i + 64 && i < (p.part + 1) * 4032)

/-- The gradient of an owned expert is formed once every present member's contribution has arrived whole: the non-empty ones
lie in their ranks' slots of the staging, and are summed in ascending rank. -/
def State.reduceExpert (s : State) (t e : Nat) : State :=
  let d := s.draft t
  match s.cmds.find? (fun c => c.isRunning && c.opcode == 0x704 && c.draftTable == t && c.stage == .dma 1), s.group? d.desc.group with
  | some c, some g =>
    let members := d.present
    let got := members.filterMap (fun m => (d.whole 3 m e).map (fun ps => (m, ps)))
    if !(ownedBy d.genPlace s.moduleId).contains e || d.reduced.contains e || got.length != members.length then s
    else
      let k := ownIndex d.genPlace e
      let n := c.gradBytes
      let full := got.filter (fun x => !(x.2.any (fun p => p.empty)))
      let s := full.foldl (fun (s : State) (x : Nat × List DraftPart) => s.writeBlocks
        ((spanWrites (c.gradStage + (k * g.members.length + rankIn g.members x.1) * n) ((wholeBytes x.2).take n)
          (gradPoison x.2)).map (fun w => { w with carry := true }))) s
      let sum := match full with
        | [] => List.replicate (n / 4) 0#32
        | x :: r => (addAll (gradWords x.2) (r.map (fun (y : Nat × List DraftPart) => gradWords y.2))).map canonWord
      let ws := spanWrites (c.gradBase + k * n) (sum.flatMap (fun (w : Word32) => natLe 4 w.toNat))
        (fun i => full.any (fun x => gradPoison x.2 i))
      let s := s.modDraft t (fun d => { d with
        reduced := d.reduced ++ [e]
        parts := d.parts.filter (fun p => !(p.kind == 3 && p.expert == e)) })
      let r := s.landBlocks c.id .fp32 ws
      if r.2 then r.1.settleBwd t c.id else r.1.closeGen t
  | _, _ => s

/-- RANK_ORDER_REDUCTION (R210): every shard of a collective that is full, or one owned expert. -/
def execRankOrderReduction (r : RankRed) (s : State) : Host.Outcome State Fault Refusal :=
  .next (match r with
    | .coll id =>
      match s.coll? id with
      | some k =>
        if k.order then ((s.formable k).foldl (fun (s : State) i => s.formShard id i) s).settleColl id else s
      | none => s
    | .expert t e => s.reduceExpert t e)

/-! ## DRAFT_TRANSFER (R282 to R284) -/

def State.draftTransferStart (s : State) (c : Cmd) : Started :=
  let d := s.draft c.draftTable
  { rejs := c.reservedRejs [] [(0, 4, 0x3F)] ++ s.draftRejs c 64
      ++ need (!d.bound || d.ctx != c.ctx || (!s.hitsImage d.desc.loan (d.desc.loanSlots * d.desc.expertBytes)
        && !s.hitsImage d.desc.placePtr (64 * d.desc.experts))) Status.rejRegion 64
      ++ need (!(s.draft c.draftTable).bound || (s.group? (s.draft c.draftTable).desc.group).isSome) Status.rejGroup 64 }

/-- Loans that an expert gets. -/
def loanCount (experts load total present : Nat) : Nat :=
  if total != 0 && 3 * total < 2 * experts * load then
    min (ceilDiv (load * experts) total - 1) (min 8 (present - 1))
  else 0

/-- Members present other than the owner, from the owner's ID upward, wrapping round. -/
def loanCandidates (present : List Nat) (owner : Nat) : List Nat :=
  present.filter (fun m => owner < m) ++ present.filter (fun m => m < owner)

/-- The lowest slot below n that is not in use. -/
def freeSlot (n : Nat) (used : List Nat) : Option Nat := (List.range n).find? (fun k => !used.contains k)

/-- The loan slots of a module that an open generation uses (R284): expert, slot. -/
def slotsInUse (d : Draft) (m : Nat) : List (Nat × Nat) :=
  if d.genOpen then
    (enumFrom 0 d.genPlace).flatMap (fun (p : Nat × Placement) => (p.2.holders.filter (fun h => h.2 == m)).map (fun h => (p.1, h.1)))
  else []

/-- Has a module a slot left for a loan of expert e, with the loans made so far (expert, module)? -/
def hasSlot (d : Draft) (made : List (Nat × Nat)) (e m : Nat) : Bool :=
  let used := (slotsInUse d m).filter (fun (x : Nat × Nat) => x.1 != e)
  used.length + (made.filter (fun (x : Nat × Nat) => x.2 == m && x.1 != e && !used.any (fun u => u.1 == x.1))).length
    < d.desc.loanSlots

/-- The loans of a window (R283), in the order in which they are made: expert, module. -/
def chooseLoans (d : Draft) (loads present : List Nat) : List (Nat × Nat) :=
  let order := sortBy (fun (a b : Nat) => loads.getD b 0 < loads.getD a 0) d.all
  order.foldl (fun (made : List (Nat × Nat)) (e : Nat) =>
    made ++ (((loanCandidates present (ownerOf d.place e)).filter (hasSlot d made e)).take
      (loanCount d.desc.experts (loads.getD e 0) loads.sum present.length)).map (fun m => (e, m))) []

/-- The slots of the loans: a loan that is kept has its own, a new one the lowest that is free. Expert, slot, module. -/
def giveSlots (d : Draft) (loans : List (Nat × Nat)) : List (Nat × Nat × Nat) :=
  loans.foldl (fun (made : List (Nat × Nat × Nat)) (x : Nat × Nat) =>
    let kept := loans.filterMap (fun (y : Nat × Nat) => if y.2 == x.2 then holderSlot d.place y.1 y.2 else none)
    let mine := (made.filter (fun (y : Nat × Nat × Nat) => y.2.2 == x.2)).map (fun (y : Nat × Nat × Nat) => y.2.1)
    let held := ((slotsInUse d x.2).filter (fun (y : Nat × Nat) => y.1 != x.1)).map (fun (y : Nat × Nat) => y.2)
    match (holderSlot d.place x.1 x.2).orElse (fun _ => freeSlot d.desc.loanSlots (kept ++ mine ++ held)) with
    | some k => made ++ [(x.1, k, x.2)]
    | none => made) []

/-- The placement after a transfer window. -/
def newPlacement (d : Draft) (loads present : List Nat) : List Placement :=
  let made := giveSlots d (chooseLoans d loads present)
  (enumFrom 0 d.place).map (fun (p : Nat × Placement) =>
    { p.2 with holders := (made.filter (fun (x : Nat × Nat × Nat) => x.1 == p.1)).map (fun (x : Nat × Nat × Nat) => (x.2.1, x.2.2)) })

/-- DRAFT_TRANSFER. The demands of the other members, which reach this module in a way that the manual does not lay out, are
free numbers (log entry 19). -/
def State.doDraftTransfer (s : State) (id : Nat) : State :=
  match s.running? id 0x706 with
  | none => s
  | some c =>
    let t := c.draftTable
    let d := s.draft t
    if c.stage != .go then s.settleTransfer t
    else
      let w := if d.desc.window == 0 then 200 else d.desc.window
      let acts := match c.src with
        | .host _ => true
        | .seq n _ step _ => step.toNat % w == 0 && (s.seq n).st != .holding
      if !acts then s.finish id (plainCompl Status.ok)
      else
        let members := ((s.group? d.desc.group).map (fun g => g.members.filter (s.presentFor g))).getD []
        let other := fun (e : Nat) => if members.length ≤ 1 then 0 else Config.freeNat (s.free + e) % 2 ^ 32
        let loads := d.all.map (fun e => d.demands.getD e 0 + other e)
        let pl := newPlacement d loads members
        let step := c.step?.getD 0#32
        let fills := d.all.filterMap (fun e => (holderSlot pl e s.moduleId).bind (fun k =>
          if holderSlot d.place e s.moduleId == some k then none else some (e, k)))
        let s := { s with free := s.free + d.desc.experts }
        let s := (s.setStage id .begun).modDraft t (fun d => { d with newPlace := some pl })
        let s := fills.foldl (fun (s : State) (x : Nat × Nat) =>
          s.askFor t { expert := x.1, step := step, source := ownerOf pl x.1, use := .window x.2 }) s
        s.settleTransfer t

def execDraftTransfer (id : Nat) (s : State) : Host.Outcome State Fault Refusal := .next (s.doDraftTransfer id)

/-- New placements of a context's tables take effect at a step boundary, and the tables in memory follow (R284). -/
def State.takePlacements (s : State) (ctx : Nat) : State :=
  (List.range 64).foldl (fun (s : State) t =>
    let d := s.draft t
    match d.nextPlace with
    | some pl =>
      if d.bound && d.ctx == ctx then
        let ws := spanWrites d.desc.placePtr (pl.flatMap Placement.bytes) (fun _ => false)
        (if s.hitsImage d.desc.placePtr (64 * pl.length) then s else s.writeBlocks ws).modDraft t (fun d =>
          { d with place := pl, nextPlace := none })
      else s
    | none => s) s

/-! ## Members that the roster declares absent (R263, R266, R274) -/

/-- Requests to an absent source go to the owner, and lists that waited for an absent owner are complete. -/
def State.draftsLose (s : State) (gone : List Nat) : State :=
  (List.range 64).foldl (fun (s : State) t =>
    let d := s.draft t
    if !d.bound then s
    else
      let lost := d.asked.filter (fun a => gone.contains a.source)
      let s := s.modDraft t (fun d => { d with
        asked := d.asked.filter (fun a => !gone.contains a.source)
        genLost := if d.genOpen then d.genLost ++ gone.filter (fun m => !d.genLost.contains m) else d.genLost
        fetches := d.fetches.filter (fun r => !gone.contains r.source) })
      let s := lost.foldl (fun (s : State) a =>
        let o := ownerOf d.genPlace a.expert
        if gone.contains o then s else s.askFor t { a with source := o }) s
      (s.settleList t).settleTransfer t) s

end Sys2Proof.Machine
end

