-- ==== Sys2Proof/Machine/Fused.lean ====
section
/-! DEFINITION. The fused kernels (spec/06_cores_threads_vector.md, R151 to R156; R417). -/

namespace Sys2Proof.Machine

/-- The operands of a fused kernel, by packet offset: row tensors, column vectors, row statistics, and what it writes. -/
structure FusedSpec where
  rowIns : List Nat := []
  colIns : List Nat := []
  statIns : List Nat := []
  rowOut : Nat := 0
  statOuts : List Nat := []
  grads : List Nat := []

def fusedSpec : Nat → FusedSpec
  | 0x420 => { rowIns := [0], statIns := [8, 16], rowOut := 24 }
  | 0x421 => { rowIns := [0, 8], rowOut := 16 }
  | 0x422 => { rowIns := [0], colIns := [8, 16], rowOut := 24, statOuts := [32, 40] }
  | 0x423 => { rowIns := [0, 8], colIns := [16], statIns := [24, 32], rowOut := 40, grads := [48, 56] }
  | 0x424 => { rowIns := [0], colIns := [8], rowOut := 16, statOuts := [24] }
  | _ => { rowIns := [0, 8], colIns := [16], statIns := [24], rowOut := 32, grads := [40] }

def State.fusedStart (s : State) (c : Cmd) : Started :=
  let sp := fusedSpec c.opcode
  let ctrl := c.param 64 4
  let slotOnly := c.slot?.isSome && !c.slotDrain
  let optStat := c.opcode == 0x420
  let ins := (sp.rowIns ++ sp.colIns).map (fun o => s.resolve c o .src dataFmts)
    ++ sp.statIns.map (fun o => s.resolve c o .src [.fp32] optStat)
  let outs := s.resolve c sp.rowOut .dst dataFmts :: sp.statOuts.map (fun o => s.resolve c o .dst [.fp32])
    ++ sp.grads.map (fun o => s.resolve c o .dst [.fp32] slotOnly)
  let rs := ins ++ outs
  let ref := opAt rs 0
  let n := (ref.map (fun x => x.d.ext0)).getD 0
  let ptrs := sp.rowIns ++ sp.colIns ++ sp.statIns ++ [sp.rowOut] ++ sp.statOuts ++ sp.grads
  let eps := if c.opcode == 0x422 || c.opcode == 0x424 then [(68, 4, low 32)] else []
  let slots := c.slots.map (fun k => (k, 1, n))
  let st := Started.ofResolved rs (c.reservedRejs ptrs ((64, 4, low 28) :: eps)
    ++ need1 ref (fun x => 1 ≤ x.d.ext0 && x.d.ext0 ≤ 65536) Status.rejShape 64
    ++ (sp.rowIns.drop 1 ++ [sp.rowOut]).flatMap (fun o => need2 (opAt rs o) ref sameExtents Status.rejShape (64 + o))
    ++ (sp.colIns ++ sp.grads).flatMap (fun o => need2 (opAt rs o) ref (fun x y => x.d.count == y.d.ext0) Status.rejShape (64 + o))
    ++ (sp.statIns ++ sp.statOuts).flatMap (fun o => need2 (opAt rs o) ref (fun x y => x.d.count == y.d.rows) Status.rejShape
        (64 + o))
    ++ (if optStat then need ((c.param 8 8 == 0) == (c.param 16 8 == 0)) Status.rejShape 72 else [])
    ++ (if slotOnly then sp.grads.flatMap (fun o => need (c.param o 8 == 0) Status.rejReserved (64 + o)) else [])
    ++ (if c.opcode == 0x423 && bit ctrl 21 then need (bits ctrl 27 22 != 63) Status.rejSlot 128 else [])
    ++ (if ref.isSome then s.slotRejs c slots 128 else []))
  { st with slots := slots }

/-- What a kernel computes of one row: the row written, the row statistics written, the row's gradient contributions. -/
structure FusedRow where
  out : List Word32
  stats : List Word32 := []
  grads : List (List Word32) := []

/-- The kernels on one row (R153, R154): row inputs, column inputs, statistics, EPS. -/
def fusedRow (op : Nat) (rowIns colIns : List (List Word32)) (stats : List Word32) (eps : Word32) : FusedRow :=
  let x := rowIns.headD []
  let y := rowIns.getD 1 []
  let n := f32OfNat x.length
  let zip := fun (f : Word32 → Word32 → Word32) (a b : List Word32) => (a.zip b).map (fun p => f p.1 p.2)
  let gamma := colIns.headD []
  match op with
  | 0x420 =>
    let ml := match stats with
      | [m, l] => (m, l)
      | _ => rowStat x
    if (ofF32 ml.1).isNan || (ofF32 ml.2).isNan then { out := x.map (fun _ => nan32) }
    else if ml.1 == negInf32 && ml.2 == 0#32 then { out := x.map (fun _ => 0#32) }
    else
      let r := frecip ml.2
      { out := x.map (fun v => fmul (fexp (fsub v ml.1)) r) }
  | 0x421 =>
    let t := rowTreeSum (zip fmul x y)
    { out := zip (fun a b => fmul a (fsub b t)) x y }
  | 0x422 =>
    let mu := fdiv (rowTreeSum x) n
    let d := x.map (fun v => fsub v mu)
    let var := fdiv (rowTreeSum (d.map (fun v => fmul v v))) n
    let rho := frsqrt (fadd var eps)
    { out := ((d.zip gamma).zip (colIns.getD 1 [])).map (fun p => ffma p.1.2 (fmul p.1.1 rho) p.2), stats := [mu, rho] }
  | 0x423 =>
    -- dy is the first row input and x the second
    let mu := stats.headD 0#32
    let rho := stats.getD 1 0#32
    let yh := y.map (fun v => fmul (fsub v mu) rho)
    let g := zip fmul x gamma
    let a := fdiv (rowTreeSum g) n
    let b := fdiv (rowTreeSum (zip fmul g yh)) n
    { out := zip (fun gj h => fmul rho (fsub (fsub gj a) (fmul h b))) g yh, grads := [zip fmul x yh, x] }
  | 0x424 =>
    let rho := frsqrt (fadd (fdiv (rowTreeSum (x.map (fun v => fmul v v))) n) eps)
    { out := zip (fun v g => fmul g (fmul v rho)) x gamma, stats := [rho] }
  | _ =>
    let rho := stats.headD 0#32
    let yh := y.map (fun v => fmul v rho)
    let g := zip fmul x gamma
    let k := fdiv (rowTreeSum (zip fmul g yh)) n
    { out := zip (fun gj h => fmul rho (fsub gj (fmul h k))) g yh, grads := [zip fmul x yh] }

/-- The sum of one column over rows: ascending within tiles of 512 rows, then the pairwise tree (R155). -/
def columnSum (xs : List Word32) : Word32 :=
  treeSum ((chunks 512 xs).map (fun t => t.tail.foldl fadd (t.headD 0#32)))

/-! ## Tiles in cluster buffers (R156) -/

/-- The cluster whose buffer holds element (i, row) of a tile: that of the band of the producer's output row (R88). -/
def BufTile.holder (t : BufTile) (i row : Nat) : Nat :=
  bandCluster t.clusters (match t.kind with
    | .plain => row
    | .turned => i
    | .stat => row * t.d.ext0 + i)

/-- The tile that an operand reads, where a dependency of the command drained it. -/
def State.tileOf (s : State) (c : Cmd) (o : Operand) : Option BufTile :=
  if o.d.space != 1 then none
  else s.tiles.find? (fun t => t.ctx == c.ctx && t.owner == c.owner && c.depTags.contains t.tag
    && t.d.base == o.d.base && t.d.fmt == o.d.fmt && t.d.ext == o.d.ext && t.d.stride == o.d.stride)

/-- An element of an operand, from where it is held, else from the cluster given. -/
def Operand.heldElem (o : Operand) (m : Mem) (t : Option BufTile) (cl i row : Nat) : Elem :=
  o.elem m ((t.map (fun x => x.holder i row)).getD cl) i row

def Operand.heldLin (o : Operand) (m : Mem) (t : Option BufTile) (cl n : Nat) : Elem :=
  o.heldElem m t cl (n % o.d.ext0) (n / o.d.ext0)

/-- The blocks of an operand where they are held; row r otherwise on cluster `place r`. A block of scales is read wherever a
part of it is held. -/
def Operand.heldBlocks (o : Operand) (t : Option BufTile) (place : Nat → Nat) : List Nat :=
  if o.d.isEmpty then []
  else dedup ((List.range o.d.rows).flatMap (fun r => match t with
    | none => o.rowBlocks (place r) r
    | some x =>
      (List.range (o.d.rowBytes / 64)).map (fun g =>
          blockOf (o.loc (x.holder (g * o.d.fmt.perGroup) r) (o.d.rowOff r)) + 64 * g)
        ++ (match o.scale with
            | none => []
            | some p => (if x.kind == .plain then [x.holder 0 r] else x.clusters).flatMap (fun k =>
                (List.range (p.rowBytes / 64)).map (fun g => blockOf (o.scaleLoc k (p.rowOff r)) + 64 * g)))))

/-- The rows of a kernel, row r on cluster `place r` but where a tile holds it elsewhere, each with its poison (R156, R187). -/
def State.fusedRows (s : State) (c : Cmd) (place : Nat → Nat) (ref : Operand) : List (Nat × FusedRow × Bool) :=
  let sp := fusedSpec c.opcode
  let n := ref.d.ext0
  let held := fun (l : List Nat) => (l.filterMap (fun o => c.op? o)).map (fun o => (o, s.tileOf c o))
  let ins := held sp.rowIns
  let colIns := held sp.colIns
  let stats := held sp.statIns
  let eps := BitVec.ofNat 32 (c.param 68 4)
  (List.range ref.d.rows).map (fun r =>
    let cl := place r
    let cols := colIns.map (fun o => (List.range n).map (o.1.heldLin s.mem o.2 cl))
    let colBad := cols.any (fun l => l.any (fun e => e.poison))
    let xs := ins.map (fun o => (List.range o.1.d.ext0).map (fun i => o.1.heldElem s.mem o.2 cl i r))
    let ss := stats.map (fun o => o.1.heldLin s.mem o.2 cl r)
    (r, fusedRow c.opcode (xs.map (fun l => l.map Elem.widen)) (cols.map (fun l => l.map Elem.widen))
        (ss.map Elem.f32) eps,
      colBad || xs.any (fun l => l.any (fun e => e.poison)) || ss.any (fun e => e.poison)))

/-- One vector of FP32 results written (R155, R541). -/
def vecWrite (o : Operand) (cl : Nat) (l : List Elem) : Effect :=
  let nf := (l.filter (fun e => e.val.nonFinite)).length
  { writes := (enumFrom 0 l).map (fun p => o.writeLin cl p.1 p.2.f32 p.2.poison)
    ctrs := [(.nonfiniteVec, nf)] }

/-- The gradient vectors of a kernel: poisoned where any contributing row is (R187). -/
def fusedGrads (n k : Nat) (rows : List (Nat × FusedRow × Bool)) : List (List Elem) :=
  let bad := rows.any (fun r => r.2.2)
  (List.range k).map (fun g => (List.range n).map (fun j =>
    Elem.ofF32 (columnSum (rows.map (fun r => ((r.2.1.grads.getD g []).getD j 0#32)))) bad))

/-- A vector of gradients written: once in module memory, in the buffer of every target otherwise (R170). -/
def gradWrite (c : Cmd) (o : Operand) (l : List Elem) : Effect :=
  let ts := targetClusters c.target
  ((if o.d.space == 1 then ts else ts.take 1).map (fun cl => vecWrite o cl l)).foldl Effect.append {}

/-- The gradients written, contributed to slots, or contributed and drained (R155). A drained slot goes through the
drain, which counts NONFINITE_DENSE (R101). -/
def State.fusedGradEffect (s : State) (c : Cmd) (grads : List (List Elem)) : Effect :=
  let sp := fusedSpec c.opcode
  let each := (sp.grads.zip grads).zip (c.slots.map some ++ sp.grads.map (fun _ => none))
  (each.map (fun e =>
    let off := e.1.1
    let v := e.1.2
    match e.2 with
    | none => match c.op? off with
      | some o => gradWrite c o v
      | none => {}
    | some k =>
      if c.slotDrain then
        let sum := match s.slot? c.ctx k with
          | some t => (t.plus [v]).flatten
          | none => v
        match c.op? off with
        | some o =>
          let w := gradWrite c o sum
          { w with closes := [k], ctrs := w.ctrs ++ [(.nonfiniteDense, (sum.filter (fun x => x.val.nonFinite)).length)] }
        | none => { closes := [k] }
      else { slots := [slotAdd k [v]] })).foldl Effect.append {}

def State.fusedEffect (s : State) (c : Cmd) : Effect :=
  let sp := fusedSpec c.opcode
  match c.op? 0, c.op? sp.rowOut with
  | some ref, some out =>
    let ts := targetClusters c.target
    let bands := bandCluster ts
    -- rows of a result in module memory are computed once, each on the target of its band; a result in cluster buffers is
    -- computed whole on every target (log entry 13)
    let runs : List (Nat × (Nat → Nat)) :=
      if out.d.space == 1 then ts.map (fun k => (k, fun _ => k)) else [(ts.headD 0, bands)]
    let body := (runs.map (fun (x : Nat × (Nat → Nat)) =>
      let cl := x.1
      let rows := s.fusedRows c x.2 ref
      let main := vecOut out cl .auto (c.rounding (bit (c.param 64 4) 0) (bits (c.param 64 4) 20 1))
        (rows.map (fun r => (r.1, r.2.1.out.map (fun w => Elem.ofF32 w r.2.2))))
      let stats := (enumFrom 0 sp.statOuts).map (fun p => match c.op? p.2 with
        | some o => vecWrite o cl (rows.map (fun r => Elem.ofF32 (r.2.1.stats.getD p.1 0#32) r.2.2))
        | none => {})
      let ins := (sp.rowIns ++ sp.colIns ++ sp.statIns).filterMap (fun o => c.op? o)
      { (stats.foldl Effect.append main) with
        poisonIn := poisonedOf s.mem (ins.flatMap (fun o => o.heldBlocks (s.tileOf c o) x.2)) })).foldl Effect.append {}
    body.append (s.fusedGradEffect c (fusedGrads ref.d.ext0 sp.grads.length (s.fusedRows c bands ref)))
  | _, _ => {}

/-- FUSED_SOFTMAX_FWD (R153). -/
def execFusedSoftmaxFwd (id : Nat) (s : State) : Host.Outcome State Fault Refusal :=
  .next (s.runOp id 0x420 State.fusedEffect)

/-- FUSED_SOFTMAX_BWD (R153). -/
def execFusedSoftmaxBwd (id : Nat) (s : State) : Host.Outcome State Fault Refusal :=
  .next (s.runOp id 0x421 State.fusedEffect)

/-- FUSED_LAYERNORM_FWD (R154). -/
def execFusedLayernormFwd (id : Nat) (s : State) : Host.Outcome State Fault Refusal :=
  .next (s.runOp id 0x422 State.fusedEffect)

/-- FUSED_LAYERNORM_BWD (R154). -/
def execFusedLayernormBwd (id : Nat) (s : State) : Host.Outcome State Fault Refusal :=
  .next (s.runOp id 0x423 State.fusedEffect)

/-- FUSED_RMSNORM_FWD (R154). -/
def execFusedRmsnormFwd (id : Nat) (s : State) : Host.Outcome State Fault Refusal :=
  .next (s.runOp id 0x424 State.fusedEffect)

/-- FUSED_RMSNORM_BWD (R154). -/
def execFusedRmsnormBwd (id : Nat) (s : State) : Host.Outcome State Fault Refusal :=
  .next (s.runOp id 0x425 State.fusedEffect)

end Sys2Proof.Machine
end

