-- ==== Sys2Proof/Machine/Opt.lean ====
section
/-! DEFINITION. OPT_UPDATE (spec/08_memory_tiers.md, R213 to R221; R246, R410). -/

namespace Sys2Proof.Machine

/-! ## Parameters -/

def Cmd.optCtrl (c : Cmd) : Nat := c.param 80 4
def Cmd.optAlgo (c : Cmd) : Nat := bits c.optCtrl 1 0
def Cmd.optRefresh (c : Cmd) : Bool := bit c.optCtrl 2
def Cmd.optScalar (c : Cmd) (k : Nat) : Word32 := BitVec.ofNat 32 (c.param (56 + 4 * k) 4)
def Cmd.optState (c : Cmd) : Nat := c.param 40 8
def Cmd.optVerdict (c : Cmd) : Nat := c.param 48 8

/-! The verdict record and the STATE record, as they were read when the command started (R213, R219, R392): 128 bytes, 64
bytes, and a byte that says which of the three blocks was poisoned. -/

def Cmd.verdictRec (c : Cmd) : List Byte := c.held.take 128
def Cmd.stateRec (c : Cmd) : List Byte := (c.held.drop 128).take 64
def Cmd.recPoison (c : Cmd) (k : Nat) : Bool := bit (leNat (c.held.drop 192)) k

def State.optRecords (s : State) (c : Cmd) : List Byte :=
  s.mem.bytes c.optVerdict 128 ++ s.mem.bytes c.optState 64
    ++ natLe 1 (flagAt (s.mem.poisoned c.optVerdict) 0 + flagAt (s.mem.poisoned (c.optVerdict + 64)) 1
      + flagAt (s.mem.poisoned c.optState) 2)

/-! ## Checks at start (R214, R245, R540) -/

/-- Channel of a range that lies wholly in the present window of one channel. -/
def State.oneChannel (s : State) (a n : Nat) : Option Nat :=
  match ddrChannel a with
  | some ch => if n != 0 && a + n ≤ ddrBase ch + (vget s.memside.ddr ch {}).gib * 2 ^ 30 then some ch else none
  | none => none

/-- The channel whose UPU runs an OPT_UPDATE: the window of MASTER. -/
def Cmd.optChannel (c : Cmd) : Option Nat := (c.op? 0).bind (fun o => ddrChannel o.d.base)

/-- Ranges that an operand covers in module memory. -/
def optRanges (o : Option Operand) : List (Nat × Nat) :=
  match o with
  | some x => (x.ranges.filter (fun r => r.2 != 0))
  | none => []

def State.optStart (s : State) (c : Cmd) : Started :=
  let ref := c.optRefresh
  let adam := c.optAlgo == 0
  let rs := [s.resolve c 0 (if ref then .src else .dst) [.fp32], s.resolve c 8 .dst [.fp32],
    s.resolve c 24 .src [.fp32, .bf16], s.resolve c 32 .dst [.l4, .l8, .e4m3, .e5m2, .bf16] true]
    ++ (if adam then [s.resolve c 16 .dst [.fp32]] else [])
  let master := opAt rs 0
  let st := c.optState
  let vd := c.optVerdict
  let both := fun (o : Option Operand) (aux : Nat) => need1 o (fun x => x.d.space != 0 || x.d.isEmpty
    || s.allows c.ctx x.d.base x.d.spanBytes true true) Status.rejRegion aux
  let mine := fun (a n : Nat) => match master with
    | some m => s.oneChannel a n == ddrChannel m.d.base && (s.oneChannel a n).isSome
    | none => true
  let ddr := fun (off : Nat) => need1 (opAt rs off) (fun x => x.d.space == 0 && (x.d.isEmpty || mine x.d.base x.d.spanBytes))
    Status.rejLayout (64 + off)
  let hbm := fun (off : Nat) => need1 (opAt rs off) (fun x => x.d.space == 0
    && x.ranges.all (fun r => r.1 + r.2 ≤ hbmBytes)) Status.rejLayout (64 + off)
  let parts := [0, 8, 16, 24, 32].map (fun o => (o, optRanges (opAt rs o)))
    ++ [(40, [(bits st 51 0, 64)]), (48, [(bits vd 51 0, 128)])]
  let st' := Started.ofResolved rs
    (c.reservedRejs [0, 8, 16, 24, 32] ([(40, 8, low 52), (48, 8, low 52), (80, 4, low 24)]
        ++ (List.range 6).map (fun k => (56 + 4 * k, 4, low 32)))
      ++ need (c.optAlgo != 3) Status.rejReserved 144
      ++ [8, 16, 24, 32].flatMap (fun o => need2 master (opAt rs o) (fun x y => (List.range 6).all (fun d => x.d.extent d == y.d.extent d))
          Status.rejShape (64 + o))
      ++ ddr 0 ++ ddr 8 ++ ddr 16 ++ hbm 24 ++ hbm 32
      ++ (if ref then [] else both master 64 ++ both (opAt rs 8) 72 ++ both (opAt rs 16) 80)
      ++ need (st % 64 == 0) Status.rejAlign 104
      ++ need (mine st 64) Status.rejLayout 104
      ++ need (s.allows c.ctx st 64 true true && !s.hitsImage st 64) Status.rejRegion 104
      ++ need (vd % 128 == 0) Status.rejAlign 112
      ++ need (vd + 128 ≤ hbmBytes) Status.rejLayout 112
      ++ need (s.allows c.ctx vd 128 true false) Status.rejRegion 112
      ++ parts.flatMap (fun p => need (!(parts.any (fun q => p.1 < q.1
          && p.2.any (fun x => q.2.any (fun y => rangesMeet x.1 x.2 y.1 y.2))))) Status.rejOverlap (64 + p.1)))
  { st' with held := if ref then [] else s.optRecords c }

/-! ## The update (R215) -/

/-- Step constants. -/
structure OptConst where
  t : Nat
  p1 : Word32
  p2 : Word32
  a1 : Word32
  a2 : Word32
  inv1 : Word32
  inv2 : Word32
  gs : Word32
  lr : Word32
  b1 : Word32
  b2 : Word32
  eps : Word32
  lam : Word32

/-- +1, -1, 0 for a zero, NaN for NaN. -/
def signOf (x : Word32) : Word32 :=
  match ofF32 x with
  | .nan => 0x7FC00000#32
  | v => if v.isZero then 0#32 else if v.sign then 0xBF800000#32 else f32One

/-- One element: new master, first and second moment. -/
def optElem (algo : Nat) (k : OptConst) (w m v grad : Word32) : Word32 × Word32 × Word32 :=
  match algo with
  | 0 =>
    let g := fmul grad k.gs
    let m := ffma k.b1 m (fmul k.a1 g)
    let v := ffma k.b2 v (fmul k.a2 (fmul g g))
    let d := fadd (fsqrt (fmul v k.inv2)) k.eps
    let u := fdiv (fmul m k.inv1) d
    (fsub w (fmul k.lr (ffma k.lam w u)), m, v)
  | 1 =>
    let g := ffma k.lam w (fmul grad k.gs)
    let m := ffma k.b1 m g
    (fsub w (fmul k.lr m), m, v)
  | _ =>
    let g := fmul grad k.gs
    let c := ffma k.b1 m (fmul k.a1 g)
    let s := signOf c
    let m := ffma k.b2 m (fmul k.a2 g)
    (fsub w (fmul k.lr (ffma k.lam w s)), m, v)

/-- The step constants of a command from its STATE record and the record's GS. -/
def Cmd.optConst (c : Cmd) (state : List Byte) (gsRec : Word32) : OptConst :=
  let b1 := c.optScalar 1
  let b2 := c.optScalar 2
  let p1 := fmul (BitVec.ofNat 32 (fieldAt state 4 4)) b1
  let p2 := fmul (BitVec.ofNat 32 (fieldAt state 8 4)) b2
  { t := (fieldAt state 0 4 + 1) % 2 ^ 32, p1 := p1, p2 := p2, a1 := fsub f32One b1, a2 := fsub f32One b2
    inv1 := frecip (fsub f32One p1), inv2 := frecip (fsub f32One p2)
    gs := if c.param 76 4 == 0 then gsRec else c.optScalar 5
    lr := c.optScalar 0, b1 := b1, b2 := b2, eps := c.optScalar 3, lam := c.optScalar 4 }

/-! ## Parts of an update (R217, R220)

A command updates its masters in units of 128 elements along the innermost dimension: whole blocks of every operand, and
whole blocks of 32 for the scales of WCOPY. A unit waits while a save still has to send a block that it reads. -/

/-- A stretch of elements of a row: row, first element, elements. -/
abbrev OptSeg := Nat × Nat × Nat

/-- Units in a row. -/
def optPer (d : Desc) : Nat := ceilDiv d.ext0 128

/-- Has a save still to send a byte of a range? -/
def State.unsent (s : State) (a n : Nat) : Bool := s.save.unsent.any (fun u => rangesMeet u.1 u.2 a n)

/-- Does a save hold unit g of a row in one of the operands? -/
def State.unitHeld (s : State) (os : List Operand) (row g : Nat) : Bool :=
  os.any (fun o => s.unsent (o.d.base + o.d.rowOff row + 16 * o.d.fmt.width * g) (16 * o.d.fmt.width))

/-- The units that are not updated yet and that no save holds. -/
def State.readyUnits (s : State) (c : Cmd) (d : Desc) (os : List Operand) : List Nat :=
  (List.range (d.rows * optPer d)).filter (fun u =>
    !c.units.contains u && !s.unitHeld os (u / optPer d) (u % optPer d))

/-- The stretches of some units: a row whose units are all there is one stretch. -/
def optSegs (d : Desc) (us : List Nat) : List OptSeg :=
  let per := optPer d
  (List.range d.rows).flatMap (fun r =>
    let mine := us.filter (fun u => u / per == r)
    if mine.length == per then [(r, 0, d.ext0)] else mine.map (fun u => (r, 128 * (u % per), min 128 (d.ext0 - 128 * (u % per)))))

/-- The writes of a stretch of a row. -/
def Operand.segWrites (o : Operand) (g : OptSeg) (es : List OutElem) : List BlockWr :=
  if g.2.2 == o.d.ext0 then o.rowWrites 0 g.1 false es else o.partWrites 0 g.1 g.2.1 es

/-- WCOPY written from stretches of masters (R217). -/
def Cmd.wcopyWrites (c : Cmd) (segs : List (OptSeg × List Elem)) : List BlockWr :=
  match c.op? 32 with
  | none => []
  | some w => segs.flatMap (fun x => w.segWrites x.1 (convertRow w.d.fmt w.scale.isSome .auto
      (c.rounding (bit c.optCtrl 3) (bits c.optCtrl 23 4)) (x.1.1 * w.d.ext0 + x.1.2.1) x.2))

/-- Refresh: WCOPY from the stored masters, nothing else (R213). -/
def State.refreshEffect (s : State) (c : Cmd) (master : Operand) : Effect :=
  { writes := c.wcopyWrites ((List.range master.d.rows).map (fun r => ((r, 0, master.d.ext0), master.row s.mem 0 r)))
    poisonIn := poisonIn s.mem 0 [some master] }

/-- A new element: master, first and second moment, each with the poison of what entered it (R187, R221). -/
structure OptOut where
  w : Word32 × Bool
  m : Word32 × Bool
  v : Word32 × Bool

/-- The update of one element; `bad` says that the STATE record is poisoned, which only AdamW's masters rest on. -/
def optOut (algo : Nat) (k : OptConst) (bad : Bool) (w m : Elem) (v : Option Elem) (g : Elem) : OptOut :=
  let out := optElem algo k w.f32 m.f32 ((v.map Elem.f32).getD 0#32) g.widen
  let vb := (v.map Elem.poison).getD false
  match algo with
  | 0 => { w := (out.1, bad || w.poison || m.poison || vb || g.poison), m := (out.2.1, m.poison || g.poison)
           v := (out.2.2, vb || g.poison) }
  | 1 => { w := (out.1, w.poison || m.poison || g.poison), m := (out.2.1, w.poison || m.poison || g.poison), v := (out.2.2, vb) }
  | _ => { w := (out.1, w.poison || m.poison || g.poison), m := (out.2.1, m.poison || g.poison), v := (out.2.2, vb) }

/-- The blocks of a stretch of an operand. -/
def Operand.segBlocks (o : Operand) (g : OptSeg) : List Nat :=
  let a := o.d.base + o.d.rowOff g.1 + g.2.1 * o.d.fmt.width / 8
  (List.range (ceilDiv (g.2.2 * o.d.fmt.width) 512)).map (fun i => a + 64 * i)

/-- Update of every element of some units, then, with the last of them, the STATE record (R215 to R217). -/
def State.updateEffect (s : State) (c : Cmd) (us : List Nat) (master mom1 grad : Operand) (mom2 : Option Operand) : Effect :=
  let k := c.optConst c.stateRec (BitVec.ofNat 32 (fieldAt c.verdictRec 68 4))
  let bad := c.recPoison 2
  let segs : List (OptSeg × List OptOut) := (optSegs master.d us).map (fun g => (g, (List.range g.2.2).map (fun j =>
    let i := g.2.1 + j
    optOut c.optAlgo k bad (master.elem s.mem 0 i g.1) (mom1.elem s.mem 0 i g.1)
      (mom2.map (fun o => o.elem s.mem 0 i g.1)) (grad.elem s.mem 0 i g.1))))
  let put := fun (o : Operand) (pick : OptOut → Word32 × Bool) => segs.flatMap (fun x =>
    o.segWrites x.1 (x.2.map (fun e => { code := (pick e).1.toNat, scale := 127, poison := (pick e).2 })))
  let masters := segs.map (fun x => (x.1, x.2.map (fun e => Elem.ofF32 e.w.1 e.w.2)))
  let nf := (masters.map (fun x => (x.2.filter (fun e => e.val.nonFinite)).length)).sum
  let uncounted := fun (l : List BlockWr) => l.map (fun b => { b with vec := false })
  let all := c.units.length + us.length == master.d.rows * optPer master.d
  { writes := put master OptOut.w ++ uncounted (put mom1 OptOut.m)
      ++ (match mom2 with | some o => uncounted (put o OptOut.v) | none => []) ++ uncounted (c.wcopyWrites masters)
    finals := if all then
        [BlockWr.full c.optState (natLe 4 k.t ++ natLe 4 k.p1.toNat ++ natLe 4 k.p2.toNat ++ natLe 52 0) bad false]
      else []
    ctrs := [(.nonfiniteVec, nf)]
    poisonIn := (if c.units.isEmpty then ((List.range 3).filter c.recPoison).length else 0)
      + poisonedOf s.mem (segs.flatMap (fun x => master.segBlocks x.1 ++ mom1.segBlocks x.1 ++ grad.segBlocks x.1
        ++ (match mom2 with | some o => o.segBlocks x.1 | none => [])))
    count := (segs.map (fun x => x.2.length)).sum }

/-- Does the verdict record serve the command (R246)? A poisoned record does not. -/
def Cmd.verdictOk (c : Cmd) : Bool :=
  let w := fieldAt c.verdictRec 0 8
  bit w 0 && !c.recPoison 0 && !c.recPoison 1
    && (match c.step? with
        | some n => bits w 63 32 == n.toNat
        | none => true)

/-- Does the verdict record mark a no-ball step (R219)? -/
def Cmd.noBall (c : Cmd) : Bool := bit (fieldAt c.verdictRec 0 8) 1

/-- The operands that an update reads element by element. -/
def Cmd.optReads (c : Cmd) : List Operand := [0, 8, 16, 24].filterMap (fun o => c.op? o)

/-- Bytes 12 to 63 of the STATE record must be 0 (R213); a poisoned record shows nothing. -/
def Cmd.optStateOk (c : Cmd) : Bool := c.recPoison 2 || (c.stateRec.drop 12).all (· == 0#8)

/-- The units of an update that can go on now: none while a save holds the STATE record. -/
def State.optUnits (s : State) (c : Cmd) : List Nat :=
  match c.op? 0 with
  | some m => if s.unsent c.optState 64 then [] else s.readyUnits c m.d c.optReads
  | none => []

/-- What the command does with some of its units. -/
def State.optEffect (s : State) (c : Cmd) (us : List Nat) : Effect :=
  match c.op? 0 with
  | none => {}
  | some master =>
    if c.optRefresh then s.refreshEffect c master
    else if c.noBall then {}
    else match c.op? 8, c.op? 24 with
      | some mom1, some grad => s.updateEffect c us master mom1 grad (c.op? 16)
      | _, _ => {}

/-- An update goes on with some units: it stops at its POISON_LIMIT, ends with its last unit, or waits for the save, or for the
retry of a block that it writes (R398). -/
def State.optOn (s : State) (c : Cmd) (us : List Nat) : State :=
  let e := s.optEffect c us
  let total := ((c.op? 0).map (fun m => m.d.rows * optPer m.d)).getD 0
  if (us.isEmpty && c.units.length != total) || s.retryBlocks e then s
  else if e.overLimit c then s.stopPoison c e
  else
    let k := { c.part with
      count := c.part.count + e.count, poisonIn := c.part.poisonIn + e.poisonIn, poisonOut := c.part.poisonOut + e.poisonOut
      poison := c.part.poison || e.poisonIn != 0 }
    let s := s.landEffect c e
    if c.units.length + us.length == total then s.finish c.id k
    else s.modCmd c.id (fun x => { x with part := k, units := x.units ++ us })

/-- VERDICT is read before anything else (R219). A STATE record that breaks R213 rejects the command, which has read no
element (R9; the status is a DESIGN CHOICE, log entry 34). -/
def State.doOptUpdate (s : State) (id : Nat) : State :=
  match s.running? id 0x630 with
  | none => s
  | some c =>
    if c.optRefresh then s.perform c (s.optEffect c [])
    else if c.units.isEmpty && !c.verdictOk then s.finish id { status := Status.fltVerdict }
    else if c.units.isEmpty && c.noBall then s.perform c {}
    else if s.unsent c.optState 64 then s
    else if c.units.isEmpty && !c.optStateOk then s.finish id (rejCompl Status.rejReserved 104)
    else s.optOn c (s.optUnits c)

/-- OPT_UPDATE (R215). -/
def execOptUpdate (id : Nat) (s : State) : Host.Outcome State Fault Refusal := .next (s.doOptUpdate id)

end Sys2Proof.Machine
end

