-- ==== Sys2Proof/Machine/FabMgmt.lean ====
section
/-! DEFINITION. The fabric's ports and management: FAB_EN, heartbeats, the rows of the management packets, rosters, captains
and reorientations (R287 to R292, R302, R305 to R312, R327 to R330). Choices that the manual leaves open are in log
entry 20. -/

namespace Sys2Proof.Machine

/-! ## Sending management messages (R302, R309) -/

/-- The links of a management packet from the Referee on H0 to a port (R17). -/
def mgmtLinks (n : Nat) : List (Nat × Nat) := hubRoute 4 (portHub n) (n % 4)

/-- One management packet on one port, which keeps it until a later one of the same type and origin. The dies on its way wake
for it (R476); it never reaches a port behind a link that is lost (R495) or a die that cannot wake (R481). -/
def State.sendMgmt (s : State) (n : Nat) (t : PktType) (m : Mgmt) : State :=
  let s := s.touchAll (linkDomains (mgmtLinks n))
  if !s.linksOpen (mgmtLinks n) then s
  else (s.sendFab (.mgmt n t m)).modFabric (fun f => { f with
    resend := f.resend.filter (fun (x : Nat × PktType × Mgmt) =>
      !(x.1 == n && x.2.1 == t && x.2.2.origin == m.origin && (x.2.2.seq != m.seq || x.2.2.part == m.part))) ++ [(n, t, m)] })

/-- The ports that are up. -/
def State.upPorts (s : State) : List Nat := (List.range 48).filter (fun n => (s.port n).state == .up)

/-- One part forwarded on every up port but the one it arrived on, and remembered. -/
def State.flood (s : State) (t : PktType) (m : Mgmt) (skip : Option Nat) : State :=
  let s := s.modFabric (fun f => { f with forwarded := (t, m.origin, m.seq, m.part) :: f.forwarded })
  (s.upPorts.filter (fun n => skip != some n)).foldl (fun (s : State) n => s.sendMgmt n t m) s

/-- A message of this module, in parts of up to 4,080 bytes. -/
def State.originate (s : State) (t : PktType) (seq target : Nat) (payload : List Byte) : State :=
  let parts := if payload.isEmpty then [[]] else chunks 4080 payload
  (enumFrom 0 parts).foldl (fun (s : State) (p : Nat × List Byte) =>
    s.flood t { last := p.1 + 1 == parts.length, part := p.1, seq := seq, target := target, origin := s.moduleId
                payload := p.2 } none) s

/-- HELLO (R305, R310) on one port. -/
def State.sendHello (s : State) (n : Nat) : State :=
  s.sendMgmt n .hello
    { seq := s.fabric.roster.epoch, origin := s.moduleId
      payload := natLe 8 (s.moduleId + at' n 12 + at' s.fabric.captain 18 + at' s.fabric.level 30
        + flagAt s.isMember 42) }

/-- The ports whose neighbour is a present member of a roster: port, neighbour, its port. -/
def State.memberPorts (s : State) (r : Roster) : List (Nat × Nat × Nat) :=
  (s.upPorts.filter (fun n => (s.port n).heard && r.isPresent (s.port n).nbrId && !(s.port n).clash)).map
    (fun n => (n, (s.port n).nbrId, (s.port n).nbrPort))

/-- A new request number (R309). -/
def State.nextRequest (s : State) : State := s.modFabric (fun f => { f with request := (f.request + 1) % 2 ^ 32 })

/-- JOIN (R306, R310) to a captain, with the neighbours that are members: port, neighbour, its port, its level. -/
def State.sendJoin (s : State) (captain : Nat) (nbrs : List (Nat × Nat × Nat × Nat)) : State :=
  let s := s.nextRequest
  s.originate .join s.fabric.request captain
    (nbrs.flatMap (fun (x : Nat × Nat × Nat × Nat) =>
      natLe 8 (x.2.1 + at' x.1 12 + at' x.2.2.1 18 + at' x.2.2.2 24)))

/-- JOIN after a roster that does not list this module. -/
def State.joinRoster (s : State) (r : Roster) : State :=
  s.sendJoin r.captain ((s.memberPorts r).map (fun (x : Nat × Nat × Nat) => (x.1, x.2.1, x.2.2, r.levelOf x.2.1)))

/-- JOIN after HELLO packets of members. -/
def State.joinHeard (s : State) (captain : Nat) : State :=
  s.sendJoin captain ((s.upPorts.filter (fun n => (s.port n).heard && (s.port n).nbrMember)).map (fun n =>
    let p := s.port n
    (n, p.nbrId, p.nbrPort, p.nbrLevel)))

/-! ## Taking a roster (R306, R312, R335, R347, R349) -/

/-- What the other present members have registered, as the captain gathers it through the Referees (R334): free sections, of
which only the blocks count that name a present member other than this module as owner. No packet of R310 carries a
registration, so that a fabric of this module alone gathers nothing (log entry 20). -/
def State.gathered (s : State) (r : Roster) : List TensorSec :=
  if r.presentIds.any (fun m => m != s.moduleId) then
    (Config.gathered s.free).map (fun (x : Nat × Nat × List Nat) =>
      { group := x.1 % 65536, tensor := x.2.1 % 65536
        blocks := x.2.2.map (fun w =>
          let b := BlockOwner.ofWord w
          if b.owner != s.moduleId && r.isPresent b.owner then b else {}) : TensorSec })
  else []

/-- Does this module hold a global block as a primary or a mirror piece? -/
def State.holdsBlock (s : State) (g t b : Nat) (mirror : Bool) : Bool :=
  s.keeper.pieces.any (fun p => p.group == g && p.tensor == t && p.mirror == mirror && (p.offset / 2 ^ 20 ≤ b
    && b < (p.offset + p.len) / 2 ^ 20))

/-- The block-owner entry that a captain publishes for a global block (R334): its own registration first, then what it has
gathered, then the last roster's entry, which stays in particular while the owner is absent, whose mirror this module goes on
to hold. KEPT says that the keeper holds a
mirror: whether the partner has registered one of this module's block is gathered too. -/
def State.blockEntry (s : State) (r : Roster) (gathered : List TensorSec) (g t b : Nat) : BlockOwner :=
  let of := fun (l : List TensorSec) => (l.find? (fun x => x.group == g && x.tensor == t && (x.blocks.getD b {}).valid)).map
    (fun x => x.blocks.getD b {})
  let partner := s.keeper.partner.getD 0
  if s.holdsBlock g t b false then
    { valid := true, owner := s.moduleId, keeper := partner
      kept := s.keeper.standing && Config.freeBit (s.free + 1 + g + 2 ^ 16 * t + 2 ^ 32 * b) }
  else
    let e := ((of gathered).or (of r.tensors)).getD {}
    if e.valid && s.keeper.standing && e.owner == partner then
      { e with kept := s.holdsBlock g t b true, keeper := s.moduleId }
    else if e.keeper == s.moduleId then
      { e with kept := e.kept && !r.isPresent e.owner && s.holdsBlock g t b true }
    else e

/-- The sections that a captain publishes. -/
def State.sections (s : State) (r : Roster) : List TensorSec :=
  let new := s.gathered r
  let own := s.keeper.pieces.map (fun p => { group := p.group, tensor := p.tensor
                                             blocks := List.replicate ((p.offset + p.len) / 2 ^ 20) {} : TensorSec })
  let all := r.tensors ++ new ++ own
  let keys := sortBy (fun (a b : Nat × Nat) => a.1 < b.1 || (a.1 == b.1 && a.2 < b.2))
    (dedup (all.map (fun x => (x.group, x.tensor))))
  keys.map (fun k =>
    let n := (all.filter (fun x => x.group == k.1 && x.tensor == k.2)).foldl (fun m x => max m x.blocks.length) 0
    { group := k.1, tensor := k.2, blocks := (List.range n).map (s.blockEntry r new k.1 k.2) })

/-- The roster with the sections that a captain publishes; what it gathers is a free choice of its own. -/
def State.withSections (s : State) (r : Roster) : Roster × State :=
  ({ r with tensors := s.sections r }, { s with free := s.free + 1 + 2 ^ 64 })

/-- Do two modules' feed IDs count as equal (R336)? -/
def feedsEqual (a b : Nat) : Bool := a == 0 || b == 0 || a == b

/-- Does a block name the two modules as owner and keeper? -/
def BlockOwner.joins (a b : Nat) (x : BlockOwner) : Bool :=
  x.valid && x.kept && ((x.owner == a && x.keeper == b) || (x.owner == b && x.keeper == a))

/-- No pair, wanted or standing. -/
def Keeper.part (k : Keeper) : Keeper :=
  { k with want := none, partner := none, standing := false, forced := false, unpair := false }

/-- Does a new roster no longer show a block of the pair as kept that the last one showed so? -/
def Roster.parts (old new : Roster) (a b : Nat) : Bool :=
  new.tensors.any (fun t => (enumFrom 0 t.blocks).any (fun (x : Nat × BlockOwner) =>
    x.2.valid && !x.2.joins a b && (old.block t.group t.tensor x.1).joins a b))

/-- The keeper pair in a new epoch (R335, R336, R376). A pairing that this module has asked for stands from an epoch that lists
both commands; no field of a roster but KEPT shows them, so that it is a free choice in an epoch that shows no block of the
pair as kept. That the partner has asked to part shows in KEPT too; a captain, which gathers it, makes a free choice of it. The
partner's feed ID, which may have changed, is a free number in each epoch. A pair whose feed IDs are equal counts as one of a
shared feed for as long as it stands, and sets PAIR_SAME_FEED in each epoch (R355). -/
def State.settlePair (s : State) (old r : Roster) (mine : Bool) : State :=
  let k := s.keeper
  let k := if k.want.map (·.1) == k.partner then k else { k with standing := false, forced := false }
  if k.unpair then s.modKeeper Keeper.part
  else match k.want with
    | none => s
    | some (p, _) =>
      if !r.isPresent p then s.modKeeper Keeper.part
      else
        let shown := (r.tensors.flatMap (fun t => t.blocks)).any (BlockOwner.joins s.moduleId p)
        let b := if mine && k.standing then s.freeBit else (!shown && old.parts r s.moduleId p, s)
        let parted := b.1
        let f := if shown || k.standing then (!parted, b.2) else b.2.freeBit
        let s := f.2
        if f.1 then
          let n := s.freeNat
          let feed := n.1 % 65536
          let same := k.forced || feedsEqual k.feedId.toNat feed
          n.2.modKeeper (fun x => { x with
            standing := true, partner := some p, partnerFeed := feed, forced := same, sameFeed := x.sameFeed || same })
        else if parted then s.modKeeper Keeper.part
        else s.modKeeper (fun x => { x with standing := false, forced := false })

/-- Is a piece of the backlog for a module? -/
def State.isRemoteTo (s : State) (b : Nat × Nat × Nat × Nat) (m : Nat) : Bool :=
  ((s.cmd? b.1).map (fun c => if c.opcode == 0x802 then b.2.2.2 == m else c.remoteId == m)).getD false

/-- FAB_PUT and FAB_GET with a request to an absent member end (R347). -/
def State.remotesLose (s : State) (gone : List Nat) : State :=
  let ids := dedup ((s.fabric.remotes.filter (fun r => gone.contains r.dst)).map (·.id)
    ++ (s.fabric.backlog.filter (fun b => gone.any (s.isRemoteTo b))).map (·.1))
  (ids.foldl (fun (s : State) id => s.failRemote id Status.fltMemberLost) s).pumpRemotes

/-- The groups whose barrier a playbook's verdicts run. -/
def State.verdictGroups (s : State) (q : Seq) : List Nat :=
  ((s.imageEntries (q.image + 64) (q.image + q.imageBytes) q.entries).map (fun e => entryCmd 0 e.packet)).filterMap
    (fun c => if c.opcode == 0x646 then c.collGroup? else none)

/-- A running playbook whose verdict group has lost a member holds at its next step boundary (R349). -/
def State.holdLost (s : State) (gone : List Nat) : State :=
  (List.range 4).foldl (fun (s : State) n =>
    let q := s.seq n
    if q.st == .running && (s.verdictGroups q).any (fun g => match s.group? g with
        | some k => gone.any (fun m => k.members.contains m)
        | none => false)
    then s.modSeq n Seq.hold else s) s

/-- The pass table computed from a roster takes effect, and the other bank holds the one before (R312). -/
def Fabric.usePass (f : Fabric) (t : List (Nat × PassEntry)) : Fabric := { f with shadow := f.inForce, inForce := t }

/-- A port under a new roster. That its neighbour is the member of its ID shows in its HELLO or HEARTBEAT, or in the roster's
link; a module that was refused shows neither (R305, R306). -/
def Port.take (old r : Roster) (me n : Nat) (p : Port) : Port :=
  let clash := p.clash && old.isPresent p.nbrId
  let shown := p.shown || r.links.contains (mkLink me n p.nbrId p.nbrPort)
  let is := r.isPresent p.nbrId && shown && !clash
  { p with clash := clash, shown := shown, nbrMember := p.heard && is, nbrLevel := if is then r.levelOf p.nbrId else p.nbrLevel }

/-- The modules that a roster does not give as present though the last one did, or though a group of this module counts them
as present still, as after this module left a fabric for another (R318). -/
def State.leftBy (s : State) (r : Roster) : List Nat :=
  (dedup (s.fabric.roster.presentIds ++ s.fabric.groups.flatMap (fun g => g.members.filter (fun m => !g.absent.contains m)))).filter
    (fun m => !r.isPresent m && m != s.moduleId)

/-- A roster that lists this module as present comes into force here, its pair settled. -/
def State.enact (s : State) (r : Roster) : State :=
  let old := s.fabric.roster
  let me := s.moduleId
  let gone := s.leftBy r
  let before := s
  let s := s.modFabric (fun f => { f with
    roster := r, highest := max f.highest r.epoch, level := r.levelOf me, captain := r.captain
    isCaptain := r.captain == me, state := if f.state == .hold then .hold else .member, cut := []
    ports := Vector.ofFn (fun i : Fin 48 => f.ports[i.val].take old r me i.val) })
  let s := s.modFabric (fun f => { f with forwarded := f.forwarded.filter (fun x => !gone.contains x.2.1) })
  let s := if s.passSrc then s else s.modFabric (fun f => f.usePass (r.passTable me))
  let s := if gone.isEmpty then s
    else (((s.holdLost gone).remotesLose gone).groupsLose before gone).draftsLose gone
  s.flushQueue

def State.installRoster (s : State) (r : Roster) : State := (s.settlePair s.fabric.roster r false).enact r

/-- The up ports whose neighbour is a present member, with links that a roster does not list (log entry 20). -/
def State.unlisted (s : State) (r : Roster) : List (Nat × Nat × Nat) :=
  (s.memberPorts r).filter (fun (p : Nat × Nat × Nat) =>
    p.2.1 != s.moduleId && (s.port p.1).shown && !r.links.contains (mkLink s.moduleId p.1 p.2.1 p.2.2))

/-- The captain publishes the next epoch (R306), with the working links that it knows at its own ports. -/
def State.publish (s : State) (r : Roster) : State :=
  let s := s.settlePair s.fabric.roster r true
  let r := (s.unlisted r).foldl (fun (r : Roster) p => r.addLink (mkLink s.moduleId p.1 p.2.1 p.2.2)) r
  let t := s.withSections { r with epoch := s.fabric.highest + 1 }
  let s := t.2
  let r := t.1
  (s.enact r).originate .roster r.epoch 0 r.bytes

/-- The module stands outside every fabric. Pass tables that software writes stay as they are (R312). -/
def Fabric.leaveAll (f : Fabric) : Fabric :=
  { f with roster := {}, captain := 0, isCaptain := false, level := 0
           inForce := if f.passSrc then f.inForce else [], shadow := if f.passSrc then f.shadow else []
           cut := [], reorient := .none, next := none, merging := false }

/-- The module goes off: its ports go down, and nothing of the fabric is kept. -/
def State.fabOff (s : State) : State :=
  s.modFabric (fun f => { f.leaveAll with
    en := false, leaving := false, state := .off, highest := 0, forwarded := [], incoming := [], resend := [], queued := []
    ports := f.ports.map (fun (p : Port) => { p with
      state := .down, width := 0, nbrMember := false, heard := false, beat := false, missed := 0, clash := false
      shown := false }) })

/-! ## Reorientation (R308) -/

/-- Has every present member acknowledged? -/
def State.allAcked (s : State) (acks : List Nat) : Bool :=
  s.fabric.roster.presentIds.all (fun m => acks.contains m)

/-- Injection stops here. -/
def State.enterHold (s : State) : State :=
  if s.isMember then s.modFabric (fun f => { f with state := .hold, reoriented := true }) else s

/-- Injection resumes here. -/
def State.leaveHold (s : State) : State :=
  if s.fabric.state == .hold then (s.modFabric (fun f => { f with state := .member })).flushQueue else s

/-- The captain goes on once every acknowledgement is in. -/
def State.settleReorient (s : State) : State :=
  match s.fabric.reorient with
  | .holding acks => if s.allAcked acks then s.modFabric (fun f => { f with reorient := .waiting }) else s
  | .installing acks =>
    if s.allAcked acks then
      ((s.modFabric (fun f => { f with reorient := .none, next := none, merging := false })).originate .release s.fabric.roster.epoch 0 []).leaveHold
    else s
  | _ => s

/-- The captain floods HOLD. -/
def State.startReorient (s : State) : State :=
  if s.fabric.reorient != .none then s
  else
    let s := (s.enterHold).modFabric (fun f => { f with reorient := .holding [f.moduleId], next := some f.roster.relevel })
    (s.originate .hold (s.fabric.roster.epoch + 1) 0 []).settleReorient

/-- After a roster of its own a captain checks that every pair still has a legal route (R307), and goes on with a
reorientation that the roster concerns. -/
def State.afterPublish (s : State) (merge : Bool) : State :=
  if s.fabric.reorient != .none then
    (s.modFabric (fun f => { f with next := some f.roster.relevel })).settleReorient
  else if merge || !s.fabric.roster.connected then s.startReorient
  else s

/-- REORIENT_LIFETIME_WAIT. -/
def State.doInstallPhase (s : State) : State :=
  if s.fabric.reorient == .waiting then
    let s := s.settlePair s.fabric.roster s.fabric.roster true
    let t := s.withSections { s.fabric.roster.relevel with epoch := s.fabric.highest + 1 }
    let s := t.2
    let r := t.1
    let s := (s.enact r).modFabric (fun f => { f with reorient := .installing [f.moduleId] })
    (s.originate .install r.epoch 0 r.bytes).settleReorient
  else s

def execReorientLifetimeWait (s : State) : Host.Outcome State Fault Refusal := .next s.doInstallPhase

/-! ## Receiving management packets (R302, R309) -/

/-- Does a management packet on a port reach this module? -/
def State.mgmtArrives (s : State) (n : Nat) (m : Mgmt) (f : State → State) : State :=
  if !s.fabOn || (s.port n).state != .up then s
  else if 4080 < m.payload.length then s.bump .fabDiscardBad
  else f s

/-- A part joins the parts of its message; the whole payload once every part is there. -/
def State.collectPart (s : State) (t : PktType) (m : Mgmt) : State × Option (List Byte) :=
  let same := fun (x : MgmtIn) => x.type == t && x.origin == m.origin && x.seq == m.seq
  let had := ((s.fabric.incoming.find? same).map (fun (x : MgmtIn) => x.parts)).getD []
  let parts := (m.part, m.last, m.payload) :: had
  let rest := s.fabric.incoming.filter (fun x => !same x)
  let whole := (parts.find? (fun p => p.2.1)).bind (fun (l : Nat × Bool × List Byte) =>
    let ps := (List.range (l.1 + 1)).map (fun i => (parts.find? (fun p => p.1 == i)).map (fun (p : Nat × Bool × List Byte) => p.2.2))
    if ps.all Option.isSome then some (ps.flatMap (fun p => p.getD [])) else none)
  match whole with
  | some b => (s.modFabric (fun f => { f with incoming := rest }), some b)
  | none =>
    (s.modFabric (fun f => { f with incoming :=
      { type := t, origin := m.origin, seq := m.seq, parts := parts } :: rest }), none)

/-- A flooded management packet: forwarded once, and its message acted on when whole. -/
def State.mgmtIn (s : State) (n : Nat) (t : PktType) (m : Mgmt) (f : State → List Byte → State) : State :=
  s.mgmtArrives n m (fun s =>
    let epochal := t == PktType.roster || t == PktType.install
    if s.fabric.state == .refused || s.fabric.forwarded.contains (t, m.origin, m.seq, m.part)
        || (epochal && m.seq < s.fabric.highest) then s
    else
      let s := if epochal then s.modFabric (fun f => { f with highest := max f.highest m.seq }) else s
      let c := (s.flood t m (some n)).collectPart t m
      match c.2 with
      | some b => f c.1 b
      | none => c.1)

/-! ## Losses and links at the captain (R306, R307) -/

/-- 8-byte entries of a payload. -/
def words8 (b : List Byte) : List Nat := (chunks 8 b).map leNat

/-- Is every link of the captain reported lost? -/
def State.captainCut (s : State) : Bool :=
  let r := s.fabric.roster
  let ls := r.links.filter (fun l => l.touches s.fabric.captain)
  !ls.isEmpty && ls.all (fun l => s.fabric.cut.any (fun e => l.hasEnd e.1 e.2))

/-- Reported link changes are acted on by the captain, or, when the captain is lost, by the next-lowest present member. -/
def State.actOnLinks (s : State) : State :=
  let r := s.fabric.roster
  if s.fabric.isCaptain then
    let r' := r.cutLinks s.moduleId s.fabric.cut
    if r' != r then (s.publish r').afterPublish false else s
  else if s.captainCut && (r.presentIds.find? (fun m => m != s.fabric.captain)) == some s.moduleId then
    (s.publish ((r.lose s.fabric.captain).cutLinks s.moduleId s.fabric.cut)).afterPublish false
  else s

/-- The ends of a lost link at this module: a port hears its neighbour again with the next HELLO. -/
def State.unhear (s : State) (origin port : Nat) : State :=
  s.modFabric (fun f => { f with ports := Vector.ofFn (fun (i : Fin 48) =>
    let p := f.ports[i]
    if (p.nbrId == origin && p.nbrPort == port) || (origin == s.moduleId && i.val == port) then { p with heard := false }
    else p) })

/-- One entry of a LINK_REPORT: a link end lost, or a working link. One that leads to a module outside the roster tells the
captain that another fabric has met this one (log entry 20). -/
def State.takeLink (s : State) (origin w : Nat) : State :=
  let port := bits w 17 12
  if bit w 24 then
    let l := mkLink origin port (bits w 11 0) (bits w 23 18)
    let s := s.modFabric (fun f => { f with cut := f.cut.filter (fun e => !(l.hasEnd e.1 e.2)) })
    let r := s.fabric.roster
    if !s.fabric.isCaptain then s
    else if !r.isPresent (bits w 11 0) then s.modFabric (fun f => { f with merging := true })
    else if r.isPresent origin && !r.links.contains l then s.publish (r.addLink l)
    else s
  else (s.unhear origin port).modFabric (fun f => { f with
    cut := (origin, port) :: f.cut.filter (fun e => e != (origin, port)) })

/-- A LINK_REPORT from a module. -/
def State.takeLinks (s : State) (origin : Nat) (b : List Byte) : State :=
  if !s.isMember then s
  else ((words8 b).foldl (fun (s : State) w => s.takeLink origin w) s).actOnLinks

/-- This module reports a link to its captain, and takes the report in itself. -/
def State.reportLink (s : State) (n : Nat) (working : Bool) : State :=
  if !s.isMember then s
  else
    let p := s.port n
    let b := natLe 8 (p.nbrId + at' n 12 + at' p.nbrPort 18 + flagAt working 24)
    let s := s.nextRequest
    (s.originate .linkReport s.fabric.request s.fabric.captain b).takeLinks s.moduleId b

/-- Links to present members that a new roster does not list are reported to the captain (log entry 20). -/
def State.reportUnlisted (s : State) : State :=
  if s.isMember && !s.fabric.isCaptain then (s.unlisted s.fabric.roster).foldl (fun (s : State) p => s.reportLink p.1 true) s else s

/-! ## The fabric interface and its ports -/

/-- The port group of a port (R14) is not OFF or at NAP. -/
def State.portPowered (s : State) (n : Nat) : Bool :=
  let d := (s.domain (0x30 + n / 4)).st
  d == .active || d == .idle

/-- A port that can train does so. -/
def State.trainPort (s : State) (n : Nat) : State :=
  if (s.port n).cable && s.portPowered n then s.modPort n (fun p => { p with state := .training, width := 0 }) else s

def State.trainPorts (s : State) : State := (List.range 48).foldl (fun (s : State) n => s.trainPort n) s

/-- A write of FAB_CTRL with FAB_EN = 1 (R305, R327). -/
def State.doFabEnSet (s : State) (id : Nat) : State :=
  if !s.hostUp || s.fabric.en then s
  else
    let s := if s.fabric.leaving then s.fabOff else s
    (s.modFabric (fun f => { f with
      en := true, moduleId := id, state := .discovering, cfg := { f.cfg with force := f.cfg.shadow } })).trainPorts

def execFabEnSet (moduleId : BitVec 12) (s : State) : Host.Outcome State Fault Refusal :=
  .next (s.atHost (fun s => s.doFabEnSet moduleId.toNat))

/-- A captain that leaves publishes the roster without itself and is captain no longer. It keeps its ports as any other module
that leaves (R306). -/
def State.resign (s : State) : State :=
  let r := { s.fabric.roster.drop s.moduleId with epoch := s.fabric.highest + 1 }
  if r.members.isEmpty then s
  else (s.modFabric (fun f => { f with isCaptain := false, captain := r.captain, highest := r.epoch })).originate .roster r.epoch 0
    r.bytes

/-- A write of FAB_CTRL with FAB_EN = 0 (R306, R327). -/
def State.doFabEnClear (s : State) (id : Nat) : State :=
  if !s.hostUp then s
  else if !s.fabric.en then s.modFabric (fun f => { f with moduleId := id })
  else
    let s := s.modFabric (fun f => { f with en := false })
    if !s.isMember then s.fabOff
    else
      let s := (s.modFabric (fun f => { f with leaving := true })).nextRequest
      let s := s.originate .leave s.fabric.request s.fabric.captain []
      if s.fabric.isCaptain then s.resign else s

def execFabEnClear (moduleId : BitVec 12) (s : State) : Host.Outcome State Fault Refusal :=
  .next (s.atHost (fun s => s.doFabEnClear moduleId.toNat))

/-- LEAVE_TIMEOUT. -/
def execLeaveTimeout (s : State) : Host.Outcome State Fault Refusal :=
  .next (if s.fabric.leaving then s.fabOff else s)

/-- PASS_SWAP (R312, R327). -/
def State.doPassSwap (s : State) : State :=
  if s.hostUp && s.passSrc then
    (s.modFabric (fun f => { f with inForce := f.shadow, shadow := f.inForce })).flushQueue
  else s

def execPassSwap (s : State) : Host.Outcome State Fault Refusal := .next (s.atHost State.doPassSwap)

/-- FAB_PORT_UP (R288, R291, R305): a port that trained sends HELLO; after a retrain the port goes on as before. -/
def State.doPortUp (s : State) (n : Nat) (lanes4 : Bool) : State :=
  let up := fun (p : Port) => { p with state := .up, width := if lanes4 then 2 else 1, missed := 0 : Port }
  match (s.port n).state with
  | .training => if s.fabOn then ((s.modPort n up).sendHello n).flushQueue else s
  | .retraining => (s.modPort n up).flushQueue
  | _ => s

def execFabPortUp (port : Nat) (lanes4 : Bool) (s : State) : Host.Outcome State Fault Refusal :=
  .next (s.doPortUp port lanes4)

/-- FAB_PORT_DOWN (R288, R292): training that failed three times waits, a retrain that failed takes the port down, and packets
that wait look for another port. -/
def State.doPortDown (s : State) (n : Nat) : State :=
  match (s.port n).state with
  | .training => s.modPort n (fun p => { p with state := .disabled, width := 0 })
  | .retraining => (s.modPort n (fun p => { p with state := .down, width := 0 })).flushQueue
  | _ => s

def execFabPortDown (port : Nat) (s : State) : Host.Outcome State Fault Refusal := .next (s.doPortDown port)

/-- FAB_PORT_TRAINING_RETRY (R288). -/
def State.doPortRetry (s : State) (n : Nat) : State :=
  match (s.port n).state with
  | .down | .disabled => if s.fabOn then s.trainPort n else s
  | _ => s

def execFabPortTrainingRetry (port : Nat) (s : State) : Host.Outcome State Fault Refusal := .next (s.doPortRetry port)

/-- FAB_FLIT_ERROR (R291). -/
def State.doFlitError (s : State) (n : Nat) (intact : Bool) : State :=
  if (s.port n).state != .up then s
  else if intact then
    (s.bump .fabFlitRetry).modScout (fun v => { v with pend := { v.pend with retry := v.pend.retry + 1 } })
  else
    let s := ((s.bump .fabFlitLasting).bump .fabRetrain).modScout (fun v => { v with
      pend := { v.pend with flit := v.pend.flit + 2 } })
    s.modPort n (fun p => { p with state := .retraining, lasting := true, retrains := satTo 8 (p.retrains + 1) })

def execFabFlitError (port : Nat) (replayIntact : Bool) (s : State) : Host.Outcome State Fault Refusal :=
  .next (s.doFlitError port replayIntact)

/-- A cable of a fabric port connected or removed (R532). -/
def State.portCable (s : State) (n : Nat) (connected : Bool) : State :=
  let s := s.modPort n (fun p => { p with cable := connected })
  if connected then (if s.fabOn && (s.port n).state == .down then s.trainPort n else s)
  else (s.modPort n (fun p => { p with state := .down, width := 0 })).flushQueue

/-! ## HELLO and heartbeats (R305) -/

/-- The module leaves its own fabric for one whose captain has the lower ID (R306, Merging). -/
def State.mergeInto (s : State) : State :=
  s.modFabric (fun f => { f.leaveAll with state := .discovering, highest := f.highest })

/-- HELLO: the neighbour is recorded. A module that hears of a roster joins; a member reports a link that its roster does
not list; of two fabrics that meet the one with the higher captain joins the other, whose member reports the link. -/
def State.doHello (s : State) (n : Nat) (m : Mgmt) : State :=
  s.mgmtArrives n m (fun s =>
    let w := fieldAt m.payload 0 8
    let member := bit w 42
    let captain := bits w 29 18
    let s := s.modPort n (fun p => { p with
      nbrId := bits w 11 0, nbrPort := bits w 17 12, nbrCaptain := captain, nbrLevel := bits w 41 30
      nbrMember := member, nbrEpoch := m.seq, heard := true, missed := 0, shown := member
      clash := !member && s.fabric.roster.isPresent (bits w 11 0) })
    let p := s.port n
    if s.fabric.state == .discovering then (if member then s.joinHeard captain else s)
    else if !s.isMember || !member then s
    else if s.fabric.roster.isPresent p.nbrId && captain == s.fabric.captain then
      if s.fabric.roster.links.contains (mkLink s.moduleId n p.nbrId p.nbrPort) then s else s.reportLink n true
    else if captain < s.fabric.captain then s.mergeInto.joinHeard captain
    else if s.fabric.captain < captain then s.reportLink n true
    else s)

def execHello (port : Nat) (m : Mgmt) (s : State) : Host.Outcome State Fault Refusal := .next (s.doHello port m)

/-- HEARTBEAT. One of an epoch shows that its sender is a member, and the link to it is reported where no roster lists it. -/
def State.doHeartbeat (s : State) (n : Nat) (m : Mgmt) : State :=
  let p := s.port n
  let r := s.fabric.roster
  let new := p.heard && !p.shown && !p.clash && m.seq != 0 && m.origin == p.nbrId
  let is := new && r.isPresent p.nbrId
  let s := s.modPort n (fun p => { p with
    beat := true, missed := 0, shown := p.shown || new, nbrMember := p.nbrMember || is
    nbrLevel := if is then r.levelOf p.nbrId else p.nbrLevel })
  if is && !r.links.contains (mkLink s.moduleId n p.nbrId p.nbrPort) then s.reportLink n true else s

def execHeartbeat (port : Nat) (m : Mgmt) (s : State) : Host.Outcome State Fault Refusal :=
  .next (s.mgmtArrives port m (fun s => s.doHeartbeat port m))

/-- The Referee takes FAB_CFG at a heartbeat (R328). When PASS_SRC returns to 0 the computed table comes into force. -/
def State.takeFabCfg (s : State) : State :=
  let was := s.passSrc
  let s := s.modFabric (fun f => { f with cfg := { f.cfg with force := f.cfg.shadow } })
  if was && !s.passSrc && s.isMember then
    (s.modFabric (fun f => f.usePass (f.roster.passTable f.moduleId))).flushQueue
  else s

/-- Is a HEARTBEAT due on a port: is it up, or does the roster list its link (R305)? -/
def State.beatDue (s : State) (n : Nat) : Bool :=
  (s.port n).state == .up || (s.isMember && s.fabric.roster.links.any (fun l => l.hasEnd s.moduleId n))

/-- HEARTBEAT_INTERVAL: settings are taken, HEARTBEAT goes out, and ports that heard none count a miss. -/
def State.doBeat (s : State) : State :=
  if !s.fabOn then s
  else
    let s := s.takeFabCfg
    let s := s.upPorts.foldl (fun (s : State) n =>
      s.sendMgmt n .heartbeat { seq := s.fabric.roster.epoch, origin := s.moduleId }) s
    let due := fun (n : Nat) => s.beatDue n
    s.modFabric (fun f => { f with ports := Vector.ofFn (fun i : Fin 48 =>
      let p := f.ports[i.val]
      { p with beat := false, missed := if due i.val && !p.beat then p.missed + 1 else p.missed }) })

def execHeartbeatInterval (s : State) : Host.Outcome State Fault Refusal := .next s.doBeat

/-- HB_MISS as it acts (R328). -/
def State.hbMiss (s : State) : Nat := max 2 (bits s.fabric.cfg.force.toNat 31 28)

/-- HEARTBEAT_MISS: the port counts as down and the captain hears of it. -/
def State.doBeatMiss (s : State) (n : Nat) : State :=
  let p := s.port n
  if !s.fabOn || !s.beatDue n || p.missed < s.hbMiss then s
  else
    ((s.modPort n (fun p => { p with
      state := if p.state == .up then .down else p.state, width := if p.state == .up then 0 else p.width
      heard := false, nbrMember := false, missed := 0, clash := false, shown := false })).flushQueue).reportLink n false

def execHeartbeatMiss (port : Nat) (s : State) : Host.Outcome State Fault Refusal := .next (s.doBeatMiss port)

/-- FOUNDING_TIMEOUT (R306). -/
def State.doFound (s : State) : State :=
  if s.fabric.en && s.fabric.state == .discovering && s.fabric.highest == 0 then
    s.publish { members := [{ id := s.moduleId, level := 0, absent := false }] }
  else s

def execFoundingTimeout (s : State) : Host.Outcome State Fault Refusal := .next s.doFound

/-! ## JOIN, LEAVE, LINK_REPORT and ROSTER (R306) -/

/-- A captain admits a module at level 1 + the lowest of its neighbours, or refuses an ID that is in use by publishing the
next epoch unchanged. Neighbours of another fabric call for a reorientation. -/
def State.admitJoin (s : State) (origin : Nat) (entries : List Nat) : State :=
  let r := s.fabric.roster
  if r.isPresent origin then s.publish r
  else
    let es := entries.filter (fun w => r.isPresent (bits w 11 0))
    match es with
    | [] => s
    | w :: ws =>
      let lvl := ws.foldl (fun l w => min l (r.levelOf (bits w 11 0))) (r.levelOf (bits w 11 0))
      let r := es.foldl (fun (r : Roster) w => r.addLink (mkLink origin (bits w 17 12) (bits w 11 0) (bits w 23 18)))
        (r.seat origin (satTo 12 (lvl + 1)))
      let merge := s.fabric.merging || s.fabric.ports.toList.any (fun p =>
        p.heard && p.state == .up && s.fabric.captain < p.nbrCaptain && p.nbrEpoch != 0)
      (s.publish r).afterPublish merge

/-- JOIN. A member of a fabric whose captain has the higher ID leaves it for the one that the joiner names. -/
def State.doJoin (s : State) (n : Nat) (m : Mgmt) : State :=
  s.mgmtIn n .join m (fun s b =>
    if !s.isMember then s
    else if s.fabric.isCaptain && m.target == s.moduleId then s.admitJoin m.origin (words8 b)
    else if m.target < s.fabric.captain && !s.fabric.roster.isPresent m.target then s.mergeInto.joinHeard m.target
    else s)

def execJoin (port : Nat) (m : Mgmt) (s : State) : Host.Outcome State Fault Refusal := .next (s.doJoin port m)

/-- LEAVE. -/
def State.doLeave (s : State) (n : Nat) (m : Mgmt) : State :=
  s.mgmtIn n .leave m (fun s _ =>
    if s.isMember && s.fabric.isCaptain && m.target == s.moduleId && s.fabric.roster.isPresent m.origin then
      (s.publish (s.fabric.roster.drop m.origin)).afterPublish false
    else s)

def execLeave (port : Nat) (m : Mgmt) (s : State) : Host.Outcome State Fault Refusal := .next (s.doLeave port m)

/-- LINK_REPORT. -/
def execLinkReport (port : Nat) (m : Mgmt) (s : State) : Host.Outcome State Fault Refusal :=
  .next (s.mgmtIn port .linkReport m (fun s b => s.takeLinks m.origin b))

/-- Does a roster list a link of this module to a neighbour that it has heard? -/
def State.listsMe (s : State) (r : Roster) : Bool :=
  (s.memberPorts r).any (fun (p : Nat × Nat × Nat) => r.links.contains (mkLink s.moduleId p.1 p.2.1 p.2.2))

/-- A whole roster has arrived (ROSTER and INSTALL). -/
def State.takeRoster (s : State) (r : Roster) : State :=
  let me := s.moduleId
  if s.fabric.leaving && !r.isPresent me then s.fabOff
  else match s.fabric.state with
    | .discovering =>
      if !s.fabric.en then s
      else if !r.isPresent me then s.joinRoster r
      else if s.listsMe r then s.installRoster r
      else if s.fabric.request == 0 then s.joinRoster r
      else s.modFabric (fun f => { f with idConflict := true, state := .refused })
    | .member | .hold =>
      if r.isPresent me && s.fabric.roster.epoch < r.epoch then
        let s := s.installRoster r
        if s.fabric.isCaptain then s.settleReorient else s.modFabric (fun f => { f with reorient := .none, next := none })
      else if !r.isPresent me && (r.captain < s.fabric.captain || r.captain == s.fabric.captain) then
        s.mergeInto.joinRoster r
      else s
    | _ => s

/-- ROSTER. -/
def execRoster (port : Nat) (m : Mgmt) (s : State) : Host.Outcome State Fault Refusal :=
  .next (s.mgmtIn port .roster m (fun s b => (s.takeRoster (Roster.ofBytes m.seq b)).reportUnlisted))

/-! ## HOLD, INSTALL and RELEASE (R308) -/

def execFabHold (port : Nat) (m : Mgmt) (s : State) : Host.Outcome State Fault Refusal :=
  .next (s.mgmtIn port .hold m (fun s _ =>
    if s.isMember then s.enterHold.originate .holdAck m.seq m.origin [] else s))

def execHoldAck (port : Nat) (m : Mgmt) (s : State) : Host.Outcome State Fault Refusal :=
  .next (s.mgmtIn port .holdAck m (fun s _ =>
    match s.fabric.reorient with
    | .holding acks => if m.target == s.moduleId then
        (s.modFabric (fun f => { f with reorient := .holding (insertNat m.origin acks) })).settleReorient else s
    | _ => s))

def execInstall (port : Nat) (m : Mgmt) (s : State) : Host.Outcome State Fault Refusal :=
  .next (s.mgmtIn port .install m (fun s b =>
    let r := Roster.ofBytes m.seq b
    if s.isMember && r.isPresent s.moduleId then
      (((s.takeRoster r).reportUnlisted).modFabric (fun f => { f with reoriented := true })).originate .installAck m.seq m.origin []
    else s.takeRoster r))

def execInstallAck (port : Nat) (m : Mgmt) (s : State) : Host.Outcome State Fault Refusal :=
  .next (s.mgmtIn port .installAck m (fun s _ =>
    match s.fabric.reorient with
    | .installing acks => if m.target == s.moduleId then
        (s.modFabric (fun f => { f with reorient := .installing (insertNat m.origin acks) })).settleReorient else s
    | _ => s))

def execFabRelease (port : Nat) (m : Mgmt) (s : State) : Host.Outcome State Fault Refusal :=
  .next (s.mgmtIn port .release m (fun s _ => s.leaveHold))

/-! ## MANAGEMENT_PACKET_RESEND (R302) -/

/-- What the port sent last is sent again, with the header and payload that it had. -/
def State.doMgmtResend (s : State) (n : Nat) : State :=
  if (s.port n).state != .up then s
  else ((s.fabric.resend.filter (fun (x : Nat × PktType × Mgmt) => x.1 == n)).foldl
    (fun (s : State) (x : Nat × PktType × Mgmt) => s.sendFab (.mgmt n x.2.1 x.2.2)) s)

def execManagementPacketResend (port : Nat) (s : State) : Host.Outcome State Fault Refusal :=
  .next (s.doMgmtResend port)

end Sys2Proof.Machine
end

