-- ==== Sys2Proof/Machine/Power.lean ====
section
/-! DEFINITION. Power, reset, clamps, thermal events and power domains (R26, R462 to R484, R522 to R533), and the memory that
they keep or lose. Choices that the manual leaves open are in log entries 10 and 24. -/

namespace Sys2Proof.Machine

/-! ## What a command touches: dies, memory and power domains (R14 to R17, R474) -/

/-- The modules with which a command exchanges data: that of FAB_PUT and FAB_GET, the other members of a collective, and the
partner of KEEP_RESTORE. -/
def State.sendsTo (s : State) (c : Cmd) : List Nat :=
  if c.opcode == 0x520 || c.opcode == 0x521 || c.opcode == 0x802 then [s.remoteOf c]
  else if 0x500 ≤ c.opcode && c.opcode ≤ 0x505 then
    (((c.collGroup?.bind s.group?).map (·.members)).getD []).filter (fun m => m != s.moduleId)
  else []

/-- The dies on which a command works: those of the clusters where it runs a share (R88), that of its UPU, H0 for the save
engine, a sequencer and the Referee, and each hub of the ports that lead to the modules with which it exchanges data (R14; log
entry 26). -/
def State.diesOf (s : State) (c : Cmd) : List Nat :=
  if c.opcode == 0x630 then
    match (c.op? 0).bind (fun o => ddrChannel o.d.base) with
    | some n => [if n < 6 then 4 else 5]
    | none => []
  else if (0x500 ≤ c.opcode && c.opcode ≤ 0x521) || c.opcode == 0x802 then
    dedup ((s.sendsTo c).flatMap (fun m => (portList (s.passEntry m).ports).map portHub))
  else if refereeOp c.opcode || (0x640 ≤ c.opcode && c.opcode < 0x650) || c.opcode == 0x810 || c.opcode == 0x811 then [4]
  else dedup (c.latched.map (fun l => l.cluster / 2))

/-- The ranges of module memory that an operand touches. -/
def Operand.inMemory (o : Operand) : List (Nat × Nat) := if o.d.space != 0 then [] else o.ranges

/-- The ranges of module memory that a command names by address, beside its operands. -/
def State.namedRanges (s : State) (c : Cmd) : List (Nat × Nat) :=
  let q := s.seq c.seqNum
  let ring := fun (a : Nat) => ((c.op? 0).map (fun o => (o.inSlot a).inMemory)).getD []
  match c.opcode with
  | 0x505 => [(c.param 8 8, 8)]
  | 0x630 => [(c.optVerdict, 128), (c.optState, 64)]
  | 0x643 => ring (ringSlot q.inBase q.inSlot q.inSlots q.feedHead)
  | 0x644 => ring (ringSlot q.resBase q.resSlot q.resSlots q.resultTail)
  | 0x646 => [(q.verdictAddr, 128)]
  | 0x810 | 0x811 => c.saveRanges
  | 0x802 => (s.keeper.pieces.filter (fun p => p.group == bits (c.param 0 4) 15 0)).map (fun p => (p.d.base, p.len))
  | 0xA00 => [(c.param 0 8, 14336)]
  | 0xA01 => [(c.param 0 8, 64)]
  | 0xA11 => [(c.param 8 8, 2548)]
  | 0xA20 => [(c.param 0 8, c.param 12 4)]
  | 0xB01 => [(c.param 0 8, c.param 8 8)]
  | 0xB02 => [(c.param 8 8, 2548), (c.param 16 8, 3796)]
  | _ => []

/-- The operands of a command in this module: not the remote tensor of FAB_PUT and FAB_GET. -/
def State.localOps (s : State) (c : Cmd) : List (Nat × Operand) :=
  if (c.opcode == 0x520 || c.opcode == 0x521) && c.remoteId != s.moduleId then c.ops.filter (fun o => o.1 == 0) else c.ops

/-- Does a command write the operand of a pointer? -/
def Cmd.writesAt (c : Cmd) (off : Nat) : Bool :=
  if clusterOpcode c.opcode then !(srcPtrs c.opcode).contains off
  else if 0x500 ≤ c.opcode && c.opcode ≤ 0x504 then off != 0
  else match c.opcode with
    | 0x520 => off == 8
    | 0x521 => off == 0
    | 0x630 => off != 24 && !(off == 0 && c.optRefresh)
    | 0x643 => true
    | _ => false

/-- Does a command write the ranges that it names by address? -/
def writesNamed (op : Nat) : Bool :=
  [0x505, 0x630, 0x644, 0x646, 0x802, 0x811, 0xA00, 0xA01, 0xA20].contains op

/-- The ranges of module memory that a command writes. -/
def State.writeRanges (s : State) (c : Cmd) : List (Nat × Nat) :=
  ((s.localOps c).filter (fun o => c.writesAt o.1)).flatMap (fun o => o.2.inMemory)
    ++ (if writesNamed c.opcode then s.namedRanges c else [])

/-- The 4 KiB pages of module memory that a command reads or writes. -/
def State.pages (s : State) (c : Cmd) : List Nat :=
  dedup (((s.localOps c).flatMap (fun o => o.2.inMemory) ++ s.namedRanges c).flatMap (fun r => rangePages r.1 r.2))

/-- The power domains of a command's memory and of the way to it (R17, R476). -/
def State.needsOf (s : State) (c : Cmd) : List Nat :=
  let dies := s.diesOf c
  dedup ((s.pages c).flatMap (s.memDomains dies))

/-- Does the traffic of a command between its dies and its memory need a link that is down? -/
def State.needsDownLink (s : State) (c : Cmd) : Bool :=
  s.errors.dlinkDown != [] && (s.pages c).any (fun a =>
    (s.diesOf c).any (fun x => (dieRoute x (s.dieOf a) a).any (fun l => s.errors.dlinkDown.contains l)))

/-! ## Module reset and loss of power -/

/-- Everything placed die-local is seen where the reset placement puts it (R197). -/
def State.unplaced (s : State) : Mem :=
  (List.range 256).foldl (fun (m : Mem) g => if s.placed g then m.replace g true false else m) s.mem

/-- Cluster buffers, core scratch and undefined ranges are gone. -/
def Mem.onlyModule (m : Mem) : Mem :=
  { cells := m.cells.filter (fun c => c.1 < 2 ^ 52), poison := m.poison.filter (fun a => a < 2 ^ 52) }

/-- The profile that COOL straps select, and whether they are bad (R464, R527): 0 AIR, 1 LIQUID, 2 IMMERSION. -/
def coolProfile (cool : Option (BitVec 2)) : Nat × Bool :=
  match cool.map (fun (b : BitVec 2) => b.toNat) with
  | some 3 => (0, false)
  | some 1 => (1, false)
  | some 2 => (2, false)
  | _ => (0, true)

/-- The straps as sampled (R527). -/
def Power.sample (p : Power) (x : Straps) : Power :=
  let c := coolProfile x.cool
  { p with straps := x.cool.getD 0#2, profile := c.1, coolBad := c.2, slot := x.slot }

/-- Domains while the reset holds: all OFF. -/
def domainsOff : List (Nat × Domain) := domainCodes.map (fun c => (c, ({} : Domain)))

/-- Domains when the reset is released: H0L wakes, under the Referee's permanent vote for it and HL (R476, R482). -/
def domainsWaking : List (Nat × Domain) :=
  domainCodes.map (fun c =>
    if c == 0x50 then (c, ({ st := .waking, referee := 3, inService := true } : Domain))
    else if c == 0x40 then (c, ({ referee := 3, inService := true } : Domain))
    else (c, {}))

/-- Free bytes and free poison marks over a range, from a place of the stream of free values. -/
def Mem.scramble (m : Mem) (free a n : Nat) : Mem :=
  (List.range (if n == 0 then 0 else (a + n - 1) / 64 + 1 - a / 64)).foldl (fun (m : Mem) i =>
    m.setPoison (blockOf a + 64 * i) (Config.freeBit (free + n + i)))
    (m.setBytes a ((List.range n).map (fun i => Config.freeByte (free + i))))

/-- A module reset ends the commands in flight, and what they were to write is undefined (R516): free bytes. -/
def State.cutOff (s : State) : State :=
  ((s.cmds.filter (fun c => !c.isWaiting)).flatMap s.writeRanges).foldl (fun (s : State) r =>
    { s with mem := s.mem.scramble s.free r.1 r.2, free := s.free + 2 * r.2 + 2 }) s

/-- The flash as a reset or a loss of power leaves it: an update that it interrupts has no valid manifest (R448). -/
def State.flashAfter (s : State) : Flash :=
  if s.cmds.any (fun c => c.isRunning && c.opcode == 0xB01 && c.param 16 8 == 0) then { s.referee.flash with manifest := [] }
  else s.referee.flash

/-- The state that a module reset leaves: every field at its reset value, but for what lies outside the module or in AO, in
fuses, in flash, or in memory (R11, R26, R431, R442, R452, R479, R505). -/
def State.resetTo (s : State) (mem : Mem) (p : Power) : State :=
  { State.reset with
    pending := s.pending, free := s.free, nextId := s.nextId, mem := mem
    clusters := Vector.ofFn (fun n : Fin 8 => Cluster.resetWith (s.referee.fuses.repairs ++ s.referee.dugout) n.val)
    memside := { State.reset.memside with sockets := s.memside.sockets }
    power := { State.reset.power with
      ao := s.power.ao, on := p.on, inReset := p.inReset, tripHold := p.tripHold, seated := s.power.seated
      vin := s.power.vin, vinOkMicros := s.power.vinOkMicros, vinMargin := s.power.vinMargin
      vinLowMicros := s.power.vinLowMicros, vinHighMicros := s.power.vinHighMicros, vinAoMicros := s.power.vinAoMicros
      straps := p.straps, profile := p.profile, coolBad := p.coolBad, slot := p.slot
      lastOff := p.lastOff, lastOffDomain := p.lastOffDomain, clkLost := p.clkLost, refGone := p.refGone, domains := p.domains }
    fabric := { State.reset.fabric with ports := s.fabric.ports.map (fun (q : Port) => { cable := q.cable }) }
    liust := { State.reset.liust with cable := s.liust.cable }
    referee := { State.reset.referee with
      nonce := Config.trng s.referee.draws, draws := s.referee.draws + 1, signs := s.referee.signs
      life := s.referee.fuses.life, flash := s.flashAfter, fuses := s.referee.fuses
      dugout := s.referee.dugout }
    hostTx := s.hostTx, fabTx := s.fabTx, smbTx := s.smbTx }

/-- The scout notes a supply outside its margin now (R344). -/
def State.noteMargin (s : State) : State := s.modScout (fun v => { v with marginAt := some v.windows })

/-- A module that runs with its input outside 66 V to 78 V shows it (R462). -/
def State.checkMargin (s : State) : State :=
  if s.power.vinMargin then (s.modPower (fun p => { p with stVinMargin := true })).noteMargin else s

/-- A module reset is released: straps are sampled and H0L wakes (R529). -/
def State.moduleReset (s : State) (x : Straps) : State :=
  let s := s.cutOff
  (s.resetTo s.unplaced.onlyModule
    { (s.power.sample x) with on := true, inReset := false, tripHold := false, refGone := false, domains := domainsWaking }).checkMargin

/-- Power or clocks are gone (R26, R462): every content outside AO, flash and fuses is lost, and the module stays down. -/
def State.goDown (s : State) (cause : OffCause) (domain : Nat) (on : Bool) : State :=
  s.resetTo {} { s.power with
    on := on, inReset := true, lastOff := cause, lastOffDomain := domain, domains := domainsOff
    clkLost := s.power.clkLost || cause == .clockLoss, refGone := s.power.refGone || cause == .clockLoss }

/-- CLOCK_LOSS (R26): the AO domain sees it whether the rest of the module runs or is held down. -/
def execClockLoss (s : State) : Host.Outcome State Fault Refusal :=
  .next (if s.power.ao then s.goDown .clockLoss 0 s.power.on else s)

/-- Power fails (R462). -/
def State.powerFail (s : State) (cause : OffCause) (domain : Nat) : State :=
  if s.power.on && s.power.ao then s.goDown cause domain false else s

/-- SEATED_N_RELEASE (R525): a power fail, which AO records whether the rest still had power or not. -/
def execSeatedNRelease (s : State) : Host.Outcome State Fault Refusal :=
  .next ((if s.power.ao then s.goDown .powerFail 0 false else s).modPower (fun p => { p with seated := false }))

/-- AO loses power below 40 V: what it holds is lost, and nothing of the module runs. -/
def State.aoDown (s : State) : State :=
  s.modPower (fun p => { p with ao := false, on := false, inReset := true, clkLost := false, lastOff := .none
                                lastOffDomain := 0, tripHold := false })
    |>.modReferee (fun r => { r with dugout := [] })

/-- VIN_CHANGE (R462): the input has been at a voltage for a further time. Until it returns it was outside its range. Times below
60 V, above 84 V and below 40 V add up over the rows that say so. -/
def State.doVinChange (s : State) (mv us : Nat) : State :=
  let inRange := 66000 ≤ mv && mv ≤ 78000
  let s := if inRange && !s.power.vinMargin then s else s.noteMargin
  let s := s.modPower (fun p => { p with
    vin := mv, vinOkMicros := if inRange then p.vinOkMicros + us else 0
    vinLowMicros := if mv < 60000 then p.vinLowMicros + us else 0
    vinHighMicros := if 84000 < mv then p.vinHighMicros + us else 0
    vinAoMicros := if mv < 40000 then p.vinAoMicros + us else 0
    vinMargin := !inRange, stVinMargin := p.stVinMargin || (!inRange && p.on && p.ao) })
  let s := if 20 ≤ s.power.vinLowMicros || 1000 ≤ s.power.vinHighMicros then s.powerFail .powerFail 0 else s
  if 20 ≤ s.power.vinAoMicros then s.aoDown else s

def execVinChange (millivolts micros : Nat) (s : State) : Host.Outcome State Fault Refusal :=
  .next (s.doVinChange millivolts micros)

/-- REGULATOR_FAULT (R463): of an output that has power, whether the module runs or is held in reset. -/
def execRegulatorFault (domain : Nat) (beyondTen : Bool) (s : State) : Host.Outcome State Fault Refusal :=
  .next (if !(s.power.on && s.power.ao) then s
    else if beyondTen then s.powerFail .regulator domain
    else (s.modPower (fun p => { p with stRegMargin := true })).noteMargin)

/-- Is the reference present (R26)? After a loss of it, whether it is back is a free choice. -/
def State.refPresent (s : State) : Bool × State := if s.power.refGone then s.freeBit else (true, s)

/-- POWER_UP (R482, R524, R527): AO starts, samples the straps, and H0L wakes; without the reference the rest stays down. While AO
still has power a module is only seated again (R525). -/
def State.doPowerUp (s : State) (x : Straps) (seated : Bool) (mv : Nat) : State :=
  if s.power.ao then s.modPower (fun p => { p with seated := p.seated || seated })
  else
    let inRange := 66000 ≤ mv && mv ≤ 78000
    let s := s.modPower (fun p => { p with
      seated := seated, vin := mv, vinOkMicros := 0, vinLowMicros := 0, vinHighMicros := 0, vinAoMicros := 0
      vinMargin := !inRange })
    if mv < 66000 || !seated then s
    else
      let s := (s.modPower (fun p => { p with ao := true, clkLost := false, lastOff := .none, lastOffDomain := 0 })
        ).modReferee (fun r => { r with dugout := [] })
      let f := s.refPresent
      if f.1 then f.2.moduleReset x else f.2.goDown .clockLoss 0 false

def execPowerUp (straps : Straps) (seated : Bool) (millivolts : Nat) (s : State) : Host.Outcome State Fault Refusal :=
  .next (s.doPowerUp straps seated millivolts)

/-- May a module reset restart the module (R462, R473, R524)? -/
def State.mayRestart (s : State) : Bool :=
  let p := s.power
  p.ao && !p.tripHold && p.seated
    && (p.on || (66000 ≤ p.vin && p.vin ≤ 78000 && 100000 ≤ p.vinOkMicros))

/-- RESET_N (R529): low for 10 µs or more, or a free choice between 1 and 10 µs. -/
def State.doResetN (s : State) (ns : Nat) (x : Straps) : State :=
  if ns < 1000 then s
  else
    let f := if ns < 10000 then s.freeBit else (true, s)
    if f.1 && f.2.mayRestart then
      let g := f.2.refPresent
      if g.1 then g.2.moduleReset x else g.2
    else f.2

def execResetN (lowNanos : Nat) (straps : Straps) (s : State) : Host.Outcome State Fault Refusal :=
  .next (s.doResetN lowNanos straps)

/-! ## Thermal events (R472, R473) -/

/-- A thermal trip: power goes, and module reset is ignored until the AO sensor has cooled. -/
def State.trip (s : State) : State :=
  if s.power.on && s.power.ao then
    (s.powerFail .thermalTrip 0).modPower (fun p => { p with tripHold := true })
  else s

def maxOf (l : List Nat) : Nat := l.foldl max 0

/-- THERMAL_SAMPLE (R472): readings in °C. One at or above 115 trips the module. -/
def execThermalSample (readings : List Nat) (s : State) : Host.Outcome State Fault Refusal :=
  .next (if !s.alive then s
    else if 115 ≤ maxOf readings then s.trip
    else s.modPower (fun p => { p with tHot := maxOf readings }))

def execThermalTrip (readings : List Nat) (s : State) : Host.Outcome State Fault Refusal :=
  .next (if 115 ≤ maxOf readings then s.trip else s)

def execTripHoldEnd (s : State) : Host.Outcome State Fault Refusal :=
  .next (s.modPower (fun p => { p with tripHold := false }))

/-! ## The limiter (R466 to R471), powers in mW -/

/-- class_w of a class. -/
def classMw (c : Nat) : Nat := if c == 0 then 3500 else if c == 1 then 6000 else if c == 2 then 9500 else 13500

/-- Does a cluster draw power for work? -/
def State.clusterPowered (s : State) (n : Nat) : Bool :=
  let d := (s.domain n).st
  d == .active || d == .idle || d == .waking || d == .entering

/-- The ACLK share at full rate under a class for each core that runs commands; those of a waking cluster count at class 0. -/
def State.shareMw (s : State) (cls : Core → Nat) : Nat :=
  ((List.range 8).map (fun n =>
    let c := s.cluster n
    if !s.clusterPowered n || c.out then 0
    else ((c.cores.toList.filter (s.stands n)).map (fun k =>
      classMw (if (s.domain n).st == .waking then 0 else cls k))).sum)).sum

/-- The predicted ACLK share: by the classes that the limiter reckons with. -/
def State.dynMw (s : State) : Nat := s.shareMw (fun k => k.cls)

/-- The profile's cap in W. -/
def profileCap (p : Nat) : Nat := if p == 1 then 3600 else if p == 2 then 3000 else 2000

/-- CAP_EFF in W (R471). -/
def Power.capEff (p : Power) : Nat := min (profileCap p.profile) (max 600 (bits p.cfg.force.toNat 27 16))

/-- S_MAX as it acts. -/
def Power.sMax (p : Power) : Nat := min 16 (max 4 (bits p.cfg.force.toNat 12 8))

/-- The step in force (R467). -/
def Power.step (p : Power) : Nat := min (min p.limStep p.thermStep) (min p.clampStep p.sMax)

/-- The ACLK share of the work that runs, at the kept fraction of ACLK, in 1/16 mW: by the classes last reported. -/
def State.keptShare (s : State) : Nat := s.shareMw (fun k => k.said) * s.power.step

/-- ea of R468: the mean of the ACLK share over the interval, in mW. Before a cycle of it has passed, the share of now. -/
def State.meanShare (s : State) : Nat :=
  if s.power.shareTime == 0 then s.keptShare / 16 else s.power.shareSum / (16 * s.power.shareTime)

/-- LIMITED_BY now. -/
def Power.limiting (p : Power) : Nat :=
  if p.step == 16 then 0
  else if p.clampStep == p.step then 3
  else if p.limStep == p.step then 1
  else if p.thermStep == p.step then 2
  else 4

/-- The highest step from s down to 4 that the budget allows. -/
def fitStep (nona dyn budget : Int) : Nat → Nat
  | 0 => 4
  | s + 1 => if s + 1 ≤ 4 then 4 else if 16 * nona + dyn * (s + 1 : Nat) ≤ 16 * budget then s + 1 else fitStep nona dyn budget s

/-- The limiter step for a share, a prediction and the measured history. -/
def State.chooseStep (s : State) : State :=
  let p := s.power
  let cap : Int := 1000 * p.capEff
  let nona : Int := (p.pm : Int) - p.ea
  let dyn : Int := s.dynMw
  let budget : Int := min cap (100 * cap - (p.hist.take 99).sum)
  let l := fitStep nona dyn budget 16
  s.modPower (fun p => { p with
    limStep := l, capUnmet := p.capUnmet || 16 * nona + dyn * 4 > 16 * budget, capLimited := p.capLimited || l < p.sMax })

/-- The thermal step at an interval end (R472). -/
def Power.thermal (p : Power) : Power :=
  if 105 ≤ p.tHot then
    let t := max 4 (p.thermStep - 1)
    { p with thermStep := t, throttled := p.throttled || t < 16, coolIntervals := 0 }
  else if p.tHot < 102 then
    if 9 ≤ p.coolIntervals then { p with thermStep := min 16 (p.thermStep + 1), coolIntervals := 0 }
    else { p with coolIntervals := p.coolIntervals + 1 }
  else { p with coolIntervals := 0 }

/-- POWER_CAP_SET commands whose value has come into force complete (R471). -/
def State.settleCaps (s : State) : State :=
  s.cmds.foldl (fun (s : State) (c : Cmd) =>
    if c.opcode == 0x901 && c.isRunning && c.stage == .begun then s.finish c.id (plainCompl Status.ok) else s) s

/-- The limiter reckons with the classes last reported, lowered ones among them, from the interval end on (R469). -/
def Cluster.takeClasses (c : Cluster) : Cluster := { c with cores := c.cores.map (fun k => { k with cls := k.said }) }

/-- LIMITER_INTERVAL_END (R468, R472, R483). ea follows from the classes and steps of the interval. -/
def State.doInterval (s : State) (pm : Nat) : State :=
  if !s.alive then s
  else
    let ea := s.meanShare
    let s := s.modPower (fun p => { p with
      limitedBy := p.limiting, cfg := { p.cfg with force := p.cfg.shadow }, pm := pm, ea := ea
      hist := (pm :: p.hist).take 100, pavg := ((pm :: p.hist).take 100).sum / ((pm :: p.hist).take 100).length
      clampStep := 16, shareSum := 0, shareTime := 0 })
    let s := ({ s with clusters := s.clusters.map Cluster.takeClasses }.modPower Power.thermal).chooseStep
    let s := if s.power.thermStep < 16 then s.modScout (fun v => { v with throttledAt := some v.windows }) else s
    s.settleCaps

/-- LIMITER_INTERVAL_END. The mean ACLK share that the row gives is the one that the module forms itself (log entry 24). -/
def execLimiterIntervalEnd (pm _ea : Nat) (s : State) : Host.Outcome State Fault Refusal := .next (s.doInterval pm)

/-- A core's class is reported at a command boundary (R76, R469): a raised one makes the limiter choose again at once, a
lowered one waits for the interval end. -/
def State.report (s : State) (n core cls : Nat) : State :=
  let old := (vget (s.cluster n).cores core {}).cls
  let s := s.modCluster n (fun c => { c with cores := vmod c.cores core (fun k =>
    { k with said := cls, cls := max k.cls cls }) })
  if old < cls then s.chooseStep else s

/-- Every core that a command took reports its class (R76, R469). -/
def State.reportCores (s : State) (c : Cmd) : State :=
  c.latched.foldl (fun (s : State) (l : Latched) => (List.range 28).foldl (fun (s : State) i =>
    let k := vget (s.cluster l.cluster).cores i {}
    if k.runs c.id && k.dense != k.said then s.report l.cluster i k.dense else s) s) s

/-- CLASS_RISE_HOLD (R76, R469). -/
def State.doClass (s : State) (n core cls : Nat) : State := if !s.alive then s else s.report n core (min cls 3)

def execClassRiseHold (cluster core : Nat) (cls : Nat) (s : State) : Host.Outcome State Fault Refusal :=
  .next (s.doClass cluster core cls)

/-- The fast limit in mW at an input voltage (R470). -/
def Power.fastLimit (p : Power) (mv : Nat) : Nat :=
  min (min (10 * max 100 (bits p.cfg.force.toNat 6 0) * p.capEff) 3600000) (545 * mv / 10)

/-- FAST_CLAMP (R470). -/
def State.doFastClamp (s : State) (mw ma mv : Nat) : State :=
  if s.alive && s.power.clampStep != 4 && (s.power.fastLimit mv < mw || 54500 < ma) then
    (s.modPower (fun p => { p with clampStep := 4, fastClamp := true })).bump .pwrClamps
  else s

def execFastClamp (milliwatts milliamps millivolts : Nat) (s : State) : Host.Outcome State Fault Refusal :=
  .next (s.doFastClamp milliwatts milliamps millivolts)

/-! ## POWER_CAP_SET (R471) -/

/-- A write to the limiter's shadow is late while a fast clamp holds (R428). -/
def State.writePwrCfg (s : State) (w : Word64) : State :=
  let s := s.modPower (fun p => { p with cfg := { p.cfg with shadow := w } })
  if s.power.clampStep == 4 then { s with cfgLate := { s.cfgLate with power := true } } else s

def State.powerCapStart (_ : State) (c : Cmd) : Started := { rejs := c.reservedRejs [] [(0, 4, 0xFFF)] }

def State.doPowerCapSet (s : State) (id : Nat) : State :=
  match s.running? id 0x901 with
  | none => s
  | some c =>
    if c.stage != .go then s
    else match worst (s.powerCapStart c).rejs with
      | some r => s.finish id (rejCompl r.1 r.2)
      | none =>
        (s.writePwrCfg (BitVec.ofNat 64 (setBits s.power.cfg.shadow.toNat 27 16 (bits (c.param 0 4) 11 0)))).setStage id .begun

def execPowerCapSet (id : Nat) (s : State) : Host.Outcome State Fault Refusal := .next (s.doPowerCapSet id)

/-! ## Power domains (R474 to R481) -/

def childrenOf (c : Nat) : List Nat := domainCodes.filter (fun d => parentOf d == c)

/-- H0L, H1L and C0B to C3B. -/
def isPrivileged (c : Nat) : Bool := 0x50 ≤ c && c ≤ 0x55

/-- The rank of a state among votes. -/
def DomSt.rank : DomSt → Nat
  | .active | .waking => 3
  | .idle | .entering => 2
  | .nap => 1
  | _ => 0

/-- The hardware vote (R397, R476): a cluster controller's; for a domain that does not answer yet, that of the accesses of running
commands and of the traffic that wait for it. -/
def State.hwVote (s : State) (c : Nat) : Nat :=
  if 8 ≤ c then
    let d := (s.domain c).st
    if (d == .nap || d == .entering || d == .waking)
      && (s.cmds.any (fun x => x.isRunning && x.needs.contains c) || s.transit c) then 3 else 0
  else if s.cmds.any (fun x => !x.isDone && x.clusters.contains c) then 3
  else if s.slots.any (fun k => k.clusters.contains c) || s.scratch.any (fun t => t.clusters.contains c)
      || (s.cluster c).tables.toList.any (fun t => t.shadow.isSome) then 2
  else 0

/-- The Referee's vote (R476). -/
def State.refVote (s : State) (c : Nat) : Nat :=
  if 0x30 ≤ c && c < 0x3C then
    if s.fabric.en && (List.range 4).any (fun k =>
        let p := s.port (4 * (c - 0x30) + k)
        p.state != .down && p.state != .disabled) then 3 else 0
  else (s.domain c).referee

/-- The highest vote for a domain, apart from its children. -/
def State.ownDemand (s : State) (c : Nat) : Nat :=
  let d := s.domain c
  max (max (max d.host (s.refVote c)) (maxOf d.pb.toList)) (s.hwVote c)

/-- A domain that runs is ACTIVE under a vote for it, else IDLE. -/
def runAs (v : Nat) : DomSt := if 3 ≤ v then .active else .idle

/-- What a child asks of its parent: its own state (R474). -/
def State.childRank (s : State) (k : Nat) : Nat :=
  let d := (s.domain k).st
  if d.running then (runAs (s.ownDemand k)).rank else d.rank

/-- The highest vote for a domain, its children's states included. -/
def State.demand (s : State) (c : Nat) : Nat := max (s.ownDemand c) (maxOf ((childrenOf c).map s.childRank))

/-- The state of a domain, which follows the votes at once while it runs (R476). -/
def State.shown (s : State) (c : Nat) : DomSt :=
  let d := (s.domain c).st
  if d.running then runAs (s.demand c) else d

/-- POWER_VOTE commands whose domain has reached the voted state complete (R477). -/
def State.settleVotes (s : State) : State :=
  s.cmds.foldl (fun (s : State) (c : Cmd) => match c.stage with
    | .domain code want =>
      let r := s.shown code
      if c.isRunning && r != .waking && r != .entering && want ≤ r.rank then s.finish c.id (plainCompl Status.ok) else s
    | _ => s) s

/-- Memory in a range of locations is gone. -/
def Mem.drop (m : Mem) (lo n : Nat) : Mem :=
  { m with cells := m.cells.filter (fun c => c.1 < lo || lo + n ≤ c.1)
           poison := m.poison.filter (fun a => a < lo || lo + n ≤ a) }

/-- The stores of a core after they lost their contents: they read as at reset (log entry 2). -/
def Core.wiped (k : Core) : Core :=
  { k with
    parts := k.parts.map (fun p => { p with active := none, preload := none, tileA := [], tileB := [], fillB := false })
    threads := k.threads.map (fun t => { cmd := t.cmd }) }

/-- What a cluster loses in NAP and OFF (R475): its buffer, the core scratch of its tensors, and its cores' accumulator
buffers, cells and thread registers. -/
def State.clusterLoses (s : State) (n : Nat) : State :=
  (s.setMem (s.mem.drop (bufLoc n 0) (2 ^ 26))).modCluster n (fun c => { c with cores := c.cores.map Core.wiped })

/-- The ports of a port group go down, and their registers are at their reset values when it wakes (R475). -/
def State.groupDown (s : State) (g : Nat) : State :=
  (List.range 4).foldl (fun (s : State) k => s.modPort (4 * g + k) (fun p => { cable := p.cable })) s

/-- The floor of a domain (R476). -/
def floorOf (c : Nat) : DomSt := if c < 8 || (0x30 ≤ c && c < 0x3C) then .off else .nap

/-- A domain's clocks and power stop (R478, step 4), with what it loses in NAP or OFF (R475). -/
def State.powerDown (s : State) (c : Nat) (st : DomSt) : State :=
  let s := s.modDomain c (fun d => { d with st := st })
  if c < 8 then s.clusterLoses c
  else if 0x30 ≤ c && c < 0x3C then s.groupDown (c - 0x30)
  else s

/-- The state that an entry leads to: NAP under a vote for it, else the floor. -/
def State.entryState (s : State) (c : Nat) : DomSt := if s.demand c == 1 then .nap else floorOf c

/-- A domain takes the state that its votes ask for, where no entry or wake sequence is needed, or starts to wake; not above a
parent that failed (R481). A vote that comes during an entry abandons it or lets it finish and then wakes the domain, as it
comes before or after the clamps, a free choice (R478). -/
def State.settleDomain (s : State) (c : Nat) : State :=
  let v := s.demand c
  let d := s.domain c
  let dead := (s.domain (parentOf c)).st == .failed
  let set := fun (t : State) (st : DomSt) => t.modDomain c (fun d => { d with st := st })
  let t := match d.st with
    | .active | .idle => set s (runAs v)
    | .nap => if 2 ≤ v && !dead then set s .waking else if v == 0 then set s (floorOf c) else s
    | .off =>
      if dead || !d.inService then s else if 2 ≤ v then set s .waking else if v == 1 then set s .nap else s
    | .entering =>
      if v ≤ 1 then s
      else
        let b := s.freeBit
        if b.1 then set b.2 (runAs v) else set (b.2.powerDown c .nap) .waking
    | _ => s
  t.settleVotes

/-- A domain in NAP that a command's memory needs starts to wake (R476). -/
def State.startWake (s : State) (c : Nat) : State :=
  if (s.domain c).st == .nap && (s.domain (parentOf c)).st != .failed then s.modDomain c (fun d => { d with st := .waking }) else s

def State.powerVoteStart (_ : State) (c : Cmd) : Started :=
  let d := bits (c.param 0 4) 7 0
  { rejs := c.reservedRejs [] [(0, 4, 0x13FF)]
      ++ need (d < 8 || (0x10 ≤ d && d < 0x2C) || (0x30 ≤ d && d < 0x3C)) Status.rejShape 64 }

/-- POWER_VOTE (R477). An empty or disabled channel ignores votes. -/
def State.doPowerVote (s : State) (id : Nat) : State :=
  match s.running? id 0x900 with
  | none => s
  | some c =>
    if c.stage != .go then s
    else match worst (s.powerVoteStart c).rejs with
      | some r => s.finish id (rejCompl r.1 r.2)
      | none =>
        let w := c.param 0 4
        let code := bits w 7 0
        let v := bits w 9 8
        if 0x20 ≤ code && code < 0x2C && !(s.domain code).inService then s.finish id (plainCompl Status.ok)
        else
          let old := match c.src with
            | .host _ => (s.domain code).host
            | .seq n _ _ _ => vget (s.domain code).pb n 0
          let s := s.modDomain code (fun d => match c.src with
            | .host _ => { d with host := v }
            | .seq n _ _ _ => { d with pb := vset d.pb n v })
          let s := s.settleDomain code
          let r := s.shown code
          if bit w 12 && old ≤ v && v != 0 && (r == .waking || r == .entering || r.rank < v) then s.setStage id (.domain code v)
          else s.finish id (plainCompl Status.ok)

def execPowerVote (id : Nat) (s : State) : Host.Outcome State Fault Refusal := .next (s.doPowerVote id)

/-- The JEDEC DDR5 module capacities from 32 to 256 GiB (R193; log entry 33). -/
def jedecGib : List Nat := [32, 48, 64, 96, 128, 192, 256]

/-- Is a DIMM one of the options of R193, whatever its rate? -/
def dimmFits (d : Dimm) : Bool :=
  (d.form == .rdimm || d.form == .mrdimm) && d.ecc && (d.width == 4 || d.width == 8) && jedecGib.contains d.gib

/-- A channel trains its DIMM at the highest rate that both allow (R193, R194). -/
def trainDimm (d : Option Dimm) : DdrCh :=
  match d with
  | none => {}
  | some d =>
    let mr := d.form == .mrdimm
    let rates := if mr then [8800, 8000] else [6400, 6000, 5600, 5200, 4800]
    match rates.find? (fun r => r ≤ d.rate) with
    | some r =>
      if dimmFits d && d.trains then { gib := d.gib, type := if mr then 2 else 1, rate := r, x8 := d.width == 8 } else { type := 3 }
    | none => { type := 3 }

/-- DOMAIN_ENTRY (R476, R478): with no vote above NAP, once POST has ended, the sequence starts, and the row that comes next ends
it; a domain in NAP without a vote left drops to its floor. -/
def State.doDomainEntry (s : State) (c : Nat) : State :=
  if !s.alive || s.errors.postDone == 0#8 || s.errors.postRunning then s
  else match (s.domain c).st with
    | .active | .idle => if 2 ≤ s.demand c then s else s.modDomain c (fun d => { d with st := .entering })
    | .entering => if 2 ≤ s.demand c then s.settleDomain c else s.powerDown c (s.entryState c)
    | .nap => s.settleDomain c
    | _ => s

def execDomainEntry (domain : Nat) (s : State) : Host.Outcome State Fault Refusal := .next (s.doDomainEntry domain)

/-- What a domain brings up when it becomes ACTIVE: a DIMM trains from OFF, ports train. -/
def State.broughtUp (s : State) (c : Nat) (was : DomSt) : State :=
  if 0x20 ≤ c && c < 0x2C && (vget s.memside.ddr (c - 0x20) {}).type == 0 then
    let t := trainDimm (vget s.memside.sockets (c - 0x20) none)
    let s := s.modMemside (fun m => { m with ddr := vset m.ddr (c - 0x20) t })
    if t.gib == 0 then s.modDomain c (fun d => { d with st := .off, inService := false }) else s
  else if 0x30 ≤ c && c < 0x3C && was != .idle && s.fabOn then
    (List.range 4).foldl (fun (s : State) k => s.trainPort (4 * (c - 0x30) + k)) s
  else s

/-- DOMAIN_WAKE (R480): a domain that wakes reaches ACTIVE once its parent runs, which wakes first. -/
def State.doDomainWake (s : State) (c : Nat) : State :=
  let s := if s.alive && (s.domain c).st == .entering then s.settleDomain c else s
  let d := s.domain c
  let up := (s.domain (parentOf c)).st
  let wanted := d.st == .waking || ((d.st == .nap || d.st == .off) && d.inService && 2 ≤ s.demand c)
  if !s.alive || isPrivileged c || c == 0x40 || !wanted || up == .failed then s
  else if parentOf c != 0x60 && !up.running then
    s.modDomain (parentOf c) (fun d => { d with st := if d.st == .nap then .waking else d.st, referee := 3 })
  else
    (((s.modDomain c (fun d => { d with st := .active })).broughtUp c d.st).settleVotes).flushQueue

def execDomainWake (domain : Nat) (s : State) : Host.Outcome State Fault Refusal := .next (s.doDomainWake domain)

/-- PRIVILEGED_WAKE (R481): four steps, or a timeout that leaves the domain FAILED and its children OFF. With H0L the Liust link
wakes; the children in service of another that are still OFF wake after it (R482), and packets that waited for it go on. -/
def State.doPrivilegedWake (s : State) (c : Nat) (timeout : Option WakeStep) : State :=
  let d := s.domain c
  if !s.alive || !isPrivileged c || !(d.st == .waking || (d.st == .nap && 2 ≤ s.demand c)) then s
  else match timeout with
    | some _ =>
      (childrenOf c).foldl (fun (s : State) k => s.modDomain k (fun d => { d with st := .off }))
        ((s.modDomain c (fun d => { d with st := .failed })).modPower (fun p => { p with wakeFail := true }))
    | none =>
      let s := s.modDomain c (fun d => { d with st := .active, referee := 3 })
      if c == 0x50 then s.modDomain 0x40 (fun d => { d with st := .active })
      else ((childrenOf c).foldl (fun (s : State) k => s.modDomain k (fun d =>
        if d.inService && d.st == .off && s.errors.postDone == 0#8 then { d with st := .waking } else d)) s).flushQueue

def execPrivilegedWake (domain : Nat) (timeout : Option WakeStep) (s : State) : Host.Outcome State Fault Refusal :=
  .next (s.doPrivilegedWake domain timeout)

/-- PARENT_VOTE_RELEASE (R476): the children have been at NAP or below for 10 ms. -/
def State.doParentRelease (s : State) (c : Nat) : State :=
  if s.alive && 0x51 ≤ c && c ≤ 0x55 && (childrenOf c).all (fun k => (s.domain k).st.rank ≤ 1) then
    s.modDomain c (fun d => { d with referee := 0 })
  else s

def execParentVoteRelease (domain : Nat) (s : State) : Host.Outcome State Fault Refusal := .next (s.doParentRelease domain)

/-- Does the module hold a fabric cage's cable in its low-power mode (R531)? Cage FCn carries the ports of group FPn. -/
def State.cableLow (s : State) (g : Nat) : Bool :=
  let d := (s.domain (0x30 + g)).st
  d == .nap || d == .off

/-! ## DIMM_CHANGE (R533) -/

/-- A DIMM changed under power leaves its channel's trained state, and its contents and error reports undefined until the next
reset. -/
def State.doDimmChange (s : State) (n : Nat) (d : Option Dimm) : State :=
  let s := s.modMemside (fun m => { m with
    sockets := vset m.sockets n d
    ddrUndef := if s.power.ao then m.ddrUndef ||| BitVec.ofNat 12 (2 ^ n) else m.ddrUndef })
  let size := (vget s.memside.ddr n {}).gib * 2 ^ 30
  let m := s.mem.drop (ddrBase n) 0x4000000000
  if s.power.ao && size != 0 then s.setMem { m with undef := m.undef ++ [(ddrBase n, ddrBase n + size - 1)] }
  else s.setMem m

def execDimmChange (channel : Nat) (fitted : Option Dimm) (s : State) : Host.Outcome State Fault Refusal :=
  .next (if channel < 12 then s.doDimmChange channel fitted else s)

end Sys2Proof.Machine
end

