-- ==== Sys2Proof/Machine/Queue.lean ====
section
/-! DEFINITION. Submission and completion queues, doorbells, admission and completion writes (R366 to R369, R377 to R404). -/

namespace Sys2Proof.Machine

/-! ## Queue registers -/

/-- The bit n of a register word of 8 bytes that a write of `len` bytes at `off` carries, with `data` at its place. -/
def wordData (off len : Nat) (data : Word64) : Nat :=
  if len == 4 then (if off % 8 == 4 then bits data.toNat 31 0 * 2 ^ 32 else bits data.toNat 31 0) else data.toNat

/-- Does the write cover the low half, the high half of its word? -/
def lowHalf (off len : Nat) : Bool := len == 8 || off % 8 == 0
def highHalf (off len : Nat) : Bool := len == 8 || off % 8 == 4

/-- Fetches that were sent before the queue was enabled again no longer move its HEAD. -/
def State.detachFetches (s : State) (n : Nat) : State :=
  s.modLiust (fun l => { l with dmas := l.dmas.map (fun d => match d.owner with
    | .fetch q _ => if q == n then { d with owner := .fetch q 0 } else d
    | _ => d) })

/-- A submission queue takes a write of its first word (R378). -/
def Sq.write (q : Sq) (w : Nat) (lo hi : Bool) : Sq :=
  if q.en then { q with en := if lo then bit w 0 else q.en }
  else
    let q := if hi then { q with size := bits w 44 32 } else q
    let q := if lo then { q with cq := bits w 25 20, ctx := bits w 19 16 } else q
    if lo && bit w 0 && 1 ≤ q.size && q.size ≤ 4096 then
      { q with en := true, head := 0, tail := 0, stopped := false, reason := .none }
    else q

/-- SQ_CFG_WRITE (R378). BASE, 52 bits wide, takes one 8-byte write (R424). -/
def State.doSqCfgWrite (s : State) (n off len : Nat) (data : Word64) : State :=
  if !s.hostUp then s
  else if 8 ≤ off then
    if len == 8 then s.modSq n (fun q => if q.en then q else { q with base := bits data.toNat 63 12 * 4096 })
    else s.hostReject
  else
    let q := (s.sq n).write (wordData off len data) (lowHalf off len) (highHalf off len)
    let s := if q.en && !(s.sq n).en then s.detachFetches n else s
    s.modSq n (fun _ => q)

def execSqCfgWrite (n off len : Nat) (data : Word64) (s : State) : Host.Outcome State Fault Refusal :=
  .next (s.atHost (fun s => s.doSqCfgWrite n off len data))

/-- A completion queue takes a write of its first word (R380, R381). -/
def Cq.write (q : Cq) (w : Nat) (lo hi : Bool) : Cq :=
  if q.en then { q with en := if lo then bit w 0 else q.en }
  else
    let q := if hi then { q with size := bits w 44 32 } else q
    let q := if lo then { q with vector := bits w 29 24 } else q
    if lo && bit w 0 && 2 ≤ q.size && q.size ≤ 4096 then
      { q with en := true, head := 0, tail := 0, wphase := true, held := q.done.length }
    else q

/-- CQ_CFG_WRITE (R380). -/
def State.doCqCfgWrite (s : State) (n off len : Nat) (data : Word64) : State :=
  if !s.hostUp then s
  else if 8 ≤ off then
    if len == 8 then s.modCq n (fun q => if q.en then q else { q with base := bits data.toNat 63 12 * 4096 })
    else s.hostReject
  else s.modCq n (fun q => q.write (wordData off len data) (lowHalf off len) (highHalf off len))

def execCqCfgWrite (n off len : Nat) (data : Word64) (s : State) : Host.Outcome State Fault Refusal :=
  .next (s.atHost (fun s => s.doCqCfgWrite n off len data))

/-- A new HEAD that does not pass TAIL (R380). -/
def Cq.headOk (q : Cq) (h : Nat) : Bool :=
  h == q.head || (h < q.size && (h + q.size - q.head) % q.size ≤ (q.tail + q.size - q.head) % q.size)

/-- CQ_HEAD_WRITE (R380): a write of CQ_STATUSn, whose HEAD is RW and whose LOST is W1C. -/
def State.doCqHeadWrite (s : State) (n off len : Nat) (data : Word64) : State :=
  if !s.hostUp || !lowHalf off len then s
  else
    let w := wordData off len data
    let s := s.modCq n (fun q => { q with lost := q.lost && !bit w 13 })
    if (s.cq n).headOk (bits w 11 0) then s.modCq n (fun q => { q with head := bits w 11 0 })
    else s.modLiust (fun l => { l with dbBad := true })

def execCqHeadWrite (n off len : Nat) (data : Word64) (s : State) : Host.Outcome State Fault Refusal :=
  .next (s.atHost (fun s => s.doCqHeadWrite n off len data))

/-- DOORBELL (R366). -/
def State.doDoorbell (s : State) (n : Nat) (data : Word64) : State :=
  let t := bits data.toNat 11 0
  if !s.linkUp then s
  else if (s.sq n).en && data.toNat < 4096 && t < (s.sq n).size then s.modSq n (fun q => { q with tail := t })
  else s.modLiust (fun l => { l with dbBad := true })

def execDoorbell (n : Nat) (data : Word64) (s : State) : Host.Outcome State Fault Refusal := .next (s.doDoorbell n data)

/-! ## Fetch (R382) -/

/-- Is a fetch of the queue outstanding? -/
def State.fetching (s : State) (n : Nat) : Bool :=
  s.liust.dmas.any (fun d => match d.owner with | .fetch q _ => q == n | _ => false)

/-- Entries of the next fetch: up to 8, up to TAIL, and up to the end of the queue, since one DMA_RD reads one range. -/
def Sq.fetchCount (q : Sq) : Nat :=
  if q.size == 0 then 0 else min 8 (min ((q.tail + q.size - q.head) % q.size) (q.size - q.head))

/-- SQ_FETCH (R382). -/
def State.doSqFetch (s : State) (n : Nat) : State :=
  let q := s.sq n
  if s.hostUp && q.en && !q.stopped && q.waiting == [] && !s.fetching n && q.fetchCount != 0 && s.dmaRoom true then
    s.dmaRd (q.base + 512 * q.head) (512 * q.fetchCount) (.fetch n q.fetchCount)
  else s

def execSqFetch (q : Nat) (s : State) : Host.Outcome State Fault Refusal := .next (s.doSqFetch q)

/-- Fetched entries arrive: they wait for admission and HEAD moves past them. -/
def State.fetched (s : State) (n count : Nat) (data : List Byte) : State :=
  s.modSq n (fun q => { q with
    waiting := q.waiting ++ chunks 512 data
    head := if q.size == 0 then q.head else (q.head + count) % q.size })

/-- A fetch that is refused or times out stops its queue (R367, R379). -/
def State.fetchRefused (s : State) (n : Nat) : State := s.modSq n (fun q => { q with stopped := true, reason := .fetch })

/-! ## Admission (R393, R403, R404) -/

/-- The opcodes of R403. -/
def knownOps : List Nat :=
  [0x000, 0x001, 0x002, 0x020, 0x030, 0x100, 0x101, 0x102, 0x110, 0x111, 0x200, 0x300, 0x301, 0x302, 0x310, 0x311, 0x312,
    0x313, 0x320, 0x330]
  ++ [0x400, 0x401, 0x402, 0x408, 0x420, 0x421, 0x422, 0x423, 0x424, 0x425, 0x500, 0x501, 0x502, 0x503, 0x504, 0x505,
    0x510, 0x511, 0x512, 0x520, 0x521]
  ++ [0x600, 0x601, 0x602, 0x603, 0x630, 0x640, 0x641, 0x642, 0x643, 0x644, 0x645, 0x646, 0x647, 0x648, 0x649, 0x64A,
    0x64B]
  ++ [0x700, 0x701, 0x702, 0x703, 0x704, 0x705, 0x706, 0x800, 0x801, 0x802, 0x803, 0x804, 0x810, 0x811, 0x900, 0x901,
    0xA00, 0xA01, 0xA10, 0xA11, 0xA20, 0xB00, 0xB01, 0xB02]

/-- Opcodes that a playbook alone may hold (R404). -/
def playbookOnly (op : Nat) : Bool := 0x640 ≤ op && op ≤ 0x64B

/-- Privileged opcodes (R403). -/
def privileged (op : Nat) : Bool := op < 0x100 || 0xA00 ≤ op

/-- The reserved header fields: first byte, whether it is non-zero (R388, R389). -/
def reservedHeader (p : List Byte) : List (Nat × Bool) :=
  let f := fieldAt p 2 2
  let w := fieldAt p 8 8
  [(2, bits f 15 5 != 0), (9, bits w 11 10 != 0), (11, bits w 31 25 != 0), (12, bits w 47 35 != 0 || 4 < bits w 34 32),
    (32, fieldAt p 32 32 != 0)]

/-- TARGET fits the opcode (R390), and every cluster that it names is in service (R493). -/
def State.targetOk (s : State) (op t : Nat) : Bool :=
  if clusterOpcode op then (t ≤ 11 || t == 15) && (targetClusters t).all (fun n => !(s.cluster n).out) else t == 0

/-- The first failed check of a header, in the order of R393, with the packet offset of its field. -/
def State.headerRej (s : State) (n : Nat) (p : List Byte) : Option Rej :=
  let op := fieldAt p 0 2
  let w := fieldAt p 8 8
  let ctx := bits w 3 0
  match (reservedHeader p).find? (fun r => r.2) with
  | some r => some (Status.rejReserved, r.1)
  | none =>
    if !knownOps.contains op || playbookOnly op then some (Status.rejOpcode, 0)
    else if privileged op && ctx != 0 then some (Status.rejPriv, 0)
    else if !(s.context ctx).live || ctx != (s.sq n).ctx || bits w 9 4 != n then some (Status.rejContext, 8)
    else if !s.targetOk op (bits w 15 12) then some (Status.rejTarget, 9)
    else if 448 < bits w 24 16 || bits w 24 16 % 8 != 0 then some (Status.rejPlen, 10)
    else none

/-- The commands of a queue in flight that carry one of the tags (R394). -/
def State.hostDeps (s : State) (n : Nat) (tags : List Nat) : List Nat :=
  (s.cmds.filter (fun c => c.ofQueue n && c.placed && tags.contains c.hostTag)).map (·.id)

/-- A host packet becomes a command. -/
def State.admitHost (s : State) (n : Nat) (p : List Byte) : State :=
  let p := p.take (64 + bits (fieldAt p 8 8) 24 16)
  let c : Cmd := { id := s.nextId, src := .host n, ctx := (s.sq n).ctx, packet := p, cq := (s.sq n).cq }
  let c := { c with deps := s.hostDeps n c.depTags }
  ({ s with cmds := s.cmds ++ [c], nextId := s.nextId + 1, turn := n }).numberColl c.id

/-- A packet that fails a check completes at once, without a place (R393, R421). -/
def State.rejectHost (s : State) (n : Nat) (p : List Byte) (r : Rej) : State :=
  let c : Cmd := { id := s.nextId, src := .host n, ctx := (s.sq n).ctx, packet := p, cq := (s.sq n).cq, placed := false }
  ({ s with cmds := s.cmds ++ [c], nextId := s.nextId + 1 }).endHost c.id (rejCompl r.1 r.2)

/-- COMMAND_ADMISSION (R381, R382, R393). -/
def State.doCommandAdmission (s : State) (n : Nat) : State :=
  match (s.sq n).waiting with
  | [] => s
  | p :: rest =>
    if !s.canReserve (s.sq n).cq then s
    else
      let s' := s.modSq n (fun q => { q with waiting := rest })
      match s.headerRej n p with
      | some r => s'.rejectHost n p r
      | none => if s.hasTurn n then s'.admitHost n p else s

def execCommandAdmission (q : Nat) (s : State) : Host.Outcome State Fault Refusal := .next (s.doCommandAdmission q)

/-! ## Completions (R368, R380, R381, R398) -/

/-- Has the command a DMA_WR that is not yet acknowledged (R398)? -/
def State.dmaPending (s : State) (id : Nat) : Bool :=
  s.liust.dmas.any (fun d => !d.read && (match d.owner with | .command i _ => i == id | _ => false))

/-- Is the queue's next entry free? -/
def Cq.room (q : Cq) : Bool := q.en && 2 ≤ q.size && (q.tail + 1) % q.size != q.head

/-- Can the completion at the front of a completion queue be written? None is while a write waits for a retry (R202, R398). -/
def State.canWrite (s : State) (n id : Nat) : Bool :=
  s.hostUp && s.dmaRoom false && (s.cq n).room && !s.dmaPending id && s.memside.held.isEmpty

/-- The completion of a command is written to the next entry of its queue, by one DMA_WR. -/
def State.writeCompletion (s : State) (n id : Nat) : State :=
  match s.cmd? id with
  | none => s
  | some c =>
    match c.st, c.src with
    | .done k, .host q =>
      let b := complBytes c.hostTag k (s.cq n).wphase q (s.sq q).head
      let s := s.dmaWr ((s.cq n).base + 32 * (s.cq n).tail) b 0 (.completion id)
      let s := s.modCmd id (fun c => { c with written := true })
      s.modCq n (fun x =>
        let t := (x.tail + 1) % x.size
        { x with tail := t, wphase := if t == 0 then !x.wphase else x.wphase
                 done := x.done.filter (fun d => d != id), held := x.held - 1 })
    | _, _ => s

/-- COMPLETION_WRITE (R398): in the order in which the commands of the queue finished. Held completions are written by
HELD_COMPLETION_FLUSH. -/
def State.doCompletionWrite (s : State) (id : Nat) : State :=
  match s.cmd? id with
  | none => s
  | some c =>
    if (s.cq c.cq).done.head? == some id && (s.cq c.cq).held == 0 && s.canWrite c.cq id then s.writeCompletion c.cq id
    else s

def execCompletionWrite (id : Nat) (s : State) : Host.Outcome State Fault Refusal := .next (s.doCompletionWrite id)

/-- Held completions written one after another while an entry is free; `k` bounds their number. -/
def State.flushHeld (s : State) (n : Nat) : Nat → State
  | 0 => s
  | k + 1 =>
    match (s.cq n).done.head? with
    | none => s
    | some id => if (s.cq n).held != 0 && s.canWrite n id then (s.writeCompletion n id).flushHeld n k else s

/-- HELD_COMPLETION_FLUSH (R381). -/
def execHeldCompletionFlush (n : Nat) (s : State) : Host.Outcome State Fault Refusal :=
  .next (s.flushHeld n (s.cq n).held)

/-- A completion write is acknowledged: the place is freed, then MSG_INT is sent if the command asks for one
(R368, R369). -/
def State.completionAcked (s : State) (id : Nat) : State :=
  match s.cmd? id with
  | none => s
  | some c =>
    match c.st with
    | .done k =>
      let s := s.retire id k.status
      if c.irq then s.sendHost (.msgInt (s.cq c.cq).vector) else s
    | _ => s

/-- A completion write is refused or times out: the completion is lost (R368). -/
def State.completionLost (s : State) (id : Nat) : State :=
  match s.cmd? id with
  | none => s
  | some c =>
    match c.st with
    | .done k => (s.retire id k.status).modCq c.cq (fun q => { q with lost := true })
    | _ => s

end Sys2Proof.Machine
end

