-- ==== Sys2Proof/Machine/Trust.lean ====
section
/-! DEFINITION. Digests, signatures, images, certificates and authorisations (R340, R443, R445, R452 to R461). SHA3-256 is
FIPS 202 (PRESUMED; log entry 21). ML-DSA-44 is free (log entry 21). -/

namespace Sys2Proof.Machine

/-! ## SHA3-256 -/

namespace Sha3

/-- Rotation offsets of the lanes, x + 5 y. -/
def rot : List Nat := [0, 1, 62, 28, 27, 36, 44, 6, 55, 20, 3, 10, 43, 25, 39, 41, 45, 15, 21, 8, 18, 2, 61, 56, 14]

def roundConst : List Word64 :=
  [0x1#64, 0x8082#64, 0x800000000000808A#64, 0x8000000080008000#64, 0x808B#64, 0x80000001#64, 0x8000000080008081#64,
    0x8000000000008009#64, 0x8A#64, 0x88#64, 0x80008009#64, 0x8000000A#64]
  ++ [0x8000808B#64, 0x800000000000008B#64, 0x8000000000008089#64, 0x8000000000008003#64, 0x8000000000008002#64,
    0x8000000000000080#64, 0x800A#64, 0x800000008000000A#64, 0x8000000080008081#64, 0x8000000000008080#64, 0x80000001#64,
    0x8000000080008008#64]

def lane (a : List Word64) (i : Nat) : Word64 := a.getD i 0#64

def round (a : List Word64) (rc : Word64) : List Word64 :=
  let c := (List.range 5).map (fun x => lane a x ^^^ lane a (x + 5) ^^^ lane a (x + 10) ^^^ lane a (x + 15) ^^^ lane a (x + 20))
  let d := (List.range 5).map (fun x => lane c ((x + 4) % 5) ^^^ (lane c ((x + 1) % 5)).rotateLeft 1)
  let t := (List.range 25).map (fun i => (lane a i ^^^ lane d (i % 5)).rotateLeft (rot.getD i 0))
  let b := (List.range 25).map (fun i => lane t ((i % 5 + 3 * (i / 5)) % 5 + 5 * (i % 5)))
  (List.range 25).map (fun i =>
    let y := 5 * (i / 5)
    let v := lane b i ^^^ (~~~(lane b ((i + 1) % 5 + y)) &&& lane b ((i + 2) % 5 + y))
    if i == 0 then v ^^^ rc else v)

def permute (a : List Word64) : List Word64 := roundConst.foldl round a

/-- The padded message. -/
def pad (m : List Byte) : List Byte :=
  let k := 136 - m.length % 136
  m ++ (if k == 1 then [0x86#8] else 0x06#8 :: List.replicate (k - 2) 0#8 ++ [0x80#8])

def absorb (a : List Word64) (block : List Byte) : List Word64 :=
  permute ((enumFrom 0 a).map (fun p => if p.1 < 17 then p.2 ^^^ BitVec.ofNat 64 (fieldAt block (8 * p.1) 8) else p.2))

end Sha3

/-- SHA3-256 of bytes; byte 0 of the digest lies in bits [7:0]. -/
def sha3 (m : List Byte) : BitVec 256 :=
  let a := (chunks 136 (Sha3.pad m)).foldl Sha3.absorb (List.replicate 25 0#64)
  BitVec.ofNat 256 (leNat ((a.take 4).flatMap (fun w => natLe 8 w.toNat)))

def digestBytes (m : List Byte) : List Byte := natLe 32 (sha3 m).toNat

/-! ## The module's identity (R452, R457) -/

/-- The identity key that signs in this life-cycle state; none where R458 gives none. -/
def State.identity? (s : State) : Option (BitVec 256) := s.referee.fuses.seed

/-- A signature over the digest of a body, 2,420 bytes; zeros where no identity key is left. -/
def State.identitySign (s : State) (body : List Byte) : List Byte × State :=
  match s.identity? with
  | some k =>
    (bytesAt (Config.mldsaSign k (digestBytes body) s.referee.signs) 0 2420,
      s.modReferee (fun r => { r with signs := r.signs + 1 }))
  | none => (List.replicate 2420 0#8, s)

/-! ## Firmware images (R443, R445) -/

def imageBodyBytes (m : List Byte) : Nat := fieldAt m 12 4
def imageSvnOf (m : List Byte) : Nat := fieldAt m 8 1
def imageCompatOf (m : List Byte) : Nat := fieldAt m 10 2

/-- MAGIC, VERSION, PART and BODY_BYTES of a manifest, which the delivered one meets (R543). -/
def manifestShape (m : List Byte) : Bool :=
  (fieldAt m 0 4 == 0x4A464D57 && fieldAt m 4 2 == 1 && fieldAt m 6 2 == 0x0872
    && imageBodyBytes m % 4096 == 0 && imageBodyBytes m ≤ 50327552) || m == Config.deliveredManifest

/-- The signature of a manifest, which the delivered one meets (R543). -/
def manifestSigned (m : List Byte) : Bool :=
  Config.mldsaVerify Config.firmwareKey (digestBytes (bytesAt m 0 256)) (bytesAt m 256 2420) || m == Config.deliveredManifest

/-- The digest of a body, which that of the delivered image meets (R543). -/
def bodyMatches (m body : List Byte) : Bool :=
  (sha3 body).toNat == fieldAt m 24 32
    || (m == Config.deliveredManifest && body == bytesAt Config.deliveredBody 0 (imageBodyBytes m))

/-- The image digest. -/
def imageDigestOf (m : List Byte) : BitVec 256 := sha3 (bytesAt m 0 256)

/-! ## Certificates (R453, R454) -/

def certKey (c : List Byte) : List Byte := bytesAt c 64 1312

/-- The certificate's header and signature, which the delivered one passes (R543). -/
def certOk (c : List Byte) : Bool :=
  fieldAt c 0 4 == 0x4A434552 && fieldAt c 4 2 == 1 && fieldAt c 6 2 == 0x0872 && fieldAt c 16 1 == 1
    && fieldAt c 17 47 == 0
    && (Config.mldsaVerify Config.certificateKey (digestBytes (bytesAt c 0 1376)) (bytesAt c 1376 2420)
        || bytesAt c 0 3796 == deliveredCert)
/-- It certifies this module's own key and serial number. -/
def State.ownCert (s : State) (c : List Byte) : Bool :=
  certOk c && fieldAt c 8 8 == Config.serial.toNat
    && (match s.identity? with | some k => certKey c == Config.mldsaPublic k | none => false)

/-! ## Signed authorisations (R460, R461) -/

/-- The parameter bytes with the 8 bytes at an offset taken as 0. -/
def argsWithout (l : List Byte) (off : Nat) : List Byte :=
  (enumFrom 0 l).map (fun p => if off ≤ p.1 && p.1 < off + 8 then 0#8 else p.2)

/-- Does the authorisation at an address permit a command whose AUTH_PTR lies at a parameter offset? -/
def State.authMatches (s : State) (c : Cmd) (off : Nat) (h : List Byte) : Bool :=
  fieldAt h 0 4 == 0x41555448 && fieldAt h 4 2 == 1 && fieldAt h 6 2 == c.opcode
    && fieldAt h 8 8 == Config.serial.toNat && fieldAt h 16 32 == s.referee.nonce.toNat
    && fieldAt h 48 32 == (sha3 (argsWithout (c.params.take c.plen) off)).toNat && fieldAt h 80 48 == 0
    && Config.mldsaVerify Config.serviceKey (digestBytes (bytesAt h 0 128)) (bytesAt h 128 2420)

/-- AUTH_NONCE is drawn again. -/
def State.newNonce (s : State) : State :=
  s.modReferee (fun r => { r with nonce := Config.trng r.draws, draws := r.draws + 1 })

/-- The keys under which a save manifest of a module may verify (R455). -/
def State.saveKeys (s : State) (id : Nat) : List (List Byte) :=
  (if id == s.moduleId then (match s.identity? with | some k => [Config.mldsaPublic k] | none => []) else [])
    ++ (s.referee.peers.filter (fun p => p.modId == id)).map (·.key)

/-- Does a save manifest verify (R343, R455)? -/
def State.manifestOk (s : State) (m : List Byte) : Bool :=
  (s.saveKeys (bits (fieldAt m 12 2) 11 0)).any (fun k =>
    Config.mldsaVerify k (digestBytes (bytesAt m 0 256)) (bytesAt m 256 2420))

end Sys2Proof.Machine
end

