-- ==== Sys2Proof/Machine/Keep.lean ====
section
/-! DEFINITION. Keeper pairs and distributed tensors (R332 to R338, R350, R419). Choices that the manual leaves open are in
log entry 22. -/

namespace Sys2Proof.Machine

def mib : Nat := 2 ^ 20

/-- A change that the captain's own pieces or pairing make is published in the next epoch (R334). -/
def State.republish (s : State) : State :=
  if s.isMember && s.fabric.isCaptain then s.publish s.fabric.roster else s

/-! ## KEEP_PAIR and KEEP_UNPAIR (R335, R336) -/

def Cmd.pairWith (c : Cmd) : Nat := bits (c.param 0 4) 11 0
def Cmd.pairForce (c : Cmd) : Bool := bit (c.param 0 4) 16

/-- Does the roster show a module paired with another than this one? -/
def State.pairedElsewhere (s : State) (p : Nat) : Bool :=
  (s.fabric.roster.tensors.flatMap (fun t => t.blocks)).any (fun b => b.valid && b.kept
    && ((b.owner == p && b.keeper != s.moduleId && s.fabric.roster.isPresent b.keeper)
      || (b.keeper == p && b.owner != s.moduleId && s.fabric.roster.isPresent b.owner)))

def State.keepPairStart (s : State) (c : Cmd) : Started :=
  { rejs := c.reservedRejs [] [(0, 4, 0x10FFF)]
      ++ need (c.pairWith != s.moduleId && s.isMember && s.fabric.roster.isPresent c.pairWith
          && !s.pairedElsewhere c.pairWith) Status.rejPair 64 }

/-- KEEP_PAIR. The partner's feed ID, which the Referees exchange, is a free number. -/
def State.doKeepPair (s : State) (id : Nat) : State :=
  s.runChecked id 0x800 State.keepPairStart (fun s c =>
    let f := s.freeNat
    let s := f.2
    let feed := f.1 % 65536
    if !c.pairForce && feedsEqual s.keeper.feedId.toNat feed then s.finish id (rejCompl Status.rejPairFeed 64)
    else
      let s := s.modKeeper (fun k => { k with want := some (c.pairWith, c.pairForce), partnerFeed := feed, unpair := false })
      s.republish.finish id (plainCompl Status.ok))

def execKeepPair (id : Nat) (s : State) : Host.Outcome State Fault Refusal := .next (s.doKeepPair id)

def State.keepUnpairStart (_ : State) (c : Cmd) : Started := { rejs := c.reservedRejs [] [] }

/-- KEEP_UNPAIR: the pair is dissolved in the next epoch. -/
def State.doKeepUnpair (s : State) (id : Nat) : State :=
  s.runChecked id 0x801 State.keepUnpairStart (fun s _ =>
    (s.modKeeper (fun k => { k with unpair := k.want.isSome })).republish.finish id (plainCompl Status.ok))

def execKeepUnpair (id : Nat) (s : State) : Host.Outcome State Fault Refusal := .next (s.doKeepUnpair id)

/-! ## DIST_REGISTER (R332) -/

def State.distRegisterStart (s : State) (c : Cmd) : Started :=
  let rs := [s.resolve c 0 .src anyFmts]
  Started.ofResolved rs (c.reservedRejs [0] [(8, 8, low 64), (16, 4, low 32), (20, 4, 1)]
    ++ need (c.param 8 8 % mib == 0) Status.rejAlign 72
    ++ need1 (opAt rs 0) (fun o => o.d.spanBytes % mib == 0) Status.rejAlign 64
    ++ need1 (opAt rs 0) (fun o => o.d.space == 0 && s.presentSpan o.d.base o.d.spanBytes
        && (o.d.spanBytes == 0 || isHbm o.d.base == isHbm (o.d.base + o.d.spanBytes - 1))) Status.rejRegion 64)

/-- The piece that a DIST_REGISTER describes. -/
def Cmd.piece (c : Cmd) (o : Operand) : Piece :=
  { group := bits (c.param 16 4) 15 0, tensor := bits (c.param 16 4) 31 16, mirror := bit (c.param 20 4) 0
    offset := c.param 8 8, d := o.d, len := o.d.spanBytes }

/-- Do two descriptions concern the same piece? -/
def Piece.same (a b : Piece) : Bool :=
  a.group == b.group && a.tensor == b.tensor && a.mirror == b.mirror && a.offset == b.offset

def State.doDistRegister (s : State) (id : Nat) : State :=
  match s.running? id 0x804 with
  | none => s
  | some c =>
    match c.op? 0 with
    | none => s.finish id (plainCompl Status.ok)
    | some o =>
      let p := c.piece o
      (s.modKeeper (fun k => { k with pieces := k.pieces.filter (fun x => !x.same p) ++ [p] })).republish.finish id
        (plainCompl Status.ok)

def execDistRegister (id : Nat) (s : State) : Host.Outcome State Fault Refusal := .next (s.doDistRegister id)

/-! ## KEEP_CHECK (R338) -/

namespace Piece

/-- Its global blocks of 1 MiB. -/
def blocks (p : Piece) : List Nat := (List.range (p.len / mib)).map (fun i => p.offset / mib + i)

/-- The address of a global block. -/
def addr (p : Piece) (b : Nat) : Nat := p.d.base + (b * mib - p.offset)

end Piece

/-- The address at which this module holds a global block of a tensor, its primary first. -/
def State.blockAddr (s : State) (g t b : Nat) : Option Nat :=
  let ps := s.keeper.pieces.filter (fun p => p.group == g && p.tensor == t && p.blocks.contains b)
  ((ps.filter (fun p => !p.mirror) ++ ps.filter (fun p => p.mirror)).head?).map (fun p => p.addr b)

def Cmd.checkGroup (c : Cmd) : Nat := bits (c.param 0 4) 15 0
def Cmd.checkTensor (c : Cmd) : Nat := bits (c.param 0 4) 31 16

/-- The blocks that a KEEP_CHECK compares; 0 stands for those of this module's piece, its mirror where it holds no primary. -/
def State.checkBlocks (s : State) (c : Cmd) : List Nat :=
  if c.param 8 4 == 0 then
    let all := s.keeper.pieces.filter (fun p => p.group == c.checkGroup && p.tensor == c.checkTensor)
    let own := all.filter (fun p => !p.mirror)
    let ps := if own.isEmpty then all else own
    sortBy (fun (a b : Nat) => a < b) (ps.flatMap Piece.blocks)
  else (List.range (c.param 8 4)).map (fun i => c.param 4 4 + i)

def State.keepCheckStart (s : State) (c : Cmd) : Started :=
  { rejs := c.reservedRejs [] [(0, 4, low 32), (4, 4, low 32), (8, 4, low 32)]
      ++ need s.keeper.standing Status.rejPair 0xFFFF
      ++ need (s.keeper.pieces.any (fun p => p.group == c.checkGroup && p.tensor == c.checkTensor)) Status.rejShape 64
      ++ need ((s.checkBlocks c).all (fun b => (s.blockAddr c.checkGroup c.checkTensor b).isSome)) Status.rejShape 68 }

/-- The poisoned 64-byte blocks that a KEEP_CHECK of these global blocks reads here (R189). -/
def State.checkPoison (s : State) (c : Cmd) : Nat :=
  ((s.checkBlocks c).map (fun b => match s.blockAddr c.checkGroup c.checkTensor b with
    | some a => ((List.range (mib / 64)).filter (fun i => s.mem.poisoned (a + 64 * i))).length
    | none => 0)).sum

/-- KEEP_CHECK, with the digests that the peer's Referee gives for the same blocks in the same order. -/
def State.doKeepCheck (s : State) (id : Nat) (peer : List (BitVec 256)) : State :=
  s.runChecked id 0x803 State.keepCheckStart (fun s c =>
    let bs := s.checkBlocks c
    if bs.length != peer.length then s
    else
      let bad := (bs.zip peer).filter (fun (x : Nat × BitVec 256) =>
        match s.blockAddr c.checkGroup c.checkTensor x.1 with
        | some a => sha3 (s.mem.bytes a mib) != x.2
        | none => false)
      let pin := s.checkPoison c
      match bad with
      | [] => s.finish id { status := Status.ok, poison := pin != 0, poisonIn := pin }
      | b :: _ => (s.modKeeper (fun k => { k with diverged := true })).finish id
          { status := Status.fltKeepDiverged, count := bad.length, aux := b.1, poisonIn := pin })

def execKeepCheck (id : Nat) (peerDigests : List (BitVec 256)) (s : State) : Host.Outcome State Fault Refusal :=
  .next (s.doKeepCheck id peerDigests)

/-! ## KEEP_RESTORE (R350) -/

def Cmd.restoreGroup (c : Cmd) : Nat := bits (c.param 0 4) 15 0

/-- This module's pieces, mirrors and primaries, of the tensors of a group whose blocks a module owned or kept (R419). -/
def State.restorePieces (s : State) (g lost : Nat) : List Piece :=
  s.keeper.pieces.filter (fun p => p.group == g && s.fabric.roster.tensors.any (fun t =>
    t.group == g && t.tensor == p.tensor && t.blocks.any (fun b => b.valid && (b.owner == lost || (b.kept && b.keeper == lost)))))

/-- The peer's piece of the other role that holds a global block: where that block lies in the peer's memory. -/
def peerAddr (peer : List PeerPiece) (p : Piece) (b : Nat) : Option Nat :=
  let qs := peer.filter (fun q => q.group == p.group && q.tensor == p.tensor && q.mirror != p.mirror && q.offset ≤ b * mib)
  let top := qs.foldl (fun m q => max m q.offset) 0
  (qs.find? (fun q => q.offset == top)).map (fun q => q.base + (b * mib - q.offset))

def State.keepRestoreStart (s : State) (c : Cmd) : Started :=
  { rejs := c.reservedRejs [] [(0, 4, 0xFFFF)]
      ++ need s.keeper.standing Status.rejPair 64
      ++ need ((s.restorePieces c.restoreGroup (s.keeper.partner.getD 0)).all (fun p =>
          p.blocks.all (fun b => (s.fabric.roster.block p.group p.tensor b).valid))) Status.rejShape 64 }

/-- KEEP_RESTORE: the mirror of the lost shard goes to the replacement's primary pieces and this module's primary pieces to
its mirror pieces, bitwise, by remote writes. A block for which the partner has registered no piece of the other role has no
place to go and is left out (DESIGN CHOICE, log entry 22). It completes when all are acknowledged and the STATE records agree; the row
taken again looks at them again. Where there is nothing to copy there are no two copies to compare, and it completes. -/
def State.doKeepRestore (s : State) (id : Nat) (peer : List PeerPiece) : State :=
  match s.running? id 0x802 with
  | none => s
  | some c =>
    if c.stage != .go then s.settleRemote id
    else match worst (s.keepRestoreStart c).rejs, s.keeper.partner with
      | some r, _ => s.finish id (rejCompl r.1 r.2)
      | none, none => s.finish id (rejCompl Status.rejPair 64)
      | none, some dst =>
        let jobs := (s.restorePieces c.restoreGroup dst).flatMap (fun p =>
          p.blocks.filterMap (fun b => (peerAddr peer p b).map (fun a => (p.addr b, a))))
        let parts := jobs.flatMap (fun (j : Nat × Nat) =>
          (List.range 256).map (fun i => (id, j.1 + 4096 * i, j.2 + 4096 * i, dst)))
        if parts.isEmpty then s.finish id (plainCompl Status.ok)
        else
          let s := (s.setStage id .begun).modFabric (fun f => { f with backlog := f.backlog ++ parts })
          s.pumpRemotes.settleRemote id

def execKeepRestore (id : Nat) (peer : List PeerPiece) (s : State) : Host.Outcome State Fault Refusal :=
  .next (s.doKeepRestore id peer)

end Sys2Proof.Machine
end

