-- ==== Sys2Proof/Machine/Save.lean ====
section
/-! DEFINITION. Secure saves (R339 to R346, R413): SAVE_SHARD and SAVE_RESTORE, and their transfers over the Liust link. Choices
that the manual leaves open are in log entry 23. -/

namespace Sys2Proof.Machine

/-! ## Transfers of a command -/

/-- Parts of the data stream of a save are numbered from here, and the manifest has this number in a SAVE_SHARD. -/
def dataPart : Nat := 2 ^ 20
def manifestPart : Nat := 2 ^ 40

/-- What a command has read or sent as a part. -/
def State.partData (s : State) (id part : Nat) : Option (List Byte × Nat) :=
  (s.liust.data.find? (fun d => d.1 == id && d.2.1 == part)).map (·.2.2)

/-- Is a request of a command outstanding for a part? -/
def State.partOut (s : State) (id part : Nat) : Bool :=
  s.liust.dmas.any (fun d => d.owner == .command id part)

/-- Has a command any request outstanding? -/
def State.anyOut (s : State) (id : Nat) : Bool :=
  s.liust.dmas.any (fun d => match d.owner with | .command i _ => i == id | _ => false)

/-- Ask for n parts of up to 4,096 bytes from a host address, as far as requests are free. -/
def State.askParts (s : State) (id first addr total : Nat) : State :=
  (List.range (ceilDiv total 4096)).foldl (fun (s : State) k =>
    if (s.partData id (first + k)).isSome || s.partOut id (first + k) || !s.hostUp || !s.dmaRoom true then s
    else s.dmaRd (addr + 4096 * k) (min 4096 (ceilDiv (total - 4096 * k) 64 * 64)) (.command id (first + k))) s

/-- The bytes of n parts, when all have come. -/
def State.partsData (s : State) (id first total : Nat) : Option (List Byte) :=
  let ps := (List.range (ceilDiv total 4096)).map (fun k => s.partData id (first + k))
  if ps.all Option.isSome then some ((ps.flatMap (fun p => (p.getD ([], 0)).1)).take total) else none

/-! ## The parameters (R413) -/

namespace Cmd
def saveManifest (c : Cmd) : Nat := c.param 0 8
def saveBuflist (c : Cmd) : Nat := c.param 8 8
def saveBufs (c : Cmd) : Nat := c.param 16 4
def saveGroup (c : Cmd) : Nat := c.param 24 2
def saveTotal (c : Cmd) : Nat := (c.saveRanges.map (·.2)).sum
end Cmd

/-- The parameter checks that both commands share. -/
def State.saveRejs (s : State) (c : Cmd) (write : Bool) : List Rej :=
  c.reservedRejs [] ([(0, 8, low 64), (8, 8, low 64), (16, 4, low 32), (26, 2, 0xF)]
      ++ (if write then [] else [(20, 4, low 32), (24, 2, low 16)])
      ++ (List.range 8).flatMap (fun n => [(32 + 16 * n, 8, low 52), (40 + 16 * n, 8, low 64)]))
    ++ need (c.saveManifest % 64 == 0) Status.rejAlign 64
    ++ need (c.saveBuflist % 64 == 0) Status.rejAlign 72
    ++ need (1 ≤ c.saveBufs && c.saveBufs ≤ 65536) Status.rejShape 80
    ++ need (1 ≤ c.saveCount && c.saveCount ≤ 8) Status.rejShape 90
    ++ (enumFrom 0 c.saveRanges).flatMap (fun (r : Nat × Nat × Nat) =>
      need (r.2.1 % 64 == 0) Status.rejAlign (96 + 16 * r.1)
        ++ need (r.2.2 % 64 == 0) Status.rejAlign (104 + 16 * r.1)
        ++ need (s.presentSpan r.2.1 r.2.2 && s.allows c.ctx r.2.1 r.2.2 (!write) write && (!write || !s.hitsImage r.2.1 r.2.2))
            Status.rejRegion (96 + 16 * r.1))

/-- Does a range lie in the primary pieces of this module, each byte in one of them? -/
def State.ownsRange (s : State) (a n : Nat) : Bool :=
  (List.range (ceilDiv n 64)).all (fun i => s.keeper.pieces.any (fun p =>
    !p.mirror && p.d.base ≤ a + 64 * i && a + 64 * i + 64 ≤ p.d.base + p.len))

def State.saveShardStart (s : State) (c : Cmd) : Started :=
  { rejs := s.saveRejs c false
      ++ (enumFrom 0 c.saveRanges).flatMap (fun (r : Nat × Nat × Nat) =>
        need (s.ownsRange r.2.1 r.2.2) Status.rejRegion (96 + 16 * r.1))
      ++ need (c.isHost || (s.group? c.saveGroup).isSome) Status.rejGroup 88 }

/-- The global blocks that a range touches all have an owner (R334). -/
def State.rangeOwned (s : State) (a n : Nat) : Bool :=
  s.keeper.pieces.all (fun p => p.blocks.all (fun b =>
    !rangesMeet a n (p.addr b) mib || (s.fabric.roster.block p.group p.tensor b).valid))

def State.saveRestoreStart (s : State) (c : Cmd) : Started :=
  { rejs := s.saveRejs c true
      ++ (enumFrom 0 c.saveRanges).flatMap (fun (r : Nat × Nat × Nat) =>
        need (s.rangeOwned r.2.1 r.2.2) Status.rejShape (96 + 16 * r.1)) }

/-! ## Streams over ranges and buffers -/

/-- The pieces of n bytes of the stream from an offset: address, length. -/
def streamAt : List (Nat × Nat) → Nat → Nat → List (Nat × Nat)
  | [], _, _ => []
  | (a, len) :: r, off, n =>
    if n == 0 then []
    else if len ≤ off then streamAt r (off - len) n
    else
      let k := min n (len - off)
      (a + off, k) :: streamAt r 0 (n - k)

/-- The host address of an offset of the stream in a buffer list. -/
def bufferAt : List (Nat × Nat) → Nat → Nat
  | [], _ => 0
  | (a, len) :: r, off => if len ≤ off then bufferAt r (off - len) else a + off

/-- The entries of a buffer list. -/
def bufferList (b : List Byte) : List (Nat × Nat) := (chunks 16 b).map (fun e => (fieldAt e 0 8, fieldAt e 8 8))

/-- A failed check of a buffer list (R339, R413). -/
def bufferRej (bufs : List (Nat × Nat)) (total : Nat) : Option Rej :=
  worst (need (bufs.all (fun b => b.1 % 4096 == 0 && b.2 % 4096 == 0)) Status.rejAlign 72
    ++ need (total ≤ (bufs.map (·.2)).sum) Status.rejShape 72)

/-- The bytes and poison marks of a piece of the stream. -/
def State.streamData (s : State) (ps : List (Nat × Nat)) : List Byte × Nat :=
  let blocks := ps.flatMap (fun p => (List.range (p.2 / 64)).map (fun i => p.1 + 64 * i))
  (blocks.flatMap (fun a => s.mem.bytes a 64),
    (enumFrom 0 blocks).foldl (fun acc x => acc + flagAt (s.mem.poisoned x.2) x.1) 0)

/-! ## SAVE_SHARD -/

/-- Wall-clock milliseconds of a span of `wall`. -/
def wallMs (n : Nat) : Nat := n / (720720 * 10 ^ 6)

/-- A save acts (R346): it streams, and the count of boundaries starts again. -/
def State.saveActs (s : State) (c : Cmd) : State :=
  s.modSave (fun v => { v with active := some c.id, since := 0, rose := false, due := false, startNanos := s.wall })

/-- The step of a save (R341). A host command is bound to none, so that its STEP is a free number. -/
def State.saveStepNo (s : State) (c : Cmd) : Nat × State :=
  match c.step? with
  | some n => (n.toNat, s)
  | none => let f := s.freeNat; (f.1 % 2 ^ 32, f.2)

/-- The manifest body (R340). -/
def State.saveBody (s : State) (c : Cmd) (step : Nat) (data : List Byte) : List Byte :=
  natLe 256 (0x47534D46 + at' 1 32 + at' c.saveCount 48 + at' step 64 + at' s.moduleId 96
    + (match s.save.kept with | some p => at' p 112 + flagAt true 124 | none => 0)
    + at' data.length 128 + at' (sha3 data).toNat 192
    + ((enumFrom 0 c.saveRanges).map (fun (r : Nat × Nat × Nat) => at' (r.2.1 + at' r.2.2 64) (448 + 128 * r.1))).sum
    + at' (c.param 20 4) 1472)

/-- Everything that a save has sent, in stream order. -/
def State.sentData (s : State) (c : Cmd) : Option (List Byte) := s.partsData c.id dataPart c.saveTotal

/-- The step that a manifest will name is fixed when the save acts, and kept as a part of its own. -/
def stepPart : Nat := 2 ^ 41

/-- The data and the manifest of a save that acts go out as far as requests are free. -/
def State.saveSend (s : State) (c : Cmd) (bufs : List (Nat × Nat)) : State :=
  let id := c.id
  let n := ceilDiv c.saveTotal 4096
  let s := (List.range n).foldl (fun (s : State) k =>
    if (s.partData id (dataPart + k)).isSome || !s.hostUp || !s.dmaRoom false then s
    else
      let d := s.streamData (streamAt c.saveRanges (4096 * k) (min 4096 (c.saveTotal - 4096 * k)))
      let s := (s.dmaWr (bufferAt bufs (4096 * k)) d.1 (BitVec.ofNat 64 d.2) (.command id (dataPart + k))).addPoisonIn id
        (countBits d.2 64)
      (s.modLiust (fun x => { x with data := x.data ++ [(id, dataPart + k, d.1, d.2)] })).modSave (fun v => { v with
        unsent := streamAt c.saveRanges (4096 * (k + 1)) c.saveTotal })) s
  match s.sentData c with
  | none => s
  | some data =>
    if s.anyOut id || !s.hostUp || !s.dmaRoom false then s
    else
      let step := ((s.partData id stepPart).map (fun p => p.2)).getD 0
      let body := s.saveBody c step data
      let sig := s.identitySign body
      (sig.2.dmaWr c.saveManifest (body ++ sig.1) 0#64 (.command id manifestPart)).setStage id (.dma 1)

/-- A save acts once, when its buffer list has passed its checks (R339, R346). -/
def State.saveBegin (s : State) (c : Cmd) : State :=
  if (s.partData c.id stepPart).isSome then s
  else
    let f := (s.saveActs c).saveStepNo c
    f.2.modLiust (fun x => { x with data := x.data ++ [(c.id, stepPart, [], f.1)] })

/-- A save goes on (R339): it reads the buffer list, acts, then sends its data as far as requests are free, then the
manifest. -/
def State.saveOn (s : State) (c : Cmd) : State :=
  let id := c.id
  let s := s.askParts id 0 c.saveBuflist (16 * c.saveBufs)
  match s.partsData id 0 (16 * c.saveBufs) with
  | none => s
  | some l =>
    let bufs := bufferList l
    match bufferRej bufs c.saveTotal with
    | some r => s.finish id (rejCompl r.1 r.2)
    | none => (s.saveBegin c).saveSend c bufs

/-- SAVE_SHARD: it holds its ranges (R220), runs its barrier if a playbook issued it, and streams while the row is taken
again. The pairing of its manifest is the one that stands when it starts (R340). -/
def State.doSaveShard (s : State) (id : Nat) : State :=
  match s.running? id 0x810 with
  | none => s
  | some c =>
    match c.stage with
    | .go =>
      let s := s.modSave (fun v => { v with
        holder := some id, unsent := c.saveRanges, kept := if s.keeper.standing then s.keeper.partner else none })
      if c.isHost then (s.setStage id (.dma 0)).saveOn c
      else
        let s := s.modSave (fun v => { v with groupSize := ((s.group? c.saveGroup).map (fun g => g.members.length)).getD 1 })
        s.runBarrier c c.saveGroup s.save.due
    | .dma 0 => s.saveOn c
    | _ => s

def execSaveShard (id : Nat) (s : State) : Host.Outcome State Fault Refusal := .next (s.doSaveShard id)

/-- A write of a save is acknowledged; the manifest's ends the save (R339). -/
def State.saveAcked (s : State) (c : Cmd) (part : Nat) : State :=
  if part == manifestPart then
    let step := ((s.partData c.id stepPart).map (fun p => p.2)).getD 0
    let s := s.modSave (fun v => { v with
      lastStep := BitVec.ofNat 32 step, lastMs := wallMs (s.wall - v.startNanos), anySave := true })
    s.finishPart c.id { status := Status.ok, count := ceilDiv c.saveTotal mib, aux := 1 }
  else s

/-! ## SAVE_RESTORE (R343) -/

/-- The lengths of a manifest's ranges are those of the parameters. -/
def lengthsMatch (m : List Byte) (c : Cmd) : Bool :=
  fieldAt m 6 2 == c.saveCount
    && (List.range 8).all (fun n => fieldAt m (64 + 16 * n) 8 == ((c.saveRanges.map (·.2)).getD n 0))

/-- The writes of the ranges from a stream of blocks, each with its mark. -/
def restoreWrites (ps : List (Nat × Nat)) (data : List Byte) (marks : Nat → Bool) : List BlockWr :=
  let blocks := ps.flatMap (fun p => (List.range (p.2 / 64)).map (fun i => p.1 + 64 * i))
  (enumFrom 0 (blocks.zip (chunks 64 data))).map (fun (x : Nat × Nat × List Byte) =>
    BlockWr.full x.2.1 (bytesAt x.2.2 0 64) (marks x.1) true)

/-- The ranges written from a stream of blocks, each with its mark. -/
def State.restoreBlocks (s : State) (ps : List (Nat × Nat)) (data : List Byte) (marks : Nat → Bool) : State :=
  s.writeBlocks (restoreWrites ps data marks)

/-- Ranges whose contents are undefined: free bytes and marks. -/
def State.scramble (s : State) (ps : List (Nat × Nat)) (total : Nat) : State :=
  let k := s.free
  let s := { s with free := s.free + 2 * total }
  s.restoreBlocks ps ((List.range total).map (fun i => Config.freeByte (k + i))) (fun i => Config.freeBit (k + total + i))

/-- A restore goes on: manifest and buffer list, then the data, then the checks. -/
def State.restoreOn (s : State) (c : Cmd) : State :=
  let id := c.id
  let s := (s.askParts id manifestPart c.saveManifest 2676).askParts id 0 c.saveBuflist (16 * c.saveBufs)
  match s.partsData id manifestPart 2676, s.partsData id 0 (16 * c.saveBufs) with
  | some m, some l =>
    let bufs := bufferList l
    match bufferRej bufs c.saveTotal with
    | some r => s.finish id (rejCompl r.1 r.2)
    | none =>
      if !lengthsMatch m c then s.finish id (rejCompl Status.rejShape 0xFFFF)
      else if !s.manifestOk m then s.finish id (plainCompl Status.fltSaveSignature)
      else
        let s := (List.range (ceilDiv c.saveTotal 4096)).foldl (fun (s : State) k =>
          if (s.partData id (dataPart + k)).isSome || s.partOut id (dataPart + k) || !s.hostUp || !s.dmaRoom true then s
          else s.dmaRd (bufferAt bufs (4096 * k)) (min 4096 (c.saveTotal - 4096 * k)) (.command id (dataPart + k))) s
        match s.sentData c with
        | none => s
        | some data =>
          if (sha3 data).toNat != fieldAt m 24 32 then
            (s.scramble c.saveRanges c.saveTotal).finish id (plainCompl Status.fltSaveDigest)
          else
            let marks := fun (i : Nat) => bit (((s.partData id (dataPart + i / 64)).map (fun p => p.2)).getD 0) (i % 64)
            let bad := ((List.range (c.saveTotal / 64)).filter (fun i => marks i)).length
            s.perform c { writes := restoreWrites c.saveRanges data marks, poisonIn := bad }
  | _, _ => s

/-- SAVE_RESTORE. -/
def State.doSaveRestore (s : State) (id : Nat) : State :=
  match s.running? id 0x811 with
  | some c => (s.setStage id (.dma 0)).restoreOn c
  | none => s

def execSaveRestore (id : Nat) (s : State) : Host.Outcome State Fault Refusal := .next (s.doSaveRestore id)

/-- COUNT and AUX of a SAVE_SHARD that ends early: what it has streamed, and whether it acted (R402). -/
def State.saveDetail (s : State) (c : Cmd) : Nat × Nat :=
  let sent := s.liust.data.filter (fun d => d.1 == c.id && dataPart ≤ d.2.1 && d.2.1 < manifestPart)
  if c.opcode == 0x810 then
    (ceilDiv ((sent.map (fun d => d.2.2.1.length)).sum) mib, if (s.partData c.id stepPart).isSome then 1 else 0)
  else (0, 0)

/-- A transfer of a save or a restore was refused, timed out or lost with the link (R342, R361, R367). -/
def State.saveBroken (s : State) (c : Cmd) (flt : Nat) : State :=
  s.finish c.id { status := if c.opcode == 0x810 then Status.fltSaveLink else flt, poisonIn := c.part.poisonIn
                  count := (s.saveDetail c).1, aux := (s.saveDetail c).2 }

end Sys2Proof.Machine
end

