-- ==== Sys2Proof/Machine/Stop.lean ====
section
/-! DEFINITION. Commands that stop part way: CANCEL, CTX_DESTROY, PLAYBOOK_STOP and DRAFT_CANCEL (R94, R185, R221, R227, R280,
R342, R387, R400). -/

namespace Sys2Proof.Machine

/-! ## What a running command would do -/

/-- The effect of a draft run whose list and copies are all there; before that it has written nothing. -/
def State.draftRunEffect (s : State) (c : Cmd) : Effect :=
  let d := s.draft c.draftTable
  if !d.genOpen || !d.listDone || c.stage == .dma 1 then {}
  else
    let l := s.runPairs d c (((c.op? 0).map (fun o => o.d.extent 1)).getD 0)
    if !(l.1.all (fun x => s.haveExpert d x.1)) then {}
    else if c.opcode == 0x703 then (s.fwdEffect d c l.1 l.2).2
    else (s.bwdEffect d c l.1 l.2).2.1

/-- The copy that a PB_FEED or PB_POST makes. -/
def State.ringEffect (s : State) (c : Cmd) : Effect :=
  let q := s.seq c.seqNum
  match c.op? 0 with
  | none => {}
  | some d =>
    if c.opcode == 0x643 then s.ringCopy (d.inSlot (ringSlot q.inBase q.inSlot q.inSlots q.feedHead)) d
    else s.ringCopy d (d.inSlot (ringSlot q.resBase q.resSlot q.resSlots q.resultTail))

/-- What a running command does when it acts; nothing for one that acts through packets, transfers or the Referee. -/
def State.dataEffect (s : State) (c : Cmd) : Effect :=
  match c.opcode with
  | 0x100 => s.moveCopyEffect c
  | 0x101 => s.moveFillEffect c
  | 0x102 => s.movePermuteEffect c
  | 0x110 => s.gatherBlocksEffect c
  | 0x111 => s.scatterBlocksEffect c
  | 0x200 => s.denseEffect c
  | 0x300 => s.spmmEffect c
  | 0x301 => s.spspEffect c
  | 0x302 => s.intersectEffect c
  | 0x310 => s.gatherEffect c
  | 0x311 => s.scatterEffect c
  | 0x312 => s.scatterAddEffect c
  | 0x313 => s.embedBagEffect c
  | 0x320 => s.topcEffect c
  | 0x330 => s.predictEffect c
  | 0x400 => s.eltwiseEffect c
  | 0x401 => s.activateEffect c false
  | 0x402 => s.activateEffect c true
  | 0x420 | 0x421 | 0x422 | 0x423 | 0x424 | 0x425 => s.fusedEffect c
  | 0x630 =>
    if c.optRefresh || !c.units.isEmpty || (c.verdictOk && c.optStateOk) then s.optEffect c (s.optUnits c) else {}
  | 0x643 | 0x644 => s.ringEffect c
  | 0x703 | 0x704 => s.draftRunEffect c
  | _ => {}

/-- What may have happened of a running command when it ends part way: nothing of one whose first tile is still preloaded,
and for a product the free choice that its first row has not streamed (R65). -/
def State.partEffect (s : State) (c : Cmd) : Effect :=
  if !s.mayStream c.id || (c.onArray && Config.freeBit s.free) then {} else s.dataEffect c

/-- A generation closes with a run that ends it (R275). -/
def State.closeAfter (s : State) (c : Cmd) : State :=
  if c.opcode == 0x704 || (c.opcode == 0x703 && bit c.draftCtrl 10) then s.closeGen c.draftTable else s

/-- A running command ends with a fault part way: a free part of its writes has landed (R185, R221), and it reports free counts
up to those of the whole. -/
def State.cutShort (s : State) (c : Cmd) (st : Nat) : State :=
  let e := s.partEffect c
  let k := s.faultCompl c.id st
  let i := { s with free := s.free + 1 }.freeNat
  let o := i.2.freeNat
  let n := o.2.freeNat
  let x := n.2.freeNat
  let s := (x.2.stopEffect c e none).closeAfter c
  s.finish c.id { status := st, poisonIn := c.part.poisonIn + i.1 % (e.poisonIn + 1)
                  poisonOut := c.part.poisonOut + o.1 % (e.poisonOut + 1)
                  count := k.count + (s.saveDetail c).1 + n.1 % (e.count + 1)
                  aux := k.aux + (s.saveDetail c).2 + x.1 % (e.aux + 1) }

/-! ## PLAYBOOK_STOP in mode 1 -/

/-- The draft commands of a table's current generation: those that run, and those that wait ahead of the next
DRAFT_PROPOSE. -/
def State.ofGeneration (s : State) (t ctx : Nat) : List Nat :=
  let mine := s.cmds.filter (fun c => c.ctx == ctx && 0x701 ≤ c.opcode && c.opcode ≤ 0x704 && c.draftTable == t)
  let next := mine.find? (fun c => c.opcode == 0x701 && c.isWaiting)
  (mine.filter (fun c => c.isRunning || (c.isWaiting && c.opcode != 0x701
    && (match next with | some p => c.id < p.id | none => true)))).map (fun c => c.id)

/-- The tables of a context whose generation is open. -/
def State.openTables (s : State) (ctx : Nat) : List Nat :=
  (List.range 64).filter (fun t => (s.draft t).bound && (s.draft t).ctx == ctx && (s.draft t).genOpen)

/-- Open generations of a context's draft tables retire (R280, R387). -/
def State.retireDrafts (s : State) (ctx : Nat) : State := (s.openTables ctx).foldl State.retireGen s

/-- Is a command one that CANCEL never ends: one that the Referee or a sequencer runs (R400)? -/
def runsToEnd (op : Nat) : Bool := refereeOp op || (0x601 ≤ op && op ≤ 0x603)

/-- One command of a playbook, or of a queue, is cancelled (R400). A PLAYBOOK_START is left to its playbook once that
is accepted. -/
def State.cancelCmd (s : State) (id : Nat) : State :=
  match s.cmd? id with
  | none => s
  | some c =>
    match c.st with
    | .waiting => s.finish id (rejCompl Status.rejCancelled)
    | .running =>
      if runsToEnd c.opcode || (c.opcode == 0x600 && c.stage != .go) then s else s.cutShort c Status.fltCancelled
    | .done _ => s

/-- A playbook ends at once: it issues nothing further, and its commands in flight are cancelled (R227), with the draft
commands of the generations that retire (R280). -/
def State.stopPlaybook (s : State) (n : Nat) (byCancel : Bool) : State :=
  if (s.seq n).st == .idle then s
  else
    let s := s.modSeq n (fun q => { q with st := .stopping, stopNow := true, cancelled := q.cancelled || byCancel })
    let ctx := (s.seq n).ctx
    let drafts := (s.openTables ctx).flatMap (fun t => s.ofGeneration t ctx)
    let ids := (s.cmds.filter (fun c => c.ofSeq n || drafts.contains c.id)).map (fun c => c.id)
    (ids.foldl State.cancelCmd (s.retireDrafts ctx)).settleSeq n

/-- PLAYBOOK_STOP (R227, R231). A playbook that is held, or that waits to be held, is at a step boundary already. -/
def State.doPlaybookStop (s : State) (id : Nat) : State :=
  s.runChecked id 0x601 State.playbookCtlStart (fun s c =>
    let n := c.seqParam
    let q := s.seq n
    let s := s.finish id (plainCompl Status.ok)
    if bit (c.param 0 4) 8 then s.stopPlaybook n false
    else if q.st == .held || (q.st == .holding && !q.holdAtBoundary) then
      (s.modSeq n (fun q => { q with st := .stopping })).settleSeq n
    else s.modSeq n (fun q => { q with stopAtBoundary := true }))

def execPlaybookStop (id : Nat) (s : State) : Host.Outcome State Fault Refusal := .next (s.doPlaybookStop id)

/-! ## CANCEL -/

/-- Commands that a CANCEL ends: those that wait, and those that run on a unit whose work can be cut short, PLAYBOOK_START
included. -/
def Cmd.cancellable (c : Cmd) : Bool :=
  c.placed && c.opcode != 0x020 && (c.isWaiting || (c.isRunning && (c.opcode == 0x600 || !runsToEnd c.opcode)))

/-- The sequencers whose playbook some PLAYBOOK_STARTs started. -/
def State.startedBy (s : State) (starts : List Nat) : List Nat :=
  (List.range 4).filter (fun n => (s.seq n).st != .idle && starts.contains (s.seq n).starter)

/-- The commands that match are cancelled, those of a cancelled PLAYBOOK_START's playbook too; their numbers. Such a playbook ends
with FLT_CANCELLED, whether it was stopping already or not (R400). -/
def State.cancelAll (s : State) (id : Nat) (p : Cmd → Bool) : State × List Nat :=
  let hit := s.cmds.filter (fun c => c.id != id && c.cancellable && p c)
  let stops := s.startedBy ((hit.filter (fun c => c.isRunning && c.opcode == 0x600)).map (fun c => c.id))
  let ids := hit.map (fun c => c.id)
  let s := stops.foldl (fun (s : State) n => s.modSeq n (fun q => { q with cancelled := true })) s
  let s := ids.foldl State.cancelCmd s
  (stops.foldl (fun (s : State) n => s.stopPlaybook n true) s, ids)

/-- A command waits until others have completed, and then gives a count. -/
def State.awaitAll (s : State) (id : Nat) (ids : List Nat) (count : Nat) : State :=
  (s.setStage id (.await (ids.filter (fun i => s.cmds.any (fun c => c.id == i))) count)).settleAwaits

def State.cancelStart (_ : State) (c : Cmd) : Started :=
  { rejs := c.reservedRejs [] [(0, 4, 0xF3F03), (4, 4, low 32)]
      ++ need (bits (c.param 0 4) 1 0 != 3) Status.rejReserved 64 }

/-- The commands that CANCEL's MODE selects. -/
def Cmd.cancels (k c : Cmd) : Bool :=
  let w := k.param 0 4
  match bits w 1 0 with
  | 0 => c.ofQueue (bits w 13 8) && c.hostTag == k.param 4 4
  | 1 => c.ofQueue (bits w 13 8)
  | _ => c.ctx == bits w 19 16

/-- Has the command still to act, rather than wait for others? -/
def Cmd.atGo (c : Cmd) : Bool := c.stage == .go

/-- CANCEL (R400). -/
def State.doCancel (s : State) (id : Nat) : State :=
  s.runChecked id 0x020 State.cancelStart (fun s c =>
    if c.atGo then let r := s.cancelAll id c.cancels; r.1.awaitAll id r.2 r.2.length else s)

def execCancel (id : Nat) (s : State) : Host.Outcome State Fault Refusal := .next (s.doCancel id)

/-! ## CTX_DESTROY -/

/-- What a context holds goes, once its commands are cancelled (R387): queues, generations, tables, slots, regions, table
slots. -/
def State.clearContext (s : State) (x : Nat) : State :=
  let s := s.retireDrafts x
  let s := { s with
    drafts := s.drafts.map (fun (d : Draft) => if d.bound && d.ctx == x then { d with bound := false } else d)
    slots := s.slots.filter (fun k => k.ctx != x)
    scratch := s.scratch.filter (fun k => k.ctx != x)
    tiles := s.tiles.filter (fun k => k.ctx != x)
    clusters := s.clusters.map (fun (c : Cluster) => { c with tables := c.tables.map (fun (t : TableSlot) => t.leave x) }) }
  s.modContext x (fun _ => {})

/-- Queues bound to a context are disabled and show why. Entries already fetched are still admitted (R382), and rejected with
REJ_CONTEXT. -/
def State.stopQueues (s : State) (x : Nat) : State :=
  { s with sqs := s.sqs.map (fun (q : Sq) =>
      if q.ctx == x then { q with en := false, stopped := true, reason := .context } else q) }

/-- CTX_DESTROY of a context, on behalf of command `id`. -/
def State.destroyContext (s : State) (id x : Nat) : State :=
  let s := s.stopQueues x
  let s := (s.cancelAll id (fun c => c.ctx == x)).1
  let s := (List.range 4).foldl (fun (s : State) n =>
    if (s.seq n).st != .idle && (s.seq n).ctx == x then s.stopPlaybook n false else s) s
  s.clearContext x

/-- CTX_DESTROY (R387). -/
def State.doCtxDestroy (s : State) (id : Nat) : State :=
  match s.running? id 0x001 with
  | none => s
  | some c =>
    if !c.atGo then s
    else match worst (s.ctxDestroyStart c).rejs with
      | some r => s.finish id (rejCompl r.1 r.2)
      | none =>
        let x := c.ctxParam
        let s := s.destroyContext id x
        s.awaitAll id ((s.cmds.filter (fun k => k.id != id && k.ctx == x)).map (fun k => k.id)) 0

def execCtxDestroy (id : Nat) (s : State) : Host.Outcome State Fault Refusal := .next (s.doCtxDestroy id)

/-! ## DRAFT_OPEN and DRAFT_CANCEL (R257, R280) -/

/-- The draft commands of a table's open generation that were issued before command `id`. -/
def State.inFlightBefore (s : State) (t id : Nat) : List Nat :=
  if (s.draft t).genOpen then (s.ofGeneration t (s.draft t).ctx).filter (fun i => i < id) else []

/-- DRAFT_OPEN: a generation that is still open closes as DRAFT_CANCEL closes it (R257), and the table is bound anew. -/
def execDraftOpen (id : Nat) (s : State) : Host.Outcome State Fault Refusal :=
  .next (match s.running? id 0x700 with
    | none => s
    | some c =>
      let n := Cmd.draftTableByte c.held
      let s := (s.inFlightBefore n id).foldl State.cancelCmd s
      (s.modDraft n (fun _ => c.openedDraft)).finish id (plainCompl Status.ok))

def State.draftCancelStart (s : State) (c : Cmd) : Started :=
  let t := c.draftTable
  { rejs := c.reservedRejs [] [(0, 4, 0x3F)]
      ++ need ((s.draft t).bound && (s.draft t).ctx == c.ctx) Status.rejDraft 64 }

def State.doDraftCancel (s : State) (id : Nat) : State :=
  s.runChecked id 0x705 State.draftCancelStart (fun s c =>
    let t := c.draftTable
    let s := if (s.draft t).genOpen then ((s.ofGeneration t c.ctx).foldl State.cancelCmd s).retireGen t else s
    s.finish id (plainCompl Status.ok))

/-- DRAFT_CANCEL. -/
def execDraftCancel (id : Nat) (s : State) : Host.Outcome State Fault Refusal := .next (s.doDraftCancel id)

/-! ## Completions that waited -/

/-- The completion at the front of a queue is written, and those behind it, while entries and requests are free; `k` bounds
their number. -/
def State.flushCq (s : State) (n : Nat) : Nat → State
  | 0 => s
  | k + 1 =>
    match (s.cq n).done.head? with
    | none => s
    | some id => if s.canWrite n id then (s.writeCompletion n id).flushCq n k else s

/-- The completions of every queue that can be written are written (R361, R368). -/
def State.flushAll (s : State) : State :=
  (List.range 64).foldl (fun (s : State) n => s.flushCq n (s.cq n).done.length) s

end Sys2Proof.Machine
end

