-- ==== Sys2Proof/Machine/Errors.lean ====
section
/-! DEFINITION. Errors found while commands run (R485 to R495), benching of cores, and the repair records (R77, R491, R503 to
R505). Choices that the manual leaves open are in log entry 26. -/

namespace Sys2Proof.Machine

/-! ## Repair entries and records (R503, R505) -/

namespace Repair
def kind (e : Repair) : Nat := bits e.toNat 3 0
def pos (e : Repair) : Nat := bits e.toNat 10 8
def row (e : Repair) : Nat := bits e.toNat 12 11
def clusterNo (e : Repair) : Nat := bits e.toNat 15 13
def index (e : Repair) : Nat := bits e.toNat 31 24
def addr (e : Repair) : Nat := bits e.toNat 83 32
def serial (e : Repair) : Nat := bits e.toNat 127 96
/-- The core that it names, among the 28 of its cluster. -/
def core (e : Repair) : Nat := 7 * e.row + e.pos
/-- The KIND 3 entry of a core. -/
def ofBench (cluster core : Nat) : Repair := BitVec.ofNat 128 (3 + at' (core % 7) 8 + at' (core / 7) 11 + at' cluster 13)
end Repair

/-- Entries that the soft-repair area of the dugout holds: 64 KiB of 16-byte entries (R479). -/
def dugoutEntries : Nat := 4096

/-- The flash copy in use: the valid one with the higher sequence number (R505). -/
def Flash.record (f : Flash) : Option RecordCopy :=
  if f.recordA.valid && (!f.recordB.valid || f.recordB.seq ≤ f.recordA.seq) then some f.recordA
  else if f.recordB.valid then some f.recordB
  else none

/-- The record is written to the copy not in use. -/
def Flash.writeRecord (f : Flash) (es : List Repair) : Flash :=
  let n : RecordCopy := { valid := true, seq := ((f.record.map (fun r => r.seq)).getD 0) + 1, entries := es }
  if f.record == some f.recordA then { f with recordB := n } else { f with recordA := n }

/-- The entries of the flash record. -/
def State.flashEntries (s : State) : List Repair := (s.referee.flash.record.map (fun r => r.entries)).getD []

/-- Entries joined, those already there once. -/
def joinEntries (a b : List Repair) : List Repair := a ++ (dedup b).filter (fun e => !a.contains e)

/-- A benching is recorded in the dugout, and the Referee copies the entry to flash (R491). -/
def State.recordBench (s : State) (e : Repair) : State :=
  if s.referee.dugout.contains e then s
  else if dugoutEntries ≤ s.referee.dugout.length then s.modErrors (fun x => { x with recordFull := true })
  else
    let s := s.modReferee (fun r => { r with dugout := r.dugout ++ [e] })
    if s.referee.state == .running then s.modFlash (fun f => f.writeRecord (joinEntries s.flashEntries [e])) else s

/-! ## Benching (R20, R489, R492) -/

/-- The bench core of a row. -/
def Cluster.benchOf (c : Cluster) (row : Nat) : Option Nat :=
  ((List.range 7).map (fun p => 7 * row + p)).find? (fun i => (vget c.cores i {}).mode == .bench)

def Cluster.modCore (c : Cluster) (i : Nat) (f : Core → Core) : Cluster := { c with cores := vmod c.cores i f }

/-- A core without work: nothing streams, waits or holds a feeder slot on it. -/
def Core.emptied (k : Core) : Core :=
  { k with
    said := 0
    parts := k.parts.map (fun p => { p with cmd := none, next := none, preload := none, cls := 0, nextCls := 0 })
    threads := k.threads.map (fun t => { t with cmd := none })
    feeds := Vector.replicate 16 none }

/-- A core is benched. The bench core of its row takes an active one's place; a row without one runs degraded. The shares
that a benched core still ran go on on other cores (R499). -/
def Cluster.bench (c : Cluster) (i : Nat) : Cluster :=
  let k := vget c.cores i {}
  let d := c.modCore i (fun k => { k.emptied with mode := .benched, failing := false, cls := 0 })
  match k.mode, d.benchOf (i / 7) with
  | .active, some j => d.modCore j (fun x => { x with mode := .active, cls := k.cls })
  | _, _ => d

/-- A core of a cluster is benched: it counts, its sticky bit is set, and the benching is recorded. -/
def State.benchCore (s : State) (n i : Nat) : State :=
  if (vget (s.cluster n).cores i {}).mode == .benched then s
  else
    let s := (s.modCluster n (fun c => c.bench i)).bump .coresBenched
    (s.modErrors (fun e => { e with coreBenched := true })).recordBench (Repair.ofBench n i)

/-- A core among the 28 of its cluster. -/
def coreIndex (c : CoreRef) : Nat := 7 * c.row + c.pos

/-- A command's share leaves a core for others of the cluster, which report its class (R76, R489). -/
def State.relocate (s : State) (n i id : Nat) : State :=
  let s := s.moveShare n i id
  match s.cmd? id with
  | some c => s.reportCores c
  | none => s

/-- A core is marked failing (R489). It admits no new share, so that what it has only preloaded goes elsewhere, and it comes to
the next boundary of each partition (R74). -/
def State.markFailing (s : State) (n i : Nat) : State :=
  let k := vget (s.cluster n).cores i {}
  if !s.stands n k then s
  else (k.parts.toList.filterMap (fun p => p.next)).foldl (fun (s : State) id => s.relocate n i id)
    (s.modCluster n (fun c => c.modCore i (fun x => { x with failing := true })))

/-- A core is benched at a command boundary (R20): at once where it is at one, else it is marked and CORE_BENCH ends it. -/
def State.benchAtBoundary (s : State) (n i : Nat) : State :=
  let k := vget (s.cluster n).cores i {}
  if s.stands n k && !k.atBoundary then s.markFailing n i else s.benchCore n i

/-- Does the core run commands in a cluster that runs? -/
def State.coreRuns (s : State) (c : CoreRef) : Bool :=
  s.alive && s.stands c.cluster (vget (s.cluster c.cluster).cores (coreIndex c) {})

/-- A running command ends with FLT_HW (R490, R495). -/
def State.endHw (s : State) (id : Nat) : State :=
  match s.cmd? id with
  | some c => if c.isRunning then s.cutShort c Status.fltHw else s
  | none => s

/-! ## The rows -/

/-- RESIDUE_FAILURE (R488): the row is streamed again; a second failure is lasting. -/
def State.doResidue (s : State) (c : CoreRef) (again : Bool) : State :=
  if !s.coreRuns c then s
  else if again then
    ((s.bump .residueLasting).modErrors (fun e => { e with residueLasting := true })).markFailing c.cluster (coreIndex c)
  else s.bump .residueRetry

def execResidueFailure (core : CoreRef) (_scrum secondFails : Bool) (s : State) : Host.Outcome State Fault Refusal :=
  .next (s.doResidue core secondFails)

/-- The blocks of the core-scratch tensors that lie in a cluster, and of their scale planes. -/
def State.scratchBlocks (s : State) (n : Nat) : List Nat :=
  (s.scratch.filter (fun t => t.clusters.contains n)).flatMap (fun t =>
    (List.range (ceilDiv t.bytes 64)).map (fun i => scratchLoc t.id (64 * i))
      ++ (List.range (ceilDiv t.plane 64)).map (fun i => scratchLoc t.id (2 ^ 29 + 64 * i)))

/-- A block of 16 sums of an output tile is poisoned. -/
def spoilTile (t : AccTile) (row block : Nat) : AccTile :=
  (enumFrom 0 t).map (fun r =>
    if r.1 == row then (enumFrom 0 r.2).map (fun x => if x.1 / 16 == block then (x.2.1, true) else x.2) else r.2)

/-- A block of a partition's accumulator buffer is poisoned (R79, R485). -/
def Part.spoilSums (b : Bool) (x : Nat) (p : Part) : Part :=
  if b then { p with tileB := spoilTile p.tileB (x % max p.tileB.length 1) (x / 512 % 8) }
  else { p with tileA := spoilTile p.tileA (x % max p.tileA.length 1) (x / 512 % 8) }

/-- A column of a tile that the feeder has staged is poisoned. -/
def StatTile.spoil (x : Nat) (t : StatTile) : StatTile :=
  { t with elems := (enumFrom 0 t.elems).map (fun c =>
      if c.1 == x % max t.elems.length 1 then c.2.map (fun e => { e with poison := true }) else c.2) }

/-- A lasting error in a core's stores (R485): a free choice says whether a block in use was hit, and which: one of a
core-scratch tensor, of the accumulator buffer, or of what the feeder has staged. -/
def State.poisonStore (s : State) (n i : Nat) : State :=
  let blocks := s.scratchBlocks n
  let b := s.freeBit
  let k := b.2.freeNat
  let x := k.2.freeNat
  let s := x.2
  let inCore := fun (f : Part → Part) => s.modCluster n (fun c => c.modCore i (fun y =>
    { y with parts := vmod y.parts (x.1 / 4096 % y.split.parts) f }))
  if !b.1 then s
  else match k.1 % 4 with
    | 0 => if blocks == [] then s else s.setMem (s.mem.setPoison (blocks.getD (x.1 % blocks.length) 0) true)
    | 1 => inCore (Part.spoilSums false x.1)
    | 2 => inCore (Part.spoilSums true x.1)
    | _ => inCore (fun p => { p with preload := p.preload.map (StatTile.spoil x.1) })

/-- Sixteen elements of a slot, those of one block, are poisoned where they lie in the buffer of a cluster, which holds the rows
of its bands (R88, R91). -/
def Slot.spoil (n x : Nat) (k : Slot) : Slot :=
  { k with poison := (enumFrom 0 k.poison).map (fun e =>
      e.2 || (e.1 / 16 == x % max (ceilDiv k.poison.length 16) 1 && k.clusters.getD (e.1 / max k.cols 1 / 512 % max k.clusters.length 1) 8 == n)) }

/-- A lasting error in the slot pool of a cluster buffer: whether an open slot holds the block, and which of its elements lie
there, is a free choice (R91, R494; log entry 26). -/
def State.poisonPool (s : State) (n : Nat) : State :=
  let b := s.freeBit
  let k := b.2.freeNat
  let x := k.2.freeNat
  let s := x.2
  if !b.1 then s
  else { s with slots := (enumFrom 0 s.slots).map (fun p =>
    if p.1 == k.1 % max s.slots.length 1 then p.2.spoil n x.1 else p.2) }

/-- A block of a cluster buffer is poisoned; one in the slot pool, which takes the top of the buffer, is a slot's (R170, R494). -/
def State.poisonBuffer (s : State) (n off : Nat) : State :=
  let s := s.setMem (s.mem.setPoison (bufLoc n off) true)
  if 48 * 2 ^ 20 - s.slotPool n ≤ off then s.poisonPool n else s

/-- SRAM_UE (R485, R494): a single-bit error is corrected and counted; a second read tells a transient error from a lasting
one. -/
def State.doSramUe (s : State) (place : SramPlace) (o : SramOutcome) : State :=
  if !s.alive then s
  else match o with
    | .corrected => s.bump .sramCe
    | .transient => s.bump .sramUeTransient
    | .failed =>
      let s := (s.bump .sramUeLasting).modErrors (fun e => { e with sramLasting := true })
      match place with
      | .clusterBuffer n off => s.poisonBuffer n off
      | .coreStore c => (s.poisonStore c.cluster (coreIndex c)).markFailing c.cluster (coreIndex c)

def execSramUe (place : SramPlace) (outcome : SramOutcome) (s : State) : Host.Outcome State Fault Refusal :=
  .next (s.doSramUe place outcome)

/-- A command that runs on a failing core: whether its share is one that fails is a free choice; such a share restarts
elsewhere. -/
def State.restartShare (c : CoreRef) (s : State) (id : Nat) : State :=
  let b := s.freeBit
  if b.1 then b.2.relocate c.cluster (coreIndex c) id else b.2

/-- CORE_FAILING (R489, R490): failing shares of the core restart on others, with no effect on results. A share that was
restarted once already ends its command. -/
def State.doCoreFailing (s : State) (c : CoreRef) (ids : List Nat) : State :=
  if s.coreRuns c then
    let s := (ids.foldl State.endHw s).markFailing c.cluster (coreIndex c)
    let k := vget (s.cluster c.cluster).cores (coreIndex c) {}
    ((s.cmds.map (fun x => x.id)).filter k.runs).foldl (State.restartShare c) s
  else s

def execCoreFailing (core : CoreRef) (ids : List Nat) (s : State) : Host.Outcome State Fault Refusal :=
  .next (s.doCoreFailing core ids)

/-- CORE_BENCH (R74, R489): a failing core is benched once every partition of it is at a command boundary. -/
def State.doCoreBench (s : State) (c : CoreRef) : State :=
  let k := vget (s.cluster c.cluster).cores (coreIndex c) {}
  if s.alive && k.failing && k.atBoundary then s.benchCore c.cluster (coreIndex c) else s

def execCoreBench (core : CoreRef) (s : State) : Host.Outcome State Fault Refusal := .next (s.doCoreBench core)

/-! ## Die-to-die links (R495): dies C0 to C3 are 0 to 3, H0 and H1 are 4 and 5 -/

/-- DLINK_FLIT_ERROR (R485, R495). A link whose retrain fails is lost until module reset. -/
def State.doDlink (s : State) (a b : Nat) (intact retrained : Bool) (ids : List Nat) : State :=
  if !s.alive then s
  else if intact then s.bump .dlinkRetry
  else if retrained then s
  else
    let s := (s.bump .dlinkLasting).modErrors (fun e => { e with
      dlinkLasting := true
      dlinkDown := if e.dlinkDown.contains (linkOf a b) then e.dlinkDown else e.dlinkDown ++ [linkOf a b] })
    ((s.cmds.filter (fun c => ids.contains c.id || s.needsDownLink c)).map (fun c => c.id)).foldl State.endHw s

def execDlinkFlitError (a b : Nat) (replayIntact retrained : Bool) (ids : List Nat) (s : State) :
    Host.Outcome State Fault Refusal :=
  .next (s.doDlink a b replayIntact retrained ids)

end Sys2Proof.Machine
end

