-- ==== Sys2Proof/Machine/Regs.lean ====
section
/-! DEFINITION. Configuration and status space (R10 to R12, R364, R365, R422 to R437): the register map, what a read of a
register gives, what a write does, CNT_CLEAR, CLEAR_STICKY and CFG_WR. -/

namespace Sys2Proof.Machine

/-- An 8-byte word of the register map (R425, R426, R433, R461, R483, R509). `k` numbers the words of a wider register. -/
inductive Reg where
  | modIdent | modSerial | modCycles | rngSeed | stickySummary | cfgLate | cntClear | clkStatus | memCfg | saveCfg
  | saveStatus (k : Nat) | scoutStatus | keepStatus
  | ctr (i : Nat) | memCtr (kind n : Nat)
  | cluster (n k : Nat)
  | hbmPlace (k : Nat) | memErrStatus | memErrLogNext | ddrStatus (n : Nat) | memErrLog (n : Nat)
  | sqCfg (n k : Nat) | sqStatus (n : Nat) | cqCfg (n k : Nat) | cqStatus (n : Nat)
  | region (c n k : Nat) | accSlotOpen (c : Nat)
  | pbCfg (s : Nat) | pbStatus (s : Nat) | lossEwma (s : Nat) | feedHead (s : Nat) | feedTail (s : Nat)
  | resultHead (s : Nat) | resultTail (s : Nat) | pbSticky (s : Nat) | pbDigest (s k : Nat) | phaseCyc (s k : Nat)
  | relayDelay (s : Nat) | stepRecord (s i k : Nat)
  | fabCtrl | fabCfg | fabStatus | portStatus (n : Nat) | pass (shadow : Bool) (d k : Nat)
  | liustStatus | draftGen (n : Nat)
  | pwrStatus | pwrCfg | pwrSticky | pwrLastOff | pwrClamps | pwrDomain (code : Nat)
  | refStatus | fwStatus | imageDigest (k : Nat) | authNonce (k : Nat) | peerLoad | peerStatus
  | recAddr | recBytes | recCtrl | recStatus
  | errSticky | postStatus | fuseRepair | errCtr (i : Nat)
  deriving DecidableEq, Repr

/-! ## The map -/

/-- The Module block. -/
def moduleReg (o : Nat) : Option Reg :=
  match o with
  | 0x00 => some .modIdent
  | 0x08 => some .modSerial
  | 0x10 => some .modCycles
  | 0x18 => some .rngSeed
  | 0x20 => some .stickySummary
  | 0x28 => some .cfgLate
  | 0x30 => some .cntClear
  | 0x38 => some .clkStatus
  | 0x40 => some .memCfg
  | 0x48 => some .saveCfg
  | 0x50 => some (.saveStatus 0)
  | 0x58 => some (.saveStatus 1)
  | 0x60 => some .scoutStatus
  | 0x68 => some .keepStatus
  | _ => none

/-- The counter block (R433). -/
def counterReg (o : Nat) : Option Reg :=
  if o ≤ 0x100 then some (.ctr (o / 8))
  else if 0x1000 ≤ o && o < 0x1180 then some (.memCtr ((o - 0x1000) / 0x80) (o % 0x80 / 8))
  else if 0x1200 ≤ o && o < 0x1360 && o % 0x80 < 0x60 then some (.memCtr (3 + (o - 0x1200) / 0x80) (o % 0x80 / 8))
  else none

/-- The Memory block. -/
def memoryReg (o : Nat) : Option Reg :=
  if o < 0x20 then some (.hbmPlace (o / 8))
  else if o == 0x20 then some .memErrStatus
  else if o == 0x28 then some .memErrLogNext
  else if 0x100 ≤ o && o < 0x160 then some (.ddrStatus ((o - 0x100) / 8))
  else if 0x200 ≤ o && o < 0x280 then some (.memErrLog ((o - 0x200) / 8))
  else none

/-- The Queues block. -/
def queueReg (o : Nat) : Option Reg :=
  if o < 0x400 then some (.sqCfg (o / 16) (o % 16 / 8))
  else if o < 0x600 then some (.sqStatus ((o - 0x400) / 8))
  else if 0x800 ≤ o && o < 0xC00 then some (.cqCfg ((o - 0x800) / 16) (o % 16 / 8))
  else if 0xC00 ≤ o && o < 0xE00 then some (.cqStatus ((o - 0xC00) / 8))
  else none

/-- A Sequencer block. -/
def seqReg (n o : Nat) : Option Reg :=
  match o with
  | 0x00 => some (.pbCfg n)
  | 0x08 => some (.pbStatus n)
  | 0x10 => some (.lossEwma n)
  | 0x18 => some (.feedHead n)
  | 0x20 => some (.feedTail n)
  | 0x28 => some (.resultHead n)
  | 0x30 => some (.resultTail n)
  | 0x38 => some (.pbSticky n)
  | 0x148 => some (.relayDelay n)
  | _ =>
    if 0x40 ≤ o && o < 0x60 then some (.pbDigest n ((o - 0x40) / 8))
    else if 0x100 ≤ o && o < 0x148 then some (.phaseCyc n ((o - 0x100) / 8))
    else if 0x8000 ≤ o && o < 0x10000 then some (.stepRecord n ((o - 0x8000) / 0x80) (o % 0x80 / 8))
    else none

/-- The Fabric block. -/
def fabricReg (o : Nat) : Option Reg :=
  match o with
  | 0x00 => some .fabCtrl
  | 0x08 => some .fabCfg
  | 0x10 => some .fabStatus
  | _ => if 0x100 ≤ o && o < 0x280 then some (.portStatus ((o - 0x100) / 8)) else none

/-- The Power and thermal block (R483). -/
def powerReg (o : Nat) : Option Reg :=
  match o with
  | 0x00 => some .pwrStatus
  | 0x08 => some .pwrCfg
  | 0x10 => some .pwrSticky
  | 0x18 => some .pwrLastOff
  | 0x20 => some .pwrClamps
  | _ =>
    let c := (o - 0x1000) / 8
    if 0x1000 ≤ o && (domainCodes.contains c || c == 0x60) then some (.pwrDomain c) else none

/-- The Referee block (R446, R461). -/
def refereeReg (o : Nat) : Option Reg :=
  match o with
  | 0x00 => some .refStatus
  | 0x08 => some .fwStatus
  | 0x60 => some .peerLoad
  | 0x68 => some .peerStatus
  | 0x80 => some .recAddr
  | 0x88 => some .recBytes
  | 0x90 => some .recCtrl
  | 0x98 => some .recStatus
  | _ =>
    if 0x20 ≤ o && o < 0x40 then some (.imageDigest ((o - 0x20) / 8))
    else if 0x40 ≤ o && o < 0x60 then some (.authNonce ((o - 0x40) / 8))
    else none

/-- The Errors block (R509). -/
def errorsReg (o : Nat) : Option Reg :=
  match o with
  | 0x00 => some .errSticky
  | 0x08 => some .postStatus
  | 0x10 => some .fuseRepair
  | _ => if 0x100 ≤ o && o < 0x130 then some (.errCtr ((o - 0x100) / 8)) else none

/-- The word at an 8-byte-aligned offset from CSB (R425, R426). -/
def regAt (o : Nat) : Option Reg :=
  let b := o % 0x10000
  if o < 0x10000 then moduleReg b
  else if o < 0x20000 then counterReg b
  else if 0x100000 ≤ o && o < 0x180000 then
    (if b ≤ 0x30 then some (.cluster ((o - 0x100000) / 0x10000) (b / 8)) else none)
  else if 0x200000 ≤ o && o < 0x210000 then memoryReg b
  else if 0x300000 ≤ o && o < 0x310000 then queueReg b
  else if 0x400000 ≤ o && o < 0x410000 then
    let c := b / 0x1000
    let r := b % 0x1000
    if r < 0x400 then some (.region c (r / 16) (r % 16 / 8)) else if r == 0x400 then some (.accSlotOpen c) else none
  else if 0x500000 ≤ o && o < 0x540000 then seqReg ((o - 0x500000) / 0x10000) b
  else if 0x600000 ≤ o && o < 0x610000 then fabricReg b
  else if 0x610000 ≤ o && o < 0x630000 then some (.pass (0x620000 ≤ o) (b / 16) (b % 16 / 8))
  else if 0x700000 ≤ o && o < 0x710000 then (if b == 0 then some .liustStatus else none)
  else if 0x800000 ≤ o && o < 0x810000 then (if b < 0x200 then some (.draftGen (b / 8)) else none)
  else if 0x900000 ≤ o && o < 0xA00000 then powerReg (o - 0x900000)
  else if 0xA00000 ≤ o && o < 0xB00000 then refereeReg (o - 0xA00000)
  else if 0xB00000 ≤ o && o < 0xC00000 then errorsReg (o - 0xB00000)
  else none

/-! ## Fields -/

/-- A field within its word, and whether it goes on beyond the word. -/
structure Field where
  hi : Nat
  lo : Nat
  cut : Bool := false

/-- A field wider than 32 bits, or one that crosses bit 32 of its word (R424). -/
def Field.wide (f : Field) : Bool := f.cut || 32 < f.hi + 1 - f.lo || (f.lo < 32 && 32 ≤ f.hi)

/-- The fields of a word that are wide; a 4-byte write drops when it touches one. -/
def Reg.wide : Reg → List Field
  | .modSerial | .modCycles | .rngSeed | .ctr _ | .memCtr _ _ | .accSlotOpen _ | .phaseCyc _ _ | .relayDelay _ | .pwrClamps
  | .errCtr _ | .recAddr => [{ hi := 63, lo := 0 }]
  | .hbmPlace _ | .pbDigest _ _ | .imageDigest _ | .authNonce _ => [{ hi := 63, lo := 0, cut := true }]
  | .memErrLog _ | .peerLoad => [{ hi := 51, lo := 0 }]
  | .sqCfg _ k | .cqCfg _ k => if k == 1 then [{ hi := 63, lo := 12 }] else []
  | .region _ _ _ => [{ hi := 51, lo := 0 }]
  | .pwrStatus => [{ hi := 35, lo := 24 }]
  | .pass _ _ k =>
    if k == 0 then [{ hi := 63, lo := 32, cut := true }]
    else [{ hi := 15, lo := 0, cut := true }, { hi := 63, lo := 16 }]
  | .stepRecord _ _ k =>
    match k with
    | 0 => [{ hi := 47, lo := 0 }, { hi := 63, lo := 48, cut := true }]
    | 1 => [{ hi := 31, lo := 0, cut := true }, { hi := 63, lo := 32, cut := true }]
    | 2 => [{ hi := 15, lo := 0, cut := true }, { hi := 63, lo := 16 }]
    | 3 => [{ hi := 47, lo := 0 }, { hi := 63, lo := 48, cut := true }]
    | 4 => [{ hi := 31, lo := 0, cut := true }, { hi := 63, lo := 32, cut := true }]
    | 5 => [{ hi := 15, lo := 0, cut := true }, { hi := 63, lo := 16 }]
    | 6 => [{ hi := 47, lo := 0 }, { hi := 63, lo := 48, cut := true }]
    | 7 => [{ hi := 31, lo := 0, cut := true }]
    | _ => []
  | _ => []

/-- Does a 4-byte write at an offset touch a wide field? -/
def Reg.dropsHalf (r : Reg) (high : Bool) : Bool :=
  r.wide.any (fun f => f.wide && (if high then 32 ≤ f.hi else f.lo < 32))

/-- The W1C fields of a word (R430). -/
def Reg.w1c : Reg → Nat
  | .cfgLate => 0x3FFF
  | .clkStatus | .pbSticky _ => 1
  | .scoutStatus => 0xFF00
  | .keepStatus => 3
  | .memErrStatus => 0xFFFFFFF
  | .cqStatus _ => 0x2000
  | .fabStatus => 0x60
  | .portStatus _ => 0x10000
  | .liustStatus => 0x70
  | .pwrSticky => 0xFF
  | .refStatus => 0x100
  | .errSticky => 0x7F
  | _ => 0

/-! ## Reads -/

/-- Word k of a wider value. -/
def wordOf (v k : Nat) : Nat := v >>> (64 * k) % 2 ^ 64

def CfgLate.word (c : CfgLate) : Nat :=
  c.cluster.toNat + at' c.seq.toNat 8 + flagAt c.rng 12 + flagAt c.power 13

def Errors.sticky (e : Errors) : Nat :=
  flagAt e.coreBenched 0 + flagAt e.residueLasting 1 + flagAt e.sramLasting 2 + flagAt e.dlinkLasting 3
    + flagAt e.clusterOut 4 + flagAt e.recordBad 5 + flagAt e.recordFull 6

def Power.sticky (p : Power) : Nat :=
  flagAt p.capLimited 0 + flagAt p.throttled 1 + flagAt p.fastClamp 2 + flagAt p.stVinMargin 3 + flagAt p.stRegMargin 4
    + flagAt p.coolBad 5 + flagAt p.capUnmet 6 + flagAt p.wakeFail 7

/-- The lasting-error bits of the channels (R533). -/
def MemSide.ddrShown (m : MemSide) : BitVec 12 :=
  (m.ddrLasting &&& ~~~m.ddrUndef) ||| (m.ddrUndef &&& (Config.undefReport 0).setWidth 12)

/-- STICKY_SUMMARY (R430). -/
def State.summary (s : State) : Nat :=
  flagAt (s.cfgLate.word != 0) 0 + flagAt (s.cqs.toList.any (fun q => q.lost)) 1 + flagAt s.power.clkLost 2
    + flagAt (s.memside.hbmLasting != 0#16 || s.memside.ddrShown != 0#12) 3
    + flagAt (s.keeper.diverged || s.keeper.sameFeed) 4 + flagAt (s.fabric.idConflict || s.fabric.reoriented) 5
    + flagAt (s.fabric.ports.toList.any (fun p => p.lasting)) 6
    + flagAt (s.liust.dbBad || s.liust.lasting || s.liust.linkDown) 7
    + flagAt (s.seqs.toList.any (fun q => q.feedOverrun)) 8 + flagAt (s.power.sticky != 0) 9
    + flagAt s.referee.busy 10 + flagAt (s.errors.sticky != 0) 11

/-- CLUSTER_STATUS (R436). -/
def Cluster.status (c : Cluster) : Nat :=
  let active := c.activeCores
  let rowFree := fun r => (List.range 7).any (fun p => (vget c.cores (7 * r + p) {}).mode == .bench)
  flagAt (active < 24) 0 + at' active 8 + flagAt (rowFree 0) 20 + flagAt (rowFree 1) 21 + flagAt (rowFree 2) 22
    + flagAt (rowFree 3) 23

/-- VEC_TABLE_VALID (R163). -/
def Cluster.tablesValid (c : Cluster) : Nat :=
  (enumFrom 0 c.tables.toList).foldl (fun acc (t : Nat × TableSlot) =>
    acc + flagAt (t.2.image.isSome || t.2.shadow.isSome) t.1) 0

def Cluster.reg (c : Cluster) (k : Nat) : Nat :=
  match k with
  | 0 => c.array.shadow.toNat
  | 1 => c.acc.shadow.toNat
  | 2 => c.scrum.shadow.toNat
  | 3 => c.core.shadow.toNat
  | 4 => c.feeder.shadow.toNat
  | 5 => c.tablesValid
  | _ => c.status

/-- The 128 bits of a region entry (R384). -/
def Region.toNat (r : Region) : Nat :=
  r.base + flagAt r.read 56 + flagAt r.write 57 + flagAt r.host 58 + flagAt r.remote 59 + flagAt r.place 60
    + flagAt r.valid 63 + at' r.limit 64

def SeqSt.code : SeqSt → Nat
  | .idle => 0 | .running => 1 | .holding => 2 | .held => 3 | .stopping => 4

def FabState.code : FabState → Nat
  | .off => 0 | .discovering => 1 | .member => 2 | .refused => 3 | .hold => 4

def PortState.code : PortState → Nat
  | .down => 0 | .training => 1 | .up => 2 | .retraining => 3 | .disabled => 4

def LinkState.code : LinkState → Nat
  | .down => 0 | .training => 1 | .up => 2 | .retraining => 3

def DomSt.code : DomSt → Nat
  | .off => 0 | .nap => 1 | .idle => 2 | .active => 3 | .entering => 4 | .waking => 5 | .failed => 6

def OffCause.code : OffCause → Nat
  | .none => 0 | .powerFail => 1 | .thermalTrip => 2 | .regulator => 3 | .clockLoss => 4

def LifeCycle.code : LifeCycle → Nat
  | .blank => 0 | .manufacture => 1 | .field => 2 | .analysis => 3 | .ended => 4

def RefState.code : RefState → Nat
  | .rom => 0 | .recovery => 1 | .running => 2 | .ended => 3

def StopReason.code : StopReason → Nat
  | .none => 0 | .fetch => 1 | .context => 2

/-- An entry of the memory error log (R435). -/
def MemErr.word (e : MemErr) : Nat := e.addr + at' e.unit 56 + flagAt e.ddr 62 + 2 ^ 63

/-- A pass-table entry (R312). -/
def PassEntry.toNat (e : PassEntry) : Nat :=
  flagAt e.valid 0 + at' (e.hops % 256) 8 + at' e.down.toNat 32 + at' e.ports.toNat 80

/-- MOD_IDENT (R427). -/
def modIdent : Nat := 0x4A4D087241010000

/-- ROM_VERSION (R444). -/
def romVersion : Nat := 0x00A10001

/-- FW_STATUS (R445). FUSE_SVN and LIFECYCLE show the fuses. -/
def State.fwStatus (s : State) : Nat :=
  s.referee.fuses.life.code + at' (s.referee.imageSvn % 64) 4 + at' (s.referee.fuses.svn % 64) 10 + at' (s.referee.compat % 65536) 16
    + at' romVersion 32

def SaveStatus.word (v : Save) (streaming : Bool) : Nat :=
  flagAt streaming 0 + flagAt v.due 1 + at' v.since 11 + at' v.t 22 + at' v.lastMs 64 + at' v.lastStep.toNat 96

/-- Does a save stream? While it waits for its barrier it does not. -/
def State.streaming (s : State) : Bool :=
  match s.save.active with
  | none => false
  | some id => match s.cmd? id with
    | some c => c.stage != .barrier
    | none => false

/-- PWR_DOMAIN of a domain (R483). AO is always on, and has no votes. -/
def State.domainReg (s : State) (c : Nat) : Nat :=
  if c == 0x60 then 3
  else
    let d := s.domain c
    (s.shown c).code + at' (s.hwVote c) 6 + ((List.range 4).map (fun k => at' (vget d.pb k 0) (8 + 2 * k))).sum
      + at' (s.refVote c) 16 + at' d.host 18

/-- An error counter of a stack or channel. Those of a channel whose reports are undefined read free values (R533). -/
def MemSide.counter (m : MemSide) (kind n : Nat) : Word64 :=
  if 3 ≤ kind && m.ddrUndef.getLsbD n then Config.undefReport (12 * kind + n)
  else match kind with
  | 0 => vget m.hbmCe n 0#64
  | 1 => vget m.hbmUeT n 0#64
  | 2 => vget m.hbmUeL n 0#64
  | 3 => vget m.ddrCe n 0#64
  | 4 => vget m.ddrUeT n 0#64
  | _ => vget m.ddrUeL n 0#64

/-- An entry of the memory error log as it reads (R533). -/
def MemSide.logWord (m : MemSide) (n : Nat) : Nat :=
  match vget m.log n none with
  | some e => if e.ddr && m.ddrUndef.getLsbD e.unit then (Config.undefReport (100 + n)).toNat else e.word
  | none => 0

/-- What a read of a sequencer's word gives. -/
def Seq.reg (q : Seq) : Reg → Nat
  | .pbCfg _ => q.cfg.shadow.toNat
  | .pbStatus _ => q.st.code + flagAt (q.relay && q.st != .idle) 8 + at' q.loops.length 9 + at' (q.entry % 65536) 16
      + at' q.step.toNat 32
  | .lossEwma _ => q.ewma.toNat
  | .feedHead _ => q.feedHead.toNat
  | .feedTail _ => q.feedTail.toNat
  | .resultHead _ => q.resultHead.toNat
  | .resultTail _ => q.resultTail.toNat
  | .pbSticky _ => flagAt q.feedOverrun 0
  | .pbDigest _ k => wordOf q.digest.toNat k
  | .phaseCyc _ k => (vget q.phaseCyc k 0#64).toNat
  | .relayDelay _ => q.relayDelayCyc.toNat
  | .stepRecord _ i k => match q.records.find? (fun r => r.1 == i) with
    | some r => fieldAt r.2 (8 * k) 8
    | none => 0
  | _ => 0

/-- What a read of a word of the power block gives. -/
def State.powerWord (s : State) : Reg → Nat
  | .pwrStatus => s.power.profile + at' s.power.limiting 5 + at' s.power.step 8 + at' (s.power.tHot % 256) 16
      + at' s.power.capEff 24 + at' (satTo 12 (s.power.pavg / 1000)) 36
  | .pwrCfg => s.power.cfg.shadow.toNat
  | .pwrSticky => s.power.sticky
  | .pwrLastOff => s.power.lastOff.code + at' (s.power.lastOffDomain % 256) 8
  | .pwrClamps => (s.ctr .pwrClamps).toNat
  | .pwrDomain c => s.domainReg c
  | _ => 0

/-- What a read of a word of the Referee block gives. -/
def State.refereeWord (s : State) : Reg → Nat
  | .refStatus => s.referee.state.code + flagAt s.referee.busy 8 + at' s.referee.mult 24 + at' s.referee.util 32
  | .fwStatus => s.fwStatus
  | .imageDigest k => wordOf s.referee.imageDigest.toNat k
  | .authNonce k => wordOf s.referee.nonce.toNat k
  | .peerLoad => s.referee.peerAddr + at' s.referee.peerId 52
  | .peerStatus => s.referee.peerResult + at' s.referee.peers.length 8
  | .recAddr => s.referee.recAddr.toNat
  | .recBytes => s.referee.recBytes.toNat
  | .recStatus => s.referee.recState
  | _ => 0

/-- What a read of a word of the fabric blocks gives. -/
def State.fabricWord (s : State) : Reg → Nat
  | .fabCtrl => s.fabric.moduleId + at' s.fabric.level 16 + flagAt s.fabric.en 31
  | .fabCfg => s.fabric.cfg.shadow.toNat
  | .fabStatus => s.fabric.state.code + flagAt s.fabric.isCaptain 4 + flagAt s.fabric.reoriented 5
      + flagAt s.fabric.idConflict 6 + at' s.fabric.roster.presentIds.length 7 + at' s.fabric.captain 20
      + at' s.fabric.roster.epoch 32
  | .portStatus n =>
    let p := s.port n
    p.state.code + flagAt p.nbrMember 8 + flagAt (p.state == .up && p.heard && s.leadsUp n) 9 + at' p.width 10
      + flagAt p.lasting 16 + at' p.retrains 32 + at' p.nbrPort 46 + at' p.nbrId 52
  | .pass shadow d k =>
    let t := if shadow then s.fabric.shadow else s.fabric.inForce
    wordOf (((t.find? (fun e => e.1 == d)).map (fun e => e.2.toNat)).getD 0) k
  | _ => 0

/-- What a read of a word gives (R10, R11). -/
def State.regRead (s : State) (r : Reg) : Nat :=
  match r with
  | .modIdent => modIdent
  | .modSerial => Config.serial.toNat
  | .modCycles => s.cycles.toNat
  | .rngSeed => s.rngSeed.shadow.toNat
  | .stickySummary => s.summary
  | .cfgLate => s.cfgLate.word
  | .cntClear => 0
  | .clkStatus => flagAt s.power.clkLost 0
  | .memCfg => s.memside.cfg.shadow.toNat
  | .saveCfg => at' s.save.cDefault 16 + at' s.save.failFit.toNat 32
  | .saveStatus k => wordOf (SaveStatus.word s.save s.streaming) k
  | .scoutStatus => s.scout.index + at' s.scout.peak 8
  | .keepStatus => flagAt s.keeper.sameFeed 0 + flagAt s.keeper.diverged 1
      + (if s.keeper.standing then at' (s.keeper.partner.getD 0) 16 + 2 ^ 28 else 0) + at' s.keeper.feedId.toNat 48
  | .ctr i => (vget s.ctrs i 0#64).toNat
  | .errCtr i => (vget s.ctrs (33 + i) 0#64).toNat
  | .memCtr kind n => (s.memside.counter kind n).toNat
  | .cluster n k => (s.cluster n).reg k
  | .hbmPlace k => wordOf s.memside.place.toNat k
  | .memErrStatus => s.memside.hbmLasting.toNat + at' s.memside.ddrShown.toNat 16
  | .memErrLogNext => s.memside.logNext
  | .ddrStatus n => let d := vget s.memside.ddr n {}; d.rate + at' d.type 14 + at' d.gib 16
  | .memErrLog n => s.memside.logWord n
  | .sqCfg n k => let q := s.sq n; if k == 1 then q.base else flagAt q.en 0 + at' q.ctx 16 + at' q.cq 20 + at' q.size 32
  | .sqStatus n => let q := s.sq n; flagAt q.stopped 1 + at' q.reason.code 2 + at' q.tail 20 + at' q.head 32
  | .cqCfg n k => let q := s.cq n; if k == 1 then q.base else flagAt q.en 0 + at' q.vector 24 + at' q.size 32
  | .cqStatus n => let q := s.cq n; q.head + flagAt q.wphase 12 + flagAt q.lost 13 + at' q.tail 32
  | .region c n k => wordOf (vget (s.context c).regions n {}).toNat k
  | .accSlotOpen c => (s.slots.filter (fun k => k.ctx == c)).foldl (fun acc k => acc + 2 ^ k.num) 0
  | .pbCfg n | .pbStatus n | .lossEwma n | .feedHead n | .feedTail n | .resultHead n | .resultTail n | .pbSticky n
  | .pbDigest n _ | .phaseCyc n _ | .relayDelay n | .stepRecord n _ _ => (s.seq n).reg r
  | .fabCtrl | .fabCfg | .fabStatus | .portStatus _ | .pass _ _ _ => s.fabricWord r
  | .liustStatus => s.liust.state.code + at' s.liust.width 2 + flagAt s.liust.linkDown 4 + flagAt s.liust.lasting 5
      + flagAt s.liust.dbBad 6 + at' s.liust.retrains 24
  | .draftGen n => let d := s.draft n; d.gen + flagAt d.genOpen 16 + flagAt d.bound 17 + at' d.ctx 18
  | .pwrStatus | .pwrCfg | .pwrSticky | .pwrLastOff | .pwrClamps | .pwrDomain _ => s.powerWord r
  | .refStatus | .fwStatus | .imageDigest _ | .authNonce _ | .peerLoad | .peerStatus | .recAddr | .recBytes | .recCtrl
  | .recStatus => s.refereeWord r
  | .errSticky => s.errors.sticky
  | .postStatus => flagAt s.errors.postRunning 0 + at' s.errors.postDone.toNat 8 + at' s.errors.postBenched 24
      + at' s.errors.postOut.toNat 40
  | .fuseRepair => s.referee.fuses.free + at' s.referee.fuses.fieldUsed 16

/-! ## Clearing -/

/-- The bits of m cleared in a flag word of width w. -/
def clearBits {w : Nat} (x : BitVec w) (m : Nat) : BitVec w := x &&& ~~~(BitVec.ofNat w m)

/-- A W1C write of the bits m to a word (R10, R430). -/
def State.clearW1c (s : State) (r : Reg) (m : Nat) : State :=
  let k := fun (b : Bool) (i : Nat) => b && !bit m i
  match r with
  | .cfgLate => { s with cfgLate := {
      cluster := clearBits s.cfgLate.cluster m, seq := clearBits s.cfgLate.seq (bits m 11 8)
      rng := k s.cfgLate.rng 12, power := k s.cfgLate.power 13 } }
  | .clkStatus => s.modPower (fun p => { p with clkLost := k p.clkLost 0 })
  | .pbSticky n => s.modSeq n (fun q => { q with feedOverrun := k q.feedOverrun 0 })
  | .scoutStatus => if bits m 15 8 != 0 then s.modScout (fun v => { v with peak := 0 }) else s
  | .keepStatus => s.modKeeper (fun v => { v with sameFeed := k v.sameFeed 0, diverged := k v.diverged 1 })
  | .memErrStatus => s.modMemside (fun v => { v with
      hbmLasting := clearBits v.hbmLasting m, ddrLasting := clearBits v.ddrLasting (bits m 27 16) })
  | .cqStatus n => s.modCq n (fun q => { q with lost := k q.lost 13 })
  | .fabStatus => s.modFabric (fun f => { f with reoriented := k f.reoriented 5, idConflict := k f.idConflict 6 })
  | .portStatus n => s.modPort n (fun p => { p with lasting := k p.lasting 16 })
  | .liustStatus => s.modLiust (fun l => { l with
      linkDown := k l.linkDown 4, lasting := k l.lasting 5, dbBad := k l.dbBad 6 })
  | .pwrSticky => s.modPower (fun p => { p with
      capLimited := k p.capLimited 0, throttled := k p.throttled 1, fastClamp := k p.fastClamp 2
      stVinMargin := k p.stVinMargin 3, stRegMargin := k p.stRegMargin 4, coolBad := k p.coolBad 5
      capUnmet := k p.capUnmet 6, wakeFail := k p.wakeFail 7 })
  | .refStatus => s.modReferee (fun v => { v with busy := k v.busy 8 })
  | .errSticky => s.modErrors (fun e => { e with
      coreBenched := k e.coreBenched 0, residueLasting := k e.residueLasting 1, sramLasting := k e.sramLasting 2
      dlinkLasting := k e.dlinkLasting 3, clusterOut := k e.clusterOut 4, recordBad := k e.recordBad 5
      recordFull := k e.recordFull 6 })
  | _ => s

/-- Every word with a W1C field (R430). -/
def stickyRegs : List Reg :=
  [.cfgLate, .clkStatus, .scoutStatus, .keepStatus, .memErrStatus, .fabStatus, .liustStatus, .pwrSticky, .refStatus, .errSticky]
    ++ (List.range 4).map Reg.pbSticky ++ (List.range 64).map Reg.cqStatus ++ (List.range 48).map Reg.portStatus

/-- Every sticky bit and PEAK cleared (R405, R430). -/
def State.clearAllSticky (s : State) : State := stickyRegs.foldl (fun (t : State) r => t.clearW1c r r.w1c) s

/-- The checks of CLEAR_STICKY (R405). -/
def State.clearStickyStart (_ : State) (c : Cmd) : Started :=
  let a := c.param 0 8
  let ok := match regAt (a - csb) with
    | some r => csb ≤ a && r.w1c != 0
    | none => false
  { rejs := c.reservedRejs [] [(0, 8, low 64), (8, 8, low 64)]
      ++ need (a % 8 == 0) Status.rejAlign 64
      ++ need (a == 0 || a % 8 != 0 || ok) Status.rejReserved 64 }

/-- CLEAR_STICKY. -/
def State.doClearSticky (s : State) (id : Nat) : State :=
  s.runChecked id 0x030 State.clearStickyStart (fun s c =>
    let a := c.param 0 8
    let s := if a == 0 then s.clearAllSticky else match regAt (a - csb) with
      | some r => s.clearW1c r (c.param 8 8 &&& r.w1c)
      | none => s
    s.finish id (plainCompl Status.ok))

def execClearSticky (id : Nat) (s : State) : Host.Outcome State Fault Refusal := .next (s.doClearSticky id)

/-! ## CNT_CLEAR (R432, R434) -/

def State.clearCtrs (s : State) (l : List Ctr) : State := l.foldl State.clearCtr s

/-- Phase and relay-delay counters of every sequencer. -/
def State.clearSeqCtrs (s : State) : State :=
  { s with seqs := s.seqs.map (fun (q : Seq) =>
      { q with phaseCyc := Vector.replicate 9 0#64, relayDelayCyc := 0#64 }) }

def liustCtrs : List Ctr := [.liustFlitRetry, .liustFlitLasting, .liustRetrain, .liustBad, .liustHostReject, .liustDmaTimeout]
def fabricCtrs : List Ctr :=
  [.fabFlitRetry, .fabFlitLasting, .fabRetrain, .fabDiscardAge, .fabDiscardBad, .fabDiscardRoute, .fabDiscardSeq,
    .fabRemoteReject, .fabTimeout]
def draftCtrs : List Ctr := [.drafted, .undrafted, .staleReturn, .loanRefill, .expertFetch]
def foulCtrs : List Ctr := [.nonfiniteDense, .nonfiniteVec, .nonfiniteGrad, .lossSpike, .noBallSteps]
def scrumCtrs : List Ctr := [.oobCount, .gatherCoalesced, .sortFallback, .missedNeurons, .feedDiscard]
def residueCtrs : List Ctr := [.residueRetry, .residueLasting]

/-- The memory counters and the memory error log. -/
def State.clearMemCtrs (s : State) : State :=
  (s.clearCtr .ssuCoalesced).modMemside (fun m => { m with
    log := Vector.replicate 16 none, logNext := 0
    hbmCe := Vector.replicate 16 0#64, hbmUeT := Vector.replicate 16 0#64, hbmUeL := Vector.replicate 16 0#64
    ddrCe := Vector.replicate 12 0#64, ddrUeT := Vector.replicate 12 0#64, ddrUeL := Vector.replicate 12 0#64 })

def execCntClearSeq (s : State) : Host.Outcome State Fault Refusal := .next (s.atHost State.clearSeqCtrs)
def execCntClearLiust (s : State) : Host.Outcome State Fault Refusal := .next (s.atHost (fun s => s.clearCtrs liustCtrs))
def execCntClearFabric (s : State) : Host.Outcome State Fault Refusal := .next (s.atHost (fun s => s.clearCtrs fabricCtrs))
def execCntClearMemory (s : State) : Host.Outcome State Fault Refusal := .next (s.atHost State.clearMemCtrs)
def execCntClearDraft (s : State) : Host.Outcome State Fault Refusal := .next (s.atHost (fun s => s.clearCtrs draftCtrs))
def execCntClearFoul (s : State) : Host.Outcome State Fault Refusal := .next (s.atHost (fun s => s.clearCtrs foulCtrs))
def execCntClearScrum (s : State) : Host.Outcome State Fault Refusal := .next (s.atHost (fun s => s.clearCtrs scrumCtrs))
def execCntClearResidue (s : State) : Host.Outcome State Fault Refusal := .next (s.atHost (fun s => s.clearCtrs residueCtrs))

/-- A CFG_WR of CNT_CLEAR: one clear for each bit that is 1. -/
def State.clearGroups (s : State) (m : Nat) : State :=
  let s := if bit m 0 then s.clearCtrs residueCtrs else s
  let s := if bit m 1 then s.clearCtrs scrumCtrs else s
  let s := if bit m 2 then s.clearCtrs foulCtrs else s
  let s := if bit m 3 then s.clearCtrs draftCtrs else s
  let s := if bit m 4 then s.clearMemCtrs else s
  let s := if bit m 5 then s.clearCtrs fabricCtrs else s
  let s := if bit m 6 then s.clearCtrs liustCtrs else s
  if bit m 7 then s.clearSeqCtrs else s

/-! ## CFG_WR -/

/-- Does a command run on a cluster (R428)? A target that receives no band runs no part of it (R88). -/
def State.clusterBusy (s : State) (n : Nat) : Bool :=
  s.cmds.any (fun c => c.isRunning && c.latched.any (fun l => l.cluster == n))

/-- Does a PB_LOSS or PB_VERDICT of a sequencer run (R428)? -/
def State.seqBusy (s : State) (n : Nat) : Bool :=
  s.cmds.any (fun c => c.isRunning && c.ofSeq n && (c.opcode == 0x645 || c.opcode == 0x646))

/-- The bits of a shadowed word of a cluster that are fields. -/
def clusterMask (k : Nat) : Nat :=
  match k with
  | 0 => 0xF
  | 1 => 0x3F
  | 2 => 0xFFFFFFFFFF03
  | 3 => 0xFF
  | 4 => 0x3F7F
  | _ => 0

/-- RS fields of a cluster: a write while a command runs there is late. -/
def State.writeCluster (s : State) (n k : Nat) (w : Word64) : State :=
  let busy := s.clusterBusy n
  let s := s.modCluster n (fun c => match k with
    | 0 => { c with array := c.array.write busy w }
    | 1 => { c with acc := c.acc.write busy w }
    | 2 => { c with scrum := c.scrum.write busy w }
    | 3 => { c with core := c.core.write busy w }
    | 4 => { c with feeder := c.feeder.write busy w }
    | _ => c)
  if busy && k ≤ 4 then { s with cfgLate := { s.cfgLate with cluster := s.cfgLate.cluster ||| BitVec.ofNat 8 (2 ^ n) } }
  else s

/-- PB_CFGs: its fields are RS. -/
def State.writePbCfg (s : State) (n : Nat) (w : Word64) : State :=
  let busy := s.seqBusy n
  let s := s.modSeq n (fun q => { q with cfg := q.cfg.write busy w })
  if busy then { s with cfgLate := { s.cfgLate with seq := s.cfgLate.seq ||| BitVec.ofNat 4 (2 ^ n) } } else s

/-- FAB_CFG: a heartbeat takes it. With no heartbeat running it is in force at once. -/
def State.writeFabCfg (s : State) (w : Word64) : State :=
  let s := s.modFabric (fun f => { f with cfg := { f.cfg with shadow := w } })
  if s.fabOn then s else s.takeFabCfg

/-- FAB_CTRL (R305, R306, R312, R327). -/
def State.writeFabCtrl (s : State) (w : Nat) : State :=
  let s := if bit w 31 then s.doFabEnSet (bits w 11 0) else s.doFabEnClear (bits w 11 0)
  if bit w 30 then s.doPassSwap else s

/-- A word of a pass-table entry replaced. -/
def PassEntry.ofNat (v : Nat) : PassEntry :=
  { valid := bit v 0, hops := bits v 15 8, down := BitVec.ofNat 48 (bits v 79 32), ports := BitVec.ofNat 48 (bits v 127 80) }

/-- An entry of a table replaced; the table stays in rising order. -/
def setPass (t : List (Nat × PassEntry)) (d : Nat) (e : PassEntry) : List (Nat × PassEntry) :=
  insertBy (fun (a b : Nat × PassEntry) => a.1 < b.1) (d, e) (t.filter (fun x => x.1 != d))

/-- A word of the shadow bank, which software writes while PASS_SRC = 1 (R312). -/
def State.writePass (s : State) (d k w : Nat) : State :=
  if !s.passSrc then s
  else s.modFabric (fun f =>
    let old := ((f.shadow.find? (fun e => e.1 == d)).map (fun e => e.2.toNat)).getD 0
    let v := if k == 0 then old / 2 ^ 64 * 2 ^ 64 + w else old % 2 ^ 64 + w * 2 ^ 64
    { f with shadow := setPass f.shadow d (PassEntry.ofNat v) })

/-- What a write does to a word (R10): `m` marks the bits that the write carries, `v` holds them. W1C bits clear; RW, RS and WO
fields take the value; the rest is ignored. GO of REC_CTRL and PEER_STATUS act through `go`. -/
def State.regWrite (s : State) (r : Reg) (m v : Nat) (go : State → Reg → State) : State :=
  let w := (s.regRead r &&& (low 64 ^^^ m)) ||| (v &&& m)
  let one := fun i => bit m i && bit v i
  let hits := fun f => m &&& f != 0
  match r with
  | .rngSeed => s.writeSeed (BitVec.ofNat 64 w)
  | .cntClear => s.clearGroups (v &&& m)
  | .memCfg => s.modMemside (fun x => { x with cfg := Rs.init (BitVec.ofNat 64 (w &&& 0xFF0003)) })
  | .saveCfg => s.modSave (fun x => { x with cDefault := bits w 31 16, failFit := BitVec.ofNat 32 (bits w 63 32) })
  | .cluster n k => if hits (clusterMask k) then s.writeCluster n k (BitVec.ofNat 64 (w &&& clusterMask k)) else s
  | .pbCfg n => s.writePbCfg n (BitVec.ofNat 64 (w &&& 0xFFFFFFFFFFFFFFF6))
  | .lossEwma n => if bit m 0 then s.modSeq n (fun q => { q with ewma := BitVec.ofNat 32 w }) else s
  | .feedTail n => if bit m 0 then s.doFeedTail n (BitVec.ofNat 32 w) else s
  | .resultHead n =>
    if bit m 0 && (s.seq n).st != .idle then s.modSeq n (fun q => { q with resultHead := BitVec.ofNat 32 w }) else s
  | .fabCtrl => if bit m 0 then s.writeFabCtrl v else s
  | .fabCfg => s.writeFabCfg (BitVec.ofNat 64 (w &&& 0xFFFFF1FFF01FFF))
  | .pass shadow d k => if shadow then s.writePass d k w else s
  | .pwrCfg => if !hits 0xFFF1F7F then s else s.writePwrCfg (BitVec.ofNat 64 (w &&& 0xFFF1F7F))
  | .peerLoad => s.modReferee (fun x => { x with peerAddr := bits w 51 0, peerId := bits w 63 52 })
  | .peerStatus => if one 8 then go s r else s
  | .recAddr => s.modReferee (fun x => { x with recAddr := BitVec.ofNat 64 w })
  | .recBytes => if bit m 0 then s.modReferee (fun x => { x with recBytes := BitVec.ofNat 32 w }) else s
  | .recCtrl => if one 0 then go s r else s
  | _ => s.clearW1c r (v &&& m)

/-- The registers that answer in RECOVERY (R446). -/
def Reg.inRecovery : Reg → Bool
  | .modIdent | .modSerial | .refStatus | .fwStatus | .liustStatus | .recAddr | .recBytes | .recCtrl | .recStatus => true
  | _ => false

/-- The word that a register access of `len` bytes reaches: LEN 4 or 8, aligned, listed, and in service (R364, R423, R446). -/
def State.regOf (s : State) (addr len : Nat) : Option Reg :=
  if csb ≤ addr && addr % len == 0 then
    match regAt ((addr - csb) / 8 * 8) with
    | some r => if s.inService || r.inRecovery then some r else none
    | none => none
  else none

/-- What a CFG_RD returns (R364, R365, R423): its STATUS and data. -/
def State.cfgRead (s : State) (addr len : Nat) : Nat × Nat :=
  match s.regOf addr len with
  | some r => (0, if len == 8 then s.regRead r else if addr % 8 == 4 then bits (s.regRead r) 63 32 else bits (s.regRead r) 31 0)
  | none => (1, 0)

end Sys2Proof.Machine
end

