-- ==== Sys2Proof/Machine/Referee.lean ====
section
/-! DEFINITION. The Referee: boot and recovery, self-test and repair, attestation, firmware update, life cycle, peer keys and
telemetry (R344, R438 to R461, R496 to R507). Choices that the manual leaves open are in log entries 26 and 27. -/

namespace Sys2Proof.Machine

/-! ## Image checks (R445, R447) -/

/-- What is wrong with an image under steps 2 and 3 of R445, as STATE of REC_STATUS numbers it: 2 its shape or signature,
3 its SVN, 4 its body; 0 where all is well. -/
def State.imageFault (s : State) (m body : List Byte) : Nat :=
  if !(manifestShape m && manifestSigned m) then 2
  else if imageSvnOf m < s.referee.fuses.svn then 3
  else if !bodyMatches m (bytesAt body 0 (imageBodyBytes m)) then 4
  else 0

/-! ## Boot (R445, R482, R505) -/

/-- The row that a KIND 4 or 5 entry replaces: every block of the new row is written with the poison mark (R504). -/
def State.replaceRow (s : State) (a : Nat) : State :=
  let blocks := dedup (blockOf a :: (Config.rowBlocks (blockOf a)).filter (fun x => x % 64 == 0 && x < 2 ^ 52))
  s.writeBlocks (blocks.map (fun x => BlockWr.full x (List.replicate 64 0#8) true false))

/-- The serial number of the DIMM on the channel of an address. -/
def State.dimmSerial (s : State) (a : Nat) : Option Nat :=
  (ddrChannel a).bind (fun n => (vget s.memside.sockets n none).map (fun d => d.serial.toNat))

/-- A cell row (KIND 1) or column (KIND 2) goes into the core's repair map, or out of it (R77). -/
def Core.mapOut (kind i : Nat) (k : Core) : Core :=
  if kind == 1 then { k with badRows := insertNat i k.badRows } else { k with badCols := insertNat i k.badCols }

def Core.mapIn (kind i : Nat) (k : Core) : Core :=
  if kind == 1 then { k with badRows := k.badRows.filter (fun x => x != i) }
  else { k with badCols := k.badCols.filter (fun x => x != i) }

/-- Does the map ask for more than 2 spare rows or 2 spare columns? -/
def Core.beyondSpares (k : Core) : Bool := 2 < k.badRows.length || 2 < k.badCols.length

/-- The map of a core takes an entry, and a core beyond its spares is benched (R77). -/
def Cluster.mapOut (c : Cluster) (core kind i : Nat) : Cluster :=
  let d := c.modCore core (Core.mapOut kind i)
  if (vget d.cores core {}).beyondSpares then d.bench core else d

/-- An entry of a repair record is applied. KIND 1 and 2 change the repair map, which changes no result (R77). -/
def State.applyRepair (s : State) (e : Repair) : State :=
  match e.kind with
  | 1 | 2 => s.modCluster e.clusterNo (fun c => c.mapOut e.core e.kind e.index)
  | 3 => s.modCluster e.clusterNo (fun c => c.bench e.core)
  | 4 => s.replaceRow e.addr
  | 5 => if s.dimmSerial e.addr == some e.serial then s.replaceRow e.addr else s
  | _ => s

/-- The fuse map, then the union of dugout and flash record, which is kept in both (R505). A repair fuse blown later is in
no map before the next module reset. -/
def State.loadRepairs (s : State) : State :=
  let s := match s.referee.flash.record with
    | some _ => s
    | none => s.modErrors (fun e => { e with recordBad := true })
  let all := joinEntries s.referee.dugout s.flashEntries
  let s := (s.referee.fuses.repairs ++ all).foldl State.applyRepair s
  (s.modReferee (fun r => { r with dugout := all })).modFlash (fun f => f.writeRecord all)

/-- The firmware wakes the privileged domains, and every domain in service from OFF once its parent runs (R482). -/
def State.wakeAll (s : State) : State :=
  s.modPower (fun p => { p with domains := p.domains.map (fun (d : Nat × Domain) =>
    let c := d.1
    if c == 0x50 || c == 0x40 then d
    else if isPrivileged c then (c, { d.2 with st := .waking, referee := 3, inService := true })
    else
      let on := if 0x20 ≤ c && c < 0x2C then (vget s.memside.sockets (c - 0x20) none).isSome else true
      (c, { d.2 with inService := on, st := if on && parentOf c == 0x50 then .waking else d.2.st })) })

/-- The link starts to train (R357). -/
def State.trainLink (s : State) : State :=
  s.modLiust (fun l => { l with state := if l.state == .down && l.cable then .training else l.state })

/-- BOOT (R445). -/
def State.doBoot (s : State) : State :=
  if !s.alive || s.referee.state != .rom || !(s.domain 0x50).st.running then s
  else
    let s := s.trainLink
    let f := s.referee.flash
    if s.referee.life == .ended then s.modReferee (fun r => { r with state := .ended })
    else if s.imageFault f.manifest f.body != 0 then s.modReferee (fun r => { r with state := .recovery })
    else
      let s := s.modReferee (fun r => { r with
        state := .running, imageDigest := imageDigestOf f.manifest, imageSvn := imageSvnOf f.manifest
        compat := imageCompatOf f.manifest })
      s.wakeAll.loadRepairs.modErrors (fun e => { e with postRunning := true })

def execBoot (s : State) : Host.Outcome State Fault Refusal := .next s.doBoot

/-! ## Recovery (R446) -/

def State.recFail (s : State) (n : Nat) : State := s.modReferee (fun r => { r with recState := n })

/-- A piece of the image is asked for. -/
def State.recAsk (s : State) (off : Nat) : State := s.dmaRd (s.referee.recAddr.toNat + off) 4096 (.recovery off)

/-- The straps as a module reset finds them that no row gives them for: a free choice (R527). -/
def State.freeStraps (s : State) : Straps :=
  { cool := if Config.freeBit s.free then none else some (BitVec.ofNat 2 (Config.freeNat s.free))
    slot := if Config.freeBit (s.free + 1) then none else some (BitVec.ofNat 4 (Config.freeNat (s.free + 1))) }

/-- A module reset that the module makes itself samples the straps anew (R446, R459, R527). -/
def State.selfReset (s : State) : State := ({ s with free := s.free + 2 }).moduleReset s.freeStraps

/-- An access to the flash ends in a flash fault or goes on; which is free (R446; log entry 27). What the faulted access leaves
is no valid manifest. -/
def State.flashWrite (s : State) (f : Flash → Flash) (go : State → State) : State :=
  let b := s.freeBit
  if b.1 then (b.2.modFlash (fun x => { x with manifest := [] })).recFail 5 else go (b.2.modFlash f)

/-- The whole body is there: its digest is checked, the manifest is written last, and the module resets. -/
def State.recDone (s : State) : State :=
  if s.imageFault s.referee.recManifest s.referee.recBody != 0 then s.recFail 4
  else
    s.flashWrite (fun f => { f with manifest := s.referee.recManifest, body := s.referee.recBody }) State.selfReset

/-- The body goes on, or is whole. -/
def State.recNext (s : State) : State :=
  if s.referee.recBody.length < imageBodyBytes s.referee.recManifest then s.recAsk (4096 + s.referee.recBody.length)
  else s.recDone

/-- A piece of the image has come: the manifest block, checked before the manifest sector is erased, or 4 KiB of the body. -/
def State.recData (s : State) (off : Nat) (data : List Byte) : State :=
  if s.referee.state != .recovery || s.referee.recState != 1 then s
  else if off == 0 then
    if !(manifestShape data && manifestSigned data) || s.referee.recBytes.toNat != 4096 + imageBodyBytes data then s.recFail 2
    else if imageSvnOf data < s.referee.fuses.svn then s.recFail 3
    else
      s.flashWrite (fun f => { f with manifest := [] }) (fun s => (s.modReferee (fun r => { r with
        recManifest := data, recBody := [] })).recNext)
  else
    s.flashWrite (fun f => { f with body := s.referee.recBody ++ data }) (fun t => (t.modReferee (fun r => { r with
      recBody := s.referee.recBody ++ data })).recNext)

/-- A request of the load was refused, timed out or lost. -/
def State.recRefused (s : State) : State := if s.referee.recState == 1 then s.recFail 6 else s

/-- REC_CTRL_GO: in RECOVERY, and while no load runs. -/
def State.doRecGo (s : State) : State :=
  if !s.linkUp || s.referee.state != .recovery || s.referee.recState == 1 then s
  else (s.modReferee (fun r => { r with recState := 1, recManifest := [], recBody := [] })).recAsk 0

def execRecCtrlGo (s : State) : Host.Outcome State Fault Refusal := .next s.doRecGo

/-! ## Peer keys (R455) -/

/-- The peer key table with a binding: it replaces one of the same ID, and the oldest of 64 gives way. -/
def bindPeer (l : List PeerKey) (k : PeerKey) : List PeerKey :=
  if l.any (fun x => x.modId == k.modId) then l.map (fun x => if x.modId == k.modId then k else x)
  else (if 64 ≤ l.length then l.drop 1 else l) ++ [k]

def State.doPeerLoad (s : State) : State :=
  if s.referee.state != .running then s
  else
    let a := s.referee.peerAddr
    let cert := s.mem.bytes a 3796
    if s.allows 0 a 3796 true false && certOk cert then
      s.modReferee (fun r => { r with
        peers := bindPeer r.peers { modId := s.referee.peerId, key := certKey cert }, peerResult := 2 })
    else s.modReferee (fun r => { r with peerResult := 3 })

/-- PEER_LOAD_GO. -/
def execPeerLoadGo (s : State) : Host.Outcome State Fault Refusal := .next (s.atHost State.doPeerLoad)

/-! ## Self-test (R496 to R501) -/

/-- The outcome of a core that no operand names: every part passes. -/
def goodTest : CoreTest :=
  { signature := Config.goldenSignature 0#64 65536, memFail := false, rowFail := 0#130, colFail := 0#130 }

/-- The result for physical core `i` of the package. -/
def testOf (rs : List (Nat × CoreTest)) (i : Nat) : CoreTest := ((rs.find? (fun r => r.1 == i)).map (fun r => r.2)).getD goodTest

/-- The cell rows (KIND 1) or columns (KIND 2) that a core's repair map leaves out (R77). -/
def State.retired (s : State) (kind n i : Nat) : BitVec 130 :=
  let k := vget (s.cluster n).cores i {}
  (if kind == 1 then k.badRows else k.badCols).foldl (fun (m : BitVec 130) (x : Nat) => m ||| BitVec.ofNat 130 (2 ^ x)) 0#130

/-- Does the array part fail: a row or column that the map uses does not work? -/
def State.arrayFail (s : State) (n i : Nat) (t : CoreTest) : Bool :=
  (t.rowFail &&& ~~~(s.retired 1 n i)) != 0#130 || (t.colFail &&& ~~~(s.retired 2 n i)) != 0#130

def logicFail (t : CoreTest) : Bool := t.signature != Config.goldenSignature 0#64 65536

def State.testFails (s : State) (n i : Nat) (t : CoreTest) : Bool := logicFail t || t.memFail || s.arrayFail n i t

/-- A self-test record (R501). -/
def testRecord (logic mem array benched : Bool) (signature : Nat) (rows cols : BitVec 130) : List Byte :=
  natLe 64 (1 + flagAt logic 1 + flagAt mem 2 + flagAt array 3 + flagAt benched 4 + at' signature 64 + at' rows.toNat 174
    + at' cols.toNat 304)

/-- May POST run on the clusters: each of them is on, or its compute die failed to wake? -/
def State.postReady (s : State) : Bool :=
  (List.range 8).all (fun n => (s.domain n).st.running || (s.domain (parentOf n)).st == .failed)

/-- POST of one cluster: cores that fail are benched; a buffer that memory self-test cannot repair takes the cluster out
(R493, R498). -/
def State.postCluster (s : State) (rs : List (Nat × CoreTest)) (bad : BitVec 8) (n : Nat) : State :=
  if !(s.domain n).st.running then s
  else
    let s := (List.range 28).foldl (fun (s : State) i =>
      if s.testFails n i (testOf rs (28 * n + i)) && (vget (s.cluster n).cores i {}).mode != .benched then
        (s.benchCore n i).modErrors (fun e => { e with postBenched := e.postBenched + 1 })
      else s) s
    let s := s.modErrors (fun e => { e with postDone := e.postDone ||| BitVec.ofNat 8 (2 ^ n) })
    if bad.getLsbD n then
      ((s.modCluster n (fun c => { c with out := true })).modErrors (fun e => { e with
        clusterOut := true, postOut := e.postOut ||| BitVec.ofNat 8 (2 ^ n) })).modDomain n (fun d => { d with inService := false })
    else s

/-- POST (R476, R498). -/
def State.doPost (s : State) (rs : List (Nat × CoreTest)) (bad : BitVec 8) : State :=
  if !s.alive || s.referee.state != .running || !s.errors.postRunning || !s.postReady then s
  else
    let s := (List.range 8).foldl (fun (s : State) n => s.postCluster rs bad n) s
    let s := s.modErrors (fun e => { e with postRunning := false })
    let s := s.modPower (fun p => { p with domains := p.domains.map (fun (d : Nat × Domain) =>
      (d.1, { d.2 with host := if d.2.inService && d.1 < 0x40 then 2 else d.2.host })) })
    domainCodes.foldl State.settleDomain s

def execPost (rs : List (Nat × CoreTest)) (badBuffers : BitVec 8) (s : State) : Host.Outcome State Fault Refusal :=
  .next (s.doPost rs badBuffers)

/-- The checks of an address that a Referee command writes n bytes to (R508). -/
def State.resultRejs (s : State) (c : Cmd) (a n off : Nat) : List Rej :=
  need (a % 64 == 0) Status.rejAlign (64 + off)
    ++ need (n == 0 || (s.allows c.ctx a n false true && !s.hitsImage a n)) Status.rejRegion (64 + off)

def State.benchCheckStart (s : State) (c : Cmd) : Started :=
  { rejs := c.reservedRejs [] [(0, 8, low 64), (8, 4, 0x1FF)] ++ s.resultRejs c (c.param 0 8) 14336 0 }

/-- Bytes written to memory at an address. -/
def State.store (s : State) (a : Nat) (b : List Byte) : State := s.writeBlocks (spanWrites a b (fun _ => false))

/-- One core of a BENCH_CHECK: its record, and its benching at a command boundary where it was active and failed (R20, R499). -/
def State.checkCore (s : State) (rs : List (Nat × CoreTest)) (result n i : Nat) : State :=
  let t := testOf rs (28 * n + i)
  let bench := (vget (s.cluster n).cores i {}).mode == .active && s.testFails n i t
  let r := testRecord (logicFail t) t.memFail (s.arrayFail n i t) bench t.signature.toNat t.rowFail t.colFail
  let s := s.store (result + 64 * (28 * n + i)) r
  if bench then s.benchAtBoundary n i else s

/-- BENCH_CHECK (R499, R501). The cores are those of each kind when the command starts. -/
def State.doBenchCheck (s : State) (id : Nat) (rs : List (Nat × CoreTest)) : State :=
  s.runChecked id 0xA00 State.benchCheckStart (fun s c =>
    let w := c.param 8 4
    let cores := (List.range 224).filter (fun k =>
      bit w (k / 28) && (bit w 8 || (vget (s.cluster (k / 28)).cores (k % 28) {}).mode != .active))
    (cores.foldl (fun (s : State) k => s.checkCore rs (c.param 0 8) (k / 28) (k % 28)) s).finish id (plainCompl Status.ok))

def execBenchCheck (id : Nat) (rs : List (Nat × CoreTest)) (s : State) : Host.Outcome State Fault Refusal :=
  .next (s.doBenchCheck id rs)

/-- The core that SELF_TEST names: cluster, row, position. -/
def Cmd.testCore (c : Cmd) : Nat × Nat × Nat :=
  let w := c.param 8 4
  (bits w 2 0, bits w 4 3, bits w 7 5)

def State.selfTestStart (s : State) (c : Cmd) : Started :=
  let k := c.testCore
  { rejs := c.reservedRejs [] [(0, 8, low 64), (8, 4, 0x3FF), (16, 8, low 64), (24, 4, low 32)]
      ++ s.resultRejs c (c.param 0 8) 64 0
      ++ need (k.2.2 < 7 && (vget (s.cluster k.1).cores (7 * k.2.1 + k.2.2) {}).mode != .active) Status.rejShape 72
      ++ need (c.param 24 4 ≤ 2 ^ 24) Status.rejShape 88 }

/-- SELF_TEST (R500, R501). -/
def State.doSelfTest (s : State) (id : Nat) (t : CoreTest) : State :=
  s.runChecked id 0xA01 State.selfTestStart (fun s c =>
    let k := c.testCore
    let part := bits (c.param 8 4) 9 8
    let has := fun (p : Nat) => part == p || part == 3
    let none130 : BitVec 130 := 0#130
    let r := testRecord false (has 1 && t.memFail) (has 2 && s.arrayFail k.1 (7 * k.2.1 + k.2.2) t) false
      (if has 0 then t.signature.toNat else 0) (if has 2 then t.rowFail else none130) (if has 2 then t.colFail else none130)
    (s.store (c.param 0 8) r).finish id (plainCompl Status.ok))

def execSelfTest (id : Nat) (r : CoreTest) (s : State) : Host.Outcome State Fault Refusal := .next (s.doSelfTest id r)

/-! ## Repair (R503 to R506) -/

def Cmd.repairEntry (c : Cmd) : Repair := BitVec.ofNat 128 (c.param 16 16)

/-- Bits of an entry that must be 0. -/
def repairFields : PField := (16, 16, low 128 ^^^ (0xFFF * 2 ^ 84 + 0xFF * 2 ^ 16 + 0xF0))

/-- The fields of an entry suit its KIND (R503). -/
def entryShape (e : Repair) : Bool :=
  let core := e.pos < 7
  let noCore := bits e.toNat 15 8 == 0
  match e.kind with
  | 1 | 2 => core && e.index < 130 && e.addr == 0 && e.serial == 0
  | 3 => core && e.index == 0 && e.addr == 0 && e.serial == 0
  | 4 => noCore && e.index == 0 && e.serial == 0 && isHbm e.addr
  | 5 => noCore && e.index == 0 && (ddrChannel e.addr).isSome
  | _ => false

/-- Is the entry's core benched? -/
def State.entryBenched (s : State) (e : Repair) : Bool := (vget (s.cluster e.clusterNo).cores e.core {}).mode == .benched

/-- Entries of one kind that an array has already, in the fuses and in the dugout. -/
def State.sameKind (s : State) (e : Repair) : Nat :=
  ((dedup (s.referee.fuses.repairs ++ s.referee.dugout)).filter (fun (x : Repair) =>
    x.kind == e.kind && x.clusterNo == e.clusterNo && x.core == e.core && x != e)).length

/-- May an entry be added (R504)? `spare`: the row's memory has a spare row left. -/
def State.mayAdd (s : State) (e : Repair) (spare : Bool) : Bool :=
  entryShape e && (s.referee.dugout.contains e || s.referee.dugout.length < dugoutEntries)
    && (match e.kind with
        | 1 | 2 => s.entryBenched e && s.sameKind e < 2
        | 4 => spare
        | 5 => spare && s.isDdr e.addr && s.dimmSerial e.addr == some e.serial
        | _ => true)

/-- May an entry be removed (R504)? KIND 1 and 2 name a benched core only. -/
def State.mayRemove (s : State) (e : Repair) : Bool :=
  entryShape e && s.referee.dugout.contains e && (2 < e.kind || s.entryBenched e)

def State.repairSoftStart (s : State) (spare : Bool) (c : Cmd) : Started :=
  let e := c.repairEntry
  { rejs := c.reservedRejs [] [(0, 4, 1), repairFields]
      ++ need (if bit (c.param 0 4) 0 then s.mayRemove e else s.mayAdd e spare)
          Status.rejShape 80 }

/-- A core returns as the bench core of its row, unless its bench is fused. Where the row has fewer than six active cores it becomes
active at the cluster's next command boundary, which is now where nothing runs there. -/
def State.unbench (s : State) (e : Repair) : State :=
  if s.referee.fuses.repairs.contains e then s
  else
    let busy := s.clusterBusy e.clusterNo
    s.modCluster e.clusterNo (fun c =>
      let c := c.modCore e.core (fun k => if k.mode == .benched then { k with mode := .bench } else k)
      if busy then c else c.fillRows)

/-- The dugout, then the flash record, take a change. -/
def State.setRepairs (s : State) (f : List Repair → List Repair) : State :=
  (s.modReferee (fun r => { r with dugout := f r.dugout })).modFlash (fun x => x.writeRecord (f s.flashEntries))

/-- REPAIR_SOFT (R504). -/
def State.doRepairSoft (s : State) (id : Nat) (spare : Bool) : State :=
  s.runChecked id 0xA10 (fun s c => s.repairSoftStart spare c) (fun s c =>
    let e := c.repairEntry
    let s :=
      if bit (c.param 0 4) 0 then
        let s := s.setRepairs (fun l => l.filter (fun x => x != e))
        if e.kind == 3 then s.unbench e
        else if e.kind ≤ 2 && !s.referee.fuses.repairs.contains e then
          s.modCluster e.clusterNo (fun c => c.modCore e.core (Core.mapIn e.kind e.index))
        else s
      else
        let s := if e.kind == 3 then s.benchAtBoundary e.clusterNo e.core
          else if e.kind ≤ 2 then s.modCluster e.clusterNo (fun c => c.modCore e.core (Core.mapOut e.kind e.index))
          else s.replaceRow e.addr
        s.setRepairs (fun l => joinEntries l [e])
    s.finish id (plainCompl Status.ok))

def execRepairSoft (id : Nat) (spareLeft : Bool) (s : State) : Host.Outcome State Fault Refusal :=
  .next (s.doRepairSoft id spareLeft)

/-- A signed command's authorisation, read when it started, is checked, and AUTH_NONCE drawn again (R392, R460, R461). `off`:
where its address lies. -/
def State.checkAuth (s : State) (c : Cmd) (off : Nat) : Bool × State := (s.authMatches c off (c.held.take 2548), s.newNonce)

def State.repairFuseStart (s : State) (c : Cmd) : Started :=
  let e := c.repairEntry
  let field := s.referee.life == .field
  { held := s.mem.bytes (c.param 8 8) 2548
    rejs := c.reservedRejs [] [(8, 8, low 64), repairFields]
      ++ need (entryShape e && e.kind ≤ 3) Status.rejShape 80
      ++ need (s.referee.fuses.free != 0 && (!field || s.referee.fuses.fieldUsed < 32)) Status.rejShape 80
      ++ need (!field || s.allows c.ctx (c.param 8 8) 2548 true false) Status.rejRegion 72 }

/-- REPAIR_FUSE (R506). -/
def State.doRepairFuse (s : State) (id : Nat) (readBackOk : Bool) : State :=
  s.runChecked id 0xA11 State.repairFuseStart (fun s c =>
    let e := c.repairEntry
    let field := s.referee.life == .field
    let a := if field then s.checkAuth c 8 else (true, s)
    let s := a.2
    if !a.1 then s.finish id (rejCompl Status.rejAuth 72)
    else
      let s := s.modFuses (fun f => { f with
        free := f.free - 1, fieldUsed := if field then f.fieldUsed + 1 else f.fieldUsed
        repairs := if readBackOk then f.repairs ++ [e] else f.repairs })
      if readBackOk then (s.setRepairs (fun l => l.filter (fun x => x != e))).finish id (plainCompl Status.ok)
      else s.finish id (plainCompl Status.fltHw))

def execRepairFuse (id : Nat) (readBackOk : Bool) (s : State) : Host.Outcome State Fault Refusal :=
  .next (s.doRepairFuse id readBackOk)

/-! ## DIAG_ROSTER_READ (R507) -/

/-- The block-owner entries of the tensor. -/
def State.rosterEntries (s : State) (c : Cmd) : List Byte :=
  let w := c.param 8 4
  match s.fabric.roster.tensors.find? (fun t => t.group == bits w 15 0 && t.tensor == bits w 31 16) with
  | some t => t.blocks.flatMap (fun b => natLe 4 b.word)
  | none => []

def State.diagRosterStart (s : State) (c : Cmd) : Started :=
  let n := (s.rosterEntries c).length
  { rejs := c.reservedRejs [] [(0, 8, low 64), (8, 4, low 32), (12, 4, low 32)]
      ++ s.resultRejs c (c.param 0 8) n 0
      ++ need (n ≤ c.param 12 4) Status.rejShape 76
      ++ need (s.group? (bits (c.param 8 4) 15 0)).isSome Status.rejGroup 72 }

def State.doDiagRoster (s : State) (id : Nat) : State :=
  s.runChecked id 0xA20 State.diagRosterStart (fun s c =>
    (s.store (c.param 0 8) (s.rosterEntries c)).finish id (plainCompl Status.ok))

/-- DIAG_ROSTER_READ. -/
def execDiagRosterRead (id : Nat) (s : State) : Host.Outcome State Fault Refusal := .next (s.doDiagRoster id)

/-! ## Attestation (R456, R457) -/

/-- The modes of ATTEST that a life-cycle state permits (R458). -/
def attestMode (l : LifeCycle) (m : Nat) : Bool :=
  match l with
  | .manufacture => m == 0 || m == 2
  | .field | .analysis => m == 0 || m == 1
  | .blank | .ended => false

def State.attestStart (s : State) (c : Cmd) : Started :=
  let m := c.param 8 8
  { rejs := c.reservedRejs [] [(0, 8, low 64), (8, 8, low 64), (16, 32, low 256)]
      ++ need (m ≤ 2) Status.rejReserved 72
      ++ need (c.param 0 8 % 64 == 0) Status.rejAlign 64
      ++ need (attestMode s.referee.life m) Status.rejLifecycle 72 }

/-- The bytes that the fuse digest covers. -/
def State.fuseBytes (s : State) : List Byte :=
  let f := s.referee.fuses
  bytesAt (Config.fuseImage f.life.code f.svn f.repairs f.free) 0 4096

/-- The body of a report (R457). -/
def State.reportBody (s : State) (nonce : Nat) : List Byte :=
  let digest := fun (n : Nat) => if (s.seq n).st == .idle then 0 else (s.seq n).digest.toNat
  let valid := ((List.range 4).map (fun n => flagAt ((s.seq n).st != .idle) n)).sum
  natLe 512 (0x52545441 + at' 1 32 + at' Config.serial.toNat 64 + at' modIdent 128 + at' s.referee.fuses.life.code 192
    + at' (s.referee.fuses.svn % 64) 200 + at' (s.referee.imageSvn % 64) 208 + at' valid 216 + at' (s.moduleId % 4096) 224
    + at' romVersion 256 + at' nonce 320 + at' s.referee.imageDigest.toNat 576 + at' (sha3 s.fuseBytes).toNat 832
    + ((List.range 4).map (fun n => at' (digest n) (1088 + 256 * n))).sum + at' s.cycles.toNat 2112)

/-- The unsigned header and key of a certificate (R453, R456). -/
def State.certRequest (s : State) : List Byte :=
  natLe 64 (0x4A434552 + at' 1 32 + at' 0x0872 48 + at' Config.serial.toNat 64 + at' 1 128)
    ++ bytesAt ((s.identity?.map Config.mldsaPublic).getD []) 0 1312

/-- What ATTEST writes. -/
def State.attestOutput (s : State) (c : Cmd) : List Byte × State :=
  match c.param 8 8 with
  | 0 => let b := s.reportBody (c.param 16 32); let g := s.identitySign b; (b ++ g.1, g.2)
  | 1 => (bytesAt s.referee.flash.cert 0 3796, s)
  | _ => (s.certRequest, s)

/-- ATTEST (R456): its one DMA_WR is sent while the link is up; the acknowledgement ends it. -/
def State.doAttest (s : State) (id : Nat) : State :=
  match s.running? id 0xB00 with
  | none => s
  | some c =>
    if !c.atGo then s
    else match worst (s.attestStart c).rejs with
      | some r => s.finish id (rejCompl r.1 r.2)
      | none =>
        if !s.hostUp || !s.dmaRoom false then s
        else
          let o := s.attestOutput c
          (o.2.dmaWr (c.param 0 8) o.1 0#64 (.command id 0)).setStage id (.dma 0)

def execAttest (id : Nat) (s : State) : Host.Outcome State Fault Refusal := .next (s.doAttest id)

/-! ## FW_STAGE (R447 to R449) -/

def State.fwStageStart (s : State) (c : Cmd) : Started :=
  let a := c.param 0 8
  let n := c.param 8 8
  let mode := c.param 16 8
  let m := s.mem.bytes a 4096
  { held := if mode == 0 && s.allows 0 a n true false && 4096 ≤ n then s.mem.bytes a n else []
    rejs := c.reservedRejs [] [(0, 8, low 64), (8, 8, low 64), (16, 8, low 64)]
      ++ need (mode ≤ 1) Status.rejReserved 80
      ++ (if mode != 0 then []
          else
            let seen := s.allows 0 a n true false
            need seen Status.rejRegion 64
              ++ need (4096 ≤ n && (!seen || (manifestShape m && n == 4096 + imageBodyBytes m))) Status.rejShape 64
              ++ need (!seen || !manifestShape m || n != 4096 + imageBodyBytes m
                  || s.imageFault m (s.mem.bytes (a + 4096) (n - 4096)) == 0) Status.rejAuth 64) }

/-- FW_STAGE in MODE 0 (R447): the image that was read and checked at its start is written; a read-back mismatch leaves no
valid manifest (R448). -/
def State.doFwStage (s : State) (id : Nat) (readBackOk : Bool) : State :=
  match s.running? id 0xB01 with
  | none => s
  | some c =>
    if c.param 16 8 == 1 then s
    else
      let s := s.modFlash (fun f => { f with
        manifest := if readBackOk then c.held.take 4096 else [], body := c.held.drop 4096 })
      s.finish id (plainCompl (if readBackOk then Status.ok else Status.fltHw))

def execFwStage (id : Nat) (readBackOk : Bool) (s : State) : Host.Outcome State Fault Refusal :=
  .next (s.doFwStage id readBackOk)

/-- FW_STAGE in MODE 1 (R449): the SVN of the running image is committed. -/
def State.doCommitSvn (s : State) (id : Nat) : State :=
  match s.running? id 0xB01 with
  | none => s
  | some c =>
    if c.param 16 8 != 1 then s
    else s.runChecked id 0xB01 State.fwStageStart (fun s _ =>
      (s.modFuses (fun f => { f with svn := max f.svn s.referee.imageSvn })).finish id (plainCompl Status.ok))

def execFwStageCommitSvn (id : Nat) (s : State) : Host.Outcome State Fault Refusal := .next (s.doCommitSvn id)

/-! ## The life cycle (R458, R459, R502) -/

def lifeOf (n : Nat) : LifeCycle :=
  match n with
  | 0 => .blank | 1 => .manufacture | 2 => .field | 3 => .analysis | _ => .ended

/-- The advances of R458, from the state in force. Fuses move forward only. -/
def State.mayAdvance (s : State) (t : Nat) : Bool :=
  s.referee.fuses.life.code < t
    && (match s.referee.life with
        | .blank => t == 1
        | .manufacture => t == 2 || t == 4
        | .field => t == 3 || t == 4
        | .analysis => t == 4
        | .ended => false)

def Cmd.lifeTarget (c : Cmd) : Nat := bits (c.param 0 4) 2 0

/-- Must the advance be signed? -/
def advanceSigned (t : Nat) : Bool := t != 4

/-- The checks that rest on the state of the module. -/
def State.lifecycleRejs (s : State) (c : Cmd) : List Rej := need (s.mayAdvance c.lifeTarget) Status.rejLifecycle 64

def State.lifecycleStart (s : State) (c : Cmd) : Started :=
  let t := c.lifeTarget
  let cert := s.mem.bytes (c.param 16 8) 3796
  { held := s.mem.bytes (c.param 8 8) 2548 ++ cert
    rejs := c.reservedRejs [] [(0, 4, 7), (8, 8, low 64), (16, 8, low 64)]
      ++ s.lifecycleRejs c
      ++ need (!advanceSigned t || s.allows c.ctx (c.param 8 8) 2548 true false) Status.rejRegion 72
      ++ need (t != 2 || s.allows c.ctx (c.param 16 8) 3796 true false) Status.rejRegion 80
      ++ need (t != 2 || !(s.allows c.ctx (c.param 16 8) 3796 true false) || s.ownCert cert) Status.rejShape 80 }

/-- The end of an advance to ENDED (R459): once the completions of every context are written the command completes, and once its
completion is written the module resets. -/
def State.endLife (s : State) (id : Nat) : State :=
  let t := (s.finish id (plainCompl Status.ok)).flushAll
  if t.cmds.any (fun c => c.id == id && !c.written) then s else t.selfReset

/-- An advance to ENDED (R459): the seed is destroyed and every context goes; what is in flight is awaited as CTX_DESTROY awaits it
(R387). -/
def State.startEnd (s : State) (id : Nat) : State :=
  let s := s.modFuses (fun f => { f with life := .ended, seed := none })
  let s := (List.range 16).foldl (fun (s : State) x => s.destroyContext id x) s
  let s := s.awaitAll id ((s.cmds.filter (fun k => k.id != id)).map (fun k => k.id)) 0
  if s.cmds.any (fun c => c.id == id && c.stage == .await [] 0) then s.endLife id else s

/-- A LIFECYCLE_ADVANCE that has not acted yet. -/
def State.advanceLife (s : State) (id : Nat) : State :=
  s.runChecked id 0xB02 (fun s c => { rejs := s.lifecycleRejs c }) (fun s c =>
    let t := c.lifeTarget
    let a := if advanceSigned t then s.checkAuth c 8 else (true, s)
    let s := a.2
    if !a.1 then s.finish id (rejCompl Status.rejAuth 72)
    else if t == 4 then s.startEnd id
    else
      let s := s.modFuses (fun f => { f with life := lifeOf t })
      let s := if t == 1 then
          (s.modFuses (fun f => { f with seed := some (Config.trng s.referee.draws) })).modReferee (fun r => { r with
            draws := r.draws + 1 })
        else if t == 2 then s.modFlash (fun f => { f with cert := c.held.drop 2548 })
        else s
      s.finish id (plainCompl Status.ok))

/-- LIFECYCLE_ADVANCE. The row taken again ends an advance to ENDED that waits for completions (log entry 27). -/
def State.doLifecycle (s : State) (id : Nat) : State :=
  match s.running? id 0xB02 with
  | none => s
  | some c => match c.stage with
    | .await [] _ => s.endLife id
    | .await _ _ => s
    | _ => s.advanceLife id

def execLifecycleAdvance (id : Nat) (s : State) : Host.Outcome State Fault Refusal := .next (s.doLifecycle id)

/-- Does the life-cycle state in force permit an opcode (R458, R502)? -/
def lifePermits (l : LifeCycle) (op : Nat) : Bool :=
  if 0x100 ≤ op && op < 0xA00 then l == .manufacture || l == .field || l == .analysis
  else match op with
    | 0xA00 | 0xA10 | 0xA11 | 0xA20 => l == .manufacture || l == .field || l == .analysis
    | 0xA01 => l == .manufacture || l == .analysis
    | 0xB00 => l != .blank && l != .ended
    | _ => l != .ended

/-! ## Telemetry and the scout (R344, R441) -/

/-- The counts since the last sample join the bucket of the present minute; an hour of buckets is kept. -/
def Scout.takeIn (v : Scout) (now : Nat) : Scout :=
  let b := (v.buckets.find? (fun b => b.minute == now)).getD { minute := now }
  let b := { b with
    ueT := b.ueT + v.pend.ueT, ueL := b.ueL + v.pend.ueL, ce := b.ce + v.pend.ce, flit := b.flit + v.pend.flit
    retry := b.retry + v.pend.retry }
  { v with
    buckets := b :: v.buckets.filter (fun x => x.minute != now && now < x.minute + 60), pend := { minute := now } }

/-- Did it hold in the last minute, that is 600 windows of 100 ms, the one in which it held counted from its start? -/
def inLastMinute (at? : Option Nat) (windows : Nat) : Bool :=
  match at? with
  | some w => windows ≤ w + 600
  | none => false

/-- The index (R344). -/
def State.scoutIndex (s : State) (v : Scout) : Nat :=
  let sum := fun (f : Bucket → Nat) => (v.buckets.map f).sum
  let spikes := (v.steps.map (fun p => p.1)).sum
  let noBalls := (v.steps.map (fun p => p.2)).sum
  min 255 (min 48 (8 * sum (fun b => b.ueT)) + min 64 (32 * sum (fun b => b.ueL)) + (if 1000 < sum (fun b => b.ce) then 16 else 0)
    + min 32 (4 * sum (fun b => b.flit)) + (if 1000000 < sum (fun b => b.retry) then 16 else 0)
    + (if 100 ≤ s.power.tHot || s.power.thermStep < 16 || inLastMinute v.throttledAt v.windows then 32 else 0)
    + (if s.power.vinMargin || inLastMinute v.marginAt v.windows then 32 else 0)
    + min 32 (8 * spikes) + min 48 (16 * noBalls) + (if s.keeper.standing && s.keeper.forced then 64 else 0))

/-- A sample: the buckets take everything in, and the index is formed. -/
def State.sample (s : State) (now : Nat) : State :=
  let v := s.scout.takeIn now
  let i := s.scoutIndex v
  let s := if s.scout.index < 224 && 224 ≤ i then s.modSave (fun x => { x with rose := true }) else s
  s.modScout (fun _ => { v with index := i, peak := max v.peak i, sinceMs := 0 })

/-- TELEMETRY_WINDOW_END (R441). -/
def State.doWindow (s : State) (util now : Nat) : State :=
  if !s.alive || s.referee.state != .running then s
  else
    let m := s.referee.mult
    let since := s.scout.sinceMs + 100
    let s := s.modScout (fun v => { v with sinceMs := since, windows := v.windows + 1 })
    let s := s.modReferee (fun r => { r with
      util := util, busy := r.busy || 90 < util
      mult := if 90 < util then min 8 (2 * m) else if util < 70 then max 1 (m / 2) else m })
    if 100 * m ≤ since then s.sample now else s

def execTelemetryWindowEnd (util : Nat) (nowMinutes : Nat) (s : State) : Host.Outcome State Fault Refusal :=
  .next (s.doWindow util nowMinutes)

end Sys2Proof.Machine
end

