-- ==== Sys2Proof/Machine/Liust.lean ====
section
/-! DEFINITION. The Liust link and the management port (R356 to R376, R532): host accesses, answers to the module's DMA, the state
of the link, PMBus commands, and cables. Choices that the manual leaves open are in log entry 28. -/

namespace Sys2Proof.Machine

/-! ## Host accesses (R363 to R366, R371, R422 to R424) -/

/-- A transaction of a bad length is discarded (R363, R373). -/
def State.liustBadLen (s : State) : State := s.bump .liustBad

/-- GO of REC_CTRL and PEER_STATUS. -/
def State.go (s : State) (r : Reg) : State :=
  match r with
  | .recCtrl => s.doRecGo
  | .peerStatus => s.doPeerLoad
  | _ => s

/-- A register write that is performed. Registers whose writes have rows of their own act as those rows do. -/
def State.writeReg (s : State) (r : Reg) (addr len : Nat) (data : Word64) : State :=
  match r with
  | .sqCfg n k => s.doSqCfgWrite n (8 * k + addr % 8) len data
  | .cqCfg n k => s.doCqCfgWrite n (8 * k + addr % 8) len data
  | .cqStatus n => s.doCqHeadWrite n (addr % 8) len data
  | _ =>
    let mask := (if lowHalf addr len then low 32 else 0) + (if highHalf addr len then at' (low 32) 32 else 0)
    s.regWrite r mask (wordData addr len data) State.go

/-- CFG_WR (R364, R365, R423, R424). -/
def State.doCfgWr (s : State) (addr len : Nat) (data : Word64) : State :=
  if !s.linkUp then s
  else if len != 4 && len != 8 then s.liustBadLen
  else match s.regOf addr len with
    | none => s.hostReject
    | some r => if len == 4 && r.dropsHalf (addr % 8 == 4) then s.hostReject else s.writeReg r addr len data

/-- CFG_RD (R363 to R365): a read answers STATUS 00h with its word or half, or STATUS 01h and zero data. -/
def State.doCfgRd (s : State) (tag addr len : Nat) : State :=
  if !s.linkUp then s
  else if len != 4 && len != 8 then s.liustBadLen
  else
    let r := s.cfgRead addr len
    (if r.1 != 0 then s.hostReject else s).sendHost (.cfgResp tag r.1 len (BitVec.ofNat 64 r.2))

/-- Payload lengths of HOST_WR and HOST_RD (R363). -/
def hostLen (n : Nat) : Bool := 64 ≤ n && n ≤ 4096 && n % 64 == 0

/-- The STATUS of a host access to n bytes (R362, R364): 0 where it is performed. -/
def State.hostStatus (s : State) (addr n hctx : Nat) (write : Bool) : Nat :=
  if !s.inService || addr % 64 != 0 || !s.presentSpan addr n then 1
  else if !s.covered hctx addr n (fun r => r.host && (if write then r.write else r.read)) then 2
  else if write && s.hitsImage addr n then 2
  else 0

/-- HOST_WR. -/
def State.doHostWr (s : State) (addr hctx : Nat) (data : List Byte) (poison : Word64) : State :=
  if !s.linkUp then s
  else if !hostLen data.length then s.liustBadLen
  else if s.hostStatus addr data.length hctx true != 0 then s.hostReject
  else s.access [4] addr data.length (fun s => s.writeBlocks (blockWrites addr data poison.toNat))

def execHostWr (addr hctx : Nat) (data : List Byte) (poison : Word64) (s : State) : Host.Outcome State Fault Refusal :=
  .next (s.doHostWr addr hctx data poison)

/-- HOST_RD. -/
def State.doHostRd (s : State) (tag addr len hctx : Nat) : State :=
  if !s.linkUp then s
  else if !hostLen len then s.liustBadLen
  else
    let st := s.hostStatus addr len hctx false
    if st != 0 then s.hostReject.sendHost (.hostResp tag st (List.replicate len 0#8) 0#64)
    else s.access [4] addr len (fun s =>
      s.sendHost (.hostResp tag 0 (s.mem.bytes addr len) (BitVec.ofNat 64 (s.poisonBits addr (len / 64)))))

def execHostRd (tag addr len hctx : Nat) (s : State) : Host.Outcome State Fault Refusal :=
  .next (s.doHostRd tag addr len hctx)

/-! ## Answers to the module's DMA (R361, R367, R368) -/

/-- A request is no longer outstanding. -/
def State.dropDma (s : State) (tag : Nat) : State :=
  s.modLiust (fun l => { l with dmas := l.dmas.filter (fun d => d.tag != tag) })

/-- A command's transfer failed: ATTEST ends, a save or restore breaks off. -/
def State.transferBroken (s : State) (id flt : Nat) : State :=
  match s.cmd? id with
  | some c =>
    if !c.isRunning then s
    else if c.opcode == 0x810 then s.saveBroken c Status.fltSaveLink
    else if c.opcode == 0x811 then s.saveBroken c flt
    else s.finish id (plainCompl flt)
  | none => s

/-- A request that was refused, or treated as refused. -/
def State.dmaRefused (s : State) (o : DmaOwner) (flt : Nat) : State :=
  match o with
  | .fetch q n => if n == 0 then s else s.fetchRefused q
  | .completion id => s.completionLost id
  | .command id _ => s.transferBroken id flt
  | .recovery _ => s.recRefused

/-- A save or restore goes on with what has come. -/
def State.transferOn (s : State) (id : Nat) : State :=
  match s.cmd? id with
  | some c =>
    if !c.isRunning then s
    else if c.opcode == 0x810 then s.saveOn c
    else if c.opcode == 0x811 then s.restoreOn c
    else s
  | none => s

/-- Data that the host returned. -/
def State.dmaData (s : State) (o : DmaOwner) (data : List Byte) (poison : Word64) : State :=
  match o with
  | .fetch q n => if n == 0 then s else s.fetched q n data
  | .command id part =>
    (s.modLiust (fun l => { l with data := l.data ++ [(id, part, data, poison.toNat)] })).transferOn id
  | .recovery off => s.recData off data
  | .completion _ => s

/-- DMA_RESP. One of a tag that no read has is ignored. -/
def State.doDmaResp (s : State) (tag status : Nat) (data : List Byte) (poison : Word64) : State :=
  if !s.linkUp then s
  else match s.liust.dmas.find? (fun d => d.tag == tag && d.read) with
    | none => s
    | some d =>
      if status != 0 then (s.dropDma tag).dmaRefused d.owner Status.fltHostDma
      else if data.length != d.len then s.liustBadLen
      else (s.dropDma tag).dmaData d.owner data poison

def execDmaResp (tag status : Nat) (data : List Byte) (poison : Word64) (s : State) : Host.Outcome State Fault Refusal :=
  .next (s.doDmaResp tag status data poison)

/-- A command's write is acknowledged. -/
def State.partAcked (s : State) (id part : Nat) : State :=
  match s.cmd? id with
  | some c =>
    if !c.isRunning then s
    else if c.opcode == 0x810 then (s.saveAcked c part).transferOn id
    else s.finish id (plainCompl Status.ok)
  | none => s

/-- DMA_WR_ACK. -/
def State.doDmaWrAck (s : State) (tag status : Nat) : State :=
  if !s.linkUp then s
  else match s.liust.dmas.find? (fun d => d.tag == tag && !d.read) with
    | none => s
    | some d =>
      let s := s.dropDma tag
      if status != 0 then s.dmaRefused d.owner Status.fltHostDma
      else match d.owner with
        | .completion id => s.completionAcked id
        | .command id part => s.partAcked id part
        | _ => s

def execDmaWrAck (tag status : Nat) (s : State) : Host.Outcome State Fault Refusal := .next (s.doDmaWrAck tag status)

/-- DMA_TIMEOUT. -/
def State.doDmaTimeout (s : State) (tag : Nat) : State :=
  match s.liust.dmas.find? (fun d => d.tag == tag) with
  | none => s
  | some d => ((s.bump .liustDmaTimeout).dropDma tag).dmaRefused d.owner Status.fltHostDma

def execDmaTimeout (tag : Nat) (s : State) : Host.Outcome State Fault Refusal := .next (s.doDmaTimeout tag)

/-! ## Transactions by their header (R362, R363) -/

/-- The header that the module puts before a transaction. -/
def HostTx.header : HostTx → BitVec 256
  | .cfgResp tag st len _ => BitVec.ofNat 256 (at' tag 112 + at' len 83 + at' st 72 + at' 0x03 64)
  | .hostResp tag st data poison =>
    BitVec.ofNat 256 (at' poison.toNat 192 + at' tag 112 + at' data.length 83 + at' st 72 + at' 0x06 64)
  | .dmaRd tag addr len => BitVec.ofNat 256 (at' addr 128 + at' tag 112 + at' len 83 + at' 0x10 64)
  | .dmaWr tag addr data poison =>
    BitVec.ofNat 256 (at' poison.toNat 192 + at' addr 128 + at' tag 112 + at' data.length 83 + at' 0x12 64)
  | .msgInt vector => BitVec.ofNat 256 (at' vector 128 + at' 0x14 64)

/-- A transaction from the host by its header: one of another TYPE, or whose payload has not its LEN, is discarded and
counted. -/
def State.doTransaction (s : State) (header : BitVec 256) (payload : List Byte) : State :=
  let h := header.toNat
  let addr := bits h 179 128
  let tag := bits h 127 112
  let len := bits h 95 83
  let word := BitVec.ofNat 64 (leNat payload)
  let poison := BitVec.ofNat 64 (bits h 255 192)
  let sized := payload.length == len
  if !s.linkUp then s
  else match bits h 71 64 with
    | 0x01 => if sized then s.doCfgWr addr len word else s.liustBadLen
    | 0x02 => if payload.isEmpty then s.doCfgRd tag addr len else s.liustBadLen
    | 0x04 => if sized then s.doHostWr addr (bits h 99 96) payload poison else s.liustBadLen
    | 0x05 => if payload.isEmpty then s.doHostRd tag addr len (bits h 99 96) else s.liustBadLen
    | 0x07 => if sized && len == 8 then s.doDoorbell (bits h 133 128) word else s.liustBadLen
    | 0x11 => if sized then s.doDmaResp tag (bits h 79 72) payload poison else s.liustBadLen
    | 0x13 => if sized && len == 0 then s.doDmaWrAck tag (bits h 79 72) else s.liustBadLen
    | _ => s.liustBadLen

/-- The row CFG_WR (log entry 31). -/
def execCfgWr (addr len : Nat) (t : HostTrans) (s : State) : Host.Outcome State Fault Refusal :=
  .next (match t with
    | .write data => s.doCfgWr addr len data
    | .read tag => s.doCfgRd tag addr len
    | .raw header payload => s.doTransaction header payload)

/-! ## The link (R357, R360, R361, R532) -/

/-- The link goes down: commands whose requests are not answered end, and with them a save that streams. Fetches and
completion writes that are not answered time out. -/
def State.linkLost (s : State) : State :=
  let owners := s.liust.dmas.map (fun d => d.owner)
  let ids := dedup (owners.filterMap (fun o => match o with | .command id _ => some id | _ => none))
  let saves := s.save.holder.toList.filter (fun id => match s.cmd? id with
    | some c => c.stage == .dma 0 || c.stage == .dma 1
    | none => false)
  let rec' := owners.any (fun o => match o with | .recovery _ => true | _ => false)
  let s := s.modLiust (fun l => { l with
    state := .down, width := 0, linkDown := true
    dmas := l.dmas.filter (fun d => match d.owner with
      | .command _ _ => false
      | .recovery _ => false
      | _ => true) })
  let s := if rec' then s.recRefused else s
  (ids ++ saves).foldl (fun (s : State) id => s.transferBroken id Status.fltHostLink) s

/-- LIUST_FLIT_ERROR. -/
def State.doLiustFlit (s : State) (intact : Bool) : State :=
  if !s.linkUp then s
  else if intact then s.bump .liustFlitRetry
  else ((s.bump .liustFlitLasting).bump .liustRetrain).modLiust (fun l => { l with
    state := .retraining, lasting := true, retrains := satTo 8 (l.retrains + 1) })

def execLiustFlitError (replayIntact : Bool) (s : State) : Host.Outcome State Fault Refusal :=
  .next (s.doLiustFlit replayIntact)

/-- LIUST_LINK_DOWN: a retrain failed, or training made its three attempts. -/
def State.doLinkDown (s : State) : State :=
  match s.liust.state with
  | .retraining => s.linkLost
  | .training => s.modLiust (fun l => { l with state := .down })
  | _ => s

def execLiustLinkDown (s : State) : Host.Outcome State Fault Refusal := .next s.doLinkDown

/-- May the link train: the module runs, HL is ACTIVE, and a cable is there? -/
def State.linkCanTrain (s : State) : Bool := s.alive && (s.domain 0x40).st == .active && s.liust.cable

/-- LIUST_TRAINING_RETRY. -/
def execLiustTrainingRetry (s : State) : Host.Outcome State Fault Refusal :=
  .next (if s.linkCanTrain then s.trainLink else s)

/-- WIDTH of LIUST_STATUS. -/
def widthCode (w : LiustWidth) : Nat :=
  match w with
  | .low4 => 1 | .high4 => 2 | .eight => 3

/-- LIUST_LINK_UP: the completions that waited are written. -/
def State.doLinkUp (s : State) (w : LiustWidth) : State :=
  if s.linkCanTrain && !s.linkUp then (s.modLiust (fun l => { l with state := .up, width := widthCode w })).flushAll else s

def execLiustLinkUp (width : LiustWidth) (s : State) : Host.Outcome State Fault Refusal := .next (s.doLinkUp width)

/-- The Liust cable is connected or removed. -/
def State.liustCable (s : State) (connected : Bool) : State :=
  let was := s.liust.state
  let s := s.modLiust (fun l => { l with cable := connected })
  if connected then (if s.linkCanTrain then s.trainLink else s)
  else if was == .down then s
  else if was == .training then s.modLiust (fun l => { l with state := .down })
  else s.linkLost

/-- CABLE_CHANGE (R532). -/
def execCableChange (cable : Cable) (connected : Bool) (s : State) : Host.Outcome State Fault Refusal :=
  .next (match cable with
    | .liust => s.liustCable connected
    | .fabric n => s.portCable n connected)

/-! ## The management port (R374 to R376, R484) -/

/-- The port answers while the Referee runs and its address was sampled; otherwise it does not acknowledge (R374, R527). -/
def State.onPort (s : State) (f : State → State) : State :=
  if s.alive && s.referee.state == .running && s.power.slot.isSome then f s else s.sendSmb .nack

/-- The four conditions of STATUS_WORD (R484). -/
def State.statusBits (s : State) : Bool × Bool × Bool × Bool :=
  (s.power.vinMargin, s.power.thermStep < 16, s.power.lastOff == .thermalTrip, s.power.limitedBy == 1 || s.power.limitedBy == 3)

/-- SMBALERT#: asserted while a bit of STATUS_WORD is set (R374). -/
def State.smbAlert (s : State) : Bool :=
  let b := s.statusBits
  s.alive && s.referee.state == .running && (b.1 || b.2.1 || b.2.2.1 || b.2.2.2)

/-- THERMTRIP_N: asserted during a trip hold (R473). -/
def State.thermTrip (s : State) : Bool := s.power.tripHold

/-- The SMBus target address (R374): 40h plus the slot-address straps. -/
def State.smbAddress (s : State) : Nat := 0x40 + ((s.power.slot.map (fun b => b.toNat)).getD 0)

/-- One byte into the packet error check of SMBus: CRC-8 with the polynomial x^8 + x^2 + x + 1 (log entry 28). -/
def pecByte (crc : BitVec 8) (b : Byte) : BitVec 8 :=
  (List.range 8).foldl (fun (c : BitVec 8) _ => if c.getLsbD 7 then (c <<< 1) ^^^ 0x07#8 else c <<< 1) (crc ^^^ b)

def pecOf (l : List Byte) : BitVec 8 := l.foldl pecByte 0#8

/-- The check byte of a read of a command: address and command written, address and data read. -/
def State.readPec (s : State) (code : Nat) (data : List Byte) : Byte :=
  pecOf ([BitVec.ofNat 8 (2 * s.smbAddress), BitVec.ofNat 8 code, BitVec.ofNat 8 (2 * s.smbAddress + 1)] ++ data)

def State.sendByte (s : State) (code : Nat) (b : Byte) : State := s.sendSmb (.byte b (s.readPec code [b]))
def State.sendWord (s : State) (code : Nat) (reading : Int) (w : BitVec 16) : State :=
  s.sendSmb (.word reading w (s.readPec code (natLe 2 w.toNat)))
def State.sendBlock (s : State) (code : Nat) (l : List Byte) : State :=
  s.sendSmb (.block l (s.readPec code (BitVec.ofNat 8 l.length :: l)))

/-- The mantissa of a value in milli-units for an exponent, to the nearest. -/
def linearMantissa (e milli : Int) : Int :=
  let num := if 0 ≤ e then milli else milli * 2 ^ (-e).toNat
  let den : Int := 1000 * (if 0 ≤ e then 2 ^ e.toNat else 1)
  (2 * num + den) / (2 * den)

/-- The lowest exponent from e upward, at most 15, whose mantissa fits 11 bits. -/
def linearFit (milli : Int) : Nat → Int → Int
  | 0, e => e
  | n + 1, e =>
    let m := linearMantissa e milli
    if -1024 ≤ m && m ≤ 1023 then e else linearFit milli n (e + 1)

/-- A value in LINEAR11 (R375): a 5-bit exponent over an 11-bit mantissa, both signed (log entry 28). -/
def linear11 (code : Nat) (milli : Int) : BitVec 16 :=
  let e := linearFit milli 32 (Config.linearExp code milli % 32 - 16)
  BitVec.ofInt 16 ((e % 32) * 2048 + linearMantissa e milli % 2048)

/-- CAPABILITY (R375): PEC, 400 kHz and SMBALERT# in the places of PMBus 1.4 (log entry 28). -/
def capabilityByte : Byte := 0xB0#8

/-- A reading in LINEAR11. -/
def State.sendReading (s : State) (code : Nat) (milli : Nat) : State := s.sendWord code (milli : Int) (linear11 code (milli : Int))

def execCapability (s : State) : Host.Outcome State Fault Refusal :=
  .next (s.onPort (fun s => s.sendByte 0x19 capabilityByte))

def execStatusWord (s : State) : Host.Outcome State Fault Refusal :=
  .next (s.onPort (fun s =>
    let b := s.statusBits
    s.sendWord 0x79 0 (Config.statusWord b.1 b.2.1 b.2.2.1 b.2.2.2)))

def execReadVin (s : State) : Host.Outcome State Fault Refusal := .next (s.onPort (fun s => s.sendReading 0x88 s.power.vin))

def execReadIin (milliamps : Nat) (s : State) : Host.Outcome State Fault Refusal :=
  .next (s.onPort (fun s => s.sendReading 0x89 milliamps))

def execReadTemperature (s : State) : Host.Outcome State Fault Refusal :=
  .next (s.onPort (fun s => s.sendReading 0x8D (1000 * s.power.tHot)))

def execReadPout (s : State) : Host.Outcome State Fault Refusal := .next (s.onPort (fun s => s.sendReading 0x96 s.power.pavg))

def execPmbusRevision (s : State) : Host.Outcome State Fault Refusal := .next (s.onPort (fun s => s.sendByte 0x98 0x44#8))

/-- "JARMETIC". -/
def mfrIdBytes : List Byte := [0x4A, 0x41, 0x52, 0x4D, 0x45, 0x54, 0x49, 0x43]

/-- "GL8-72A". -/
def mfrModelBytes : List Byte := [0x47, 0x4C, 0x38, 0x2D, 0x37, 0x32, 0x41]

def execMfrId (s : State) : Host.Outcome State Fault Refusal := .next (s.onPort (fun s => s.sendBlock 0x99 mfrIdBytes))

def execMfrModel (s : State) : Host.Outcome State Fault Refusal := .next (s.onPort (fun s => s.sendBlock 0x9A mfrModelBytes))

/-- The check byte of a write of MFR_FEED_ID (R374). -/
def State.writePec (s : State) (v : BitVec 16) : Byte :=
  pecOf ([BitVec.ofNat 8 (2 * s.smbAddress), 0xD0#8] ++ natLe 2 v.toNat)

/-- MFR_FEED_ID (R376): a write is in FEED_ID at once; pairing takes it at the next epoch. A write whose check byte is wrong
is not taken. -/
def execMfrFeedId (write : Option (BitVec 16 × Option Byte)) (s : State) : Host.Outcome State Fault Refusal :=
  .next (s.onPort (fun s => match write with
    | some (v, pec) =>
      if pec.getD (s.writePec v) == s.writePec v then (s.modKeeper (fun k => { k with feedId := v })).sendSmb .ack
      else s.sendSmb .nack
    | none => s.sendWord 0xD0 (s.keeper.feedId.toNat : Int) s.keeper.feedId))

def execMfrScout (s : State) : Host.Outcome State Fault Refusal :=
  .next (s.onPort (fun s => s.sendByte 0xD1 (BitVec.ofNat 8 s.scout.index)))

def execMfrCool (s : State) : Host.Outcome State Fault Refusal :=
  .next (s.onPort (fun s => s.sendByte 0xD2 (BitVec.ofNat 8 s.power.profile)))

end Sys2Proof.Machine
end

