-- ==== Sys2Proof/Machine/Start.lean ====
section
/-! DEFINITION. The start of a command: what it waits for, the checks of its unit, and what it takes when it starts (R93, R239
to R244, R347, R386, R392 to R399, R428, R429, R512, R513); relay admission (R242), PLAYBOOK_START and PB_STEP_END. -/

namespace Sys2Proof.Machine

/-! ## What a command waits for of its own (R394, R395, R399, R450) -/

/-- Does the FENCE of a command name another one (R389): an earlier one of its queue or playbook? -/
def State.fenceOn (_s : State) (c x : Cmd) : Bool := c.fence && x.placed && x.owner == c.owner && x.id < c.id

/-- The FENCE condition (R389): every earlier command of its queue or playbook has completed. -/
def State.fenceMet (s : State) (c : Cmd) : Bool := !s.cmds.any (s.fenceOn c)

/-- Flash and fuse work, self-test and repair (R450, R502). -/
def flashOp (op : Nat) : Bool := 0xA00 ≤ op && op != 0xB00

/-- Does the Referee take another command first? It takes one command of a queue at a time, in admission order, and the flash
and fuse work of all queues one at a time. The entries of a playbook wait for one another only through their dependencies
(R399). -/
def refereeOn (c x : Cmd) : Bool :=
  refereeOp c.opcode && x.id < c.id && x.placed && !x.isDone && refereeOp x.opcode
    && ((c.isHost && x.owner == c.owner) || (flashOp x.opcode && flashOp c.opcode))

def State.refereeTurn (s : State) (c : Cmd) : Bool :=
  !refereeOp c.opcode || (s.referee.state == .running && !s.cmds.any (refereeOn c))

/-- Dependencies, fence and the Referee's turn are met. -/
def State.ownWaits (s : State) (c : Cmd) : Bool := c.deps.isEmpty && s.fenceMet c && s.refereeTurn c

/-! ## Orders between commands

Each order says for which others a command waits. -/

/-- The slots of an earlier command with SLOT_DRAIN that has not ended (R93). -/
def slotOn (c x : Cmd) : Bool :=
  x.id < c.id && !x.isDone && x.slotDrain && x.ctx == c.ctx && x.owner == c.owner && x.slots.any (fun k => c.slots.contains k)

def State.slotFree (s : State) (c : Cmd) : Bool := !s.cmds.any (slotOn c)

/-- A command that has not ended, of a phase and step of the same playbook, on one of the clusters (R239). -/
def phaseIs (c x : Cmd) (phase : Nat) (step : Word32) : Bool :=
  x.id != c.id && x.owner == c.owner && x.phase? == some phase && x.step? == some step
    && x.clusters.any (fun k => c.clusters.contains k)

/-- FWD waits for BWD of the step before, BWD for FWD of its own step, on the clusters that they share (R239). -/
def State.phaseOn (_s : State) (c x : Cmd) : Bool :=
  match c.phase?, c.step? with
  | some 1, some n => phaseIs c x 3 (n - 1#32)
  | some 3, some n => phaseIs c x 1 n
  | _, _ => false

def State.phaseTurn (s : State) (c : Cmd) : Bool := !s.cmds.any (s.phaseOn c)

/-- PB_VERDICT waits for its step's earlier commands, and for the updates of the step before that have still to read their
verdict, which they do when they start (R244, R392). -/
def verdictOn (c x : Cmd) : Bool :=
  c.opcode == 0x646 && x.owner == c.owner && x.id < c.id
    && (x.step? == c.step?
      || (x.opcode == 0x630 && x.isWaiting && !x.optRefresh && x.step? == c.step?.map (fun n => n - 1#32)))

def State.verdictTurn (s : State) (c : Cmd) : Bool := !s.cmds.any (verdictOn c)

/-- PB_FEED and PB_POST start in issue order. -/
def feedOn (c x : Cmd) : Bool :=
  (c.opcode == 0x643 || c.opcode == 0x644) && x.opcode == c.opcode && x.owner == c.owner && x.id < c.id && x.isWaiting

def State.feedTurn (s : State) (c : Cmd) : Bool := !s.cmds.any (feedOn c)

/-- Draft commands, which run one at a time in issue order (R512). DRAFT_CANCEL waits for none of them, since it cancels
them. -/
def Cmd.draftTurnOp (c : Cmd) : Bool := 0x700 ≤ c.opcode && c.opcode ≤ 0x706

/-- The table of a draft command. DRAFT_OPEN names it in its descriptor. -/
def State.tableOf (s : State) (c : Cmd) : Nat :=
  if c.opcode != 0x700 then c.draftTable
  else Cmd.draftTableByte (if c.isRunning then c.held else s.mem.bytes (c.param 0 8) 16)

/-- A DRAFT_PROPOSE that waits for its table's open generation to close (R275). -/
def State.generationWait (s : State) (c : Cmd) : Bool :=
  c.opcode == 0x701 && c.isWaiting && (s.draft c.draftTable).genOpen && (s.draft c.draftTable).ctx == c.ctx

def State.draftOn (s : State) (c x : Cmd) : Bool :=
  c.draftTurnOp && c.opcode != 0x705 && x.id < c.id && !x.isDone && x.draftTurnOp && x.ctx == c.ctx
    && s.tableOf x == s.tableOf c && !s.generationWait x

def State.draftTurn (s : State) (c : Cmd) : Bool := !s.generationWait c && !s.cmds.any (s.draftOn c)

/-- The channel of the UPU that runs an OPT_UPDATE (R214). -/
def State.optChannel (s : State) (c : Cmd) : Option Nat :=
  if c.isRunning then c.optChannel
  else match s.dptr c 0 with
    | .ok (some l) => ddrChannel (Desc.ofBytes l).base
    | _ => none

/-- Has another command the command's UPU or the save engine, or comes before it there (R214, R513; log entry 23)? -/
def State.engineOn (s : State) (c x : Cmd) : Bool :=
  x.id != c.id && (x.isRunning || (x.isWaiting && x.id < c.id && s.ownWaits x))
    && ((c.opcode == 0x630 && x.opcode == 0x630 && (s.optChannel x).isSome && s.optChannel x == s.optChannel c)
      || ((c.opcode == 0x810 || c.opcode == 0x811) && (x.opcode == 0x810 || x.opcode == 0x811)))

def State.engineFree (s : State) (c : Cmd) : Bool := !s.cmds.any (s.engineOn c)

/-! ## REGION_SET holds its context (R386) -/

/-- The PLAYBOOK_START of the playbook that issued a command. -/
def State.starterOf (s : State) (c : Cmd) : Option Nat :=
  match c.src with
  | .seq n _ _ _ => some (s.seq n).starter
  | .host _ => none

/-- Does command c wait for command x: by its dependencies, its fence or one of the orders above, for a place in a slot's
queue, or as a PLAYBOOK_START for the entries of its playbook? -/
def State.awaits (s : State) (c x : Cmd) : Bool :=
  if c.isWaiting then
    c.deps.contains x.id || s.fenceOn c x || refereeOn c x || slotOn c x || s.phaseOn c x || verdictOn c x || s.draftOn c x
      || s.engineOn c x || feedOn c x || (c.collGroup?.isSome && x.collGroup? == c.collGroup? && x.id < c.id && !x.isDone)
      || c.behindSlots x
  else c.isRunning && c.opcode == 0x600 && s.starterOf x == some c.id

/-- Does a REGION_SET that has not ended bear on a command's start: on any command of its context, but on no REGION_SET
admitted before it? -/
def regionOn (r c : Cmd) : Bool :=
  r.opcode == 0x002 && r.placed && !r.isDone && r.id != c.id && r.ctxParam == c.ctx && (c.opcode != 0x002 || r.id < c.id)

/-- The commands that REGION_SET r waits for, directly or by way of others, itself among them. -/
def State.neededIds (s : State) (r : Cmd) : List Nat :=
  (List.range s.cmds.length).foldl (fun l _ => l ++ (s.cmds.filter (fun y => !l.contains y.id
    && s.cmds.any (fun x => l.contains x.id
      && (s.awaits x y || (regionOn y x && (y.ctxParam != r.ctxParam || y.id < r.id)))))).map (·.id)) [r.id]

/-- Does a REGION_SET that still waits to start need command c, or the playbook that it comes from? -/
def State.neededBy (s : State) (r c : Cmd) : Bool :=
  r.isWaiting && (let l := s.neededIds r
    l.contains c.id || (match s.starterOf c with | some i => l.contains i | none => false))

/-- Does REGION_SET r hold command c back? From its admission, but for the commands that it needs itself (log entry 15). -/
def State.holds (s : State) (r c : Cmd) : Bool := regionOn r c && (c.opcode == 0x002 || !s.neededBy r c)

def State.regionHeld (s : State) (c : Cmd) : Bool := s.cmds.any (fun r => s.holds r c)

/-! ## May a command start? -/

/-- A target cluster can take the command: its power domain runs and its self-test is done (R397, R498). One out of service
rejects it (R493). -/
def State.clustersUp (s : State) (c : Cmd) : Bool :=
  c.clusters.all (fun k => (s.cluster k).out || ((s.domain k).st.running && s.errors.postDone.getLsbD k))

/-- May a waiting command start, but for the rules of relay playbooks? None does while a write waits for a retry, so that what a
completed command wrote is seen (R202, R398; log entry 7). -/
def State.ready (s : State) (c : Cmd) : Bool :=
  c.isWaiting && s.memside.held.isEmpty && s.ownWaits c && !s.regionHeld c && s.slotFree c && s.phaseTurn c && s.verdictTurn c && s.feedTurn c
    && s.draftTurn c && s.collTurn c && s.engineFree c && s.clustersUp c && (c.opcode != 0x644 || s.postRoom c.seqNum)

/-! ## Relay playbooks (R241, R242) -/

/-- The sequencer whose playbook a relay command fills, where that playbook is still the one bound. -/
def State.boundTo (s : State) (c : Cmd) : Option Nat :=
  match c.src with
  | .host _ => none
  | .seq n _ _ _ =>
    let q := s.seq n
    if q.relay && (s.seq q.relaySeq).st != .idle && (s.seq q.relaySeq).starter == q.relayOf then some q.relaySeq else none

/-- Do two commands share a target cluster? -/
def Cmd.shares (a b : Cmd) : Bool := a.clusters.any (fun k => b.clusters.contains k)

/-- A relay command bound to the command's playbook runs on one of its clusters. -/
def State.relayInWay (s : State) (c : Cmd) : Bool :=
  match c.src with
  | .host _ => false
  | .seq n _ _ _ => s.cmds.any (fun x => x.isRunning && s.boundTo x == some n && x.shares c)

/-- Is a command of the bound playbook ready for one of the clusters? A relay command of its own does not hold it back. -/
def State.boundReady (s : State) (c : Cmd) (n : Nat) : Bool := s.cmds.any (fun x => x.ofSeq n && x.shares c && s.ready x)

/-- Is the command one that RELAY_ADMISSION starts: one of a relay playbook, on clusters? -/
def State.isRelay (s : State) (c : Cmd) : Bool :=
  match c.src with
  | .host _ => false
  | .seq n _ _ _ => (s.seq n).relay && !c.clusters.isEmpty

/-! ## Places (R71, R513) -/

/-- May a relay command take places: its playbook is bound to none, or to one that is held or that has no command ready for its
clusters (R242)? -/
def State.relayOpen (s : State) (c : Cmd) : Bool :=
  match s.boundTo c with
  | none => true
  | some n => (s.seq n).st == .held || !s.boundReady c n

/-- The commands that are ready and run shares on cores, relay commands among them (R242, R513). -/
def State.seekers (s : State) : List Cmd :=
  s.cmds.filter (fun x => (x.onArray || x.onThread) && s.ready x && !s.relayInWay x && (!s.isRelay x || s.relayOpen x))

/-- The ready commands admitted before this one. -/
def State.before (s : State) (c : Cmd) : List Cmd := s.seekers.filter (fun x => x.id < c.id)

/-- The controllers choose partition modes for a product that is ready, and for those that are ready beside it. -/
def State.chooseModes (s : State) (c : Cmd) : State :=
  if c.onArray then s.settleModes c.clusters (c :: s.seekers.filter (fun x => x.id != c.id)) else s

/-! ## The checks of each unit (R396) -/

/-- What the unit of a command finds when the command starts. -/
def State.startOf (s : State) (c : Cmd) : Started :=
  match c.opcode with
  | 0x000 => s.ctxCreateStart c
  | 0x001 => s.ctxDestroyStart c
  | 0x002 => s.regionSetStart c
  | 0x020 => s.cancelStart c
  | 0x030 => s.clearStickyStart c
  | 0x100 => s.moveCopyStart c false
  | 0x101 => s.moveFillStart c
  | 0x102 => s.moveCopyStart c true
  | 0x110 => s.moveBlocksStart c false
  | 0x111 => s.moveBlocksStart c true
  | 0x200 => s.denseStart c
  | 0x300 => s.spmmStart c
  | 0x301 => s.spspStart c
  | 0x302 => s.intersectStart c
  | 0x310 => s.scrumListStart c true false
  | 0x311 => s.scrumListStart c false false
  | 0x312 => s.scrumListStart c false true
  | 0x313 => s.embedBagStart c
  | 0x320 => s.topcStart c
  | 0x330 => s.predictStart c
  | 0x400 => s.eltwiseStart c
  | 0x401 => s.activateStart c false
  | 0x402 => s.activateStart c true
  | 0x408 => s.tableLoadStart c
  | 0x420 | 0x421 | 0x422 | 0x423 | 0x424 | 0x425 => s.fusedStart c
  | 0x500 | 0x501 | 0x502 | 0x503 | 0x504 => s.collStart c
  | 0x505 => s.barrierStart c
  | 0x510 => s.groupDefineStart c
  | 0x511 => s.groupReadmitStart c
  | 0x512 => s.groupReleaseStart c
  | 0x520 | 0x521 => s.remoteStart c
  | 0x600 => s.playbookStartStart (fun p => (reservedHeader p).any (fun r => r.2)) (fun op => knownOps.contains op) c
  | 0x601 | 0x602 | 0x603 => s.playbookCtlStart c
  | 0x630 => s.optStart c
  | 0x643 => s.pbFeedStart c
  | 0x644 => s.pbPostStart c
  | 0x645 => s.pbLossStart c
  | 0x646 => s.pbVerdictStart c
  | 0x700 => s.draftOpenStart c
  | 0x701 => s.draftProposeStart c
  | 0x702 => s.draftMergeStart c
  | 0x703 => s.draftFwdStart c
  | 0x704 => s.draftBwdStart c
  | 0x705 => s.draftCancelStart c
  | 0x706 => s.draftTransferStart c
  | 0x800 => s.keepPairStart c
  | 0x801 => s.keepUnpairStart c
  | 0x802 => s.keepRestoreStart c
  | 0x803 => s.keepCheckStart c
  | 0x804 => s.distRegisterStart c
  | 0x810 => s.saveShardStart c
  | 0x811 => s.saveRestoreStart c
  | 0x900 => s.powerVoteStart c
  | 0x901 => s.powerCapStart c
  | 0xA00 => s.benchCheckStart c
  | 0xA01 => s.selfTestStart c
  | 0xA10 => s.repairSoftStart true c
  | 0xA11 => s.repairFuseStart c
  | 0xA20 => s.diagRosterStart c
  | 0xB00 => s.attestStart c
  | 0xB01 => s.fwStageStart c
  | 0xB02 => s.lifecycleStart c
  | _ => {}

/-- The lowest failed check of a command at its start, its life-cycle permission and its clusters among them (R396, R458,
R493, R502). -/
def State.startRej (s : State) (c : Cmd) (k : Started) : Option Rej :=
  worst (k.rejs ++ need (lifePermits s.referee.life c.opcode) Status.rejLifecycle 64
    ++ need (c.clusters.all (fun n => !(s.cluster n).out)) Status.rejTarget 9)

/-! ## What a start takes -/

/-- The command boundary of a unit: shadowed words and table loads come into force (R150, R428, R429), on the clusters where
the command runs a share (R88). -/
def State.boundary (s : State) (c : Cmd) : State :=
  let take := fun (r : Rs) => Rs.init r.shadow
  let s := (s.shareClusters c).foldl (fun (s : State) n => (s.modCluster n (fun k => { k with
    array := take k.array, acc := take k.acc, scrum := take k.scrum, core := take k.core, feeder := take k.feeder })).takeTables n) s
  let s := if c.opcode == 0x645 || c.opcode == 0x646 then s.modSeq c.seqNum (fun q => { q with cfg := take q.cfg }) else s
  if c.isHost && c.usesSr then { s with rngSeed := take s.rngSeed } else s

/-- The words that a cluster command uses until it completes (R429). -/
def State.latch (s : State) (c : Cmd) : List Latched :=
  (s.shareClusters c).map (fun n =>
    let k := s.cluster n
    { cluster := n, array := k.array.force, acc := k.acc.force, scrum := k.scrum.force, core := k.core.force
      feeder := k.feeder.force })

/-- The core-scratch tensors that a drain places, each with its number of consumers (R170). -/
def Cmd.placedScratch (c : Cmd) (ops : List (Nat × Operand)) : List Scratch :=
  (ops.filter (fun o => o.2.d.space == 2 && c.drainDests.contains o.1)).filterMap (fun o =>
    o.2.scratch.map (fun i =>
      { id := i, ctx := c.ctx, owner := c.owner, tag := c.ownTag, clusters := c.clusters
        claims := bits o.2.d.base 7 0, consumers := bits o.2.d.base 7 0, bytes := o.2.d.spanBytes
        plane := (o.2.scale.map Desc.spanBytes).getD 0 }))

/-- The command takes its place among the consumers of what it reads from core scratch, and places what it drains there. -/
def State.takeScratch (s : State) (c : Cmd) (ops : List (Nat × Operand)) : State :=
  let mine := c.placedScratch ops
  let read := (ops.filterMap (fun o => o.2.scratch)).filter (fun i => i / 8 != c.id)
  { s with scratch := s.scratch.map (fun t => if read.contains t.id then { t with claims := t.claims - 1 } else t) ++ mine }

/-- A command runs: it holds what its checks resolved (R392), opens slots (R91) and takes its scratch. -/
def State.run (s : State) (c : Cmd) (k : Started) : State :=
  let s := ((s.dropTiles c).openSlots c k.slots).takeScratch c k.ops
  let r := { c with ops := k.ops, latched := s.latch c }
  s.modCmd c.id (fun x => { x with
    st := .running, ops := r.ops, part := { poisonIn := foulOps k.ops, poison := foulOps k.ops != 0 }
    needs := s.needsOf r, held := k.held, latched := r.latched, bias := s.readBias r, biasBad := s.readBiasBad r
    seed := if c.isHost then s.rngSeed.force else x.seed })

/-- Collectives, PB_VERDICT and draft commands run although a dependency was lost with a member (R347; log entry 14). -/
def runsDegraded (op : Nat) : Bool := (0x500 ≤ op && op ≤ 0x505) || op == 0x646 || (0x700 ≤ op && op ≤ 0x706)

/-- How a command ends whose dependency failed, where it does not run (R347, R395). -/
def Cmd.depOutcome (c : Cmd) : Option Compl :=
  if !c.depFailed || c.depAny then none
  else if c.isHost || !c.depLost then some (rejCompl Status.rejDep)
  else if runsDegraded c.opcode then none
  else some (plainCompl Status.fltMemberLost)

/-- A control entry that acted when it was issued completes once its dependencies are met (R233). -/
def State.controlDone (s : State) (c : Cmd) : State := s.finish c.id (plainCompl Status.ok)

/-- A ready command starts: it completes with the lowest failed check, or runs and takes its places. What needs a die-to-die
link that is down ends at once (R495); the domains that its memory needs start to wake (R476). -/
def State.begin (s : State) (c : Cmd) (before : List Cmd) : State :=
  let s := c.clusters.foldl State.settleDomain s
  let s := s.boundary c
  let k := s.startOf c
  match s.startRej c k with
  | some r => s.finish c.id (rejCompl r.1 r.2)
  | none =>
    let s := s.run c k
    match s.cmd? c.id with
    | some x =>
      if s.needsDownLink x then s.cutShort x Status.fltHw
      else
        let s := x.needs.foldl State.startWake s
        (s.place x before).reportCores x
    | none => s

/-- A command whose waits are over starts once it can take its places. -/
def State.tryBegin (s : State) (c : Cmd) : State :=
  let before := s.before c
  let s := s.chooseModes c
  if s.placeable c before then s.begin c before else s

/-- COMMAND_START (R395). -/
def State.doCommandStart (s : State) (id : Nat) : State :=
  match s.cmd? id with
  | none => s
  | some c =>
    if !c.isWaiting then s
    else match c.depOutcome with
      | some k => if c.deps.isEmpty then s.finish id k else s
      | none =>
        if !s.ready c || s.isRelay c || s.relayInWay c then s
        else if immediateOp c.opcode then s.controlDone c
        else s.tryBegin c

def execCommandStart (id : Nat) (s : State) : Host.Outcome State Fault Refusal := .next (s.doCommandStart id)

/-- Relay work that was admitted shows in the records of the bound playbook's open windows (R254). -/
def State.noteRelay (s : State) (n id : Nat) : State :=
  if (s.cmd? id).any (fun c => c.isRunning) then s.modSeq n (fun q => q.modOpen s.cmds n (fun w => { w with relay := true })) else s

/-- RELAY_ADMISSION (R242). -/
def State.doRelayAdmission (s : State) (id : Nat) : State :=
  match s.cmd? id with
  | none => s
  | some c =>
    if c.depOutcome.isSome || !s.ready c || !s.isRelay c || s.relayInWay c || !s.relayOpen c then s
    else match s.boundTo c with
      | none => s.tryBegin c
      | some n => (s.tryBegin c).noteRelay n id

def execRelayAdmission (id : Nat) (s : State) : Host.Outcome State Fault Refusal := .next (s.doRelayAdmission id)

/-! ## PLAYBOOK_START -/

/-- PLAYBOOK_START (R226, R411): its checks were made when it started, and it binds the sequencer that it took then. -/
def State.doPlaybookStart (s : State) (id : Nat) : State :=
  match s.running? id 0x600 with
  | none => s
  | some c => if c.atGo then s.acceptPlaybook sha3 c c.pbSeq else s

def execPlaybookStart (id : Nat) (s : State) : Host.Outcome State Fault Refusal := .next (s.doPlaybookStart id)

/-! ## PB_STEP_END -/

/-- The step of a sequencer ends (R227, R232, R233, R285, R345). -/
def State.endStep (s : State) (n : Nat) : State :=
  let s := (s.advance n).modSeq n (fun q =>
    { q.modWindow q.step (fun w => { w with closed := true }) with step := q.step + 1#32 })
  let s := (s.stepBoundary.takePlacements (s.seq n).ctx).modSeq n Seq.afterBoundary
  s.settleSeq n

def execPbStepEnd (n : Nat) (s : State) : Host.Outcome State Fault Refusal :=
  .next (s.issueControl n 0x649 (fun t => t.endStep n))

end Sys2Proof.Machine
end

