-- ==== Sys2Proof/Machine/Dispatch.lean ====
section
/-! DEFINITION. One arm for each command. Each arm calls the command's own meaning. -/

namespace Sys2Proof.Machine

/-- What a command does to the machine; the queue of waiting commands is as `step` left it. -/
def exec (i : Instr) (s : State) : Host.Outcome State Fault Refusal :=
  match i with
  | .ctxCreate id => Sys2Proof.Machine.execCtxCreate id s
  | .ctxDestroy id => Sys2Proof.Machine.execCtxDestroy id s
  | .regionSet id => Sys2Proof.Machine.execRegionSet id s
  | .cancel id => Sys2Proof.Machine.execCancel id s
  | .clearSticky id => Sys2Proof.Machine.execClearSticky id s
  | .moveCopy id => Sys2Proof.Machine.execMoveCopy id s
  | .moveFill id => Sys2Proof.Machine.execMoveFill id s
  | .movePermute id => Sys2Proof.Machine.execMovePermute id s
  | .moveGatherBlocks id => Sys2Proof.Machine.execMoveGatherBlocks id s
  | .moveScatterBlocks id => Sys2Proof.Machine.execMoveScatterBlocks id s
  | .denseMm id => Sys2Proof.Machine.execDenseMm id s
  | .scrumSpmm id => Sys2Proof.Machine.execScrumSpmm id s
  | .scrumSpsp id => Sys2Proof.Machine.execScrumSpsp id s
  | .scrumIntersect id => Sys2Proof.Machine.execScrumIntersect id s
  | .scrumGather id => Sys2Proof.Machine.execScrumGather id s
  | .scrumScatter id => Sys2Proof.Machine.execScrumScatter id s
  | .scrumScatterAdd id => Sys2Proof.Machine.execScrumScatterAdd id s
  | .scrumEmbedBag id => Sys2Proof.Machine.execScrumEmbedBag id s
  | .scrumTopc id => Sys2Proof.Machine.execScrumTopc id s
  | .scrumPredictFfn id => Sys2Proof.Machine.execScrumPredictFfn id s
  | .vecEltwise id => Sys2Proof.Machine.execVecEltwise id s
  | .vecActivate id => Sys2Proof.Machine.execVecActivate id s
  | .vecActivateBwd id => Sys2Proof.Machine.execVecActivateBwd id s
  | .vecTableLoad id => Sys2Proof.Machine.execVecTableLoad id s
  | .fusedSoftmaxFwd id => Sys2Proof.Machine.execFusedSoftmaxFwd id s
  | .fusedSoftmaxBwd id => Sys2Proof.Machine.execFusedSoftmaxBwd id s
  | .fusedLayernormFwd id => Sys2Proof.Machine.execFusedLayernormFwd id s
  | .fusedLayernormBwd id => Sys2Proof.Machine.execFusedLayernormBwd id s
  | .fusedRmsnormFwd id => Sys2Proof.Machine.execFusedRmsnormFwd id s
  | .fusedRmsnormBwd id => Sys2Proof.Machine.execFusedRmsnormBwd id s
  | .collAllReduce id => Sys2Proof.Machine.execCollAllReduce id s
  | .collReduceScatter id => Sys2Proof.Machine.execCollReduceScatter id s
  | .collAllGather id => Sys2Proof.Machine.execCollAllGather id s
  | .collAllToAll id => Sys2Proof.Machine.execCollAllToAll id s
  | .collBroadcast id => Sys2Proof.Machine.execCollBroadcast id s
  | .collBarrierOr id => Sys2Proof.Machine.execCollBarrierOr id s
  | .fabGroupDefine id => Sys2Proof.Machine.execFabGroupDefine id s
  | .fabGroupReadmit id => Sys2Proof.Machine.execFabGroupReadmit id s
  | .fabGroupRelease id => Sys2Proof.Machine.execFabGroupRelease id s
  | .fabPut id => Sys2Proof.Machine.execFabPut id s
  | .fabGet id => Sys2Proof.Machine.execFabGet id s
  | .playbookStart id => Sys2Proof.Machine.execPlaybookStart id s
  | .playbookStop id => Sys2Proof.Machine.execPlaybookStop id s
  | .playbookHold id => Sys2Proof.Machine.execPlaybookHold id s
  | .playbookResume id => Sys2Proof.Machine.execPlaybookResume id s
  | .optUpdate id => Sys2Proof.Machine.execOptUpdate id s
  | .pbPhase k => Sys2Proof.Machine.execPbPhase k s
  | .pbLoop k => Sys2Proof.Machine.execPbLoop k s
  | .pbEndloop k => Sys2Proof.Machine.execPbEndloop k s
  | .pbFeed id => Sys2Proof.Machine.execPbFeed id s
  | .pbPost id => Sys2Proof.Machine.execPbPost id s
  | .pbLoss id => Sys2Proof.Machine.execPbLoss id s
  | .pbVerdict id => Sys2Proof.Machine.execPbVerdict id s
  | .pbIfClean k => Sys2Proof.Machine.execPbIfClean k s
  | .pbEndif k => Sys2Proof.Machine.execPbEndif k s
  | .pbStepEnd k => Sys2Proof.Machine.execPbStepEnd k s
  | .pbEnd k => Sys2Proof.Machine.execPbEnd k s
  | .pbSeed k => Sys2Proof.Machine.execPbSeed k s
  | .draftOpen id => Sys2Proof.Machine.execDraftOpen id s
  | .draftPropose id => Sys2Proof.Machine.execDraftPropose id s
  | .draftMerge id => Sys2Proof.Machine.execDraftMerge id s
  | .draftRunFwd id => Sys2Proof.Machine.execDraftRunFwd id s
  | .draftRunBwd id => Sys2Proof.Machine.execDraftRunBwd id s
  | .draftCancel id => Sys2Proof.Machine.execDraftCancel id s
  | .draftTransfer id => Sys2Proof.Machine.execDraftTransfer id s
  | .keepPair id => Sys2Proof.Machine.execKeepPair id s
  | .keepUnpair id => Sys2Proof.Machine.execKeepUnpair id s
  | .keepRestore id peer => Sys2Proof.Machine.execKeepRestore id peer s
  | .keepCheck id peerDigests => Sys2Proof.Machine.execKeepCheck id peerDigests s
  | .distRegister id => Sys2Proof.Machine.execDistRegister id s
  | .saveShard id => Sys2Proof.Machine.execSaveShard id s
  | .saveRestore id => Sys2Proof.Machine.execSaveRestore id s
  | .powerVote id => Sys2Proof.Machine.execPowerVote id s
  | .powerCapSet id => Sys2Proof.Machine.execPowerCapSet id s
  | .benchCheck id rs => Sys2Proof.Machine.execBenchCheck id rs s
  | .selfTest id r => Sys2Proof.Machine.execSelfTest id r s
  | .repairSoft id spareLeft => Sys2Proof.Machine.execRepairSoft id spareLeft s
  | .repairFuse id readBackOk => Sys2Proof.Machine.execRepairFuse id readBackOk s
  | .diagRosterRead id => Sys2Proof.Machine.execDiagRosterRead id s
  | .attest id => Sys2Proof.Machine.execAttest id s
  | .fwStage id readBackOk => Sys2Proof.Machine.execFwStage id readBackOk s
  | .fwStageCommitSvn id => Sys2Proof.Machine.execFwStageCommitSvn id s
  | .lifecycleAdvance id => Sys2Proof.Machine.execLifecycleAdvance id s
  | .sqFetch q => Sys2Proof.Machine.execSqFetch q s
  | .commandAdmission q => Sys2Proof.Machine.execCommandAdmission q s
  | .commandStart id => Sys2Proof.Machine.execCommandStart id s
  | .completionWrite id => Sys2Proof.Machine.execCompletionWrite id s
  | .heldCompletionFlush cq => Sys2Proof.Machine.execHeldCompletionFlush cq s
  | .playbookIssue k => Sys2Proof.Machine.execPlaybookIssue k s
  | .playbookEntryFailed k => Sys2Proof.Machine.execPlaybookEntryFailed k s
  | .playbookEnterHeld k => Sys2Proof.Machine.execPlaybookEnterHeld k s
  | .stepWindowClose k => Sys2Proof.Machine.execStepWindowClose k s
  | .relayAdmission id => Sys2Proof.Machine.execRelayAdmission id s
  | .cfgWr addr len t => Sys2Proof.Machine.execCfgWr addr len t s
  | .hostWr addr hctx data poison => Sys2Proof.Machine.execHostWr addr hctx data poison s
  | .hostRd tag addr len hctx => Sys2Proof.Machine.execHostRd tag addr len hctx s
  | .doorbell q data => Sys2Proof.Machine.execDoorbell q data s
  | .dmaResp tag status data poison => Sys2Proof.Machine.execDmaResp tag status data poison s
  | .dmaWrAck tag status => Sys2Proof.Machine.execDmaWrAck tag status s
  | .dmaTimeout tag => Sys2Proof.Machine.execDmaTimeout tag s
  | .sqCfgWrite n off len data => Sys2Proof.Machine.execSqCfgWrite n off len data s
  | .cqCfgWrite n off len data => Sys2Proof.Machine.execCqCfgWrite n off len data s
  | .cqHeadWrite n off len data => Sys2Proof.Machine.execCqHeadWrite n off len data s
  | .feedTailWrite k v => Sys2Proof.Machine.execFeedTailWrite k v s
  | .resultHeadWrite k v => Sys2Proof.Machine.execResultHeadWrite k v s
  | .cntClearSeq => Sys2Proof.Machine.execCntClearSeq s
  | .cntClearLiust => Sys2Proof.Machine.execCntClearLiust s
  | .cntClearFabric => Sys2Proof.Machine.execCntClearFabric s
  | .cntClearMemory => Sys2Proof.Machine.execCntClearMemory s
  | .cntClearDraft => Sys2Proof.Machine.execCntClearDraft s
  | .cntClearFoul => Sys2Proof.Machine.execCntClearFoul s
  | .cntClearScrum => Sys2Proof.Machine.execCntClearScrum s
  | .cntClearResidue => Sys2Proof.Machine.execCntClearResidue s
  | .fabEnSet moduleId => Sys2Proof.Machine.execFabEnSet moduleId s
  | .fabEnClear moduleId => Sys2Proof.Machine.execFabEnClear moduleId s
  | .passSwap => Sys2Proof.Machine.execPassSwap s
  | .recCtrlGo => Sys2Proof.Machine.execRecCtrlGo s
  | .peerLoadGo => Sys2Proof.Machine.execPeerLoadGo s
  | .capability => Sys2Proof.Machine.execCapability s
  | .statusWord => Sys2Proof.Machine.execStatusWord s
  | .readVin => Sys2Proof.Machine.execReadVin s
  | .readIin milliamps => Sys2Proof.Machine.execReadIin milliamps s
  | .readTemperature => Sys2Proof.Machine.execReadTemperature s
  | .readPout => Sys2Proof.Machine.execReadPout s
  | .pmbusRevision => Sys2Proof.Machine.execPmbusRevision s
  | .mfrId => Sys2Proof.Machine.execMfrId s
  | .mfrModel => Sys2Proof.Machine.execMfrModel s
  | .mfrFeedId write => Sys2Proof.Machine.execMfrFeedId write s
  | .mfrScout => Sys2Proof.Machine.execMfrScout s
  | .mfrCool => Sys2Proof.Machine.execMfrCool s
  | .liustFlitError replayIntact => Sys2Proof.Machine.execLiustFlitError replayIntact s
  | .liustTrainingRetry => Sys2Proof.Machine.execLiustTrainingRetry s
  | .liustLinkDown => Sys2Proof.Machine.execLiustLinkDown s
  | .fabFlitError port replayIntact => Sys2Proof.Machine.execFabFlitError port replayIntact s
  | .fabPortDown port => Sys2Proof.Machine.execFabPortDown port s
  | .fabPortTrainingRetry port => Sys2Proof.Machine.execFabPortTrainingRetry port s
  | .cableChange cable connected => Sys2Proof.Machine.execCableChange cable connected s
  | .packetForward inPort p micros credits => Sys2Proof.Machine.execPacketForward inPort p micros credits s
  | .remoteRdReq p => Sys2Proof.Machine.execRemoteRdReq p s
  | .remoteWr p => Sys2Proof.Machine.execRemoteWr p s
  | .remoteWrBulk p => Sys2Proof.Machine.execRemoteWrBulk p s
  | .collReady p => Sys2Proof.Machine.execCollReady p s
  | .barrierFlag p => Sys2Proof.Machine.execBarrierFlag p s
  | .collData p => Sys2Proof.Machine.execCollData p s
  | .draftPacket p => Sys2Proof.Machine.execDraftPacket p s
  | .remoteRdResp p => Sys2Proof.Machine.execRemoteRdResp p s
  | .remoteWrAck p => Sys2Proof.Machine.execRemoteWrAck p s
  | .collAck p => Sys2Proof.Machine.execCollAck p s
  | .barrierResult p => Sys2Proof.Machine.execBarrierResult p s
  | .errResp p => Sys2Proof.Machine.execErrResp p s
  | .fabRemoteTimeout tag => Sys2Proof.Machine.execFabRemoteTimeout tag s
  | .collTimeout id => Sys2Proof.Machine.execCollTimeout id s
  | .hello port m => Sys2Proof.Machine.execHello port m s
  | .heartbeat port m => Sys2Proof.Machine.execHeartbeat port m s
  | .heartbeatInterval => Sys2Proof.Machine.execHeartbeatInterval s
  | .heartbeatMiss port => Sys2Proof.Machine.execHeartbeatMiss port s
  | .foundingTimeout => Sys2Proof.Machine.execFoundingTimeout s
  | .join port m => Sys2Proof.Machine.execJoin port m s
  | .leave port m => Sys2Proof.Machine.execLeave port m s
  | .leaveTimeout => Sys2Proof.Machine.execLeaveTimeout s
  | .linkReport port m => Sys2Proof.Machine.execLinkReport port m s
  | .roster port m => Sys2Proof.Machine.execRoster port m s
  | .fabHold port m => Sys2Proof.Machine.execFabHold port m s
  | .holdAck port m => Sys2Proof.Machine.execHoldAck port m s
  | .reorientLifetimeWait => Sys2Proof.Machine.execReorientLifetimeWait s
  | .install port m => Sys2Proof.Machine.execInstall port m s
  | .installAck port m => Sys2Proof.Machine.execInstallAck port m s
  | .fabRelease port m => Sys2Proof.Machine.execFabRelease port m s
  | .ssuOperation op => Sys2Proof.Machine.execSsuOperation op s
  | .scatterAddBatch addr bf16 batch => Sys2Proof.Machine.execScatterAddBatch addr bf16 batch s
  | .rankOrderReduction r => Sys2Proof.Machine.execRankOrderReduction r s
  | .memReadRetry addr second => Sys2Proof.Machine.execMemReadRetry addr second s
  | .scrubRead addr first second => Sys2Proof.Machine.execScrubRead addr first second s
  | .residueFailure core scrum secondFails => Sys2Proof.Machine.execResidueFailure core scrum secondFails s
  | .sramUe place outcome => Sys2Proof.Machine.execSramUe place outcome s
  | .coreFailing core ids => Sys2Proof.Machine.execCoreFailing core ids s
  | .coreBench core => Sys2Proof.Machine.execCoreBench core s
  | .dlinkFlitError a b replayIntact retrained ids => Sys2Proof.Machine.execDlinkFlitError a b replayIntact retrained ids s
  | .powerUp straps seated millivolts => Sys2Proof.Machine.execPowerUp straps seated millivolts s
  | .boot => Sys2Proof.Machine.execBoot s
  | .post rs badBuffers => Sys2Proof.Machine.execPost rs badBuffers s
  | .resetN lowNanos straps => Sys2Proof.Machine.execResetN lowNanos straps s
  | .seatedNRelease => Sys2Proof.Machine.execSeatedNRelease s
  | .vinChange millivolts micros => Sys2Proof.Machine.execVinChange millivolts micros s
  | .regulatorFault domain beyondTen => Sys2Proof.Machine.execRegulatorFault domain beyondTen s
  | .clockLoss => Sys2Proof.Machine.execClockLoss s
  | .limiterIntervalEnd pm ea => Sys2Proof.Machine.execLimiterIntervalEnd pm ea s
  | .classRiseHold cluster core cls => Sys2Proof.Machine.execClassRiseHold cluster core cls s
  | .fastClamp milliwatts milliamps millivolts => Sys2Proof.Machine.execFastClamp milliwatts milliamps millivolts s
  | .thermalSample readings => Sys2Proof.Machine.execThermalSample readings s
  | .thermalTrip readings => Sys2Proof.Machine.execThermalTrip readings s
  | .domainEntry domain => Sys2Proof.Machine.execDomainEntry domain s
  | .domainWake domain => Sys2Proof.Machine.execDomainWake domain s
  | .privilegedWake domain timeout => Sys2Proof.Machine.execPrivilegedWake domain timeout s
  | .parentVoteRelease domain => Sys2Proof.Machine.execParentVoteRelease domain s
  | .telemetryWindowEnd util nowMinutes => Sys2Proof.Machine.execTelemetryWindowEnd util nowMinutes s
  | .tripHoldEnd => Sys2Proof.Machine.execTripHoldEnd s
  | .dimmChange channel fitted => Sys2Proof.Machine.execDimmChange channel fitted s
  | .managementPacketResend port => Sys2Proof.Machine.execManagementPacketResend port s
  | .liustLinkUp width => Sys2Proof.Machine.execLiustLinkUp width s
  | .fabPortUp port lanes4 => Sys2Proof.Machine.execFabPortUp port lanes4 s

end Sys2Proof.Machine
end

