-- ==== Sys2Proof/Machine/Tick.lean ====
section
/-! DEFINITION. One ACLK cycle, which passes when no command waits (log entry 6): MOD_CYCLES, wall-clock time, the counts of
the playbook sequencers (R242, R253), the fetch requests that wait for an expert's update (R273), remote requests that wait
for a tag (R298), and waiting packets past their lifetime (R297, R312), and the ACLK share of the limiter's
interval (R468). -/

namespace Sys2Proof.Machine

/-- Commands of the step of a window in flight, by phase. -/
def State.phaseActive (s : State) (n : Nat) (w : Window) (phase : Nat) : Bool :=
  (s.inStep n w.step).any (fun c => c.phase? == some phase)

/-- One cycle of an open window. -/
def State.tickWindow (s : State) (n : Nat) (w : Window) : Window :=
  if !w.isOpen s.cmds n then w
  else
    let on := fun (k : Nat) => s.phaseActive n w k
    { w with
      cycles := w.cycles + 1
      phaseCycles := Vector.ofFn (fun (k : Fin 7) => w.phaseCycles[k] + (if on k.val then 1 else 0))
      idleCycles := w.idleCycles + (if (List.range 7).any on then 0 else 1) }

/-- A counter counts one where a condition holds. -/
def countIf (b : Bool) (w : Word64) : Word64 := if b then satAdd w 1 else w

/-- Does a command of the sequencer that is ready wait for relay work to leave its clusters (R242)? -/
def State.relayDelays (s : State) (n : Nat) : Bool := s.cmds.any (fun c => c.ofSeq n && s.relayInWay c && s.ready c)

/-- One cycle of a sequencer. A phase total counts a cycle once, whichever steps are in that phase; HELD counts the cycles of
that state, and IDLE those of another state of a playbook with none of its commands in flight (R234). -/
def State.tickSeq (s : State) (n : Nat) : State :=
  let q := s.seq n
  let opened := q.windows.filter (fun w => w.isOpen s.cmds n)
  let on := fun (k : Nat) => opened.any (fun w => s.phaseActive n w k)
  let held := q.st == .held
  s.modSeq n (fun q => { q with
    windows := q.windows.map (s.tickWindow n)
    heldCycles := q.heldCycles + (if held then 1 else 0)
    relayDelayCyc := countIf (s.relayDelays n) q.relayDelayCyc
    phaseCyc := Vector.ofFn (fun (k : Fin 9) =>
      countIf (if k.val == 7 then held
        else if k.val == 8 then q.st != .idle && !held && s.seqInFlight n == 0
        else on k.val) q.phaseCyc[k]) })

/-- Wall-clock time of one ACLK cycle in units of 1/720720 ns (R466). -/
def Power.cycleTime (p : Power) : Nat := 720720 * 16 / p.step

/-- One ACLK cycle. No cycle passes while the module is without power or held in reset. -/
def State.tick (s : State) : State :=
  if !s.alive then s
  else
    let s := (List.range 4).foldl State.tickSeq s
    let s := s.serveAll.pumpRemotes.settleRestores.ageOut
    { s with
      cycles := satAdd s.cycles 1, wall := s.wall + s.power.cycleTime
      power := { s.power with
        shareSum := s.power.shareSum + s.keptShare * s.power.cycleTime, shareTime := s.power.shareTime + s.power.cycleTime } }

end Sys2Proof.Machine
end

