-- ==== Sys2Proof/Safety.lean ====
section
/-! DEFINITION. The terms that statements use: what a safe run is, the canonical form of memory, and what the end of a command
changes and leaves alone. -/

namespace Sys2Proof

open Sys2Proof.Machine

/-- A step goes on. -/
def GoesOn (s : State) : Prop := ∃ t, step s = .next t

/-- The states that n steps from s pass through are all ones from which a step goes on. -/
def SafeFor : Nat → State → Prop
  | 0, _ => True
  | n + 1, s => ∃ t, step s = .next t ∧ SafeFor n t

/-- The canonical form of memory. -/
def Canonical (s : State) : Prop := s.mem.wf

/-- The numbers of the commands in flight lie below the number that the next one takes. -/
def Numbered (s : State) : Prop := ∀ c ∈ s.cmds, c.id < s.nextId

/-- Command id, which stands in u, has ended in t with completion k. A host command keeps its place, ended, and takes its turn
in its completion queue; nothing else of the commands, completion queues, sequencers and power changes (R398). A playbook
entry frees its place, and no other sequencer changes (R228). -/
def Ends (u t : State) (id : Nat) (k : Compl) : Prop :=
  match u.cmd? id with
  | none => False
  | some c =>
    match c.src with
    | .host _ =>
      t.cmds = u.cmds.map (fun (x : Cmd) =>
        if x.id == id then { x with st := .done { k with cycles := u.cycles.toNat }, stage := .go } else x)
      ∧ t.cqs = vmod u.cqs c.cq (fun q => { q with done := q.done ++ [id] })
      ∧ t.seqs = u.seqs ∧ t.power = u.power
    | .seq n _ _ _ => t.cmd? id = none ∧ ∀ m, m ≠ n → t.seq m = u.seq m

/-- Two states of a core that differ at most in who holds its partitions, threads and feeder slots, in what lies in those
places, in the class that it last reported, and in that a bench core became active (R504). -/
def SameCore (x y : Core) : Prop :=
  { y with mode := x.mode, said := x.said, parts := x.parts, threads := x.threads, feeds := x.feeds } = x
  ∧ (y.mode = x.mode ∨ (x.mode = .bench ∧ y.mode = .active))

/-- Two states of a cluster that differ at most in what its cores run. -/
structure SameCluster (a b : Cluster) : Prop where
  words : { b with cores := a.cores } = a
  cores : ∀ i, SameCore (vget a.cores i {}) (vget b.cores i {})

/-- What the end of command id leaves alone: everything but commands, completion queues, sequencers, the votes of a playbook
that ends, slots, core scratch, what its cores ran of it, and what the fabric, the link and the save engine hold for it. -/
structure Kept (id : Nat) (u t : State) : Prop where
  pending : t.pending = u.pending
  free : u.free ≤ t.free
  mem : t.mem = u.mem
  contexts : t.contexts = u.contexts
  clusters : ∀ n, SameCluster (u.cluster n) (t.cluster n)
  cores : ∀ n i, (vget (u.cluster n).cores i {}).runs id = false → (vget (u.cluster n).cores i {}).mode ≠ .bench →
    vget (t.cluster n).cores i {} = vget (u.cluster n).cores i {}
  tiles : t.tiles = u.tiles
  sqs : t.sqs = u.sqs
  nextId : t.nextId = u.nextId
  turn : t.turn = u.turn
  drafts : t.drafts = u.drafts
  keeper : t.keeper = u.keeper
  scout : t.scout = u.scout
  ctrs : t.ctrs = u.ctrs
  memside : t.memside = u.memside
  referee : t.referee = u.referee
  errors : t.errors = u.errors
  cfgLate : t.cfgLate = u.cfgLate
  rngSeed : t.rngSeed = u.rngSeed
  cycles : t.cycles = u.cycles
  wall : t.wall = u.wall
  hostTx : t.hostTx = u.hostTx
  fabTx : t.fabTx = u.fabTx
  smbTx : t.smbTx = u.smbTx
  fabric : { t.fabric with queued := [], colls := [], remotes := [], backlog := [] }
    = { u.fabric with queued := [], colls := [], remotes := [], backlog := [] }
  liust : { t.liust with data := [] } = { u.liust with data := [] }
  save : { t.save with active := none, unsent := [], holder := none } = { u.save with active := none, unsent := [], holder := none }
  power : { t.power with domains := [] } = { u.power with domains := [] }

/-- From u the command id ends with completion k, its slots stay as they are unless it failed after it started (R94), and
nothing else changes. -/
def Completes (u t : State) (id : Nat) (k : Compl) : Prop :=
  Ends u t id k ∧ Kept id u t ∧ (Status.isFlt k.status = false → t.slots = u.slots)

/-- From s to t nothing but sequencer n changes. -/
def OnlySequencer (n : Nat) (s t : State) : Prop := t = { s with seqs := t.seqs } ∧ ∀ m, m ≠ n → t.seq m = s.seq m

/-- This module is a member of a group whose every other member is absent (R318). -/
def AloneIn (s : State) (g : Group) : Prop :=
  let me := rankIn g.members s.moduleId
  me < g.members.length ∧ ∀ r < g.members.length, (s.absentRanks g).contains r = (r != me)

/-- A control entry of sequencer n can be issued: it has no dependencies to wait for, or it has a place in flight (R233). -/
def CanIssue (n : Nat) (s : State) : Prop :=
  s.nextDeps (s.seq n) = [] ∨ (s.seqWantsPlace n = true ∧ s.hasTurn (64 + n) = true)

/-- What the issue of a control entry of sequencer n changes beside the entry's own effect: nothing but the sequencer where the
entry has no dependencies to wait for, and else one more command in flight, which waits for them. -/
def Issued (n : Nat) (s t : State) : Prop :=
  (s.nextDeps (s.seq n) = [] → OnlySequencer n s t)
  ∧ (s.nextDeps (s.seq n) ≠ [] → ∃ c, t = { s with seqs := t.seqs, cmds := s.cmds ++ [c], nextId := s.nextId + 1, turn := 64 + n }
    ∧ c.id = s.nextId ∧ c.src = .seq n (s.seq n).entry (s.seq n).step (s.seq n).phase ∧ c.st = .waiting
    ∧ c.packet = s.packetAt ((s.seq n).image + (s.seq n).offset) ∧ ∀ m, m ≠ n → t.seq m = s.seq m)

/-- A packet of type t arrives that this module takes: for it, within its lifetime, whole, and of the length its type asks for
(R292, R296, R297). -/
def Arrives (s : State) (p : Packet) (t : PktType) : Prop :=
  p.type = t ∧ p.hdr.dst = s.moduleId ∧ s.fabOn = true ∧ p.hdr.age < s.lifetime ∧ p.bad = false ∧ lenOk p = true

/-- The domains of the n bytes at an address and of the way to them, over some dies. -/
def domainsAt (s : State) (a n : Nat) (dies : List Nat := []) : List Nat := dedup ((rangePages a n).flatMap (s.memDomains dies))

/-- The state after an access to the n bytes at an address has woken the domains on its way (R476); nothing but their states
differs. -/
def woken (s : State) (a n : Nat) (dies : List Nat := []) : State := s.touchAll (domainsAt s a n dies)

/-- No domain on the way of an access failed to wake, nor one that carries it (R481). -/
def Reached (s : State) (a n : Nat) (dies : List Nat := []) : Prop :=
  ∀ c ∈ domainsAt s a n dies, (woken s a n dies).reaches c = true

/-- Sequencer n has gone on to the entry after the one that it stood at. -/
def WentOn (n : Nat) (s t : State) : Prop :=
  (t.seq n).entry = (s.seq n).entry + 1
  ∧ (t.seq n).offset = (s.seq n).offset + entrySize (s.plenAt ((s.seq n).image + (s.seq n).offset))

end Sys2Proof
end

