-- ==== Sys2Proof/Certificates/Slice0/Obligations.lean ====
section
/-! DEFINITION. The statements for the provers. A command is running where `running?` finds it in the machine with the given
opcode; `Completes u t id k` says that t is u with command id ended by completion k (Sys2Proof/Safety.lean). -/

open Sys2Proof Sys2Proof.Machine

/-! ## The machine -/

/-- The command at the front of the queue acts on the state with the rest of the queue. -/
def Obligations.StepRunsTheFrontCommand : Prop :=
  ∀ (c : Instr) (q : List Instr) (s : State), s.pending = c :: q → step s = exec c { s with pending := q }

/-- MODEL'S CHOICE (log entry 6): where no command waits, one ACLK cycle passes. MOD_CYCLES counts it and saturates (R432),
wall-clock time moves by the cycle's length, the limiter's interval takes its share (R468), and a packet that waits on the
fabric past its lifetime is discarded and counted (R297, R312). Of a sequencer only what its step windows have counted and its
phase, hold and relay-delay counters may change (R242, R253). With no fabric request left to send or to serve, and no remote
command left to complete, nothing else changes. No cycle passes while the module is off. -/
def Obligations.EmptyQueuePassesOneCycle : Prop :=
  ∀ s : State, s.pending = [] →
    (s.alive = false → step s = .next s)
    ∧ (s.alive = true → (∀ n < 64, (s.draft n).fetches = []) → s.fabric.backlog = [] →
        (∀ c ∈ s.cmds, c.isRunning = true → (c.opcode = 0x520 ∨ c.opcode = 0x521 ∨ c.opcode = 0x802) →
          ∃ r ∈ s.fabric.remotes, r.id = c.id) →
      ∃ t, step s = .next t
        ∧ t = { s with
            seqs := t.seqs, fabric := t.fabric, ctrs := t.ctrs, cycles := t.cycles, wall := t.wall
            power := { s.power with
              shareSum := s.power.shareSum + s.keptShare * (720720 * 16 / s.power.step)
              shareTime := s.power.shareTime + 720720 * 16 / s.power.step } }
        ∧ (∀ n, t.seq n = { s.seq n with
            windows := (t.seq n).windows, heldCycles := (t.seq n).heldCycles
            relayDelayCyc := (t.seq n).relayDelayCyc, phaseCyc := (t.seq n).phaseCyc })
        ∧ t.cycles = (if s.cycles.toNat + 1 < 2 ^ 64 then s.cycles + 1#64 else BitVec.allOnes 64)
        ∧ t.wall = s.wall + 720720 * 16 / s.power.step
        ∧ t.fabric = { s.fabric with queued := s.fabric.queued.filter (fun w => w.held || s.ageOf w < s.lifetime) }
        ∧ t.ctr .fabDiscardAge = satAdd (s.ctr .fabDiscardAge)
            (s.fabric.queued.filter (fun w => !w.held && s.lifetime ≤ s.ageOf w)).length
        ∧ ∀ c, c ≠ .fabDiscardAge → t.ctr c = s.ctr c)

/-- The canonical form of memory is kept by every step, whatever the state. -/
def Obligations.EveryStepKeepsMemoryCanonical : Prop :=
  ∀ s t : State, Canonical s → step s = .next t → Canonical t

/-- The numbers of commands in flight stay below the next number, whatever the state. -/
def Obligations.EveryStepKeepsCommandNumbersBelowTheNext : Prop :=
  ∀ s t : State, Numbered s → step s = .next t → Numbered t

/-- The state after reset has both. -/
def Obligations.ResetMeetsBothInvariants : Prop := Canonical State.reset ∧ Numbered State.reset

/-- The values that the manual gives for reset: no queue is enabled, context 0 alone is live, no region is valid, the sequencers
are idle with LOSS_EWMA a NaN, and the configuration words and counters hold their Reset columns. -/
def Obligations.ResetLeavesTheStatedValues : Prop :=
  let s := State.reset
  (∀ n < 64, (s.sq n).en = false ∧ (s.cq n).en = false ∧ (s.cq n).wphase = true ∧ (s.draft n).bound = false)
  ∧ (∀ n < 16, (s.context n).live = (n == 0) ∧ ∀ k < 64, (vget (s.context n).regions k {}).valid = false)
  ∧ (∀ n < 4, (s.seq n).st = .idle ∧ (s.seq n).ewma = 0x7FC00000#32
      ∧ (s.seq n).cfg = Rs.init 0x3F00000020000006#64 ∧ (s.seq n).step = 0#32)
  ∧ (∀ n < 8, (s.cluster n).array = Rs.init 0x3#64 ∧ (s.cluster n).acc = Rs.init 0x8#64
      ∧ (s.cluster n).scrum = Rs.init 0x100046231200#64 ∧ (s.cluster n).core = Rs.init 0x20#64
      ∧ (s.cluster n).feeder = Rs.init 0x840#64 ∧ (s.cluster n).out = false)
  ∧ (∀ c, s.ctr c = 0#64) ∧ s.cycles = 0#64 ∧ s.rngSeed = Rs.init 0#64
  ∧ s.memside.cfg = Rs.init 0x180003#64 ∧ s.memside.place = 0#256
  ∧ s.power.cfg = Rs.init 0xE10107D#64 ∧ s.fabric.cfg = Rs.init 0x64424030A003E8#64
  ∧ s.fabric.en = false ∧ s.fabric.state = .off ∧ s.liust.state = .down ∧ (∀ n < 48, (s.port n).state = .down)
  ∧ s.cmds = [] ∧ s.slots = [] ∧ s.pending = [] ∧ s.referee.state = .rom ∧ s.referee.mult = 1

/-- The address on which an SSU, a retry or a scrub acts. -/
def Sys2Proof.blockOfInstr : Instr → Option Nat
  | .ssuOperation op => some (ssuAddr op)
  | .scatterAddBatch addr _ _ => some addr
  | .memReadRetry addr _ => some addr
  | .scrubRead addr _ _ => some addr
  | _ => none

/-- No command is refused, and the only commands that stop are those that act on a block outside HBM4 and the present DDR5
ranges (R195). -/
def Obligations.OnlyAbsentBlocksStopACommand : Prop :=
  ∀ (i : Instr) (s : State),
    (∀ r, exec i s ≠ .refused r)
    ∧ ((∃ a, blockOfInstr i = some a ∧ s.present a = false) → exec i s = .fault .absentAddress)
    ∧ ((∀ a, blockOfInstr i = some a → s.present a = true) → ∃ t, exec i s = .next t)

/-! ## Queues of commands (R378 to R382, R393 to R398) -/

/-- SQ_CFG_WRITE: a disabled queue takes SIZE, CQ, CTX and BASE; EN = 1 with a SIZE of 1 to 4096 enables it, with HEAD and
TAIL 0 and its stop cleared; an enabled queue takes EN alone. Other queues and memory stay. CQ_CFG_WRITE: as for a submission
queue, with SIZE, VECTOR and BASE, and a SIZE of 2 to 4096; the enabled queue has HEAD and TAIL 0, and its phase bit starts
at 1. -/
def Obligations.QueuesTakeTheirConfiguration : Prop :=
  (∀ (s : State) (n off len : Nat) (data : Word64), n < 64 → s.hostUp = true →
      ∃ t, exec (.sqCfgWrite n off len data) s = .next t
        ∧ (∀ m, m ≠ n → t.sq m = s.sq m) ∧ t.mem = s.mem ∧ t.cmds = s.cmds ∧ t.cqs = s.cqs
        ∧ (8 ≤ off → len = 8 → t.sq n =
            if (s.sq n).en then s.sq n else { s.sq n with base := (data.toNat >>> 12) % 2 ^ 52 * 4096 })
        ∧ (8 ≤ off → len ≠ 8 → t.sq n = s.sq n ∧ t.ctrs = (s.bump .liustHostReject).ctrs)
        ∧ (off = 0 → len = 8 →
            let w := data.toNat
            let q := s.sq n
            let set : Sq := { q with size := bits w 44 32, cq := bits w 25 20, ctx := bits w 19 16 }
            t.sq n =
              if q.en then { q with en := bit w 0 }
              else if bit w 0 && 1 ≤ bits w 44 32 && bits w 44 32 ≤ 4096 then
                { set with en := true, head := 0, tail := 0, stopped := false, reason := .none }
              else set)
        ∧ (off = 0 → len = 4 →
            let w := data.toNat % 2 ^ 32
            let q := s.sq n
            let set : Sq := { q with cq := bits w 25 20, ctx := bits w 19 16 }
            t.sq n =
              if q.en then { q with en := bit w 0 }
              else if bit w 0 && 1 ≤ q.size && q.size ≤ 4096 then
                { set with en := true, head := 0, tail := 0, stopped := false, reason := .none }
              else set)
        ∧ (off = 4 → len = 4 → t.sq n =
            if (s.sq n).en then s.sq n else { s.sq n with size := bits (data.toNat % 2 ^ 32) 12 0 }))
  ∧ (∀ (s : State) (n off len : Nat) (data : Word64), n < 64 → s.hostUp = true →
        ∃ t, exec (.cqCfgWrite n off len data) s = .next t
          ∧ (∀ m, m ≠ n → t.cq m = s.cq m) ∧ t.mem = s.mem ∧ t.cmds = s.cmds ∧ t.sqs = s.sqs
          ∧ (8 ≤ off → len = 8 → t.cq n =
              if (s.cq n).en then s.cq n else { s.cq n with base := (data.toNat >>> 12) % 2 ^ 52 * 4096 })
          ∧ (8 ≤ off → len ≠ 8 → t.cq n = s.cq n ∧ t.ctrs = (s.bump .liustHostReject).ctrs)
          ∧ (off = 0 → len = 8 →
              let w := data.toNat
              let q := s.cq n
              let set : Cq := { q with size := bits w 44 32, vector := bits w 29 24 }
              t.cq n =
                if q.en then { q with en := bit w 0 }
                else if bit w 0 && 2 ≤ bits w 44 32 && bits w 44 32 ≤ 4096 then
                  { set with en := true, head := 0, tail := 0, wphase := true, held := q.done.length }
                else set))

/-- DOORBELL: a TAIL below the SIZE of an enabled queue is taken; any other value sets DB_BAD and leaves the queue. While the
link is down the write is lost. CQ_HEAD_WRITE of the whole register: LOST clears where its bit is written 1; a HEAD that does
not pass TAIL is taken, and any other sets DB_BAD. SQ_FETCH: a queue that is enabled, not stopped, with nothing that waits
and no fetch outstanding reads up to 8 entries of 512 bytes, from HEAD up to TAIL and to the end of the queue, by one DMA_RD. -/
def Obligations.QueueIndicesMove : Prop :=
  (∀ (s : State) (n : Nat) (data : Word64), n < 64 →
      ∃ t, exec (.doorbell n data) s = .next t
        ∧ (s.linkUp = false → t = s)
        ∧ (s.linkUp = true → (s.sq n).en = true → data.toNat < (s.sq n).size → (s.sq n).size ≤ 4096 →
            t = s.modSq n (fun q => { q with tail := data.toNat }))
        ∧ (s.linkUp = true → ((s.sq n).en = false ∨ (s.sq n).size ≤ data.toNat) →
            t = { s with liust := { s.liust with dbBad := true } }))
  ∧ (∀ (s : State) (n : Nat) (data : Word64), n < 64 → s.hostUp = true →
        let q := s.cq n
        let h := bits data.toNat 11 0
        ∃ t, exec (.cqHeadWrite n 0 8 data) s = .next t
          ∧ (t.cq n).lost = (q.lost && !bit data.toNat 13)
          ∧ (h = q.head ∨ (h < q.size ∧ (h + q.size - q.head) % q.size ≤ (q.tail + q.size - q.head) % q.size) →
              (t.cq n).head = h ∧ t.liust = s.liust)
          ∧ (h ≠ q.head → (q.size ≤ h ∨ (q.tail + q.size - q.head) % q.size < (h + q.size - q.head) % q.size) →
              (t.cq n).head = q.head ∧ t.liust = { s.liust with dbBad := true })
          ∧ (∀ m, m ≠ n → t.cq m = s.cq m) ∧ t.mem = s.mem ∧ t.cmds = s.cmds)
  ∧ (∀ (s : State) (n : Nat), s.hostUp = true → (s.sq n).en = true → (s.sq n).stopped = false → (s.sq n).waiting = [] →
        s.fetching n = false → (s.sq n).head < (s.sq n).size → (s.sq n).tail < (s.sq n).size → (s.sq n).head ≠ (s.sq n).tail →
        s.dmaRoom true = true →
        let q := s.sq n
        let k := min 8 (min ((q.tail + q.size - q.head) % q.size) (q.size - q.head))
        ∃ t tag, exec (.sqFetch n) s = .next t ∧ 1 ≤ k
          ∧ t.hostTx = s.hostTx ++ [.dmaRd tag (q.base + 512 * q.head) (512 * k)]
          ∧ t.liust.dmas = s.liust.dmas
              ++ [{ tag := tag, read := true, addr := q.base + 512 * q.head, len := 512 * k, owner := .fetch n k }]
          ∧ t.sqs = s.sqs ∧ t.mem = s.mem ∧ t.cmds = s.cmds)

/-- COMMAND_ADMISSION: the oldest fetched packet of a queue whose completion queue has a free entry becomes a command that
waits, with its dependencies among the queue's commands in flight, when its header passes every check and the queue has its
turn; a packet that fails a check completes at once with the REJ_ status. -/
def Obligations.AdmissionTakesTheOldestPacket : Prop :=
  ∀ (s : State) (n : Nat) (p : List Byte) (rest : List (List Byte)), Numbered s → n < 64 → (s.sq n).waiting = p :: rest →
    s.canReserve (s.sq n).cq = true →
    (s.headerRej n p = none → s.hasTurn n = true →
      ∃ t c, exec (.commandAdmission n) s = .next t ∧ t.cmds = s.cmds ++ [c] ∧ t.nextId = s.nextId + 1 ∧ t.turn = n
        ∧ c.id = s.nextId ∧ c.src = .host n ∧ c.ctx = (s.sq n).ctx ∧ c.st = .waiting ∧ c.placed = true
        ∧ c.packet = p.take (64 + bits (fieldAt p 8 8) 24 16) ∧ c.deps = s.hostDeps n c.depTags ∧ c.cq = (s.sq n).cq
        ∧ (t.sq n).waiting = rest ∧ t.mem = s.mem)
    ∧ (∀ r, s.headerRej n p = some r →
      ∃ t c, exec (.commandAdmission n) s = .next t ∧ t.cmds = s.cmds ++ [c] ∧ c.id = s.nextId ∧ c.placed = false
        ∧ c.st = .done { rejCompl r.1 r.2 with cycles := s.cycles.toNat } ∧ (t.sq n).waiting = rest
        ∧ ((s.sq n).cq < 64 → (t.cq (s.sq n).cq).done = (s.cq (s.sq n).cq).done ++ [s.nextId]) ∧ t.mem = s.mem)

/-- Command c starts in s, once its clusters have a place for each of its shares (R71, R513): where a check of its unit fails it
completes with the lowest REJ_ status; otherwise it runs, with its operands and what it read in memory held (R392), unless its
traffic needs a die link that is lost. While no place is open it waits. -/
def Sys2Proof.Starts (s t : State) (c : Cmd) : Prop :=
  let m := s.chooseModes c
  let u := (c.clusters.foldl State.settleDomain m).boundary c
  (m.placeable c (s.before c) = false → t = m)
  ∧ (m.placeable c (s.before c) = true →
    (∀ r, u.startRej c (u.startOf c) = some r → Completes u t c.id (rejCompl r.1 r.2))
    ∧ (u.startRej c (u.startOf c) = none → (∀ x, u.needsDownLink x = false) →
      ∃ x, t.cmd? c.id = some x ∧ x.st = .running ∧ x.ops = (u.startOf c).ops ∧ x.held = (u.startOf c).held
        ∧ x.packet = c.packet ∧ t.mem = u.mem))

/-- COMMAND_START: a waiting command that has what it waits for starts, and one whose dependency failed completes without running
(R395). A control entry that acted at its issue only completes here, once its dependencies are met: the model's choice (R233,
log entry 14). RELAY_ADMISSION: a relay command starts while its bound playbook is held, or has no command ready for the
cluster, and the open windows of the bound playbook note one that has started to run (R242, R254). Where a command has no open
place yet nothing but the partition modes changes, and a relay command that its bound playbook keeps out leaves the state as it
is (log entry 7). -/
def Obligations.CommandsStartOrAreRejected : Prop :=
  ∀ (s : State) (id : Nat) (c : Cmd), s.cmd? id = some c → c.st = .waiting →
    (∀ k, c.depOutcome = some k → c.deps = [] → ∃ t, exec (.commandStart id) s = .next t ∧ Completes s t id k)
    ∧ (c.depOutcome = none → s.ready c = true → s.relayInWay c = false →
      (s.isRelay c = false → immediateOp c.opcode = true →
        ∃ t, exec (.commandStart id) s = .next t ∧ Completes s t id { status := 0x000 })
      ∧ (s.isRelay c = false → immediateOp c.opcode = false → ∃ t, exec (.commandStart id) s = .next t ∧ Starts s t c)
      ∧ (s.isRelay c = true →
        (s.boundTo c = none → ∃ t, exec (.relayAdmission id) s = .next t ∧ Starts s t c)
        ∧ (∀ n, s.boundTo c = some n → ((s.seq n).st = .held ∨ s.boundReady c n = false) →
          ∃ t, exec (.relayAdmission id) s = .next (t.noteRelay n id) ∧ Starts s t c)
        ∧ (∀ n, s.boundTo c = some n → (s.seq n).st ≠ .held → s.boundReady c n = true →
          exec (.relayAdmission id) s = .next s)))

/-- COMPLETION_WRITE: the completion of the command that finished first in its completion queue goes to the entry at TAIL by
one DMA_WR of 32 bytes; TAIL moves on, and the phase bit turns over where it returns to 0. HELD_COMPLETION_FLUSH: the one
completion that finished while its queue was disabled is written the same way. -/
def Obligations.CompletionsAreWrittenAtTail : Prop :=
  (∀ (s : State) (id : Nat) (c : Cmd) (k : Compl) (q : Nat), s.cmd? id = some c → c.src = .host q → c.st = .done k →
      c.cq < 64 → (s.cq c.cq).done.head? = some id → (s.cq c.cq).held = 0 → s.canWrite c.cq id = true →
      let x := s.cq c.cq
      ∃ t tag, exec (.completionWrite id) s = .next t
        ∧ t.hostTx = s.hostTx ++ [.dmaWr tag (x.base + 32 * x.tail) (complBytes c.hostTag k x.wphase q (s.sq q).head) 0#64]
        ∧ (t.cq c.cq).tail = (x.tail + 1) % x.size
        ∧ (t.cq c.cq).wphase = (if (x.tail + 1) % x.size = 0 then !x.wphase else x.wphase)
        ∧ (t.cq c.cq).done = x.done.filter (fun d => d != id)
        ∧ t.mem = s.mem ∧ t.sqs = s.sqs)
  ∧ (∀ (s : State) (n id : Nat) (c : Cmd) (k : Compl) (q : Nat), s.cmd? id = some c → c.src = .host q → c.st = .done k →
        n < 64 → (s.cq n).done = [id] → (s.cq n).held = 1 → s.canWrite n id = true →
        let x := s.cq n
        ∃ t tag, exec (.heldCompletionFlush n) s = .next t
          ∧ t.hostTx = s.hostTx ++ [.dmaWr tag (x.base + 32 * x.tail) (complBytes c.hostTag k x.wphase q (s.sq q).head) 0#64]
          ∧ (t.cq n).tail = (x.tail + 1) % x.size ∧ (t.cq n).done = [] ∧ (t.cq n).held = 0 ∧ t.mem = s.mem)

/-! ## Contexts, regions, cancellation (R383 to R387, R400, R405) -/

/-- CTX_CREATE makes a context that is not live live, with no valid region. CTX_DESTROY of a live context: it is not live and
has no region, no queue bound to it is enabled, and no draft table is bound in it; the other contexts stay. That its draft
tables are unbound, where R387 retires their open generation, is the model's choice (log entry 29). REGION_SET, once
no command of the context runs: the entry stands as written, every other entry of the context and every other context stay,
and each group of 4 GiB that the entry touches takes its PLACE. -/
def Obligations.ContextsAndRegionsAreSet : Prop :=
  (∀ (s : State) (id : Nat) (c : Cmd), s.running? id 0x000 = some c → worst (s.ctxCreateStart c).rejs = none →
      ∃ t, exec (.ctxCreate id) s = .next t
        ∧ Completes (s.modContext c.ctxParam (fun _ => { live := true })) t id { status := 0x000 }
        ∧ (t.context c.ctxParam).live = true ∧ c.ctxParam ≠ 0 ∧ (∀ n, n ≠ c.ctxParam → t.context n = s.context n)
        ∧ ∀ n, (vget (t.context c.ctxParam).regions n {}).valid = false)
  ∧ (∀ (s : State) (id : Nat) (c : Cmd), s.running? id 0x001 = some c → c.stage = .go →
        worst (s.ctxDestroyStart c).rejs = none →
        ∃ t, exec (.ctxDestroy id) s = .next t ∧ (t.context c.ctxParam).live = false
          ∧ (∀ n, (vget (t.context c.ctxParam).regions n {}).valid = false)
          ∧ (∀ n, n ≠ c.ctxParam → t.context n = s.context n)
          ∧ (∀ n < 64, (s.sq n).ctx = c.ctxParam →
              (t.sq n).en = false ∧ (t.sq n).stopped = true ∧ (t.sq n).reason = .context ∧ (t.sq n).waiting = (s.sq n).waiting)
          ∧ (∀ n < 64, (s.sq n).ctx ≠ c.ctxParam → t.sq n = s.sq n)
          ∧ (∀ n < 64, (t.draft n).bound = true → (t.draft n).ctx ≠ c.ctxParam)
          ∧ ∀ k ∈ t.slots, k.ctx ≠ c.ctxParam)
  ∧ (∀ (s : State) (id : Nat) (c : Cmd), s.running? id 0x002 = some c → worst (s.regionSetStart c).rejs = none →
        s.ctxRunning c.ctxParam id = false →
        ∃ t u, exec (.regionSet id) s = .next t ∧ Completes u t id { status := 0x000 }
          ∧ vget (t.context c.ctxParam).regions c.regionIndex {} = c.regionEntry
          ∧ (∀ n, n ≠ c.regionIndex →
              vget (t.context c.ctxParam).regions n {} = vget (s.context c.ctxParam).regions n {})
          ∧ (∀ n, n ≠ c.ctxParam → t.context n = s.context n)
          ∧ (∀ g ∈ c.regionEntry.groups, u.placed g = c.regionEntry.place)
          ∧ u.cmds = s.cmds ∧ u.sqs = s.sqs ∧ u.clusters = s.clusters)

/-- CANCEL (R400), by the table of outcomes. Where its MODE selects no command that can be cancelled, it completes at once with
COUNT 0 and leaves every other command as it is: one that has ended, a CANCEL, and one that the Referee or a sequencer runs are
never cancelled. Where it selects one command, COUNT will be 1, and CANCEL waits until that command's completion is written. One
that waits ends with REJ_CANCELLED and no effect; one that runs ends with FLT_CANCELLED, and no byte outside the blocks of its
effect changes; a PLAYBOOK_START whose playbook is accepted ends with FLT_CANCELLED, its playbook stopped as by PLAYBOOK_STOP in
mode 1, at once where no entry is in flight. Which part of a running command's effect has happened, and that PLAYBOOK_STOP,
HOLD and RESUME run to their end, is the model's choice (log entry 25). -/
def Obligations.CancelEndsWhatItSelects : Prop :=
  ∀ (s : State) (id : Nat) (c : Cmd), s.running? id 0x020 = some c → worst (s.cancelStart c).rejs = none → c.stage = .go →
    (exec (.cancel id) s = .next
      ((s.cancelAll id c.cancels).1.awaitAll id (s.cancelAll id c.cancels).2 (s.cancelAll id c.cancels).2.length))
    ∧ ((∀ k ∈ s.cmds, k.id ≠ id → c.cancels k = true → k.placed = false ∨ k.opcode = 0x020 ∨ (∃ x, k.st = .done x)
          ∨ (k.st = .running ∧ k.opcode ≠ 0x600 ∧ runsToEnd k.opcode = true)) →
        (∀ k ∈ s.cmds, k.stage = .go) → s.cmds.filter (fun k => k.id == id) = [c] → c.isHost = true →
      ∃ t, exec (.cancel id) s = .next t ∧ Completes s t id { status := 0x000 })
    ∧ (∀ x, s.cmds.filter (fun k => k.id != id && k.cancellable && c.cancels k) = [x] → s.cmd? x.id = some x →
      (x.st = .waiting → ∃ t u, exec (.cancel id) s = .next t ∧ Completes s u x.id { status := 0x108, aux := 0xFFFF }
        ∧ t = u.awaitAll id [x.id] 1 ∧ t.mem = s.mem)
      ∧ (x.st = .running → x.opcode ≠ 0x600 → ∃ t u v k, exec (.cancel id) s = .next t ∧ Completes v u x.id k
        ∧ k.status = 0x201 ∧ t = u.awaitAll id [x.id] 1 ∧ v.cmds = s.cmds ∧ v.contexts = s.contexts ∧ v.sqs = s.sqs
        ∧ v.clusters = s.clusters
        ∧ ∀ a, (∀ w ∈ (s.partEffect x).writes, blockOf a ≠ blockOf w.loc ∧ (a < w.loc ∨ w.loc + 64 ≤ a)) →
            t.mem.byte a = s.mem.byte a)
      ∧ (∀ n, x.st = .running → x.opcode = 0x600 → x.stage ≠ .go → x.isHost = true → n < 4 → (s.seq n).st ≠ .idle →
          (s.seq n).starter = x.id → (∀ m < 4, m ≠ n → (s.seq m).st = .idle ∨ (s.seq m).starter ≠ x.id) →
        exec (.cancel id) s = .next
            (((s.modSeq n (fun q => { q with cancelled := true })).stopPlaybook n true).awaitAll id [x.id] 1)
        ∧ ((∀ k ∈ s.cmds, k.ofSeq n = false) → s.openTables (s.seq n).ctx = [] →
          ∃ t d k, exec (.cancel id) s = .next t ∧ t.cmd? x.id = some d ∧ d.st = .done k ∧ k.status = 0x201
            ∧ (t.seq n).st = .idle ∧ (∀ m, m ≠ n → t.seq m = s.seq m) ∧ t.mem = s.mem)))

/-- The counts that share a word with a sticky bit keep within their fields. -/
def Sys2Proof.WidthsFit (s : State) : Prop :=
  (∀ n < 64, (s.cq n).head < 4096) ∧ (∀ n < 48, (s.port n).width < 4) ∧ s.liust.width < 4

/-- CLEAR_STICKY that passes its checks completes with OK. For address 0 every sticky bit of the module and PEAK are clear. For
the address of a W1C register the bits of that register that MASK names read 0 after it, and its others as before; a MASK that
names a bit of PEAK clears that whole field; every other register but STICKY_SUMMARY reads as before (R405, R430). Nothing else
changes. The bits of a DDR5 channel whose reports are undefined (R533) are left out. -/
def Obligations.ClearStickyClearsItsRegister : Prop :=
  ∀ (s : State) (id : Nat) (c : Cmd), s.running? id 0x030 = some c → worst (s.clearStickyStart c).rejs = none →
    ∃ t u, exec (.clearSticky id) s = .next t ∧ Completes u t id { status := 0x000 }
      ∧ u.mem = s.mem ∧ u.cmds = s.cmds ∧ u.ctrs = s.ctrs ∧ u.contexts = s.contexts ∧ u.clusters = s.clusters ∧ u.sqs = s.sqs
      ∧ (c.param 0 8 = 0 →
        u.cfgLate = {} ∧ u.power.clkLost = false ∧ u.scout.peak = 0
        ∧ u.keeper.sameFeed = false ∧ u.keeper.diverged = false ∧ u.memside.hbmLasting = 0#16 ∧ u.memside.ddrLasting = 0#12
        ∧ u.fabric.reoriented = false ∧ u.fabric.idConflict = false
        ∧ u.liust.linkDown = false ∧ u.liust.lasting = false ∧ u.liust.dbBad = false
        ∧ u.power.capLimited = false ∧ u.power.throttled = false ∧ u.power.fastClamp = false ∧ u.power.stVinMargin = false
        ∧ u.power.stRegMargin = false ∧ u.power.coolBad = false ∧ u.power.capUnmet = false ∧ u.power.wakeFail = false
        ∧ u.referee.busy = false
        ∧ u.errors.coreBenched = false ∧ u.errors.residueLasting = false ∧ u.errors.sramLasting = false
        ∧ u.errors.dlinkLasting = false ∧ u.errors.clusterOut = false ∧ u.errors.recordBad = false ∧ u.errors.recordFull = false
        ∧ (∀ n < 4, (u.seq n).feedOverrun = false) ∧ (∀ n < 64, (u.cq n).lost = false) ∧ ∀ n < 48, (u.port n).lasting = false)
      ∧ (∀ r, c.param 0 8 ≠ 0 → regAt (c.param 0 8 - csb) = some r → u = s.clearW1c r (c.param 8 8 &&& r.w1c)
        ∧ (r ≠ .scoutStatus → WidthsFit s → (r = .memErrStatus → s.memside.ddrUndef = 0#12) →
          ∀ i, (u.regRead r).testBit i = ((s.regRead r).testBit i && !(bit (c.param 8 8) i && bit r.w1c i)))
        ∧ (r = .scoutStatus → u.regRead r = (if bits (c.param 8 8) 15 8 = 0 then s.regRead r else s.scout.index))
        ∧ (∀ x, x ≠ r → x ≠ .stickySummary → u.regRead x = s.regRead x)
        ∧ (r ≠ .errSticky → u.errors = s.errors) ∧ (r ≠ .refStatus → u.referee = s.referee)
        ∧ (r ≠ .memErrStatus → u.memside = s.memside) ∧ (r ≠ .keepStatus → u.keeper = s.keeper))

/-! ## Playbooks (R224 to R256) -/

/-- PLAYBOOK_START that passes its checks as it starts takes the lowest free sequencer. The playbook is then accepted there: it
runs from entry 0 at FIRST_STEP, phase 0, with the seed, ring bases, slot sizes and counts, loss scale and count of clean steps
of its parameters, and the verdict record at VERDICT_ADDR holds VALID 0, the step before FIRST_STEP, that scale, its reciprocal
and that count; no byte outside it changes. While no read of its blocks waits for a retry the record is there at once. -/
def Obligations.PlaybookStartTakesTheLowestFreeSequencer : Prop :=
  (∀ (s : State) (id n : Nat) (c : Cmd), s.cmd? id = some c → c.st = .waiting → c.isHost = true → c.opcode = 0x600 →
    c.depOutcome = none → s.ready c = true →
    let u := (c.clusters.foldl State.settleDomain s).boundary c
    u.startRej c (u.startOf c) = none → (∀ x, u.needsDownLink x = false) →
    n < 4 → (s.seq n).st = .idle → (∀ k ∈ s.cmds, k.pbPending = false) → (∀ m < n, (s.seq m).st ≠ .idle) →
    ∃ t x, exec (.commandStart id) s = .next t ∧ t.cmd? id = some x ∧ x.st = .running ∧ x.pbSeq = n
      ∧ x.pbHeader = s.mem.bytes c.pbImage 64 ∧ t.mem = s.mem)
  ∧ (∀ (s : State) (id : Nat) (c : Cmd), s.running? id 0x600 = some c → c.stage = .go → c.pbSeq < 4 →
    let n := c.pbSeq
    ∃ t, exec (.playbookStart id) s = .next t
      ∧ (t.seq n).st = .running ∧ (t.seq n).starter = id ∧ (t.seq n).ctx = c.ctx ∧ (t.seq n).image = c.param 0 8
      ∧ (t.seq n).entry = 0 ∧ (t.seq n).offset = 64 ∧ (t.seq n).phase = 0 ∧ (t.seq n).loops = []
      ∧ (t.seq n).step = BitVec.ofNat 32 (c.param 36 4) ∧ (t.seq n).seed = BitVec.ofNat 64 (c.param 56 8)
      ∧ (t.seq n).scale = BitVec.ofNat 32 (c.param 48 4) ∧ (t.seq n).feedTail = BitVec.ofNat 32 (c.param 64 4)
      ∧ (t.seq n).inBase = c.param 8 8 ∧ (t.seq n).inSlot = c.param 24 4 ∧ (t.seq n).inSlots = c.param 32 2
      ∧ (t.seq n).resBase = c.param 16 8 ∧ (t.seq n).resSlot = c.param 28 4 ∧ (t.seq n).resSlots = c.param 34 2
      ∧ (t.seq n).verdictAddr = c.param 40 8 ∧ (t.seq n).cleanRun = BitVec.ofNat 32 (c.param 68 4)
      ∧ (t.seq n).entries = fieldAt c.pbHeader 8 4
      ∧ (Canonical s → s.mem.undef = [] → c.param 40 8 % 64 = 0 → s.retryPending (c.param 40 8) = false →
          s.retryPending (c.param 40 8 + 64) = false →
        t.mem.bytes (c.param 40 8) 128 = natLe 128 (at' ((c.param 36 4 + 2 ^ 32 - 1) % 2 ^ 32) 32 + at' (c.param 68 4) 64
          + at' (c.param 48 4) 512 + at' (frecip (BitVec.ofNat 32 (c.param 48 4))).toNat 544))
      ∧ (t.seq n).feedHead = 0#32 ∧ (t.seq n).resultHead = 0#32 ∧ (t.seq n).resultTail = 0#32
      ∧ (t.seq n).ewma = (s.seq n).ewma ∧ (t.seq n).cfg = (s.seq n).cfg
      ∧ (∀ m, m ≠ n → t.seq m = s.seq m) ∧ t.sqs = s.sqs ∧ t.contexts = s.contexts
      ∧ (∃ d, t.cmd? id = some d ∧ d.st = .running ∧ d.stage = .begun)
      ∧ ∀ a, a + 1 ≤ c.param 40 8 ∨ c.param 40 8 + 128 ≤ a → t.mem.byte a = s.mem.byte a)

/-- PLAYBOOK_STOP in mode 0 and PLAYBOOK_HOLD of a running playbook are recorded for its next step boundary, where PB_STEP_END
acts on them (StepsAndPlaybooksEnd); PLAYBOOK_RESUME of a held one lets it go on at once; each command completes. PLAYBOOK_STOP
in mode 1 completes and ends the playbook at once: where nothing of it is in flight it is idle, and an entry in flight is
cancelled and the playbook idle after it (R227). That an open generation of its context retires with it, and its free part, are
log entry 25's. -/
def Obligations.StopHoldAndResumeActAtStepBoundaries : Prop :=
  ∀ (s : State) (id : Nat) (c : Cmd),
    let n := c.seqParam
    (s.running? id 0x601 = some c → worst (s.playbookCtlStart c).rejs = none → bit (c.param 0 4) 8 = false → c.isHost = true →
      (s.seq n).st = .running →
      ∃ t, exec (.playbookStop id) s = .next t
        ∧ t.seq n = { s.seq n with stopAtBoundary := true } ∧ (∀ m, m ≠ n → t.seq m = s.seq m) ∧ t.mem = s.mem)
    ∧ (s.running? id 0x601 = some c → worst (s.playbookCtlStart c).rejs = none → bit (c.param 0 4) 8 = true → c.isHost = true →
      ∃ t u, exec (.playbookStop id) s = .next t ∧ Completes s u id { status := 0x000 } ∧ t = u.stopPlaybook n false
        ∧ (s.openTables (s.seq n).ctx = [] →
          ((∀ k ∈ s.cmds, k.ofSeq n = false) →
            (t.seq n).st = .idle ∧ (∀ m, m ≠ n → t.seq m = s.seq m) ∧ t.mem = s.mem)
          ∧ (∀ k, s.cmds.filter (fun k => k.ofSeq n) = [k] → s.cmd? k.id = some k →
              (k.st = .waiting ∨ (k.st = .running ∧ runsToEnd k.opcode = false ∧ k.opcode ≠ 0x600)) →
            (t.seq n).st = .idle ∧ t.cmd? k.id = none ∧ (k.st = .waiting → t.mem = s.mem))))
    ∧ (s.running? id 0x602 = some c → worst (s.playbookCtlStart c).rejs = none → (s.seq n).st = .running →
      ∃ t, exec (.playbookHold id) s = .next t
        ∧ Completes (s.modSeq n (fun q => { q with st := .holding, holdAtBoundary := true })) t id { status := 0x000 })
    ∧ (s.running? id 0x603 = some c → worst (s.playbookCtlStart c).rejs = none → (s.seq n).st = .held →
      ∃ t, exec (.playbookResume id) s = .next t
        ∧ Completes (s.modSeq n (fun q => { q with st := .running, heldBefore := true })) t id { status := 0x000 })

/-- PLAYBOOK_ISSUE: the entry at which a sequencer stands becomes a command of its playbook, with its step and phase, once it
has a place; the sequencer goes on to the next entry. -/
def Obligations.PlaybookIssueAdmitsTheNextEntry : Prop :=
  ∀ (s : State) (n : Nat), Numbered s → n < 4 → (s.seq n).entry < (s.seq n).entries → s.seqWantsPlace n = true →
    s.hasTurn (64 + n) = true →
    let q := s.seq n
    ∃ t c, exec (.playbookIssue n) s = .next t ∧ t.cmds = s.cmds ++ [c] ∧ c.id = s.nextId
      ∧ c.src = .seq n q.entry q.step q.phase ∧ c.ctx = q.ctx ∧ c.packet = s.packetAt (q.image + q.offset)
      ∧ c.st = .waiting ∧ c.seed = q.seed ∧ t.nextId = s.nextId + 1 ∧ t.turn = 64 + n
      ∧ WentOn n s t ∧ (∀ m, m ≠ n → t.seq m = s.seq m) ∧ t.mem = s.mem

/-- The control entries that act at issue: PB_PHASE sets the phase, PB_LOOP opens a loop, PB_ENDLOOP goes back to the entry
after its PB_LOOP while passes are left and else closes it, PB_IF_CLEAN goes on unless the step's verdict is no-ball, PB_ENDIF
goes on, PB_SEED sets the seed, with the step number added where ADD_STEP asks for it, and with it RNG_SEED, at once or, while
an SR command of the host runs, in its shadow (R53, R230, R428). Nothing else but the sequencer changes, unless the entry has
dependencies that are not met. R233 says that it waits for these as any command does; that it acts at its issue all the same and
then stays in flight until they are met is the model's choice (log entry 14). Where there is no place for it in flight the row
leaves the state as it is (log entry 7). -/
def Obligations.ControlEntriesActAtIssue : Prop :=
  ∀ (s : State) (n : Nat), Numbered s → n < 4 →
    (¬CanIssue n s → ∀ i ∈ [Instr.pbPhase n, .pbLoop n, .pbEndloop n, .pbIfClean n, .pbEndif n, .pbSeed n], exec i s = .next s)
    ∧ (CanIssue n s → (s.seqAt n 0x640 = true → ∃ t, exec (.pbPhase n) s = .next t ∧ Issued n s t ∧ WentOn n s t
      ∧ (t.seq n).phase = bits (s.nextParam (s.seq n) 0 4) 3 0)
    ∧ (s.seqAt n 0x641 = true → ∃ t, exec (.pbLoop n) s = .next t ∧ Issued n s t ∧ WentOn n s t
      ∧ (t.seq n).loops
        = { entry := (s.seq n).entry, count := bits (s.nextParam (s.seq n) 0 4) 15 0, passes := 0 } :: (s.seq n).loops)
    ∧ (∀ l r, s.seqAt n 0x642 = true → (s.seq n).loops = l :: r → ∃ t, exec (.pbEndloop n) s = .next t
      ∧ Issued n s t
      ∧ (l.count = 0 ∨ l.passes + 1 < l.count →
          (t.seq n).entry = l.entry + 1 ∧ (t.seq n).loops = { l with passes := l.passes + 1 } :: r)
      ∧ (l.count ≠ 0 → l.count ≤ l.passes + 1 → WentOn n s t ∧ (t.seq n).loops = r))
    ∧ (∀ w, s.seqAt n 0x647 = true → (s.seq n).window? (s.seq n).step = some w → w.verdict = true →
      ∃ t, exec (.pbIfClean n) s = .next t ∧ Issued n s t ∧ (w.noBall = false → WentOn n s t)
        ∧ (w.noBall = true → (t.seq n).entry
            = s.findEntry 0x648 (s.seq n).entry ((s.seq n).image + (s.seq n).offset) ((s.seq n).entries - (s.seq n).entry)))
    ∧ (s.seqAt n 0x648 = true → ∃ t, exec (.pbEndif n) s = .next t ∧ Issued n s t ∧ WentOn n s t)
    ∧ (s.seqAt n 0x64B = true →
      let v := BitVec.ofNat 64 (s.nextParam (s.seq n) 0 8)
        + (if bit (s.nextParam (s.seq n) 8 4) 0 then BitVec.ofNat 64 (s.seq n).step.toNat else 0#64)
      ∃ t, exec (.pbSeed n) s = .next t ∧ Issued n s { t with rngSeed := s.rngSeed, cfgLate := s.cfgLate } ∧ WentOn n s t
        ∧ (t.seq n).seed = v
        ∧ (s.rngBusy = false → t.rngSeed = Rs.mk v v ∧ t.cfgLate = s.cfgLate)
        ∧ (s.rngBusy = true → t.rngSeed = { s.rngSeed with shadow := v } ∧ t.cfgLate = { s.cfgLate with rng := true })))

/-- The ends of steps and playbooks: PB_STEP_END moves to the next step and marks the windows of its step as closed, and the save
engine counts a boundary; there a playbook that is to stop issues nothing more and is idle once nothing of it is in flight, and
one that is to hold waits to be held. PB_END and a failed entry stop issue while commands are in flight, and with none in flight
the playbook is idle and its PLAYBOOK_START ends, with OK or with FLT_PLAYBOOK and the entry, step and status of the failure; a
playbook that holds is held once the commands of its step have completed; a closed step's record goes into the ring of 256. That
windows close in step order, and that the entry acts at its issue though its dependencies are not met, is the model's choice
(log entry 14). -/
def Obligations.StepsAndPlaybooksEnd : Prop :=
  ∀ (s : State) (n : Nat), n < 4 →
    (CanIssue n s → s.seqAt n 0x649 = true → ∃ t, exec (.pbStepEnd n) s = .next t
      ∧ (t.seq n).step = (s.seq n).step + 1#32 ∧ t.save.since = min (s.save.since + 1) 2047
      ∧ (∀ w ∈ (t.seq n).windows, w.step = (s.seq n).step → w.closed = true)
      ∧ ((s.seq n).stopAtBoundary = true → (t.seq n).st
          = (if s.cmds.any (fun c => c.ofSeq n) || s.nextDeps (s.seq n) != [] then .stopping else .idle))
      ∧ ((s.seq n).stopAtBoundary = false → (t.seq n).st = (s.seq n).st ∧ (t.seq n).holdAtBoundary = false)
      ∧ ∀ m, m ≠ n → t.seq m = s.seq m)
    ∧ (CanIssue n s → s.seqAt n 0x64A = true → s.cmds.any (fun c => c.ofSeq n) = true →
      ∃ t, exec (.pbEnd n) s = .next t ∧ (Numbered s → Issued n s t) ∧ (t.seq n).st = .stopping)
    ∧ (s.seqAt n 0x64A = true → s.nextDeps (s.seq n) = [] → s.cmds.any (fun c => c.ofSeq n) = false →
        (s.seq n).cancelled = false →
      ∃ t, exec (.pbEnd n) s = .next t ∧ (t.seq n).st = .idle ∧ (∀ m, m ≠ n → t.seq m = s.seq m) ∧ t.mem = s.mem
        ∧ ∀ d, s.cmd? (s.seq n).starter = some d → ∃ e k, t.cmd? (s.seq n).starter = some e ∧ e.st = .done k
            ∧ k.status = 0x000 ∧ k.count = (s.seq n).step.toNat)
    ∧ (∀ e step st, (s.seq n).failed = some (e, step, st) → (s.seq n).st ≠ .idle → s.cmds.any (fun c => c.ofSeq n) = false →
        (s.seq n).cancelled = false →
      ∃ t, exec (.playbookEntryFailed n) s = .next t ∧ (t.seq n).st = .idle ∧ (∀ m, m ≠ n → t.seq m = s.seq m) ∧ t.mem = s.mem
        ∧ ∀ d, s.cmd? (s.seq n).starter = some d → ∃ x k, t.cmd? (s.seq n).starter = some x ∧ x.st = .done k
            ∧ k.status = 0x205 ∧ k.count = step.toNat ∧ k.aux = e % 2 ^ 16 + at' (st % 4096) 16 + at' n 28)
    ∧ ((s.seq n).failed.isSome = true → (s.seq n).st ≠ .idle → s.cmds.any (fun c => c.ofSeq n) = true →
      ∃ t, exec (.playbookEntryFailed n) s = .next t ∧ t = s.modSeq n (fun q => { q with st := .stopping }))
    ∧ ((s.seq n).st = .holding → (s.seq n).holdAtBoundary = false → (s.seq n).failed = none →
        s.inStep n ((s.seq n).step - 1#32) = [] →
      ∃ t, exec (.playbookEnterHeld n) s = .next t ∧ t = s.modSeq n (fun q => { q with st := .held, heldCycles := 0 }))
    ∧ (∀ w r, (s.seq n).windows = w :: r → w.closed = true → s.inStep n w.step = [] →
      ∃ t, exec (.stepWindowClose n) s = .next t ∧ OnlySequencer n s t ∧ (t.seq n).windows = r
        ∧ (t.seq n).records.head? = some (w.step.toNat % 256, recordBytes (s.seq n) w s.scout.index))

/-- The rings: PB_FEED and PB_POST copy between a tensor and the slot that FEED_HEAD or RESULT_TAIL names and move that index on
by one, while no block that they write waits for a retry, and wait for it else; FEED_TAIL_WRITE takes a tail at most INPUT_SLOTS
ahead of FEED_HEAD and else sets FEED_OVERRUN; RESULT_HEAD_WRITE sets RESULT_HEAD. The model's choices: how a tensor lies in its
slot (log entry 16), that those of one sequencer act in the order of issue (log entry 14), and that the message interrupt of a
PB_POST is lost while the link is down (log entry 28). -/
def Obligations.RingIndicesMove : Prop :=
  (∀ (s : State) (id : Nat) (c : Cmd) (d : Operand), s.running? id 0x643 = some c → c.op? 0 = some d →
      s.earlierSame c = false → c.seqNum < 4 →
      let q := s.seq c.seqNum
      let e := s.ringCopy (d.inSlot (q.inBase + q.feedHead.toNat % max q.inSlots 1 * q.inSlot)) d -- slot at FEED_HEAD
      (s.retryBlocks e = true → exec (.pbFeed id) s = .next s) ∧ (s.retryBlocks e = false → e.overLimit c = false →
      ∃ t, exec (.pbFeed id) s = .next t ∧ (t.seq c.seqNum).feedHead = q.feedHead + 1#32
        ∧ t.mem = ((s.writeBlocks e.writes).writeBlocks e.finals).mem))
  ∧ (∀ (s : State) (id : Nat) (c : Cmd) (d : Operand), s.running? id 0x644 = some c → c.op? 0 = some d →
      s.earlierSame c = false → c.seqNum < 4 →
      let q := s.seq c.seqNum
      let e := s.ringCopy d (d.inSlot (q.resBase + q.resultTail.toNat % max q.resSlots 1 * q.resSlot))
      (s.retryBlocks e = true → exec (.pbPost id) s = .next s) ∧ (s.retryBlocks e = false → e.overLimit c = false →
      ∃ t, exec (.pbPost id) s = .next t ∧ (t.seq c.seqNum).resultTail = q.resultTail + 1#32
        ∧ t.mem = ((s.writeBlocks e.writes).writeBlocks e.finals).mem
        ∧ t.hostTx = s.hostTx ++ (if bit (c.param 8 4) 0 && s.linkUp then [.msgInt q.postVector] else [])))
  ∧ (∀ (s : State) (n : Nat) (v : Word32), n < 4 → s.hostUp = true → (s.seq n).st ≠ .idle →
      (∃ t, exec (.feedTailWrite n v) s = .next t
        ∧ t = s.modSeq n (fun q => if (v - q.feedHead).toNat ≤ q.inSlots then { q with feedTail := v }
            else { q with feedOverrun := true }))
      ∧ ∃ t, exec (.resultHeadWrite n v) s = .next t ∧ t = s.modSeq n (fun q => { q with resultHead := v }))

/-- PB_LOSS: LOSS_EWMA takes the first loss, and after that moves by 1/64 of the difference, in FP32; a loss that is not finite
leaves it; a loss above EWMA × (1 + SPIKE_THR) counts in LOSS_SPIKE where the test is enabled. That the average moves with
SPIKE_EN = 0 too, as R252 writes, where R251 says that PB_LOSS then only records the loss, is the model's choice (log
entry 36). -/
def Obligations.LossMovesItsAverage : Prop :=
  ∀ (s : State) (id : Nat) (c : Cmd) (o : Operand), s.running? id 0x645 = some c → c.op? 0 = some o → c.seqNum < 4 →
    let n := c.seqNum
    let l := (o.lin s.mem 0 0).f32
    let e := (s.seq n).ewma
    let cfg := leNat c.held
    ∃ t, exec (.pbLoss id) s = .next t
      ∧ ((ofF32 l).nonFinite = true → (t.seq n).ewma = e)
      ∧ ((ofF32 l).nonFinite = false → (ofF32 e).isNan = true → (t.seq n).ewma = l)
      ∧ ((ofF32 l).nonFinite = false → (ofF32 e).isNan = false →
          (t.seq n).ewma = fadd e (fmul 0x3C800000#32 (fsub l e)))
      ∧ ((ofF32 l).nonFinite = false → (ofF32 e).isNan = false → bit cfg 2 = true →
          (ofF32 (fmul e (fadd 0x3F800000#32 (spikeThr cfg)))).lt (ofF32 l) = true →
          t.ctr .lossSpike = satAdd (s.ctr .lossSpike) 1)
      ∧ t.mem = s.mem

/-! ## Packets of the fabric (R296 to R304, R312 to R314) -/

/-- The packet that an arrival brings, and its type. -/
def Sys2Proof.arrivalOf : Instr → Option (Packet × PktType)
  | .remoteRdReq p => some (p, .rdReq)
  | .remoteWr p => some (p, .wr)
  | .remoteWrBulk p => some (p, .wrBulk)
  | .remoteRdResp p => some (p, .rdResp)
  | .remoteWrAck p => some (p, .wrAck)
  | .errResp p => some (p, .errResp)
  | .collReady p => some (p, .collReady)
  | .collData p => some (p, .collData)
  | .collAck p => some (p, .collAck)
  | .barrierFlag p => some (p, .barrierFlag)
  | .barrierResult p => some (p, .barrierResult)
  | _ => none

/-- A packet for this module whose age has reached LIFETIME is discarded and counted, and so is one whose length its type does
not allow, or that ended with its BAD mark set. A packet for another module is not taken, and its row leaves the state as it is:
the model's choice (log entry 7). -/
def Obligations.BadArrivalsAreDiscarded : Prop :=
  ∀ (i : Instr) (s : State) (p : Packet) (ty : PktType), arrivalOf i = some (p, ty) → p.type = ty → s.fabOn = true →
    (p.hdr.dst ≠ s.moduleId → exec i s = .next s)
    ∧ (p.hdr.dst = s.moduleId → s.lifetime ≤ p.hdr.age → exec i s = .next (s.bump .fabDiscardAge))
    ∧ (p.hdr.dst = s.moduleId → p.hdr.age < s.lifetime → (p.bad = true ∨ lenOk p = false) →
      exec i s = .next (s.bump .fabDiscardBad))

/-- WR and WR_BULK: an allowed write stores its blocks, each with its own poison mark, and WR_ACK answers; a refused one
changes no memory, counts, and ERR_RESP answers with the reason. RD_REQ: an allowed read is answered by RD_RESP with the
bytes and the poison mark of each block; a refused one by ERR_RESP. Memory stays. The domains on the way of an allowed access wake
for it within the step, and where one of them failed it waits for good (R476, R481; log entry 24). -/
def Obligations.RemoteAccessesAnswer : Prop :=
  (∀ (s : State) (p : Packet),
      let u := woken s p.hdr.addr p.payload.length
      let ok := fun (i : Instr) => s.remoteRej p p.payload.length true = 0 →
        (Reached s p.hdr.addr p.payload.length → ∃ t, exec i s = .next t
          ∧ t = (u.writeBlocks (blockWrites p.hdr.addr p.payload p.poison)).inject (answer p .wrAck)
          ∧ ∀ a, a < p.hdr.addr ∨ p.hdr.addr + p.payload.length ≤ a → t.mem.byte a = s.mem.byte a)
        ∧ (¬Reached s p.hdr.addr p.payload.length → exec i s = .next u ∧ u.mem = s.mem)
      let bad := fun (i : Instr) => ∀ r, s.remoteRej p p.payload.length true = r → r ≠ 0 →
        ∃ t, exec i s = .next t ∧ t = (s.bump .fabRemoteReject).inject (errAnswer p r) ∧ t.mem = s.mem
      (Arrives s p .wr → ok (.remoteWr p) ∧ bad (.remoteWr p))
      ∧ (Arrives s p .wrBulk → ok (.remoteWrBulk p) ∧ bad (.remoteWrBulk p)))
  ∧ (∀ (s : State) (p : Packet), Arrives s p .rdReq →
        let u := woken s p.hdr.addr p.hdr.len
        ∃ t, exec (.remoteRdReq p) s = .next t ∧ t.mem = s.mem
          ∧ (s.remoteRej p p.hdr.len false = 0 →
              let poison := s.poisonBits p.hdr.addr (p.hdr.len / 64)
              (Reached s p.hdr.addr p.hdr.len → t = u.inject { answer p .rdResp with
                hdr := { (answer p .rdResp).hdr with psn := poison != 0 }
                payload := s.mem.bytes p.hdr.addr p.hdr.len, poison := poison })
              ∧ (¬Reached s p.hdr.addr p.hdr.len → t = u))
          ∧ (s.remoteRej p p.hdr.len false ≠ 0 →
              t = (s.bump .fabRemoteReject).inject (errAnswer p (s.remoteRej p p.hdr.len false))))

/-- What ends FAB_PUT and FAB_GET: the last WR_ACK completes the command with OK, while no write waits for a retry, and else
leaves it until none does (R398); an ERR_RESP ends it with FLT_REMOTE, a timeout
with FLT_REMOTE_TIMEOUT, counted in FAB_TIMEOUT; a RD_RESP that has landed is awaited no more, and changes memory only where
its blocks lie. -/
def Obligations.ResponsesEndRemoteCommands : Prop :=
  ∀ (s : State) (p : Packet) (r : Remote) (c : Cmd), s.cmd? r.id = some c → c.opcode ≠ 0x802 → s.fabric.backlog = [] →
    let tags := (s.fabric.remotes.filter (fun x => x.id == r.id)).map (fun x => x.tag)
    (Arrives s p .wrAck → s.remote? p = some r → r.write = true → s.memside.held ≠ [] →
      exec (.remoteWrAck p) s = .next (s.dropRemote r.tag))
    ∧ (Arrives s p .wrAck → s.remote? p = some r → r.write = true → s.memside.held = [] →
        (∀ x ∈ s.fabric.remotes, x.id = r.id → x.tag = r.tag) →
      ∃ t, exec (.remoteWrAck p) s = .next t
        ∧ Completes (s.dropRemote r.tag) t r.id
            { status := 0x000, poison := c.part.poison, poisonIn := c.part.poisonIn, poisonOut := c.part.poisonOut })
    ∧ (Arrives s p .errResp → s.remote? p = some r →
      ∃ t, exec (.errResp p) s = .next t
        ∧ Completes (s.dropQueued tags) t r.id
            { status := 0x206, poisonIn := c.part.poisonIn, poisonOut := c.part.poisonOut })
    ∧ (s.fabric.remotes.find? (fun x => x.tag == r.tag) = some r →
      ∃ t, exec (.fabRemoteTimeout r.tag) s = .next t
        ∧ Completes ((s.bump .fabTimeout).dropQueued tags) t r.id
            { status := 0x207, poisonIn := c.part.poisonIn, poisonOut := c.part.poisonOut })
    ∧ (Arrives s p .rdResp → s.remote? p = some r → r.write = false → (c.op? 0).isSome = true →
      ∃ t, exec (.remoteRdResp p) s = .next t ∧ (∀ x ∈ t.fabric.remotes, x.tag ≠ r.tag)
        ∧ ∀ a, a < r.addr ∨ r.addr + 64 * ((p.payload.length + 63) / 64) ≤ a → t.mem.byte a = s.mem.byte a)

/-- PACKET_FORWARD of a packet that comes in on a port that is up: one for another module leaves on the port that its route names,
with the time spent here added to its age, and one that was cut short passes on with its BAD mark; one without a valid entry is
discarded and counted; one that has no port or no way to it now waits. One past its lifetime, one of a type that is not defined,
and one of a wrong length is discarded and counted. A module that was refused forwards nothing. That the cut-short end is an
operand of the row, which of the ports of a set a fixed path takes, and that a port that is down brings nothing in, is the model's
(R292, R296, R297, R311 to R313; log entries 7 and 20). -/
def Obligations.PacketsAreForwardedByTheirRoute : Prop :=
  ∀ (s : State) (inPort micros : Nat) (p : Packet) (credits : List Nat), s.fabOn = true →
    ((s.port inPort).state ≠ .up → exec (.packetForward inPort p micros credits) s = .next s)
    ∧ ((s.port inPort).state = .up →
      (s.lifetime ≤ p.hdr.age → (p.hdr.dst ≠ s.moduleId ∨ typeKnown p.type = false) →
        exec (.packetForward inPort p micros credits) s = .next (s.bump .fabDiscardAge))
      ∧ (p.hdr.age < s.lifetime →
        (typeKnown p.type = false → exec (.packetForward inPort p micros credits) s = .next (s.bump .fabDiscardBad))
        ∧ (typeKnown p.type = true → p.hdr.dst ≠ s.moduleId →
          (p.bad = false → lenOk p = false → exec (.packetForward inPort p micros credits) s = .next (s.bump .fabDiscardBad))
          ∧ ((p.bad = true ∨ lenOk p = true) →
            (s.fabric.state = .refused → exec (.packetForward inPort p micros credits) s = .next s)
            ∧ (s.fabric.state ≠ .refused →
              let q : Packet := { p with hdr := { p.hdr with age := min (p.hdr.age + micros + 1) 65535 } }
              (∀ n, s.route q (some inPort) credits = .port n →
                ∃ t, exec (.packetForward inPort p micros credits) s = .next t
                  ∧ t = s.sendFab (.packet n { q with hdr := { q.hdr with down := p.hdr.down || !s.leadsUp n } }))
              ∧ (s.route q (some inPort) credits = .none →
                exec (.packetForward inPort p micros credits) s = .next (s.bump .fabDiscardRoute))
              ∧ (s.route q (some inPort) credits = .wait →
                exec (.packetForward inPort p micros credits) s = .next { s with fabric := { s.fabric with
                  queued := s.fabric.queued ++ [{ packet := q, inPort := some inPort, since := s.wall }] } }))))))

/-- FAB_PUT and FAB_GET of a tensor of one piece, to another module: one request is sent and awaited. To a module that the
roster declares absent the command ends with FLT_MEMBER_LOST, and one of an empty tensor completes at once; memory stays. The
ID of this module makes the command a local copy (R199): with no POISON_LIMIT it completes with OK, and memory outside the
destination's blocks stays. Those that complete do so while no read is under retry (R202, R398). -/
def Obligations.PutAndGetSendTheirRequests : Prop :=
  ∀ (s : State) (id op : Nat) (c : Cmd) (o r : Operand), (op = 0x520 ∨ op = 0x521) → s.running? id op = some c →
    c.stage = .go → c.op? 0 = some o → c.op? 8 = some r →
    let i : Instr := if op = 0x520 then .fabPut id else .fabGet id
    let dst := if op = 0x520 then r else o
    (c.remoteId ≠ s.moduleId → s.declaredAbsent c.remoteId = true → ∃ t, exec i s = .next t ∧ Completes s t id { status := 0x209 })
    ∧ (c.remoteId = s.moduleId → c.poisonLimit = 0xFFFF → s.memside.held = [] → s.memside.pendingUe = [] →
        (∀ x ∈ s.fabric.remotes, x.id ≠ id) → (∀ b ∈ s.fabric.backlog, b.1 ≠ id) →
      ∃ t u k, exec i s = .next t ∧ Completes u t id k ∧ k.status = 0x000
        ∧ ∀ a, (∀ p ∈ o.d.pieces, let b := dst.d.base + dst.d.rowOff p.1 + 64 * p.2.1
            a < b ∨ b + 64 * p.2.2 ≤ a) → t.mem.byte a = s.mem.byte a)
    ∧ (c.remoteId ≠ s.moduleId → s.declaredAbsent c.remoteId = false → s.fabric.backlog = [] →
      (o.d.pieces = [] → (∀ x ∈ s.fabric.remotes, x.id ≠ id) → s.memside.held = [] →
        ∃ t u k, exec i s = .next t ∧ Completes u t id k ∧ k.status = 0x000 ∧ t.mem = s.mem)
      ∧ (∀ row blk n, o.d.pieces = [(row, blk, n)] → s.fabric.remotes.length < 65536 → c.grad = false →
        ∃ t tag, exec i s = .next t ∧ t.mem = s.mem
          ∧ t.fabric.remotes = s.fabric.remotes
              ++ [Remote.mk tag id c.remoteId (o.d.base + o.d.rowOff row + 64 * blk) (64 * n) (op == 0x520) blk]
          ∧ ∃ d, t.cmd? id = some d ∧ d.stage = .begun ∧ d.st = .running))

/-! ## Groups, collectives, barriers (R317 to R326, R244 to R250) -/

/-- FAB_GROUP_DEFINE, RELEASE and READMIT: a group gets the members that the command read as it started, with those other than
this module that the roster does not list present as absent for the group (R318), and its first sequence number; it goes, and
takes a member back. A number in use, and a 65th group, is rejected. That the checks are made again when the command acts (log
entry 15), and the AUX of the rejection (log entry 11), are the model's choices. -/
def Obligations.GroupsAreDefinedReleasedAndReadmitted : Prop :=
  ∀ (s : State) (id : Nat) (c : Cmd),
    (s.running? id 0x510 = some c → s.group? c.groupParam = none → s.fabric.groups.length < 64 →
        s.groupCmds c.groupParam = [] →
      ∃ t, exec (.fabGroupDefine id) s = .next t
        ∧ Completes (s.modFabric (fun f => { f with groups := f.groups
              ++ [{ num := c.groupParam, members := c.memberList, seq := c.param 28 4
                    absent := c.memberList.filter (fun m => m != s.moduleId && s.fabric.roster.absent m) }] })) t id { status := 0x000 })
    ∧ (s.running? id 0x510 = some c → ((s.group? c.groupParam).isSome = true ∨ 64 ≤ s.fabric.groups.length) →
      ∃ t, exec (.fabGroupDefine id) s = .next t ∧ Completes s t id { status := 0x113, aux := 88 })
    ∧ (s.running? id 0x512 = some c → worst (s.groupReleaseStart c).rejs = none →
      ∃ t, exec (.fabGroupRelease id) s = .next t
        ∧ Completes (s.modFabric (fun f => { f with groups := f.groups.filter (fun g => g.num != c.groupParam) })) t id
            { status := 0x000 }
        ∧ t.group? c.groupParam = none)
    ∧ (∀ g, s.running? id 0x511 = some c → worst (s.groupReadmitStart c).rejs = none → s.group? c.groupParam = some g →
      ∃ t n, exec (.fabGroupReadmit id) s = .next t
        ∧ Completes (s.modGroup c.groupParam (fun g => { g with absent := g.absent.filter (fun m => m != c.memberParam) })) t
            id { status := 0x000, count := n, aux := c.seqNo.getD 0, absent := n != 0 })

/-- The collective that a command runs: its number, opcode and kind. -/
def Sys2Proof.collectiveOf : Instr → Option (Nat × Nat × Nat)
  | .collAllReduce id => some (id, 0x500, 0)
  | .collReduceScatter id => some (id, 0x501, 1)
  | .collAllGather id => some (id, 0x502, 2)
  | .collAllToAll id => some (id, 0x503, 3)
  | .collBroadcast id => some (id, 0x504, 4)
  | _ => none

/-- A collective whose group is not defined when it acts completes with REJ_GROUP: its number was in use when it was checked, and
that it is looked up again, and the AUX, are the model's choices (log entries 15 and 11). Any other is recorded as running, tells the members that it
is ready, sends and lands what this module has, takes the packets that came early, and completes once its target is final.
In arrival order, where every other member of its group is absent, it completes at once with OK or OK_ABSENT, with the number
of absent members and its sequence number (R322, R323), and memory outside its target stays. -/
def Obligations.CollectivesStart : Prop :=
  ∀ (i : Instr) (s : State) (id op kind : Nat) (c : Cmd), collectiveOf i = some (id, op, kind) → s.running? id op = some c →
    c.stage = .go →
    (s.group? c.groupParam = none → ∃ t, exec i s = .next t ∧ Completes s t id { status := 0x113, aux := 88 })
    ∧ (∀ g, s.group? c.groupParam = some g →
      let k := s.newColl c g kind false
      let u := ((s.setStage id .begun).modFabric (fun f => { f with colls := f.colls ++ [k] })).addPoisonIn id
        (poisonIn s.mem 0 [k.src])
      ∃ t, exec i s = .next t ∧ t = (((u.sendReady k).launch id).takeEarly id).settleColl id)
    ∧ (∀ g o d, s.group? c.groupParam = some g → c.op? 0 = some o → c.op? 8 = some d → AloneIn s g →
        (∀ k ∈ s.fabric.colls, k.id ≠ id) → s.fabric.early = [] → c.poisonLimit = 0xFFFF → (kind < 2 → bit c.gctrl 28 = false) →
      let n := g.members.length
      ∃ t u k, exec i s = .next t ∧ Completes u t id k ∧ k.status = 0x000 ∧ k.count = n - 1 ∧ k.aux = c.seqNo.getD 0
        ∧ k.absent = (n != 1)
        ∧ (d.blockCount = (if kind = 1 then shardLen o.blockCount n (rankIn g.members s.moduleId)
              else if kind = 2 then n * o.blockCount else o.blockCount) →
            ∀ a, (a < d.d.base ∨ d.d.base + 64 * d.blockCount ≤ a) → t.mem.byte a = s.mem.byte a))

/-- The steps of a collective that runs: COLL_READY lets its sends to that rank go; COLL_DATA beyond the target is discarded as
malformed, one from an absent rank has no effect, and any other lands; COLL_ACK ends the send of its tag, and sends that waited for a tag go out; a packet of no collective that
runs is counted in FAB_DISCARD_SEQ, or held where it is the next one's COLL_READY; a timeout ends the command with
FLT_COLL_TIMEOUT. -/
def Obligations.CollectivePacketsAct : Prop :=
  ∀ (s : State) (p : Packet),
    (Arrives s p .collReady →
      (∀ k, s.collOf p = some k → k.kind ≠ 5 →
        ∃ t, exec (.collReady p) s = .next t ∧ t = (s.takeReady k.id p.hdr.rank).settleColl k.id)
      ∧ (∀ g, s.collOf p = none → s.group? p.hdr.group = some g → p.hdr.seq = (s.currentSeq g + 1) % 2 ^ 32 →
        ∃ t, exec (.collReady p) s = .next t ∧ t.fabric = { s.fabric with early := s.fabric.early ++ [p] } ∧ t.ctrs = s.ctrs)
      ∧ (s.collOf p = none → s.group? p.hdr.group = none →
        exec (.collReady p) s = .next (s.bump .fabDiscardSeq)))
    ∧ (Arrives s p .collData →
      (s.collOf p = none → exec (.collData p) s = .next (s.bump .fabDiscardSeq))
      ∧ (∀ k, s.collOf p = some k → k.kind ≠ 5 → k.present p.hdr.rank = true → p.hdr.rank < k.g →
        (64 * k.targetBlocks < p.hdr.addr + p.payload.length →
          exec (.collData p) s = .next (s.bump .fabDiscardBad))
        ∧ (p.hdr.addr + p.payload.length ≤ 64 * k.targetBlocks →
          ∃ t, exec (.collData p) s = .next t ∧ t = s.takeData k p))
      ∧ (∀ k, s.collOf p = some k → k.kind ≠ 5 → k.present p.hdr.rank = false → exec (.collData p) s = .next s))
    ∧ (Arrives s p .collAck →
      (s.collOf p = none → exec (.collAck p) s = .next (s.bump .fabDiscardSeq))
      ∧ ∀ k, s.collOf p = some k → ∃ t, exec (.collAck p) s = .next t
        ∧ t = ((s.modColl k.id (fun y => { y with sends := y.sends.map (fun (x : Send) =>
            if x.tag == p.hdr.tag && x.sent && !x.acked && k.members.getD x.rank 4096 == p.hdr.src then
              { x with acked := true } else x) })).trySends k.id).settleColl k.id)
    ∧ (∀ id k c, s.coll? id = some k → s.cmd? id = some c →
        (∃ r < k.g, r ≠ s.collRank k ∧ k.present r = true) →
      ∃ t, exec (.collTimeout id) s = .next t
        ∧ Completes s t id { status := 0x208, poisonIn := c.part.poisonIn, poisonOut := c.part.poisonOut
                             count := if 0x500 ≤ c.opcode ∧ c.opcode ≤ 0x505 then k.absent.length else c.part.count
                             aux := if 0x500 ≤ c.opcode ∧ c.opcode ≤ 0x505 then c.seqNo.getD 0 else 0 })

/-- Barriers: COLL_BARRIER_OR and PB_VERDICT record the barrier and, on a module that does not lead it, send its flag to the
leader; BARRIER_FLAG records a flag; the result of a COLL_BARRIER_OR is stored as a word of 8 bytes and completes it. Where
every other member of the group is absent they complete at once: COLL_BARRIER_OR stores its own flag with the counts, and
PB_VERDICT forms the verdict from the step's own flag. -/
def Obligations.BarriersRun : Prop :=
  (∀ (s : State) (id : Nat) (c : Cmd) (g : Group), AloneIn s g → (∀ k ∈ s.fabric.colls, k.id ≠ id) → c.stage = .go →
      let n := g.members.length
      (s.running? id 0x505 = some c → s.group? c.groupParam = some g →
        ∃ t u, exec (.collBarrierOr id) s = .next t
          ∧ Completes u t id { status := 0x000, count := n - 1, aux := c.seqNo.getD 0, absent := n - 1 != 0,
                               poison := c.part.poison, poisonIn := c.part.poisonIn, poisonOut := c.part.poisonOut }
          ∧ (s.retryPending (c.param 8 8) = false → u.mem = s.mem.writeBlock s.free
              { loc := c.param 8 8, mask := 2 ^ 64 - 1
                val := Barrier.word { or := bit c.gctrl 30, members := 1, absent := n - 1 } }))
      ∧ (s.running? id 0x646 = some c → s.group? (bits (c.param 0 4) 15 0) = some g → c.seqNum < 4 →
        ∃ t u, exec (.pbVerdict id) s = .next t ∧ Completes u t id { status := 0x000 }
          ∧ ((u.seq c.seqNum).scale, (u.seq c.seqNum).cleanRun)
            = afterVerdict (leNat c.held) (s.stepNf c.src) (s.seq c.seqNum).scale (s.seq c.seqNum).cleanRun))
  ∧
  (∀ (s : State) (id op : Nat) (c : Cmd) (g : Group) (flag : Bool),
      (op = 0x505 ∨ op = 0x646) → s.running? id op = some c → c.stage = .go →
      s.group? (if op = 0x505 then c.groupParam else bits (c.param 0 4) 15 0) = some g →
      flag = (if op = 0x505 then bit c.gctrl 30 else s.stepNf c.src) → s.fabric.colls = [] → s.fabric.early = [] →
      let k : Coll := { s.newColl c g 5 flag with
        src := none, dst := none, staging := none, order := false, mean := false }
      k.leader ≠ s.collRank k →
      ∃ t, exec (if op = 0x505 then .collBarrierOr id else .pbVerdict id) s = .next t
        ∧ t = ((s.setStage id .barrier).modFabric (fun f => { f with colls := [k] })).inject
            { type := .barrierFlag
              hdr := { group := g.num, seq := c.seqNo.getD 0, rank := s.collRank k
                       dst := g.members.getD k.leader 0, nf := flag } })
  ∧ (∀ (s : State) (p : Packet) (k : Coll), Arrives s p .barrierFlag → s.collOf p = some k → k.kind = 5 →
      ∃ t, exec (.barrierFlag p) s = .next t
        ∧ t = s.noteFlag k.id p.hdr.rank p.hdr.nf
            (if p.payload.length == 8 then some (Barrier.ofNat (leNat p.payload)) else none))
  ∧ (∀ (s : State) (p : Packet) (k : Coll) (c : Cmd), Arrives s p .barrierResult → s.collOf p = some k → k.kind = 5 →
      s.coll? k.id = some k → s.cmd? k.id = some c → c.opcode = 0x505 →
      let r := Barrier.ofNat (leNat p.payload)
      ∃ t u, exec (.barrierResult p) s = .next t
        ∧ Completes u t k.id { status := 0x000, count := r.absent, aux := k.seq, absent := r.absent != 0,
                               poison := c.part.poison, poisonIn := c.part.poisonIn, poisonOut := c.part.poisonOut }
        ∧ (s.retryPending (c.param 8 8) = false →
            u.mem = s.mem.writeBlock s.free { loc := c.param 8 8, mask := 2 ^ 64 - 1, val := r.word })
        ∧ u.cmds = s.cmds ∧ u.seqs = s.seqs)

/-- A verdict: a no-ball step counts in NO_BALL_STEPS, halves the loss scale down to 2^SCALE_MIN_EXP where the back-off is
enabled, and clears the run of clean steps; a clean step adds one to the run, and a run of GROWTH_STEPS doubles the scale up
to 2^SCALE_MAX_EXP and starts the run again. -/
def Obligations.VerdictMovesTheLossScale : Prop :=
  ∀ (s : State) (p : Packet) (k : Coll) (c : Cmd), Arrives s p .barrierResult → s.collOf p = some k → k.kind = 5 →
    s.coll? k.id = some k → s.cmd? k.id = some c → c.opcode = 0x646 → c.seqNum < 4 →
    let n := c.seqNum
    let q := s.seq n
    let r := Barrier.ofNat (leNat p.payload)
    let cfg := leNat c.held
    ∃ t, exec (.barrierResult p) s = .next t
      ∧ (r.or = true → (t.seq n).cleanRun = 0#32 ∧ t.ctr .noBallSteps = satAdd (s.ctr .noBallSteps) 1
        ∧ (t.seq n).scale = (if bit cfg 1 then fmax (fmul q.scale 0x3F000000#32) (pow2F32 (scaleMinExp cfg)) else q.scale))
      ∧ (r.or = false → t.ctrs = s.ctrs
        ∧ (bits cfg 15 4 ≠ 0 → (q.cleanRun + 1#32).toNat = bits cfg 15 4 →
            (t.seq n).cleanRun = 0#32 ∧ (t.seq n).scale = fmin (fmul q.scale 0x40000000#32) (pow2F32 (scaleMaxExp cfg)))
        ∧ ((bits cfg 15 4 = 0 ∨ (q.cleanRun + 1#32).toNat ≠ bits cfg 15 4) →
            (t.seq n).cleanRun = q.cleanRun + 1#32 ∧ (t.seq n).scale = q.scale))

/-! ## Expert draft (R257 to R286) -/

/-- DRAFT_OPEN of a table with no earlier draft command in flight binds it anew: descriptor and placement as it read them when
it started (R392), generation 0, no generation open. DRAFT_PROPOSE opens the next generation of its table, numbered modulo 2^16, with the placement and step that then stand, and completes.
DRAFT_MERGE completes once every present member's list for every owned expert has come. DRAFT_CANCEL closes the open
generation of its table; where none is open it changes nothing. That a DRAFT_OPEN also cancels the draft commands of a generation
that it closes, that only earlier ones count, and that a DRAFT_PROPOSE of the host has step 0, is the model's choice (log
entry 19). -/
def Obligations.DraftTablesAndGenerations : Prop :=
  (∀ (s : State) (id : Nat) (c : Cmd), s.running? id 0x700 = some c →
      s.inFlightBefore (Cmd.draftTableByte c.held) id = [] →
      let n := Cmd.draftTableByte c.held
      let d := DraftDesc.ofBytes c.held
      let pl := (List.range d.experts).map (fun e => Placement.ofBytes ((c.held.drop (128 + 64 * e)).take 64))
      ∃ t u, exec (.draftOpen id) s = .next t ∧ Completes u t id { status := 0x000 }
        ∧ u = s.modDraft n (fun _ => { bound := true, ctx := c.ctx, desc := d, place := pl, genPlace := pl
                                       demands := List.replicate d.experts 0 })
        ∧ (n < 64 → (t.draft n).bound = true ∧ (t.draft n).gen = 0 ∧ (t.draft n).genOpen = false
            ∧ (t.draft n).place = pl)
        ∧ ∀ m, m ≠ n → t.draft m = s.draft m)
  ∧ (∀ (s : State) (id : Nat) (c : Cmd), c.draftTable < 64 →
        (∀ g score, s.running? id 0x701 = some c → c.op? 0 = some score → s.group? (s.draft c.draftTable).desc.group = some g →
          ∃ t u k, exec (.draftPropose id) s = .next t ∧ Completes u t id k ∧ k.status = 0x000
            ∧ (t.draft c.draftTable).gen = ((s.draft c.draftTable).gen + 1) % 65536
            ∧ (t.draft c.draftTable).genOpen = true
            ∧ (t.draft c.draftTable).genPlace = (s.draft c.draftTable).place
            ∧ (t.draft c.draftTable).genStep = c.step?.getD 0#32
            ∧ (t.draft c.draftTable).genMembers = g.members.filter (s.presentFor g)
            ∧ ∀ m, m ≠ c.draftTable → t.draft m = s.draft m)
        ∧ (s.running? id 0x702 = some c → (s.draft c.draftTable).genOpen = true →
            (∀ e ∈ ownedBy (s.draft c.draftTable).genPlace s.moduleId, ∀ m ∈ (s.draft c.draftTable).present,
              ((s.draft c.draftTable).whole 0 m e).isSome = true) →
          ∃ t u, exec (.draftMerge id) s = .next t ∧ Completes u t id { status := 0x000 }
            ∧ (t.draft c.draftTable).gen = (s.draft c.draftTable).gen ∧ ∀ m, m ≠ c.draftTable → t.draft m = s.draft m))
  ∧ (∀ (s : State) (id : Nat) (c : Cmd), s.running? id 0x705 = some c → worst (s.draftCancelStart c).rejs = none →
        ((s.draft c.draftTable).genOpen = false →
          ∃ t, exec (.draftCancel id) s = .next t ∧ Completes s t id { status := 0x000 })
        ∧ ((s.draft c.draftTable).genOpen = true → s.ofGeneration c.draftTable c.ctx = [] →
          ∃ t, exec (.draftCancel id) s = .next t ∧ Completes (s.retireGen c.draftTable) t id { status := 0x000 }
            ∧ (t.draft c.draftTable).genOpen = false ∧ ∀ n, n ≠ c.draftTable → t.draft n = s.draft n))

/-- DRAFT_RUN_FWD and DRAFT_RUN_BWD, with the draft list there, every copy at hand and no block that they write under retry,
write what the run computes; the forward run completes, and with NO_BWD its generation closes; the backward run of a module that
owns no expert completes, and its generation closes. -/
def Obligations.DraftRunsWriteTheirResults : Prop :=
  ∀ (s : State) (id : Nat) (c : Cmd), c.stage = .begun → (s.draft c.draftTable).genOpen = true →
    (s.draft c.draftTable).listDone = true →
    let d := s.draft c.draftTable
    let l := s.runPairs d c (((c.op? 0).map (fun o => o.d.extent 1)).getD 0)
    (∀ x ∈ l.1, s.haveExpert d x.1 = true) →
    (s.running? id 0x703 = some c →
      let r := s.fwdEffect d c l.1 l.2
      s.runWaits r.1 r.2 = false → r.2.overLimit c = false →
      ∃ u v, exec (.draftRunFwd id) s = .next (if bit c.draftCtrl 10 then v.closeGen c.draftTable else v)
        ∧ Completes u v id (r.2.compl c) ∧ v.mem = ((r.1.writeBlocks r.2.writes).writeBlocks r.2.finals).mem
        ∧ (∀ m, m ≠ c.draftTable → v.draft m = s.draft m))
    ∧ (s.running? id 0x704 = some c →
      let r := s.bwdEffect d c l.1 l.2
      s.runWaits r.1 r.2.1 = false → r.2.1.overLimit c = false → ownedBy d.genPlace s.moduleId = [] →
      ∃ t u k, exec (.draftRunBwd id) s = .next t ∧ Completes u t id k ∧ k.status = 0x000
        ∧ t.mem = ((r.1.writeBlocks r.2.1.writes).writeBlocks r.2.1.finals).mem
        ∧ (t.draft c.draftTable).genOpen = false ∧ ∀ m, m ≠ c.draftTable → t.draft m = s.draft m)

/-- FP32 words summed in order, (((w0 + w1) + w2) + …), and +0 of none. -/
def Sys2Proof.rankSum : List Word32 → Word32
  | [] => 0#32
  | w :: r => canonWord (r.foldl fadd w)

/-- The n bytes at an address as a number. -/
def Sys2Proof.numAt (m : Mem) (a n : Nat) : Nat := leNat (m.bytes a n)

/-- RANK_ORDER_REDUCTION forms every shard of a rank-order collective that is full. Where one is, and none of its contributions is
poisoned, each element of the target shard is the sum of the present ranks' contributions in their slots of the staging tensor,
in ascending rank, with the mean where it is asked for; for a BF16 target the sum is rounded once, at the end (R210). Of an expert
that this module owns it forms the gradient once every present member's contribution is whole, and marks it formed: each word is
the sum of the non-empty contributions in the order of the members, and +0 of none (R272). A lone contribution that is a NaN is
stored as the canonical one (R38, log entry 18). -/
def Obligations.RankOrderReductionForms : Prop :=
  (∀ (s : State) (id : Nat) (k : Coll), s.coll? id = some k → k.order = true →
    ∃ t, exec (.rankOrderReduction (.coll id)) s = .next t
      ∧ t = ((s.formable k).foldl (fun (s : State) i => s.formShard id i) s).settleColl id)
  ∧ (∀ (s : State) (id i : Nat) (k : Coll) (c : Cmd) (o st : Operand), s.coll? id = some k → k.order = true →
      s.cmd? id = some c → k.dst = some o → k.staging = some st → s.formable k = [i] → Canonical s → s.mem.undef = [] →
      s.memside.pendingUe = [] → o.foul = false →
      let range := k.shardAt i
      let ranks := (List.range k.g).filter (fun r => k.whole r range && !((k.landed r range).any (fun c => c.empty)))
      let slot := fun (r : Nat) => st.d.base + r * 64 * k.targetBlocks
      let mean := fun (w : Word32) => if k.mean && ranks.length != 0 then fmul w (frecip (f32OfNat ranks.length)) else w
      (∀ r ∈ ranks, ∀ b < range.2 / 64, s.mem.poisoned (slot r + range.1 + 64 * b) = false) →
      ∃ t, exec (.rankOrderReduction (.coll id)) s = .next t ∧ ∀ b < range.2 / 64, ∀ j,
        let off := range.1 + 64 * b
        (o.d.fmt = .fp32 → j < 16 → (∀ x < 32, bit (o.offMask off) (32 * j + x) = true) →
          numAt t.mem (o.d.base + off + 4 * j) 4
            = (mean (rankSum (ranks.map (fun r => BitVec.ofNat 32 (numAt s.mem (slot r + off + 4 * j) 4))))).toNat)
        ∧ (o.d.fmt = .bf16 → j < 32 → (∀ x < 16, bit (o.offMask off) (16 * j + x) = true) →
          numAt t.mem (o.d.base + off + 2 * j) 2
            = toBf16R .near (ofF32 (mean (rankSum (ranks.map (fun r =>
                toF32 (ofBf16 (numAt s.mem (slot r + off + 2 * j) 2)))))))))
  ∧ (∀ (s : State) (t e : Nat) (c : Cmd) (g : Group), t < 64 →
    s.cmds.find? (fun c => c.isRunning && c.opcode == 0x704 && c.draftTable == t && c.stage == .dma 1) = some c →
    s.group? (s.draft t).desc.group = some g → (ownedBy (s.draft t).genPlace s.moduleId).contains e = true →
    (s.draft t).reduced.contains e = false →
    (∀ m ∈ (s.draft t).present, ((s.draft t).whole 3 m e).isSome = true) →
    ∃ u, exec (.rankOrderReduction (.expert t e)) s = .next u ∧ (u.draft t).reduced.contains e = true
      ∧ (∀ m, m ≠ t → u.draft m = s.draft m)
      ∧ (∀ full, full = ((s.draft t).present.filterMap (fun m => (s.draft t).whole 3 m e)).filter
            (fun ps => !(ps.any (fun p => p.empty))) →
          (∀ ps ∈ full, (wholeBytes ps).length = c.gradBytes ∧ ∀ p ∈ ps, p.psn = false) → Canonical s → s.mem.undef = [] →
          s.memside.pendingUe = [] → ∀ j, 4 * j + 4 ≤ c.gradBytes →
          numAt u.mem (c.gradBase + ownIndex (s.draft t).genPlace e * c.gradBytes + 4 * j) 4
            = (rankSum (full.map (fun ps => BitVec.ofNat 32 (fieldAt (wholeBytes ps) (4 * j) 4)))).toNat))

/-- DRAFT_TRANSFER of a playbook acts only at steps that TRANSFER_STEPS divides and completes at once otherwise; a host's acts
always. Where it acts and no other member of the group is present, no expert gets a loan (R283): the new placement, with the
owners as they are, waits for the next step boundary, and the demand counts start again. -/
def Obligations.DraftTransferFormsThePlacement : Prop :=
  ∀ (s : State) (id : Nat) (c : Cmd), s.running? id 0x706 = some c → c.stage = .go → c.draftTable < 64 →
    let d := s.draft c.draftTable
    let w := if d.desc.window = 0 then 200 else d.desc.window
    (∀ n entry step ph, c.src = .seq n entry step ph → step.toNat % w ≠ 0 →
      ∃ t, exec (.draftTransfer id) s = .next t ∧ Completes s t id { status := 0x000 })
    ∧ (∀ g, ((∃ q, c.src = .host q) ∨ ∃ n entry step ph, c.src = .seq n entry step ph ∧ step.toNat % w = 0
          ∧ (s.seq n).st ≠ .holding) →
        s.group? d.desc.group = some g → g.members.filter (s.presentFor g) = [s.moduleId] → d.asked = [] →
        (∀ k ∈ s.cmds, k.isRunning = true → k.opcode = 0x706 → k.draftTable = c.draftTable → k.id = id) →
      ∃ t u, exec (.draftTransfer id) s = .next t ∧ Completes u t id { status := 0x000 }
        ∧ (t.draft c.draftTable).nextPlace = some (d.place.map (fun p => { p with holders := [] }))
        ∧ (t.draft c.draftTable).newPlace = none
        ∧ (t.draft c.draftTable).demands = List.replicate d.desc.experts 0 ∧ t.mem = s.mem)

/-- Draft packets: one for a table that is not bound in its context, or of a generation neither current nor next, is counted in
STALE_RETURN and dropped; one of the next generation is held; one of the open generation joins the table's parts. Of a
generation that is no longer open every packet is stale, but for a working copy that a refill or a transfer window asked for.
A request for a working copy of the open generation, or of a transfer window, is held until it can be served. The packet of a
request, its mark for a transfer window, and which packets of a generation that closed are still taken, is the model's choice (log
entry 19). -/
def Obligations.DraftPacketsMatchTheirGeneration : Prop :=
  ∀ (s : State) (p : Packet), Arrives s p .draft →
    let w := fieldAt p.payload 0 8
    let gen := bits w 63 48
    let n := bits w 47 42
    let d := s.draft n
    let x := partOf p
    let request := x.kind = 2 ∧ x.empty = true
    let asked := x.kind = 2 ∧ ∃ a ∈ d.asked, a.expert = x.expert ∧ a.source = x.source
    ((d.bound = false ∨ d.ctx ≠ p.hdr.tctx) → exec (.draftPacket p) s = .next (s.bump .staleReturn))
    ∧ (d.bound = true → d.ctx = p.hdr.tctx →
      (gen ≠ d.gen → gen ≠ (d.gen + 1) % 65536 → exec (.draftPacket p) s = .next (s.bump .staleReturn))
      ∧ (gen ≠ d.gen → gen = (d.gen + 1) % 65536 → exec (.draftPacket p) s
          = .next (s.modDraft n (fun d => { d with nextParts := addPart d.nextParts x })))
      ∧ (gen = d.gen → request →
        (d.genOpen = false → x.part ≠ 1 → exec (.draftPacket p) s = .next (s.bump .staleReturn))
        ∧ ((d.genOpen = true ∨ x.part = 1) → exec (.draftPacket p) s = .next
            ((s.modDraft n (fun d => { d with
                fetches := d.fetches ++ [FetchReq.mk x.source x.expert (BitVec.ofNat 32 x.seq) gen (x.part == 1)] })).serveFetches n)))
      ∧ (gen = d.gen → ¬request →
        ((d.genOpen = true ∨ asked) → ∃ t, exec (.draftPacket p) s = .next t ∧ t = s.takePart n x
          ∧ (x.kind = 0 → t = s.modDraft n (fun d => { d with parts := addPart d.parts x })))
        ∧ (d.genOpen = false → ¬asked → exec (.draftPacket p) s = .next (s.bump .staleReturn))))

/-! ## Number formats (R29 to R51) -/

/-- Encoding gives back what decoding read: every FP32 and BF16 code but the NaNs under every rounding mode, and every L4, L8,
E4M3 and E5M2 code but the NaNs to nearest, at every scale byte but that of a NaN scale. A NaN is written as the canonical NaN
of its format (R38). A scale byte b below FFh scales by 2^(b - 127), and under FFh every element decodes as NaN (R34). -/
def Obligations.FormatsEncodeAndScale : Prop :=
  (∀ (rm : Rnd) (w : Word32), (ofF32 w).isNan = false → toF32R rm (ofF32 w) = w)
  ∧ (∀ (rm : Rnd) (n : Nat), n < 2 ^ 16 → (ofBf16 n).isNan = false → toBf16R rm (ofBf16 n) = n)
  ∧ (∀ (f : Fmt) (b c : Nat), f.scalable = true → b < 255 → c < 2 ^ f.width → (decode f c b).isNan = false →
      encode f .near b (decode f c b) = c)
  ∧ (∀ rm, toF32R rm .nan = 0x7FC00000#32 ∧ toBf16R rm .nan = 0x7FC0 ∧ ∀ b,
      encode .l4 rm b .nan = 0x8 ∧ encode .l8 rm b .nan = 0x80 ∧ encode .e4m3 rm b .nan = 0x7F ∧ encode .e5m2 rm b .nan = 0x7F)
  ∧ (∀ (f : Fmt) (c : Nat), f.scalable = true → decode f c 255 = .nan
      ∧ ∀ b < 255, (decode f c 127 = .nan → decode f c b = .nan) ∧ (∀ s, decode f c 127 = .inf s → decode f c b = .inf s)
        ∧ ∀ s m e, decode f c 127 = .fin s m e →
            ∃ e', decode f c b = .fin s m e' ∧ (m ≠ 0 → e' = e + ((b : Int) - 127)))

/-! ## Data-path commands (R87 to R190, R408) -/

/-- The data-path command that a row runs: number, opcode, and what it does. -/
def Sys2Proof.dataCommand : Instr → Option (Nat × Nat × (State → Cmd → Effect))
  | .moveCopy id => some (id, 0x100, State.moveCopyEffect)
  | .moveFill id => some (id, 0x101, State.moveFillEffect)
  | .movePermute id => some (id, 0x102, State.movePermuteEffect)
  | .moveGatherBlocks id => some (id, 0x110, State.gatherBlocksEffect)
  | .moveScatterBlocks id => some (id, 0x111, State.scatterBlocksEffect)
  | .denseMm id => some (id, 0x200, State.denseEffect)
  | .scrumSpmm id => some (id, 0x300, State.spmmEffect)
  | .scrumSpsp id => some (id, 0x301, State.spspEffect)
  | .scrumIntersect id => some (id, 0x302, State.intersectEffect)
  | .scrumGather id => some (id, 0x310, State.gatherEffect)
  | .scrumScatter id => some (id, 0x311, State.scatterEffect)
  | .scrumScatterAdd id => some (id, 0x312, State.scatterAddEffect)
  | .scrumEmbedBag id => some (id, 0x313, State.embedBagEffect)
  | .scrumTopc id => some (id, 0x320, State.topcEffect)
  | .scrumPredictFfn id => some (id, 0x330, State.predictEffect)
  | .vecEltwise id => some (id, 0x400, State.eltwiseEffect)
  | .vecActivate id => some (id, 0x401, fun s c => s.activateEffect c false)
  | .vecActivateBwd id => some (id, 0x402, fun s c => s.activateEffect c true)
  | .fusedSoftmaxFwd id => some (id, 0x420, State.fusedEffect)
  | .fusedSoftmaxBwd id => some (id, 0x421, State.fusedEffect)
  | .fusedLayernormFwd id => some (id, 0x422, State.fusedEffect)
  | .fusedLayernormBwd id => some (id, 0x423, State.fusedEffect)
  | .fusedRmsnormFwd id => some (id, 0x424, State.fusedEffect)
  | .fusedRmsnormBwd id => some (id, 0x425, State.fusedEffect)
  | _ => none

/-- A running data-path command whose turn at its slots it is, whose shares may stream, and whose effect writes no more
poisoned blocks than its POISON_LIMIT, runs to its end: its block writes land in order, its counters count, its sums lie in
the output tiles of its partitions, its contributions enter their slots, the non-finite elements that it wrote set its step's flag
under GRAD, and it completes with OK and its counts. While its turn has not come, or a partition still streams the command before
it, or a block that it writes waits for a retry (R398), it waits (log entry 7). A data-path command whose effect would write
more poisoned blocks than its POISON_LIMIT ends with FLT_POISON, with that limit in POISON_OUT. -/
def Obligations.DataCommandsRunToTheirEnd : Prop :=
  (∀ (i : Instr) (s : State) (id op : Nat) (f : State → Cmd → Effect) (c : Cmd), dataCommand i = some (id, op, f) →
      s.running? id op = some c → (s.slotTurn c = false ∨ s.mayStream id = false ∨ s.retryBlocks (f s c) = true) →
      exec i s = .next s)
  ∧ (∀ (i : Instr) (s : State) (id op : Nat) (f : State → Cmd → Effect) (c : Cmd), dataCommand i = some (id, op, f) →
      s.running? id op = some c → s.slotTurn c = true → s.mayStream id = true →
      let e := f s c
      s.retryBlocks e = false → e.overLimit c = false →
      ∃ t, exec i s = .next t ∧ (e.compl c).status = 0x000
        ∧ Completes
            (let u := ((s.writeBlocks e.writes).writeBlocks e.finals).bumps e.ctrs
             let u := (u.fillTiles c e).noteTiles c
             ((u.addSlots c.ctx e.slots).closeSlots c.ctx e.closes).noteGrad c (nfOf e.writes)) t id (e.compl c))
  ∧ (∀ (i : Instr) (s : State) (id op : Nat) (f : State → Cmd → Effect) (c : Cmd), dataCommand i = some (id, op, f) →
        s.running? id op = some c → s.slotTurn c = true → s.mayStream id = true → s.retryBlocks (f s c) = false →
        c.poisonLimit ≠ 0xFFFF → c.poisonLimit < c.part.poisonOut + (f s c).poisonOut →
        ∃ t u n x b, exec i s = .next t ∧ n ≤ c.part.count + (f s c).count ∧ x ≤ (f s c).aux
          ∧ b ≤ c.part.poisonIn + (f s c).poisonIn
          ∧ Completes u t id { status := 0x202, count := n, aux := x, poison := b != 0, poisonIn := b, poisonOut := c.poisonLimit })

/-- The frame of the data-path commands: every byte outside the blocks that the command's effect names reads as before, with
its poison mark, and so do contexts, queues, tables and fabric settings. Of the clusters only what their cores hold of commands
changes, of the memory side only which blocks hold an error that stayed, of the counters only those that the effect names and
NONFINITE_GRAD, of a sequencer that did not issue the command only its step windows, of power only the votes of a playbook
that ends, of fabric, link and save engine only what they hold for the command. -/
def Obligations.DataCommandsChangeOnlyTheirBlocks : Prop :=
  ∀ (i : Instr) (s : State) (id op : Nat) (f : State → Cmd → Effect) (c : Cmd) (a : Nat),
    dataCommand i = some (id, op, f) → s.running? id op = some c → s.slotTurn c = true → s.mayStream id = true →
    s.retryBlocks (f s c) = false → (f s c).overLimit c = false →
    (∀ w ∈ (f s c).writes ++ (f s c).finals, blockOf a ≠ blockOf w.loc ∧ (a < w.loc ∨ w.loc + 64 ≤ a)) →
    ∃ t, exec i s = .next t ∧ t.mem.byte a = s.mem.byte a ∧ t.mem.poisoned a = s.mem.poisoned a
      ∧ t.contexts = s.contexts ∧ (∀ n, SameCluster (s.cluster n) (t.cluster n)) ∧ t.sqs = s.sqs ∧ t.drafts = s.drafts
      ∧ t.keeper = s.keeper ∧ { t.memside with uncured := s.memside.uncured } = s.memside
      ∧ t.referee = s.referee ∧ t.errors = s.errors ∧ t.scout = s.scout
      ∧ (∀ k, k ≠ .nonfiniteGrad → (∀ p ∈ (f s c).ctrs, p.1 ≠ k) → t.ctr k = s.ctr k)
      ∧ (∀ n, c.ofSeq n = false → t.seq n = { s.seq n with windows := (t.seq n).windows })
      ∧ { t.power with domains := [] } = { s.power with domains := [] }
      ∧ { t.fabric with queued := [], colls := [], remotes := [], backlog := [] }
          = { s.fabric with queued := [], colls := [], remotes := [], backlog := [] }
      ∧ { t.liust with data := [] } = { s.liust with data := [] }
      ∧ { t.save with active := none, unsent := [], holder := none } = { s.save with active := none, unsent := [], holder := none }
      ∧ t.hostTx = s.hostTx ∧ t.fabTx = s.fabTx ∧ t.cycles = s.cycles ∧ t.rngSeed = s.rngSeed ∧ t.cfgLate = s.cfgLate

/-- VEC_TABLE_LOAD: the image waits in the shadow of its slot on every target cluster, and the image in force stays.
OPT_UPDATE: without a valid verdict of its step it ends with FLT_VERDICT and changes nothing; after a no-ball it ends with
nothing written. Otherwise it waits while a save holds its STATE record, and goes on with the units that no save holds: their
writes land, and with the last of them it ends with its counts. A refresh runs as a data-path command does. Nothing lands while
a block that it would write is under retry (R202). That a STATE record which breaks R213 is rejected, and that the verdict and
STATE records are those read as the command starts, is the model's choice (log entries 32 and 34). -/
def Obligations.TablesLoadAndOptimizersUpdate : Prop :=
  (∀ (s : State) (id : Nat) (c : Cmd), s.running? id 0x408 = some c →
      let n := bits (c.param 8 4) 3 0
      ∃ t u k, exec (.vecTableLoad id) s = .next t ∧ Completes u t id k ∧ k.status = 0x000
        ∧ (∀ cl ∈ targetClusters c.target, cl < 8 → (vget (t.cluster cl).tables n {}).shadow = some c.held)
        ∧ (∀ cl, (vget (t.cluster cl).tables n {}).image = (vget (s.cluster cl).tables n {}).image)
        ∧ (∀ cl, cl ∉ targetClusters c.target → SameCluster (s.cluster cl) (t.cluster cl)) ∧ t.mem = s.mem)
  ∧ (∀ (s : State) (id : Nat) (c : Cmd), s.running? id 0x630 = some c → c.optRefresh = false →
        (c.units = [] → c.verdictOk = false → ∃ t, exec (.optUpdate id) s = .next t ∧ Completes s t id { status := 0x204 })
        ∧ (c.units = [] → c.verdictOk = true → c.noBall = true → ({} : Effect).overLimit c = false →
          ∃ t u, exec (.optUpdate id) s = .next t ∧ Completes u t id { status := 0x000 } ∧ t.mem = s.mem)
        ∧ ((c.units = [] → c.verdictOk = true ∧ c.noBall = false) → s.unsent c.optState 64 = true →
          exec (.optUpdate id) s = .next s)
        ∧ (c.units = [] → c.verdictOk = true → c.noBall = false → s.unsent c.optState 64 = false → c.optStateOk = false →
          ∃ t, exec (.optUpdate id) s = .next t ∧ Completes s t id { status := 0x101, aux := 104 })
        ∧ (∀ m, c.op? 0 = some m → (c.units = [] → c.verdictOk = true ∧ c.noBall = false ∧ c.optStateOk = true) →
            s.unsent c.optState 64 = false →
          let us := s.optUnits c
          let e := s.optEffect c us
          let total := m.d.rows * optPer m.d
          ((us = [] ∧ c.units.length ≠ total ∨ s.retryBlocks e = true) → exec (.optUpdate id) s = .next s)
          ∧ (s.retryBlocks e = false → e.overLimit c = false → c.units.length + us.length = total →
            ∃ t u k, exec (.optUpdate id) s = .next t ∧ Completes u t id k ∧ k.count = c.part.count + e.count
              ∧ k.poisonOut = c.part.poisonOut + e.poisonOut ∧ t.mem = ((s.writeBlocks e.writes).writeBlocks e.finals).mem)
          ∧ (s.retryBlocks e = false → e.overLimit c = false → us ≠ [] → c.units.length + us.length ≠ total →
            ∃ t d, exec (.optUpdate id) s = .next t ∧ t.running? id 0x630 = some d ∧ d.units = c.units ++ us
              ∧ d.part.count = c.part.count + e.count ∧ t.mem = ((s.writeBlocks e.writes).writeBlocks e.finals).mem)))
  ∧ (∀ (s : State) (id : Nat) (c : Cmd), s.running? id 0x630 = some c → c.optRefresh = true →
        let e := s.optEffect c []
        s.retryBlocks e = false → e.overLimit c = false → ∃ t u, exec (.optUpdate id) s = .next t ∧ Completes u t id (e.compl c)
          ∧ t.mem = ((s.writeBlocks e.writes).writeBlocks e.finals).mem)

/-! ## Keepers and saves (R332 to R354) -/

/-- The keeper commands: KEEP_PAIR records the pairing it asks for, KEEP_UNPAIR asks for its end, DIST_REGISTER adds or
replaces a piece, KEEP_CHECK compares digests and ends with FLT_KEEP_DIVERGED, the sticky bit set, where one differs, and
KEEP_RESTORE with nothing to send completes, and with a block to send asks the partner for 256 writes of 4 KiB to where the partner
holds that block in the other role. SAVE_SHARD holds its ranges: from the host it asks for its buffer list, and from
a playbook it joins its barrier first, and completes with nothing saved where no member says that a save is due. A buffer list
that breaks its rules rejects it before any save acts; with a sound one the count of boundaries starts again and DUE is clear.
SAVE_RESTORE asks for manifest and buffer list, and once everything has come it ends by the signature and the digest of its
manifest, with the ranges written as they were saved, once no block of them is under retry. While they ask, neither changes memory.
That a command asks for the dissolving and forming of a pair in the next epoch only, where the partner's blocks lie, and that a
block without a place there is left out, is the model's choice (log entry 22); so is what makes a save due, and when a buffer
list is judged (log entry 23). -/
def Obligations.KeepersAndSavesAct : Prop :=
  (∀ (s : State) (id : Nat) (c : Cmd), s.fabric.isCaptain = false →
      (s.running? id 0x800 = some c → worst (s.keepPairStart c).rejs = none → c.pairForce = true →
        ∃ t u, exec (.keepPair id) s = .next t ∧ Completes u t id { status := 0x000 }
          ∧ t.keeper.want = some (c.pairWith, true) ∧ t.keeper.unpair = false ∧ t.keeper.pieces = s.keeper.pieces
          ∧ t.mem = s.mem)
      ∧ (s.running? id 0x801 = some c → worst (s.keepUnpairStart c).rejs = none →
        ∃ t, exec (.keepUnpair id) s = .next t
          ∧ Completes (s.modKeeper (fun k => { k with unpair := k.want.isSome })) t id { status := 0x000 })
      ∧ (∀ o, s.running? id 0x804 = some c → c.op? 0 = some o →
        ∃ t, exec (.distRegister id) s = .next t
          ∧ Completes (s.modKeeper (fun k => { k with
              pieces := k.pieces.filter (fun x => !x.same (c.piece o)) ++ [c.piece o] })) t id { status := 0x000 })
      ∧ (∀ peer : List (BitVec 256), s.running? id 0x803 = some c → worst (s.keepCheckStart c).rejs = none →
          (s.checkBlocks c).length = peer.length →
        let bad := ((s.checkBlocks c).zip peer).filter (fun (x : Nat × BitVec 256) =>
          match s.blockAddr c.checkGroup c.checkTensor x.1 with
          | some a => sha3 (s.mem.bytes a mib) != x.2
          | none => false)
        ∃ t, exec (.keepCheck id peer) s = .next t
          ∧ (bad = [] → Completes s t id { status := 0x000, poison := s.checkPoison c != 0, poisonIn := s.checkPoison c })
          ∧ (∀ b r, bad = b :: r → Completes (s.modKeeper (fun k => { k with diverged := true })) t id
              { status := 0x20A, count := r.length + 1, aux := b.1, poisonIn := s.checkPoison c }))
      ∧ (∀ dst peer, s.running? id 0x802 = some c → c.stage = .go → worst (s.keepRestoreStart c).rejs = none →
          s.keeper.partner = some dst → s.restorePieces c.restoreGroup dst = [] →
        ∃ t, exec (.keepRestore id peer) s = .next t ∧ Completes s t id { status := 0x000 })
      ∧ (∀ dst peer x y, s.running? id 0x802 = some c → c.stage = .go → worst (s.keepRestoreStart c).rejs = none →
          s.keeper.partner = some dst → s.fabric.backlog = [] → s.fabric.remotes.length + 256 ≤ 65536 →
          (s.restorePieces c.restoreGroup dst).flatMap (fun p =>
            p.blocks.filterMap (fun b => (peerAddr peer p b).map (fun a => (p.addr b, a)))) = [(x, y)] →
        ∃ t l, exec (.keepRestore id peer) s = .next t ∧ t.mem = s.mem ∧ t.fabric.remotes = s.fabric.remotes ++ l
          ∧ l.map (fun r => (r.id, r.dst, r.addr, r.len, r.write))
              = (List.range 256).map (fun i => (id, dst, x + 4096 * i, 4096, true))
          ∧ (∃ d, t.cmd? id = some d ∧ d.stage = .begun ∧ d.st = .running)
          ∧ (s.fabric.state = .hold → ∃ q, t.fabric.queued = s.fabric.queued ++ q
            ∧ q.map (fun w => (w.packet.type, w.packet.hdr.dst, w.packet.hdr.addr, w.packet.payload))
              = (List.range 256).map (fun i => (.wrBulk, dst, y + 4096 * i, s.mem.bytes (x + 4096 * i) 4096)))))
  ∧ (∀ (s : State) (id : Nat) (c : Cmd), (∀ d ∈ s.liust.data, d.1 ≠ id) → 1 ≤ c.saveBufs →
        (s.running? id 0x810 = some c → c.stage = .go → c.isHost = true →
          ∃ t, exec (.saveShard id) s = .next t ∧ t.mem = s.mem
            ∧ t.save = { s.save with
                holder := some id, unsent := c.saveRanges, kept := if s.keeper.standing then s.keeper.partner else none }
            ∧ ∃ d, t.cmd? id = some d ∧ d.stage = .dma 0 ∧ d.st = .running)
        ∧ (s.running? id 0x811 = some c →
          ∃ t, exec (.saveRestore id) s = .next t ∧ t.mem = s.mem ∧ t.save = s.save
            ∧ ∃ d, t.cmd? id = some d ∧ d.stage = .dma 0 ∧ d.st = .running))
  ∧ (∀ (s : State) (id : Nat) (c : Cmd) (g : Group), s.running? id 0x810 = some c → c.stage = .go → c.isHost = false →
      s.group? c.saveGroup = some g → AloneIn s g → (∀ k ∈ s.fabric.colls, k.id ≠ id) → s.save.due = false →
      ∃ t u, exec (.saveShard id) s = .next t ∧ Completes u t id { status := 0x000 } ∧ t.mem = s.mem ∧ t.hostTx = s.hostTx
        ∧ t.save.since = s.save.since)
  ∧ (∀ (s : State) (id : Nat) (c : Cmd) (l : List Byte), s.running? id 0x810 = some c → c.stage = .dma 0 →
      s.partsData id 0 (16 * c.saveBufs) = some l →
      (∀ r, bufferRej (bufferList l) c.saveTotal = some r →
        ∃ t, exec (.saveShard id) s = .next t ∧ Completes s t id { status := r.1, aux := r.2 })
      ∧ (bufferRej (bufferList l) c.saveTotal = none → s.partData id stepPart = none →
        ∃ t, exec (.saveShard id) s = .next t ∧ t.mem = s.mem ∧ t.save = { s.save with
          active := some id, since := 0, rose := false, due := false, startNanos := s.wall, unsent := t.save.unsent }))
  ∧ (∀ (s : State) (id : Nat) (c : Cmd) (m l data : List Byte), s.running? id 0x811 = some c → c.poisonLimit = 0xFFFF →
      s.partsData id manifestPart 2676 = some m → s.partsData id 0 (16 * c.saveBufs) = some l → s.sentData c = some data →
      bufferRej (bufferList l) c.saveTotal = none →
      ∃ t, exec (.saveRestore id) s = .next t
        ∧ (lengthsMatch m c = false → Completes s t id { status := 0x10A, aux := 0xFFFF })
        ∧ (lengthsMatch m c = true → s.manifestOk m = false → Completes s t id { status := 0x20C })
        ∧ (lengthsMatch m c = true → s.manifestOk m = true → (sha3 data).toNat ≠ fieldAt m 24 32 →
            ∃ u, Completes u t id { status := 0x20D })
        ∧ (lengthsMatch m c = true → s.manifestOk m = true → (sha3 data).toNat = fieldAt m 24 32 → s.memside.pendingUe = [] →
          ∃ u k, Completes u t id k ∧ k.status = 0x000
            ∧ t.mem = (s.writeBlocks (restoreWrites c.saveRanges data (fun i =>
                bit (((s.partData id (dataPart + i / 64)).map (fun p => p.2)).getD 0) (i % 64)))).mem))

/-! ## Memory (R193 to R213) -/

/-- SSU writes and sums, and batches of scatter-add, on a present block whose retry is not pending, in a module that runs and to
whose units the access gets (R26, R476, R481): a full write replaces the
block and its mark; a sum stores each element's FP32 sum with the contribution; a batch adds its contributions in list order,
and a poisoned one poisons the block.
Read errors: a corrected error counts; an uncorrectable one is read again, and a second uncorrectable read marks the block
poisoned, counts as lasting, sets the unit's sticky bit and takes the next entry of the log; a second read that succeeds
counts as transient. A write to a block whose retry is pending is held, and lands when the second read is done. In a module held
in reset nothing happens. Each access first wakes the domains on its way (R476; log entry 24). -/
def Obligations.MemorySideUnitsAct : Prop :=
  (∀ (s : State) (a : Nat), s.present a = true → s.alive = false → ∀ bf batch o p,
      exec (.scatterAddBatch a bf batch) s = .next s ∧ exec (.memReadRetry a o) s = .next s
        ∧ exec (.scrubRead a o p) s = .next s ∧ ∀ op, ssuAddr op = a → exec (.ssuOperation op) s = .next s)
  ∧ (∀ (s : State) (a : Nat), s.present a = true → s.alive = true → Reached s a 1 → s.retryPending a = false →
      let v := woken s a 1
      (∀ data poisoned o, data.length = 64 →
        ∃ t, exec (.ssuOperation (.write a (BitVec.allOnes 64) data poisoned o)) s = .next t
          ∧ t = v.land { loc := a, mask := 2 ^ 512 - 1, val := leNat data, poison := poisoned })
      ∧ (a ∉ s.memside.uncured → ∀ bf c poisoned,
        ∃ t, exec (.ssuOperation (.sum a bf c poisoned .clean)) s = .next t
          ∧ t = v.land { BlockWr.full a (wordsBlock bf (addWords (blockWords bf (s.settledMem.bytes a 64)) c)) poisoned false with
              merge := true })
      ∧ (s.mem.poisoned a = false → ∀ bf c poisoned,
        ∃ t u, exec (.ssuOperation (.sum a bf c poisoned .correctable)) s = .next t ∧ u = v.corrected a
          ∧ t = u.land { BlockWr.full a (wordsBlock bf (addWords (blockWords bf (s.settledMem.bytes a 64)) c)) poisoned false with
              merge := true })
      ∧ (a ∉ s.memside.uncured → ∀ bf (batch : AddBatch), batch.outcome = .clean →
        ∃ t, exec (.scatterAddBatch a bf batch) s = .next t
          ∧ t = v.land { BlockWr.full a (wordsBlock bf (addAll (blockWords bf (s.settledMem.bytes a 64))
              (batch.contribs.map (fun x => x.1)))) (batch.contribs.any (fun x => x.2)) false with merge := true })
      ∧ (∀ o, exec (.memReadRetry a o) s = .next v))
  ∧ (∀ (s : State) (a : Nat), s.present a = true → s.alive = true → Reached s a 1 → s.retryPending a = true →
        ((∀ w ∈ s.memside.held, w.loc ≠ a) →
          (∃ t, exec (.memReadRetry a .uncorrectable) s = .next t ∧ (s.mem.isUndef a = false → t.mem.poisoned a = true)
            ∧ (∀ x, t.mem.byte x = s.mem.byte x)
            ∧ (s.memside.logNext < 16 → vget t.memside.log s.memside.logNext none
                = some { ddr := (s.unitOf a).1, unit := (s.unitOf a).2, addr := blockOf a })
            ∧ t.memside.logNext = (s.memside.logNext + 1) % 16 ∧ a ∉ t.memside.pendingUe
            ∧ (∀ n, s.unitOf a = (true, n) → t.memside.ddrUeL = bumpAt s.memside.ddrUeL n
                ∧ t.memside.ddrLasting = s.memside.ddrLasting ||| BitVec.ofNat 12 (2 ^ n)
                ∧ t.memside.hbmUeL = s.memside.hbmUeL ∧ t.memside.hbmLasting = s.memside.hbmLasting)
            ∧ (∀ n, s.unitOf a = (false, n) → t.memside.hbmUeL = bumpAt s.memside.hbmUeL n
                ∧ t.memside.hbmLasting = s.memside.hbmLasting ||| BitVec.ofNat 16 (2 ^ n)
                ∧ t.memside.ddrUeL = s.memside.ddrUeL ∧ t.memside.ddrLasting = s.memside.ddrLasting))
          ∧ (∀ o, (o = .clean ∨ o = .correctable) → ∃ t, exec (.memReadRetry a o) s = .next t ∧ t.mem = s.mem
              ∧ t.memside.log = s.memside.log ∧ a ∉ t.memside.pendingUe
              ∧ (∀ n, s.unitOf a = (true, n) → t.memside.ddrUeT = bumpAt s.memside.ddrUeT n ∧ t.memside.hbmUeT = s.memside.hbmUeT)
              ∧ (∀ n, s.unitOf a = (false, n) → t.memside.hbmUeT = bumpAt s.memside.hbmUeT n
                ∧ t.memside.ddrUeT = s.memside.ddrUeT)))
        ∧ (∀ w, s.memside.held = [w] → w.loc = a → ∃ t, exec (.memReadRetry a .clean) s = .next t
            ∧ t.mem = s.mem.writeBlock s.free w ∧ t.memside.held = [] ∧ a ∉ t.memside.pendingUe)
        ∧ (∀ m d p o, ∃ t w, exec (.ssuOperation (.write a m d p o)) s = .next t
            ∧ t = (woken s a 1).modMemside (fun x => { x with held := x.held ++ [w] })
            ∧ w.loc = a ∧ w.val = leNat d ∧ w.poison = p ∧ w.merge = false))
  ∧ (∀ (s : State) (a : Nat), s.present a = true → s.alive = true → Reached s a 1 → s.mem.poisoned a = false →
        (∀ n, ∃ t, exec (.ssuOperation (.read a .uncorrectable n)) s = .next t ∧ a ∈ t.memside.pendingUe ∧ t.mem = s.mem)
        ∧ (bits s.memCfg 23 16 ≠ 0 → s.retryPending a = false →
          ((∀ w ∈ s.memside.held, w.loc ≠ a) → ∃ t, exec (.scrubRead a .uncorrectable .uncorrectable) s = .next t
            ∧ (s.mem.isUndef a = false → t.mem.poisoned a = true))
          ∧ (a ∉ s.memside.uncured → ∀ o, exec (.scrubRead a .clean o) s = .next (woken s a 1))
          ∧ (∀ o, exec (.scrubRead a .correctable o) s = .next ((woken s a 1).corrected a))))

/-- What a block write does: a full write of sound data leaves its 64 bytes as given and the block sound, a merge keeps the
other bytes and a mark that stands, a sum into a poisoned block and a poisoned write leave the block poisoned, and no other
block changes. -/
def Obligations.BlockWriteReadsBack : Prop :=
  ∀ (m : Mem) (free : Nat) (w : BlockWr), m.wf → w.loc % 64 = 0 → w.mask < 2 ^ 512 →
    (∀ x, x / 64 * 64 = w.loc → m.isUndef x = false) →
    ((m.writeBlock free w).poisoned w.loc = (w.poison || (m.poisoned w.loc && (w.merge || w.mask != 2 ^ 512 - 1))))
    ∧ (∀ x, x < w.loc ∨ w.loc + 64 ≤ x →
        (m.writeBlock free w).byte x = m.byte x ∧ (m.writeBlock free w).poisoned x = m.poisoned x)
    ∧ ((w.carry = true ∨ (w.poison = false ∧ (w.merge = true → m.poisoned w.loc = false))) → ∀ i < 64,
        ((∀ j < 8, w.mask.testBit (8 * i + j) = true) →
          (m.writeBlock free w).byte (w.loc + i) = BitVec.ofNat 8 (w.val / 256 ^ i))
        ∧ ((∀ j < 8, w.mask.testBit (8 * i + j) = false) → (m.writeBlock free w).byte (w.loc + i) = m.byte (w.loc + i)))

/-! ## Errors and benching (R485 to R495) -/

/-- RESIDUE_FAILURE on a core that runs counts a retry, or a lasting failure with its sticky bit that marks the core failing;
CORE_FAILING marks it; CORE_BENCH benches a failing core that is at a command boundary, and the bench core of its row takes its
place; before that boundary it waits. SRAM_UE: a corrected and a transient error count; a lasting one in a cluster buffer
counts, sets its sticky bit and poisons the block, and one in a core's own store marks the core failing. DLINK_FLIT_ERROR: an
intact replay counts; a link whose retrain fails is lost, counts and sets its sticky bit. Which commands an error ends and which
blocks in use it hits are the model's choices (log entry 26). -/
def Obligations.ErrorsCountAndBench : Prop :=
  (∀ (s : State) (core : CoreRef), core.cluster < 8 → core.row < 4 → core.pos < 7 →
      let i := 7 * core.row + core.pos
      let k := vget (s.cluster core.cluster).cores i {}
      (s.coreRuns core = true →
        (∀ scrum, exec (.residueFailure core scrum false) s = .next (s.bump .residueRetry))
        ∧ (∀ scrum, ∃ t, exec (.residueFailure core scrum true) s = .next t
            ∧ t.ctr .residueLasting = satAdd (s.ctr .residueLasting) 1 ∧ t.errors.residueLasting = true
            ∧ (vget (t.cluster core.cluster).cores i {}).failing = true ∧ t.mem = s.mem)
        ∧ ((∀ c ∈ s.cmds, k.runs c.id = false) → ∃ t, exec (.coreFailing core []) s = .next t
            ∧ vget (t.cluster core.cluster).cores i {} = { k with failing := true }
            ∧ t.cmds = s.cmds ∧ t.mem = s.mem)
        ∧ (∃ t, exec (.sramUe (.coreStore core) .failed) s = .next t
            ∧ t.ctr .sramUeLasting = satAdd (s.ctr .sramUeLasting) 1 ∧ t.errors.sramLasting = true
            ∧ (vget (t.cluster core.cluster).cores i {}).failing = true ∧ ∀ x, t.mem.byte x = s.mem.byte x))
      ∧ (s.alive = true → k.failing = true → k.atBoundary = false → exec (.coreBench core) s = .next s)
      ∧ (s.alive = true → k.failing = true → k.atBoundary = true → k.mode = .active →
        ∃ t, exec (.coreBench core) s = .next t
          ∧ (vget (t.cluster core.cluster).cores i {}).mode = .benched ∧ t.errors.coreBenched = true
          ∧ t.ctr .coresBenched = satAdd (s.ctr .coresBenched) 1
          ∧ (∀ j, (s.cluster core.cluster).benchOf core.row = some j →
              (vget (t.cluster core.cluster).cores j {}).mode = .active)
          ∧ (∀ n, n ≠ core.cluster → t.cluster n = s.cluster n) ∧ t.mem = s.mem))
  ∧ (∀ (s : State), s.alive = true →
        (∀ place, exec (.sramUe place .corrected) s = .next (s.bump .sramCe)
          ∧ exec (.sramUe place .transient) s = .next (s.bump .sramUeTransient))
        ∧ (∀ n off, ∃ t, exec (.sramUe (.clusterBuffer n off) .failed) s = .next t
            ∧ t.ctr .sramUeLasting = satAdd (s.ctr .sramUeLasting) 1 ∧ t.errors.sramLasting = true
            ∧ (s.mem.isUndef (bufLoc n off) = false → t.mem.poisoned (bufLoc n off) = true)
            ∧ ∀ x, t.mem.byte x = s.mem.byte x)
        ∧ (∀ a b r ids, exec (.dlinkFlitError a b true r ids) s = .next (s.bump .dlinkRetry))
        ∧ (∀ a b, s.cmds = [] → ∃ t, exec (.dlinkFlitError a b false false []) s = .next t
            ∧ t.ctr .dlinkLasting = satAdd (s.ctr .dlinkLasting) 1 ∧ t.errors.dlinkLasting = true
            ∧ (min a b, max a b) ∈ t.errors.dlinkDown ∧ t.mem = s.mem))

/-! ## Host accesses and DMA (R361 to R373, R422 to R434, R446, R455) -/

/-- Register accesses, HOST_WR and HOST_RD over a link that is up: a bad length and an unknown TYPE are discarded and counted; a
word that is not there, and an access to memory that is not aligned, not present or not allowed, is refused and counted; a
register read answers with its word, or with STATUS 01h and zero data where it is refused; an allowed write stores its blocks
with their poison, an allowed read answers with bytes and poison marks, where the access gets to the memory that it names (R476,
R481). RNG_SEED takes a write at once while no SR command runs, and is late otherwise. PASS_SWAP exchanges the banks while PASS_SRC = 1
(R312, R327). REC_CTRL's GO asks for the manifest in RECOVERY alone (R446); PEER_LOAD's GO ends in 2 or 3 (R455). That PEER_LOAD
ends at once (log entry 27), and that the row CFG_WR carries reads and transactions by their header as well (log entry 31), is the
model's choice. -/
def Obligations.HostAccessesAct : Prop :=
  ∀ s : State, s.linkUp = true →
    (∀ addr len data, len ≠ 4 → len ≠ 8 → exec (.cfgWr addr len (.write data)) s = .next (s.bump .liustBad))
    ∧ (∀ addr len tag, len ≠ 4 → len ≠ 8 → exec (.cfgWr addr len (.read tag)) s = .next (s.bump .liustBad))
    ∧ (∀ addr len data, (len = 4 ∨ len = 8) → s.regOf addr len = none →
        exec (.cfgWr addr len (.write data)) s = .next (s.bump .liustHostReject))
    ∧ (∀ addr len tag, (len = 4 ∨ len = 8) → s.regOf addr len = none →
        ∃ t, exec (.cfgWr addr len (.read tag)) s = .next t ∧ t.ctrs = (s.bump .liustHostReject).ctrs ∧ t.mem = s.mem
          ∧ t.hostTx = s.hostTx ++ [.cfgResp tag 1 len 0#64])
    ∧ (∀ addr len tag r, (len = 4 ∨ len = 8) → s.regOf addr len = some r →
        exec (.cfgWr addr len (.read tag)) s = .next { s with hostTx := s.hostTx ++ [.cfgResp tag 0 len (BitVec.ofNat 64
          (if len = 8 then s.regRead r else if addr % 8 = 4 then bits (s.regRead r) 63 32 else bits (s.regRead r) 31 0))] })
    ∧ (∀ (addr len : Nat) (h : BitVec 256) (p : List Byte), bits h.toNat 71 64 ∉ [0x01, 0x02, 0x04, 0x05, 0x07, 0x11, 0x13] →
        exec (.cfgWr addr len (.raw h p)) s = .next (s.bump .liustBad))
    ∧ (∀ (a n addr len : Nat) (h : BitVec 256) (p : List Byte), bits h.toNat 71 64 = 0x01 → bits h.toNat 179 128 = addr →
        bits h.toNat 95 83 = len → p.length = len →
        exec (.cfgWr a n (.raw h p)) s = exec (.cfgWr addr len (.write (BitVec.ofNat 64 (leNat p)))) s)
    ∧ (∀ data, s.inService = true →
        ∃ t, exec (.cfgWr (csb + 0x18) 8 (.write data)) s = .next t
          ∧ (s.rngBusy = false → t = { s with rngSeed := Rs.mk data data })
          ∧ (s.rngBusy = true → t = { s with
              rngSeed := { s.rngSeed with shadow := data }, cfgLate := { s.cfgLate with rng := true } }))
    ∧ (∀ addr hctx data poison, hostLen data.length = false →
        exec (.hostWr addr hctx data poison) s = .next (s.bump .liustBad))
    ∧ (∀ addr hctx data poison, hostLen data.length = true → s.hostStatus addr data.length hctx true ≠ 0 →
        exec (.hostWr addr hctx data poison) s = .next (s.bump .liustHostReject))
    ∧ (∀ (addr hctx : Nat) (data : List Byte) (poison : Word64), hostLen data.length = true →
        s.hostStatus addr data.length hctx true = 0 → Reached s addr data.length [4] →
        ∃ t, exec (.hostWr addr hctx data poison) s = .next t
          ∧ t = (woken s addr data.length [4]).writeBlocks (blockWrites addr data poison.toNat)
          ∧ ∀ a, a < addr ∨ addr + data.length ≤ a → t.mem.byte a = s.mem.byte a)
    ∧ (∀ tag addr len hctx, hostLen len = false → exec (.hostRd tag addr len hctx) s = .next (s.bump .liustBad))
    ∧ (∀ tag addr len hctx, hostLen len = true → ∃ t, exec (.hostRd tag addr len hctx) s = .next t ∧ t.mem = s.mem
        ∧ (s.hostStatus addr len hctx false = 0 → Reached s addr len [4] → t.ctrs = s.ctrs ∧ t.hostTx = s.hostTx
            ++ [.hostResp tag 0 (s.mem.bytes addr len) (BitVec.ofNat 64 (s.poisonBits addr (len / 64)))])
        ∧ (s.hostStatus addr len hctx false ≠ 0 → t.ctrs = (s.bump .liustHostReject).ctrs ∧ t.hostTx = s.hostTx
            ++ [.hostResp tag (s.hostStatus addr len hctx false) (List.replicate len 0#8) 0#64]))
    ∧ (s.inService = true →
      (∃ t, exec .passSwap s = .next t
        ∧ (s.passSrc = false → t = s)
        ∧ (s.passSrc = true → s.fabric.queued = [] →
            t = s.modFabric (fun f => { f with inForce := f.shadow, shadow := f.inForce })))
      ∧ (s.referee.state = .running → ∃ t, exec .peerLoadGo s = .next t ∧ t.mem = s.mem
        ∧ t.referee.peerResult =
            (if s.allows 0 s.referee.peerAddr 3796 true false && certOk (s.mem.bytes s.referee.peerAddr 3796) then 2 else 3)
        ∧ (t.referee.peerResult = 3 → t.referee.peers = s.referee.peers)))
    ∧ (s.inService = false → exec .passSwap s = .next (s.bump .liustHostReject))
    ∧ (∃ t, exec .recCtrlGo s = .next t
      ∧ ((s.referee.state ≠ .recovery ∨ s.referee.recState = 1) → t = s)
      ∧ (s.referee.state = .recovery → s.referee.recState ≠ 1 → t.referee.recState = 1 ∧ t.referee.flash = s.referee.flash
        ∧ t.mem = s.mem ∧ ∃ tag, t.hostTx = s.hostTx ++ [.dmaRd tag s.referee.recAddr.toNat 4096]))

/-- Answers to DMA requests: entries that a fetch brought wait in the queue, and HEAD moves past them; a fetch that is refused
or not answered stops its queue; an acknowledged completion ends its command's place, with MSG_INT where it asked for one; a
completion that is refused or not answered in time sets LOST, and a time-out counts. The acknowledgement of its report ends ATTEST, and that of its manifest
ends a save, with its size, and its step as the last one saved. An answer to no request changes nothing. That HEAD moves as the
commands come is the model's choice (log entry 28). -/
def Obligations.DmaAnswersAct : Prop :=
  ∀ (s : State) (d : Dma), s.linkUp = true →
    (∀ tag status data poison, s.liust.dmas.find? (fun x => x.tag == tag && x.read) = none →
      exec (.dmaResp tag status data poison) s = .next s)
    ∧ (∀ tag status, s.liust.dmas.find? (fun x => x.tag == tag && !x.read) = none →
      exec (.dmaWrAck tag status) s = .next s)
    ∧ (∀ q n, s.liust.dmas.find? (fun x => x.tag == d.tag && x.read) = some d → d.owner = .fetch q n → n ≠ 0 → q < 64 →
      (∀ data poison, data.length = d.len → ∃ t, exec (.dmaResp d.tag 0 data poison) s = .next t
        ∧ (t.sq q).waiting = (s.sq q).waiting ++ chunks 512 data
        ∧ ((s.sq q).size ≠ 0 → (t.sq q).head = ((s.sq q).head + n) % (s.sq q).size)
        ∧ (t.sq q).tail = (s.sq q).tail ∧ (∀ m, m ≠ q → t.sq m = s.sq m) ∧ (∀ x ∈ t.liust.dmas, x.tag ≠ d.tag)
        ∧ t.mem = s.mem ∧ t.cmds = s.cmds)
      ∧ (∀ status data poison, status ≠ 0 → ∃ t, exec (.dmaResp d.tag status data poison) s = .next t
        ∧ t.sq q = { s.sq q with stopped := true, reason := .fetch } ∧ (∀ m, m ≠ q → t.sq m = s.sq m) ∧ t.mem = s.mem)
      ∧ (∀ data poison, data.length ≠ d.len →
          exec (.dmaResp d.tag 0 data poison) s = .next (s.bump .liustBad)))
    ∧ (∀ q n, s.liust.dmas.find? (fun x => x.tag == d.tag) = some d → d.owner = .fetch q n → n ≠ 0 → q < 64 →
      ∃ t, exec (.dmaTimeout d.tag) s = .next t ∧ t.sq q = { s.sq q with stopped := true, reason := .fetch }
        ∧ t.ctr .liustDmaTimeout = satAdd (s.ctr .liustDmaTimeout) 1 ∧ (∀ x ∈ t.liust.dmas, x.tag ≠ d.tag) ∧ t.mem = s.mem)
    ∧ (∀ (id : Nat) (c : Cmd) (k : Compl), s.liust.dmas.find? (fun x => x.tag == d.tag && !x.read) = some d →
        d.owner = .completion id → s.cmd? id = some c → c.st = .done k → c.cq < 64 →
      (∃ t, exec (.dmaWrAck d.tag 0) s = .next t ∧ t.cmd? id = none ∧ (t.cq c.cq).lost = (s.cq c.cq).lost
        ∧ t.hostTx = s.hostTx ++ (if c.irq then [.msgInt (s.cq c.cq).vector] else []) ∧ t.mem = s.mem)
      ∧ (∀ status, status ≠ 0 → ∃ t, exec (.dmaWrAck d.tag status) s = .next t ∧ t.cmd? id = none
        ∧ (t.cq c.cq).lost = true ∧ t.hostTx = s.hostTx ∧ t.mem = s.mem))
    ∧ (∀ (id : Nat) (c : Cmd) (k : Compl), s.liust.dmas.find? (fun x => x.tag == d.tag) = some d →
        d.owner = .completion id → s.cmd? id = some c → c.st = .done k → c.cq < 64 →
      ∃ t, exec (.dmaTimeout d.tag) s = .next t ∧ t.cmd? id = none ∧ (t.cq c.cq).lost = true ∧ t.hostTx = s.hostTx
        ∧ t.ctr .liustDmaTimeout = satAdd (s.ctr .liustDmaTimeout) 1 ∧ (∀ x ∈ t.liust.dmas, x.tag ≠ d.tag) ∧ t.mem = s.mem)
    ∧ (∀ (id part : Nat) (c : Cmd), s.liust.dmas.find? (fun x => x.tag == d.tag && !x.read) = some d →
        d.owner = .command id part →
      (s.running? id 0xB00 = some c → ∃ t, exec (.dmaWrAck d.tag 0) s = .next t
        ∧ Completes (s.dropDma d.tag) t id { status := 0x000 })
      ∧ (s.running? id 0x810 = some c → part = manifestPart → ∃ t u, exec (.dmaWrAck d.tag 0) s = .next t
        ∧ Completes u t id { status := 0x000, count := ceilDiv c.saveTotal (2 ^ 20), aux := 1, poison := c.part.poison,
                             poisonIn := c.part.poisonIn, poisonOut := c.part.poisonOut }
        ∧ t.save.anySave = true ∧ t.save.lastMs = (s.wall - s.save.startNanos) / (720720 * 10 ^ 6)
        ∧ (∀ x, s.partData id stepPart = some x → t.save.lastStep = BitVec.ofNat 32 x.2)
        ∧ t.mem = s.mem ∧ t.hostTx = s.hostTx))

/-- The counters that a row clears (R434). -/
def Sys2Proof.clearedBy : Instr → Option (List Ctr)
  | .cntClearLiust =>
    some [.liustFlitRetry, .liustFlitLasting, .liustRetrain, .liustBad, .liustHostReject, .liustDmaTimeout]
  | .cntClearFabric =>
    some [.fabFlitRetry, .fabFlitLasting, .fabRetrain, .fabDiscardAge, .fabDiscardBad, .fabDiscardRoute, .fabDiscardSeq,
      .fabRemoteReject, .fabTimeout]
  | .cntClearDraft => some [.drafted, .undrafted, .staleReturn, .loanRefill, .expertFetch]
  | .cntClearFoul => some [.nonfiniteDense, .nonfiniteVec, .nonfiniteGrad, .lossSpike, .noBallSteps]
  | .cntClearScrum => some [.oobCount, .gatherCoalesced, .sortFallback, .missedNeurons, .feedDiscard]
  | .cntClearResidue => some [.residueRetry, .residueLasting]
  | _ => none

/-- The row of each bit of CNT_CLEAR. -/
def Sys2Proof.clearRows : List (Nat × Instr) :=
  [(0, .cntClearResidue), (1, .cntClearScrum), (2, .cntClearFoul), (3, .cntClearDraft), (4, .cntClearMemory),
   (5, .cntClearFabric), (6, .cntClearLiust), (7, .cntClearSeq)]

/-- The state that a row leaves. -/
def Sys2Proof.afterRow (i : Instr) (s : State) : State :=
  match exec i s with
  | .next t => t
  | _ => s

/-- A write to CNT_CLEAR acts as the rows of the bits that it writes 1, and a bit written 0 has no effect. A row clears the
counters of its group and nothing else: the counter file's, the memory side's with the error log, or the phase and relay-delay
counters of every sequencer. -/
def Obligations.RegisterWritesAct : Prop :=
  ∀ s : State, s.linkUp = true → s.inService = true →
    (∀ i l, clearedBy i = some l → ∃ t, exec i s = .next t ∧ (∀ c ∈ l, t.ctr c = 0#64)
      ∧ (∀ c, c ∉ l → t.ctr c = s.ctr c) ∧ t = { s with ctrs := t.ctrs })
    ∧ (∀ w : Word64, exec (.cfgWr (csb + 0x30) 8 (.write w)) s = .next (clearRows.foldl (fun t x =>
        if bit w.toNat x.1 then afterRow x.2 t else t) s))
    ∧ (∃ t, exec .cntClearMemory s = .next t ∧ t.ctr .ssuCoalesced = 0#64
      ∧ (∀ n < 16, vget t.memside.log n none = none) ∧ t.memside.logNext = 0
      ∧ (∀ n < 16, vget t.memside.hbmCe n 0#64 = 0#64 ∧ vget t.memside.hbmUeT n 0#64 = 0#64
          ∧ vget t.memside.hbmUeL n 0#64 = 0#64)
      ∧ (∀ n < 12, vget t.memside.ddrCe n 0#64 = 0#64 ∧ vget t.memside.ddrUeT n 0#64 = 0#64
          ∧ vget t.memside.ddrUeL n 0#64 = 0#64)
      ∧ t.memside.hbmLasting = s.memside.hbmLasting ∧ t.memside.ddrLasting = s.memside.ddrLasting
      ∧ t.memside.place = s.memside.place ∧ t.mem = s.mem)
    ∧ (∃ t, exec .cntClearSeq s = .next t ∧ t = { s with seqs := t.seqs } ∧ ∀ n < 4, t.seq n = { s.seq n with
        phaseCyc := Vector.replicate 9 0#64, relayDelayCyc := 0#64 })

/-! ## The management port (R374 to R376) -/

/-- What the port answers to a read: the value with its check byte (R374, R375). -/
def Sys2Proof.portAnswer (s : State) : Instr → Option SmbTx
  | .capability => some (.byte 0xB0#8 (s.readPec 0x19 [0xB0#8]))
  | .statusWord =>
    let w := Config.statusWord s.power.vinMargin (s.power.thermStep < 16) (s.power.lastOff == .thermalTrip)
      (s.power.limitedBy == 1 || s.power.limitedBy == 3)
    some (.word 0 w (s.readPec 0x79 (natLe 2 w.toNat)))
  | .readVin => some (linearAnswer 0x88 s.power.vin)
  | .readIin ma => some (linearAnswer 0x89 ma)
  | .readTemperature => some (linearAnswer 0x8D (1000 * s.power.tHot))
  | .readPout => some (linearAnswer 0x96 s.power.pavg)
  | .pmbusRevision => some (.byte 0x44#8 (s.readPec 0x98 [0x44#8]))
  | .mfrId => some (blockAnswer 0x99 [0x4A#8, 0x41#8, 0x52#8, 0x4D#8, 0x45#8, 0x54#8, 0x49#8, 0x43#8])
  | .mfrModel => some (blockAnswer 0x9A [0x47#8, 0x4C#8, 0x38#8, 0x2D#8, 0x37#8, 0x32#8, 0x41#8])
  | .mfrFeedId none => some (.word s.keeper.feedId.toNat s.keeper.feedId (s.readPec 0xD0 (natLe 2 s.keeper.feedId.toNat)))
  | .mfrScout => some (.byte (BitVec.ofNat 8 s.scout.index) (s.readPec 0xD1 [BitVec.ofNat 8 s.scout.index]))
  | .mfrCool => some (.byte (BitVec.ofNat 8 s.power.profile) (s.readPec 0xD2 [BitVec.ofNat 8 s.power.profile]))
  | _ => none
where
  linearAnswer (code milli : Nat) : SmbTx :=
    .word (milli : Int) (linear11 code (milli : Int)) (s.readPec code (natLe 2 (linear11 code (milli : Int)).toNat))
  blockAnswer (code : Nat) (l : List Byte) : SmbTx := .block l (s.readPec code (BitVec.ofNat 8 l.length :: l))

/-- While the Referee runs and an address was sampled, the port answers each read with its value and takes a written feed ID
whose check byte, where one is sent, is right; at any other time it does not acknowledge. Nothing but the port's outbox
changes, and with a written feed ID FEED_ID. The forms of the words are the model's (log entry 28). -/
def Obligations.ManagementPortAnswers : Prop :=
  ∀ s : State, let on := s.alive = true ∧ s.referee.state = .running ∧ s.power.slot.isSome = true
    (∀ i a, portAnswer s i = some a →
      (on → exec i s = .next { s with smbTx := s.smbTx ++ [a] })
      ∧ (¬on → exec i s = .next { s with smbTx := s.smbTx ++ [.nack] }))
    ∧ (∀ v pec,
      (on → (pec = none ∨ pec = some (s.writePec v)) → exec (.mfrFeedId (some (v, pec))) s
        = .next { s with keeper := { s.keeper with feedId := v }, smbTx := s.smbTx ++ [.ack] })
      ∧ (on → (∀ b, pec = some b → b ≠ s.writePec v) → pec ≠ none →
          exec (.mfrFeedId (some (v, pec))) s = .next { s with smbTx := s.smbTx ++ [.nack] })
      ∧ (¬on → exec (.mfrFeedId (some (v, pec))) s = .next { s with smbTx := s.smbTx ++ [.nack] }))

/-! ## Links (R288 to R292, R357 to R361, R532) -/

/-- The Liust link and the fabric ports: a flit error that replay mends counts; any other counts as lasting with its sticky bit,
and the link retrains; a link whose training fails is down; a link trains again, and comes up with its width; a fabric port that
does sends HELLO, where its hub die can be reached. A cable that is removed takes its link down. The states between are the
model's choice (log entries 20 and 28). -/
def Obligations.LinksTrainAndFail : Prop :=
  ∀ s : State,
    (s.linkUp = true →
      exec (.liustFlitError true) s = .next (s.bump .liustFlitRetry)
      ∧ ∃ t, exec (.liustFlitError false) s = .next t ∧ t.liust.state = .retraining ∧ t.liust.lasting = true
        ∧ t.liust.retrains = min (s.liust.retrains + 1) 255 ∧ t.liust.dmas = s.liust.dmas
        ∧ t.ctr .liustFlitLasting = satAdd (s.ctr .liustFlitLasting) 1 ∧ t.ctr .liustRetrain = satAdd (s.ctr .liustRetrain) 1
        ∧ t.mem = s.mem ∧ t.cmds = s.cmds)
    ∧ (s.liust.state = .retraining → s.liust.dmas = [] → s.save.holder = none →
      ∃ t, exec .liustLinkDown s = .next t
        ∧ t = { s with liust := { s.liust with state := .down, width := 0, linkDown := true } })
    ∧ (s.liust.state = .training → exec .liustLinkDown s = .next { s with liust := { s.liust with state := .down } })
    ∧ (s.alive = true → (s.domain 0x40).st = .active → s.liust.cable = true → s.liust.state = .down →
      exec .liustTrainingRetry s = .next { s with liust := { s.liust with state := .training } })
    ∧ (∀ w, s.alive = true → (s.domain 0x40).st = .active → s.liust.cable = true → s.liust.state = .training →
        (∀ n < 64, (s.cq n).done = []) →
      exec (.liustLinkUp w) s = .next { s with liust := { s.liust with
        state := .up, width := (match w with | .low4 => 1 | .high4 => 2 | .eight => 3) } })
    ∧ (∀ n, n < 48 →
      ((s.port n).state = .up →
        (∃ t, exec (.fabFlitError n true) s = .next t ∧ t.ctr .fabFlitRetry = satAdd (s.ctr .fabFlitRetry) 1
          ∧ t.fabric = s.fabric ∧ t.mem = s.mem)
        ∧ ∃ t, exec (.fabFlitError n false) s = .next t
          ∧ t.port n = { s.port n with state := .retraining, lasting := true, retrains := min ((s.port n).retrains + 1) 255 }
          ∧ t.ctr .fabFlitLasting = satAdd (s.ctr .fabFlitLasting) 1 ∧ t.ctr .fabRetrain = satAdd (s.ctr .fabRetrain) 1
          ∧ (∀ m, m ≠ n → t.port m = s.port m) ∧ t.mem = s.mem)
      ∧ (∃ t, exec (.fabPortDown n) s = .next t
        ∧ ((s.port n).state = .retraining → s.fabric.queued = [] →
            t = s.modPort n (fun p => { p with state := .down, width := 0 }))
        ∧ ((s.port n).state = .training → t = s.modPort n (fun p => { p with state := .disabled, width := 0 })))
      ∧ (((s.port n).state = .down ∨ (s.port n).state = .disabled) → s.fabOn = true → (s.port n).cable = true →
          s.portPowered n = true →
        exec (.fabPortTrainingRetry n) s = .next (s.modPort n (fun p => { p with state := .training, width := 0 })))
      ∧ ((s.port n).state = .retraining → s.fabric.queued = [] → ∀ four, exec (.fabPortUp n four) s
          = .next (s.modPort n (fun p => { p with state := .up, width := if four then 2 else 1, missed := 0 })))
      ∧ ((s.port n).state = .training → s.fabOn = true → s.fabric.queued = [] → s.linksOpen (mgmtLinks n) = true → ∀ four,
        ∃ t m, exec (.fabPortUp n four) s = .next t ∧ t.port n = { s.port n with
            state := .up, width := (if four then 2 else 1), missed := 0 }
          ∧ t.fabTx = s.fabTx ++ [.mgmt n .hello m] ∧ m.seq = s.fabric.roster.epoch ∧ m.origin = s.fabric.moduleId
          ∧ t.mem = s.mem)
      ∧ (s.fabric.queued = [] → exec (.cableChange (.fabric n) false) s
          = .next (s.modPort n (fun p => { p with cable := false, state := .down, width := 0 }))))
    ∧ (s.liust.state = .down →
      exec (.cableChange .liust false) s = .next { s with liust := { s.liust with cable := false } })

/-! ## Fabric management (R302, R305 to R308) -/

/-- The whole message m of type t arrives on port n, and this module has not had it before. -/
def Sys2Proof.MgmtComes (s : State) (n : Nat) (t : PktType) (m : Mgmt) : Prop :=
  s.fabOn = true ∧ (s.port n).state = .up ∧ m.payload.length ≤ 4080 ∧ s.fabric.state ≠ .refused ∧ m.part = 0 ∧ m.last = true
  ∧ (t, m.origin, m.seq, 0) ∉ s.fabric.forwarded ∧ s.fabric.incoming = []
  ∧ ((t = .roster ∨ t = .install) → s.fabric.highest ≤ m.seq)

/-- A module enters and leaves the fabric: FAB_EN = 1 trains its ports with FAB_CFG taken; FAB_EN = 0 takes a module outside every
fabric off at once, a member that is no captain sends LEAVE on its ports, and a captain of others resigns with its ports kept; a module that hears of no roster founds a fabric
of its own. HELLO records the neighbour, and where it is a member a module that discovers sends JOIN to its captain;
HEARTBEAT confirms a neighbour, every interval sends one on each port and counts the ports that heard none, up or listed in the
roster, and a port that missed HB_MISS of them is down, which a member reports to its captain. Packets go where the die of their
port can be reached. What a HEARTBEAT shows, and the forms of the messages beyond R310, are the model's choices (log entry 20). -/
def Obligations.ModulesDiscoverAndLeave : Prop :=
  ∀ s : State,
    (∀ i : BitVec 12, s.hostUp = true →
      (s.fabric.en = false → s.fabric.leaving = false →
        ∃ t, exec (.fabEnSet i) s = .next t ∧ t.fabric.en = true ∧ t.fabric.moduleId = i.toNat ∧ t.fabric.state = .discovering
          ∧ t.fabric.cfg.force = s.fabric.cfg.shadow ∧ t.mem = s.mem ∧ t.cmds = s.cmds ∧ t.fabTx = s.fabTx
          ∧ ∀ n < 48, t.port n = (if (s.port n).cable && s.portPowered n then
              { s.port n with state := .training, width := 0 } else s.port n))
      ∧ (s.fabric.en = true → exec (.fabEnSet i) s = .next s)
      ∧ (s.fabric.en = true → s.isMember = false → ∃ t, exec (.fabEnClear i) s = .next t ∧ t.fabric.en = false
        ∧ t.fabric.state = .off ∧ t.fabTx = s.fabTx ∧ t.mem = s.mem ∧ ∀ n < 48, (t.port n).state = .down)
      ∧ (s.fabric.en = true → s.isMember = true → s.fabric.isCaptain = false →
        ∃ t, exec (.fabEnClear i) s = .next t ∧ t.fabric.en = false ∧ t.fabric.leaving = true
          ∧ t.fabric.state = s.fabric.state ∧ t.fabric.roster = s.fabric.roster ∧ t.mem = s.mem
          ∧ ∀ n < 48, (s.port n).state = .up → s.linksOpen (mgmtLinks n) = true → ∃ m : Mgmt, .mgmt n .leave m ∈ t.fabTx ∧ m.target = s.fabric.captain
              ∧ m.origin = s.fabric.moduleId)
      ∧ (s.fabric.en = true → s.isMember = true → s.fabric.isCaptain = true →
          (s.fabric.roster.drop s.fabric.moduleId).members ≠ [] →
        ∃ t, exec (.fabEnClear i) s = .next t ∧ t.fabric.en = false ∧ t.fabric.leaving = true ∧ t.fabric.isCaptain = false
          ∧ t.fabric.state = s.fabric.state ∧ (∀ n < 48, t.port n = s.port n) ∧ t.mem = s.mem
          ∧ t.fabric.captain = (s.fabric.roster.drop s.fabric.moduleId).captain))
    ∧ (∃ t, exec .leaveTimeout s = .next t ∧ (s.fabric.leaving = false → t = s)
      ∧ (s.fabric.leaving = true → t.fabric.state = .off ∧ t.fabric.leaving = false ∧ t.fabric.roster = {}
        ∧ (∀ n < 48, (t.port n).state = .down) ∧ t.mem = s.mem ∧ t.fabTx = s.fabTx))
    ∧ (s.fabric.en = true → s.fabric.state = .discovering → s.fabric.highest = 0 → s.fabric.roster.members = [] →
        s.fabric.groups = [] →
      ∃ t, exec .foundingTimeout s = .next t ∧ t.fabric.state = .member ∧ t.fabric.isCaptain = true
        ∧ t.fabric.captain = s.fabric.moduleId ∧ t.fabric.level = 0 ∧ t.fabric.roster.epoch = 1
        ∧ t.fabric.roster.members = [Member.mk s.fabric.moduleId 0 false] ∧ t.mem = s.mem)
    ∧ ((s.fabric.en = false ∨ s.fabric.state ≠ .discovering ∨ s.fabric.highest ≠ 0) → exec .foundingTimeout s = .next s)
    ∧ (∀ (n : Nat) (m : Mgmt), n < 48 → s.fabOn = true → (s.port n).state = .up → m.payload.length ≤ 4080 →
      let w := fieldAt m.payload 0 8
      (bit w 42 = false → exec (.hello n m) s = .next (s.modPort n (fun p => { p with
        nbrId := bits w 11 0, nbrPort := bits w 17 12, nbrCaptain := bits w 29 18, nbrLevel := bits w 41 30
        nbrMember := false, nbrEpoch := m.seq, heard := true, missed := 0, shown := false
        clash := s.fabric.roster.isPresent (bits w 11 0) })))
      ∧ (bit w 42 = true → s.fabric.state = .discovering → s.linksOpen (mgmtLinks n) = true → ∃ t j, exec (.hello n m) s = .next t
        ∧ (t.port n).nbrId = bits w 11 0 ∧ (t.port n).nbrMember = true ∧ t.fabric.request = (s.fabric.request + 1) % 2 ^ 32
        ∧ FabTx.mgmt n .join j ∈ t.fabTx ∧ j.target = bits w 29 18 ∧ j.origin = s.fabric.moduleId
        ∧ t.fabric.state = .discovering ∧ t.mem = s.mem)
      ∧ (let p := s.port n
        let new := p.heard = true ∧ p.shown = false ∧ p.clash = false ∧ m.seq ≠ 0 ∧ m.origin = p.nbrId
        let r := s.fabric.roster
        (¬new → exec (.heartbeat n m) s = .next (s.modPort n (fun p => { p with beat := true, missed := 0 })))
        ∧ (new → r.isPresent p.nbrId = false →
          exec (.heartbeat n m) s = .next (s.modPort n (fun p => { p with beat := true, missed := 0, shown := true })))
        ∧ (new → r.isPresent p.nbrId = true → mkLink s.fabric.moduleId n p.nbrId p.nbrPort ∈ r.links →
          exec (.heartbeat n m) s = .next (s.modPort n (fun p => { p with
            beat := true, missed := 0, shown := true, nbrMember := true, nbrLevel := r.levelOf p.nbrId })))))
    ∧ (s.fabOn = true → s.fabric.queued = [] → (∀ n < 48, s.linksOpen (mgmtLinks n) = true) → ∃ t, exec .heartbeatInterval s = .next t
      ∧ t.fabTx = s.fabTx ++ (((List.range 48).filter (fun n => (s.port n).state == .up)).map (fun n => FabTx.mgmt n .heartbeat
          { seq := s.fabric.roster.epoch, origin := s.fabric.moduleId }))
      ∧ (∀ n < 48, t.port n = { s.port n with
          beat := false
          missed := (if ((s.port n).state == .up || (s.isMember && s.fabric.roster.links.any (fun l =>
              l.hasEnd s.fabric.moduleId n))) && !(s.port n).beat then (s.port n).missed + 1 else (s.port n).missed) })
      ∧ t.fabric.cfg.force = s.fabric.cfg.shadow ∧ t.mem = s.mem)
    ∧ (∀ n < 48, s.fabOn = true →
      let due := (s.port n).state = .up ∨ (s.isMember = true ∧ ∃ l ∈ s.fabric.roster.links, l.hasEnd s.fabric.moduleId n = true)
      (((s.port n).missed < s.hbMiss ∨ ¬due) → exec (.heartbeatMiss n) s = .next s)
      ∧ (due → s.hbMiss ≤ (s.port n).missed → s.fabric.queued = [] →
        ∃ t, exec (.heartbeatMiss n) s = .next t ∧ (t.port n).state ≠ .up
          ∧ (s.isMember = false → t = s.modPort n (fun p => { p with
              state := .down, width := 0, heard := false, nbrMember := false, missed := 0, clash := false, shown := false }))
          ∧ (s.isMember = true → ∀ k < 48, k ≠ n → (s.port k).state = .up → s.linksOpen (mgmtLinks k) = true →
            ∃ m : Mgmt, .mgmt k .linkReport m ∈ t.fabTx
              ∧ m.target = s.fabric.captain ∧ m.origin = s.fabric.moduleId
              ∧ m.payload = natLe 8 ((s.port n).nbrId + at' n 12 + at' (s.port n).nbrPort 18))))

/-- The captain admits a module that joins at a present member, one level above it; it refuses an ID in use by the next epoch
unchanged, drops a member that leaves, and removes a link whose end is reported lost. A member that is listed as present takes
a later roster, its level and its computed pass table. That the captain also lists the working links of its own ports that a roster
lacks is the model's choice (log entry 20). -/
def Obligations.CaptainKeepsTheRoster : Prop :=
  ∀ (s : State) (n : Nat) (m : Mgmt), s.isMember = true → n < 48 →
    let r := s.fabric.roster
    (MgmtComes s n .join m → s.fabric.isCaptain = true → m.target = s.fabric.moduleId →
      (r.isPresent m.origin = true → ∃ t, exec (.join n m) s = .next t
        ∧ t.fabric.roster.members = r.members
        ∧ (∀ l, l ∈ t.fabric.roster.links ↔ l ∈ r.links ∨ ∃ p ∈ s.unlisted r, l = mkLink s.fabric.moduleId p.1 p.2.1 p.2.2)
        ∧ t.fabric.roster.epoch = s.fabric.highest + 1 ∧ (s.leftBy r = [] → t.mem = s.mem))
      ∧ (r.isPresent m.origin = false → m.payload.length = 8 → r.isPresent (bits (fieldAt m.payload 0 8) 11 0) = true →
        ∃ t, exec (.join n m) s = .next t ∧ t.fabric.roster.isPresent m.origin = true
          ∧ t.fabric.roster.levelOf m.origin = min (r.levelOf (bits (fieldAt m.payload 0 8) 11 0) + 1) 4095
          ∧ t.fabric.roster.epoch = s.fabric.highest + 1 ∧ (s.leftBy r = [] → t.mem = s.mem))
      ∧ (r.isPresent m.origin = false → m.payload = [] → ∃ t, exec (.join n m) s = .next t ∧ t.fabric.roster = r))
    ∧ (MgmtComes s n .leave m → s.fabric.isCaptain = true → m.target = s.fabric.moduleId → m.origin ≠ s.fabric.moduleId →
        r.isPresent m.origin = true →
      ∃ t, exec (.leave n m) s = .next t ∧ t.fabric.roster.isPresent m.origin = false
        ∧ (∀ x, x ≠ m.origin → t.fabric.roster.isPresent x = r.isPresent x)
        ∧ t.fabric.roster.epoch = s.fabric.highest + 1)
    ∧ (MgmtComes s n .linkReport m → s.fabric.isCaptain = true → m.payload.length = 8 →
        bit (fieldAt m.payload 0 8) 24 = false →
      ∃ t, exec (.linkReport n m) s = .next t
        ∧ ∀ l ∈ t.fabric.roster.links, l.hasEnd m.origin (bits (fieldAt m.payload 0 8) 17 12) = false)
    ∧ (MgmtComes s n .roster m → r.epoch < m.seq → (Roster.ofBytes m.seq m.payload).isPresent s.fabric.moduleId = true →
      ∃ t, exec (.roster n m) s = .next t ∧ t.fabric.roster = Roster.ofBytes m.seq m.payload
        ∧ t.fabric.level = (Roster.ofBytes m.seq m.payload).levelOf s.fabric.moduleId
        ∧ t.fabric.captain = (Roster.ofBytes m.seq m.payload).captain
        ∧ (s.passSrc = false → t.fabric.inForce = (Roster.ofBytes m.seq m.payload).passTable s.fabric.moduleId))

/-- A reorientation: HOLD stops injection and is acknowledged; the captain waits once every acknowledgement is in, then installs
the roster with new levels as the next epoch; INSTALL installs it on a member; the last acknowledgement ends it, and RELEASE
starts injection again. What a port sent last is sent again as it was. Acknowledgements go out where the die of the port can be
reached. Who counts as having acknowledged, and what the messages carry, is the model's choice (log entry 20). -/
def Obligations.ReorientationRunsItsPhases : Prop :=
  ∀ (s : State) (n : Nat) (m : Mgmt), n < 48 →
    (MgmtComes s n .hold m → s.isMember = true → s.linksOpen (mgmtLinks n) = true →
      ∃ t, exec (.fabHold n m) s = .next t ∧ t.fabric.state = .hold ∧ t.fabric.reoriented = true
        ∧ (∃ a : Mgmt, FabTx.mgmt n .holdAck a ∈ t.fabTx ∧ a.target = m.origin ∧ a.origin = s.fabric.moduleId
            ∧ a.seq = m.seq)
        ∧ t.fabric.roster = s.fabric.roster ∧ t.mem = s.mem)
    ∧ (∀ acks, MgmtComes s n .holdAck m → s.fabric.reorient = .holding acks → m.target = s.fabric.moduleId →
      ∃ t, exec (.holdAck n m) s = .next t ∧ t.mem = s.mem
        ∧ t.fabric.reorient = (if s.allAcked (insertNat m.origin acks) then .waiting else .holding (insertNat m.origin acks)))
    ∧ (s.fabric.reorient ≠ .waiting → exec .reorientLifetimeWait s = .next s)
    ∧ (s.fabric.reorient = .waiting → ∃ t, exec .reorientLifetimeWait s = .next t
        ∧ t.fabric.roster.epoch = s.fabric.highest + 1 ∧ t.fabric.roster.members = s.fabric.roster.relevel.members
        ∧ t.fabric.roster.links = s.fabric.roster.links ∧ (s.leftBy s.fabric.roster.relevel = [] → t.mem = s.mem))
    ∧ (MgmtComes s n .install m → s.isMember = true → s.fabric.roster.epoch < m.seq → s.linksOpen (mgmtLinks n) = true →
        (Roster.ofBytes m.seq m.payload).isPresent s.fabric.moduleId = true →
      ∃ t, exec (.install n m) s = .next t ∧ t.fabric.roster = Roster.ofBytes m.seq m.payload ∧ t.fabric.reoriented = true
        ∧ ∃ a : Mgmt, FabTx.mgmt n .installAck a ∈ t.fabTx ∧ a.target = m.origin ∧ a.origin = s.fabric.moduleId)
    ∧ (∀ acks, MgmtComes s n .installAck m → s.fabric.reorient = .installing acks → m.target = s.fabric.moduleId →
      ∃ t, exec (.installAck n m) s = .next t ∧ t.mem = s.mem
        ∧ t.fabric.reorient = (if s.allAcked (insertNat m.origin acks) then .none else .installing (insertNat m.origin acks)))
    ∧ (MgmtComes s n .release m → s.fabric.state = .hold → ∃ t, exec (.fabRelease n m) s = .next t
        ∧ t.fabric.state = .member ∧ t.fabric.roster = s.fabric.roster ∧ t.mem = s.mem)
    ∧ (∃ t, exec (.managementPacketResend n) s = .next t
      ∧ ((s.port n).state ≠ .up → t = s)
      ∧ ((s.port n).state = .up → t = { s with fabTx := s.fabTx
          ++ (s.fabric.resend.filter (fun (x : Nat × PktType × Mgmt) => x.1 == n)).map (fun (x : Nat × PktType × Mgmt) => .mgmt n x.2.1 x.2.2) }))

/-! ## Power (R26, R462 to R484, R522 to R533) -/

/-- The flash after a reset or a loss of power: an FW_STAGE that it interrupts leaves no valid manifest (R448). -/
def Sys2Proof.KeptFlash (s t : State) : Prop :=
  ((∀ c ∈ s.cmds, c.opcode ≠ 0xB01) → t.referee.flash = s.referee.flash)
  ∧ (∀ c ∈ s.cmds, c.isRunning = true → c.opcode = 0xB01 → c.param 16 8 = 0 → t.referee.flash.manifest = [])

/-- The module has started again from its reset values: nothing that it held is left but fuses, the repair maps of fuses and dugout
are in force (R77), an interrupted FW_STAGE leaves no valid manifest (R448), an input outside its margin shows (R462), and H0L
wakes. -/
def Sys2Proof.Restarted (s t : State) : Prop :=
  t.alive = true ∧ t.cmds = [] ∧ t.slots = [] ∧ t.scratch = [] ∧ t.sqs = State.reset.sqs ∧ t.cqs = State.reset.cqs
  ∧ t.contexts = State.reset.contexts
  ∧ (∀ n < 8, t.cluster n = Cluster.resetWith (s.referee.fuses.repairs ++ t.referee.dugout) n) ∧ t.seqs = State.reset.seqs
  ∧ t.drafts = State.reset.drafts ∧ t.keeper = State.reset.keeper ∧ t.save = State.reset.save
  ∧ (t.power.vinMargin = false → t.scout = State.reset.scout) ∧ t.power.stVinMargin = t.power.vinMargin
  ∧ KeptFlash s t
  ∧ t.ctrs = State.reset.ctrs ∧ t.errors = State.reset.errors ∧ t.cycles = 0#64 ∧ t.rngSeed = State.reset.rngSeed
  ∧ t.liust.state = .down ∧ t.fabric.state = .off ∧ t.fabric.en = false ∧ t.referee.state = .rom
  ∧ t.referee.fuses = s.referee.fuses ∧ t.referee.life = s.referee.fuses.life ∧ t.power.tripHold = false
  ∧ (t.domain 0x50).st = .waking ∧ ∀ c ∈ domainCodes, c ≠ 0x50 → (t.domain c).st = .off

/-- Power or clocks are gone: the module is down, what it held is lost, and flash, fuses and dugout keep their contents. -/
def Sys2Proof.Lost (s t : State) (cause : OffCause) (domain : Nat) : Prop :=
  t.alive = false ∧ t.mem = {} ∧ t.cmds = [] ∧ t.cycles = 0#64 ∧ t.power.lastOff = cause ∧ t.power.lastOffDomain = domain
  ∧ KeptFlash s t ∧ t.referee.fuses = s.referee.fuses ∧ t.referee.dugout = s.referee.dugout

/-- RESET_N held low for 10 µs restarts the module, with flash, dugout and the memory of the module kept where no command is cut
off; a pulse below 1 µs, and a reset while the module may not restart, changes nothing; after a loss of the reference the restart
waits for it. POWER_UP of a module that is off restarts it, and one of a module whose AO domain has power only seats it. Loss of
the reference clock, of the seat, of the input (below 60 V for 20 µs, above 84 V for 1 ms, over the rows that say so), a regulator
10% off and a reading of 115 °C take the module down with their cause; a smaller deviation sets its margin bit alone. What RESET_N
keeps, when the reference is back, and what a pulse between 1 and 10 µs does are the model's choices (log entries 10 and 24). -/
def Obligations.TheModuleRestartsAndGoesDown : Prop :=
  ∀ s : State,
    (∀ ns x, 10000 ≤ ns → s.mayRestart = true → s.power.refGone = false → ∃ t, exec (.resetN ns x) s = .next t ∧ Restarted s t
      ∧ t.referee.dugout = s.referee.dugout ∧ t.power.slot = x.slot
      ∧ ((∀ c ∈ s.cmds, c.isWaiting = true) → s.mem.undef = [] → (∀ g < 256, s.placed g = false) → ∀ a < 2 ^ 52, t.mem.byte a = s.mem.byte a))
    ∧ (∀ ns x, 10000 ≤ ns → s.mayRestart = true → s.power.refGone = true → ∃ t, exec (.resetN ns x) s = .next t
      ∧ (Restarted s t ∨ t = { s with free := t.free }))
    ∧ (∀ ns x, (ns < 1000 ∨ (10000 ≤ ns ∧ s.mayRestart = false)) → exec (.resetN ns x) s = .next s)
    ∧ (∀ x mv, s.power.ao = false → s.power.refGone = false → 66000 ≤ mv → ∃ t, exec (.powerUp x true mv) s = .next t ∧ Restarted s t
      ∧ t.referee.dugout = [] ∧ t.power.vin = mv ∧ t.power.vinMargin = decide (78000 < mv) ∧ t.power.lastOff = .none)
    ∧ (∀ x seated mv, s.power.ao = true → exec (.powerUp x seated mv) s
        = .next (s.modPower (fun p => { p with seated := p.seated || seated })))
    ∧ (s.power.ao = true → ∃ t, exec .clockLoss s = .next t ∧ Lost s t .clockLoss 0 ∧ t.power.clkLost = true
      ∧ t.power.refGone = true ∧ t.power.on = s.power.on)
    ∧ (s.power.ao = true →
      ∃ t, exec .seatedNRelease s = .next t ∧ Lost s t .powerFail 0 ∧ t.power.on = false ∧ t.power.seated = false)
    ∧ (s.power.ao = true → s.power.on = true →
      (∀ mv us, ((40000 ≤ mv ∧ mv < 60000 ∧ 20 ≤ s.power.vinLowMicros + us)
          ∨ (84000 < mv ∧ 1000 ≤ s.power.vinHighMicros + us)) →
        ∃ t, exec (.vinChange mv us) s = .next t ∧ Lost s t .powerFail 0 ∧ t.power.on = false)
      ∧ (∀ d, ∃ t, exec (.regulatorFault d true) s = .next t ∧ Lost s t .regulator d ∧ t.power.on = false)
      ∧ (∀ d, ∃ t, exec (.regulatorFault d false) s = .next t ∧ t.power = { s.power with stRegMargin := true }
        ∧ t.mem = s.mem ∧ t.cmds = s.cmds))
    ∧ (s.alive = true →
      (∀ mv us, 60000 ≤ mv → mv ≤ 84000 → ∃ t, exec (.vinChange mv us) s = .next t ∧ t.alive = true
        ∧ t.power.vin = mv ∧ t.power.vinMargin = (mv < 66000 || 78000 < mv) ∧ t.mem = s.mem ∧ t.cmds = s.cmds)
      ∧ (∀ l, (∃ x ∈ l, 115 ≤ x) →
        (∃ t, exec (.thermalTrip l) s = .next t ∧ Lost s t .thermalTrip 0 ∧ t.power.tripHold = true)
        ∧ ∃ t, exec (.thermalSample l) s = .next t ∧ Lost s t .thermalTrip 0 ∧ t.power.tripHold = true)
      ∧ (∀ l, (∀ x ∈ l, x < 115) → ∃ t, exec (.thermalSample l) s = .next t
        ∧ (∀ x ∈ l, x ≤ t.power.tHot) ∧ (l = [] ∨ t.power.tHot ∈ l) ∧ t.mem = s.mem ∧ t.cmds = s.cmds))
    ∧ exec .tripHoldEnd s = .next { s with power := { s.power with tripHold := false } }

/-- l is the highest limiter step from 4 to 16 whose predicted power stays within the budget, or 4 where none does (R468). -/
def Sys2Proof.ChosenStep (p : Power) (dyn l : Nat) : Prop :=
  let cap : Int := 1000 * p.capEff
  let budget : Int := min cap (100 * cap - (p.hist.take 99).sum)
  let fits := fun (k : Nat) => 16 * ((p.pm : Int) - p.ea) + (dyn : Int) * k ≤ 16 * budget
  4 ≤ l ∧ l ≤ 16 ∧ (4 < l → fits l) ∧ ∀ k, l < k → k ≤ 16 → ¬fits k

/-- The limiter: an interval end takes the shadow, ends a fast clamp, moves the thermal step and chooses the step that fits the
budget for the classes last reported, with the mean of the ACLK share over the interval; a raised class chooses again at once, a
lowered one counts from the next interval end; input above the fast limit clamps to step 4 and counts. POWER_CAP_SET writes
CAP_SW_W in the shadow, and completes at the interval end that takes it. That the row's mean share is not taken but formed from the
classes and steps of the interval, is the model's choice (log entry 24). -/
def Obligations.LimiterChoosesTheStep : Prop :=
  ∀ s : State, s.alive = true →
    (∀ pm ea, ∃ t, exec (.limiterIntervalEnd pm ea) s = .next t
      ∧ t.power.cfg.force = s.power.cfg.shadow ∧ t.power.clampStep = 16 ∧ t.power.pm = pm
      ∧ t.power.ea = (if s.power.shareTime = 0 then s.shareMw (fun k => k.said) * s.power.step / 16
          else s.power.shareSum / (16 * s.power.shareTime))
      ∧ t.power.shareSum = 0 ∧ t.power.shareTime = 0
      ∧ t.power.hist = (pm :: s.power.hist).take 100 ∧ ChosenStep t.power
          ({ s with clusters := s.clusters.map Cluster.takeClasses } : State).dynMw t.power.limStep
      ∧ (105 ≤ s.power.tHot → t.power.thermStep = max 4 (s.power.thermStep - 1) ∧ t.power.coolIntervals = 0)
      ∧ (102 ≤ s.power.tHot → s.power.tHot < 105 → t.power.thermStep = s.power.thermStep ∧ t.power.coolIntervals = 0)
      ∧ (s.power.tHot < 102 → 9 ≤ s.power.coolIntervals →
          t.power.thermStep = min 16 (s.power.thermStep + 1) ∧ t.power.coolIntervals = 0)
      ∧ (∀ c q, s.cmds = [c] → c.src = .host q → c.opcode = 0x901 → c.isRunning = true → c.stage = .begun →
          ∃ d, t.cmd? c.id = some d ∧ d.st = .done { status := 0x000, cycles := s.cycles.toNat })
      ∧ t.mem = s.mem ∧ t.sqs = s.sqs ∧ t.contexts = s.contexts)
    ∧ (∀ n core cls, n < 8 → core < 28 → cls ≤ 3 →
      ∃ t, exec (.classRiseHold n core cls) s = .next t ∧ (vget (t.cluster n).cores core {}).said = cls
        ∧ (vget (t.cluster n).cores core {}).cls = max (vget (s.cluster n).cores core {}).cls cls
        ∧ (∀ m, m ≠ n → t.cluster m = s.cluster m) ∧ t.mem = s.mem ∧ t.cmds = s.cmds
        ∧ ((vget (s.cluster n).cores core {}).cls < cls → ChosenStep s.power t.dynMw t.power.limStep)
        ∧ (cls ≤ (vget (s.cluster n).cores core {}).cls → t.power = s.power))
    ∧ (∀ mw ma mv, ∃ t, exec (.fastClamp mw ma mv) s = .next t
      ∧ (s.power.clampStep ≠ 4 → (s.power.fastLimit mv < mw ∨ 54500 < ma) →
          t.power = { s.power with clampStep := 4, fastClamp := true } ∧ t.ctr .pwrClamps = satAdd (s.ctr .pwrClamps) 1
          ∧ t.mem = s.mem ∧ t.cmds = s.cmds)
      ∧ ((s.power.clampStep = 4 ∨ (mw ≤ s.power.fastLimit mv ∧ ma ≤ 54500)) → t = s))
    ∧ (∀ id c, s.running? id 0x901 = some c → c.stage = .go → worst (s.powerCapStart c).rejs = none →
      ∃ t d, exec (.powerCapSet id) s = .next t ∧ t.power.cfg.force = s.power.cfg.force
        ∧ bits t.power.cfg.shadow.toNat 27 16 = bits (c.param 0 4) 11 0
        ∧ bits t.power.cfg.shadow.toNat 15 0 = bits s.power.cfg.shadow.toNat 15 0
        ∧ t.cmd? id = some d ∧ d.st = .running ∧ d.stage = .begun ∧ t.mem = s.mem
        ∧ t.cfgLate.power = (s.cfgLate.power || s.power.clampStep == 4))

/-- Power domains: POWER_VOTE of the host is recorded, and wakes a domain at NAP for a vote of IDLE or ACTIVE; a channel that is not
in service ignores it. A domain with no vote above NAP enters NAP or its floor in two rows, a cluster losing its buffer, a port group
its ports; a vote that comes between them abandons the entry or wakes the domain after it. A domain that wakes is ACTIVE once
its parent runs, which wakes first; a privileged wake ends ACTIVE or, on a timeout, FAILED with its children OFF; the Referee
withdraws its vote from a parent whose children are at NAP or below. A DIMM that is changed loses what its channel held, and its
channel's error reports are undefined. How an entry is cut into rows, which of its two ends a late vote finds, and what lost
memory reads as, are the model's choices (log entries 24 and 2). -/
def Obligations.DomainsFollowTheirVotes : Prop :=
  ∀ s : State,
    (∀ id c q, s.running? id 0x900 = some c → c.src = .host q → c.stage = .go → worst (s.powerVoteStart c).rejs = none →
        bit (c.param 0 4) 12 = false → (∀ x ∈ s.cmds, ∀ a b, x.stage ≠ .domain a b) →
      let d := bits (c.param 0 4) 7 0
      let v := bits (c.param 0 4) 9 8
      let ignores := 0x20 ≤ d ∧ d < 0x2C ∧ (s.domain d).inService = false
      (ignores → ∃ t, exec (.powerVote id) s = .next t ∧ Completes s t id { status := 0x000 })
      ∧ (¬ignores → d ∈ s.power.domains.map (fun x => x.1) →
        ∃ t u, exec (.powerVote id) s = .next t ∧ Completes u t id { status := 0x000 }
        ∧ (t.domain d).host = v ∧ (∀ m, m ≠ d → t.domain m = s.domain m)
        ∧ ((s.domain d).st = .nap → 2 ≤ v → (s.domain (parentOf d)).st ≠ .failed → (t.domain d).st = .waking)
        ∧ ((s.domain d).st = .idle → v = 3 → (t.domain d).st = .active)
        ∧ ((s.domain d).st = .waking → (t.domain d).st = .waking)
        ∧ ((s.domain d).st ≠ .entering → u.mem = s.mem) ∧ u.cmds = s.cmds))
    ∧ (s.alive = true →
      (∀ c, s.errors.postDone ≠ 0#8 → s.errors.postRunning = false →
        ((s.domain c).st.running = true → 2 ≤ s.demand c → exec (.domainEntry c) s = .next s)
        ∧ ((s.domain c).st.running = true → s.demand c ≤ 1 →
          exec (.domainEntry c) s = .next (s.modDomain c (fun d => { d with st := .entering })))
        ∧ ((s.domain c).st = .entering → 2 ≤ s.demand c → ∃ t, exec (.domainEntry c) s = .next t
          ∧ (((t.domain c).st = (if 3 ≤ s.demand c then .active else .idle) ∧ t.mem = s.mem) ∨ (t.domain c).st = .waking))
        ∧ ((s.domain c).st = .nap → s.demand c = 0 → ∃ t, exec (.domainEntry c) s = .next t
          ∧ (t.domain c).st = (if c < 8 ∨ (0x30 ≤ c ∧ c < 0x3C) then .off else .nap) ∧ t.mem = s.mem)
        ∧ ((s.domain c).st = .entering → s.demand c ≤ 1 → ∃ t, exec (.domainEntry c) s = .next t
          ∧ (t.domain c).st = (if s.demand c = 1 then .nap else if c < 8 ∨ (0x30 ≤ c ∧ c < 0x3C) then .off else .nap)
          ∧ (∀ m, m ≠ c → t.domain m = s.domain m)
          ∧ (c < 8 → s.mem.undef = [] → (∀ o < 2 ^ 26, t.mem.byte (bufLoc c o) = 0#8)
              ∧ ∀ a < 2 ^ 52, t.mem.byte a = s.mem.byte a)
          ∧ (8 ≤ c → t.mem = s.mem)
          ∧ (0x30 ≤ c → c < 0x3C → ∀ k < 4,
              t.port (4 * (c - 0x30) + k) = { cable := (s.port (4 * (c - 0x30) + k)).cable })))
      ∧ (∀ c, isPrivileged c = false → c ≠ 0x40 → (s.domain c).st = .waking →
          (∀ x ∈ s.cmds, ∀ a b, x.stage ≠ .domain a b) →
        (parentOf c ≠ 0x60 → (s.domain (parentOf c)).st = .nap →
          ∃ t, exec (.domainWake c) s = .next t ∧ (t.domain (parentOf c)).st = .waking
            ∧ (t.domain (parentOf c)).referee = 3 ∧ (t.domain c).st = .waking ∧ t.mem = s.mem)
        ∧ ((s.domain (parentOf c)).st.running = true → (c < 0x20 ∨ 0x2C ≤ c) →
          ∃ t, exec (.domainWake c) s = .next t ∧ (t.domain c).st = .active ∧ (∀ m, m ≠ c → t.domain m = s.domain m)
            ∧ t.mem = s.mem)
        ∧ ((s.domain (parentOf c)).st = .failed → exec (.domainWake c) s = .next s))
      ∧ (∀ c, isPrivileged c = true → (s.domain c).st = .waking →
        (∀ w, ∃ t, exec (.privilegedWake c (some w)) s = .next t ∧ (t.domain c).st = .failed ∧ t.power.wakeFail = true
          ∧ (∀ k ∈ childrenOf c, (t.domain k).st = .off)
          ∧ (∀ m, m ≠ c → m ∉ childrenOf c → t.domain m = s.domain m) ∧ t.mem = s.mem)
        ∧ ∃ t, exec (.privilegedWake c none) s = .next t ∧ (t.domain c).st = .active ∧ (t.domain c).referee = 3
          ∧ t.power.wakeFail = s.power.wakeFail ∧ t.mem = s.mem)
      ∧ (∀ c, 0x51 ≤ c → c ≤ 0x55 → ∃ t, exec (.parentVoteRelease c) s = .next t
        ∧ ((∀ k ∈ childrenOf c, (s.domain k).st.rank ≤ 1) → t = s.modDomain c (fun d => { d with referee := 0 }))
        ∧ ((∃ k ∈ childrenOf c, 2 ≤ (s.domain k).st.rank) → t = s)))
    ∧ (∀ n d, n < 12 → ∃ t, exec (.dimmChange n d) s = .next t ∧ vget t.memside.sockets n none = d
      ∧ t.memside.ddr = s.memside.ddr ∧ t.cmds = s.cmds ∧ (s.power.ao = true → t.memside.ddrUndef.getLsbD n = true)
      ∧ ∀ a, (a < ddrBase n ∨ ddrBase n + max (2 ^ 38) ((vget s.memside.ddr n {}).gib * 2 ^ 30) ≤ a) →
          t.mem.byte a = s.mem.byte a)

/-! ## The Referee (R441 to R461, R496 to R507) -/

/-- BOOT ends in ENDED, RECOVERY or RUNNING as the life cycle and the image say, and starts POST where it runs; POST benches
each core that fails, takes clusters with bad buffers out, and ends; a telemetry window moves TELEM_MULT with the Referee's
load, and samples the scout when it is due. -/
def Obligations.TheRefereeStartsAndSamples : Prop :=
  ∀ s : State, s.alive = true →
    (s.referee.state = .rom → (s.domain 0x50).st = .active → ∃ t, exec .boot s = .next t ∧ t.cmds = s.cmds
      ∧ t.referee.state = (if s.referee.life = .ended then .ended
          else if s.imageFault s.referee.flash.manifest s.referee.flash.body ≠ 0 then .recovery else .running)
      ∧ t.errors.postRunning = (s.errors.postRunning || t.referee.state == .running)
      ∧ t.liust.state = (if s.liust.state = .down ∧ s.liust.cable = true then .training else s.liust.state))
    ∧ (s.referee.state ≠ .rom → exec .boot s = .next s)
    ∧ (∀ rs bad, s.referee.state = .running → s.errors.postRunning = true → s.postReady = true →
      ∃ t, exec (.post rs bad) s = .next t ∧ t.errors.postRunning = false
        ∧ ((∀ c, (s.domain c).st ≠ .entering) → t.mem = s.mem)
        ∧ ∀ n < 8, (s.domain n).st.running = true →
          t.errors.postDone.getLsbD n = true ∧ (t.cluster n).out = ((s.cluster n).out || bad.getLsbD n)
          ∧ ∀ i < 28, s.testFails n i (testOf rs (28 * n + i)) = true → (vget (t.cluster n).cores i {}).mode = .benched)
    ∧ (∀ util now, s.referee.state = .running → ∃ t, exec (.telemetryWindowEnd util now) s = .next t
      ∧ t.referee.util = util ∧ t.referee.busy = (s.referee.busy || 90 < util)
      ∧ t.referee.mult = (if 90 < util then min 8 (2 * s.referee.mult) else if util < 70 then max 1 (s.referee.mult / 2)
          else s.referee.mult)
      ∧ (s.scout.sinceMs + 100 < 100 * s.referee.mult → t.scout.index = s.scout.index ∧ t.save = s.save)
      ∧ (100 * s.referee.mult ≤ s.scout.sinceMs + 100 → t.scout.index ≤ 255 ∧ t.scout.sinceMs = 0
          ∧ t.scout.peak = max s.scout.peak t.scout.index
          ∧ (s.scout.index < 224 → 224 ≤ t.scout.index → t.save.rose = true))
      ∧ t.mem = s.mem ∧ t.cmds = s.cmds)

/-- Tests and repairs: BENCH_CHECK benches every active core in its scope that fails, at once where the cluster's cores are at a
command boundary and else by marking it failing, and writes its record's bytes alone; SELF_TEST writes one record of 64 bytes;
REPAIR_SOFT adds an entry to dugout and flash record or takes it out; REPAIR_FUSE, in FIELD, needs an authorisation, and blows one
entry; DIAG_ROSTER_READ writes the tensor's block-owner entries. When a core is benched, and that a fuse that was not read back is
spent, are the model's choices (log entry 26). -/
def Obligations.TestsAndRepairsAct : Prop :=
  ∀ (s : State) (id : Nat) (c : Cmd),
    (∀ rs, s.running? id 0xA00 = some c → worst (s.benchCheckStart c).rejs = none →
      ∃ t u, exec (.benchCheck id rs) s = .next t ∧ Completes u t id { status := 0x000 }
        ∧ (∀ n < 8, ∀ i < 28, bit (c.param 8 4) n = true → bit (c.param 8 4) 8 = true →
            s.testFails n i (testOf rs (28 * n + i)) = true → (vget (s.cluster n).cores i {}).mode = .active →
            ((vget (t.cluster n).cores i {}).mode = .benched ∨ (vget (t.cluster n).cores i {}).failing = true)
            ∧ ((∀ j < 28, (vget (s.cluster n).cores j {}).atBoundary = true) →
                (vget (t.cluster n).cores i {}).mode = .benched))
        ∧ ∀ a, (a < c.param 0 8 ∨ c.param 0 8 + 14336 ≤ a) → t.mem.byte a = s.mem.byte a)
    ∧ (∀ r : CoreTest, s.running? id 0xA01 = some c → worst (s.selfTestStart c).rejs = none →
        bits (c.param 8 4) 9 8 = 3 →
      let k := c.testCore
      ∃ t, exec (.selfTest id r) s = .next t
        ∧ Completes (s.store (c.param 0 8) (testRecord false r.memFail (s.arrayFail k.1 (7 * k.2.1 + k.2.2) r) false
            r.signature.toNat r.rowFail r.colFail)) t id { status := 0x000 }
        ∧ ∀ a, (a < c.param 0 8 ∨ c.param 0 8 + 64 ≤ a) → t.mem.byte a = s.mem.byte a)
    ∧ (∀ spare, s.running? id 0xA10 = some c → worst (s.repairSoftStart spare c).rejs = none →
      let e := c.repairEntry
      (bit (c.param 0 4) 0 = true → ∃ t u, exec (.repairSoft id spare) s = .next t ∧ Completes u t id { status := 0x000 }
        ∧ t.referee.dugout = s.referee.dugout.filter (fun x => x != e)
        ∧ t.flashEntries = s.flashEntries.filter (fun x => x != e) ∧ t.mem = s.mem
        ∧ ((e.kind = 1 ∨ e.kind = 2) → e ∉ s.referee.fuses.repairs →
            u.cluster e.clusterNo = (s.cluster e.clusterNo).modCore e.core (Core.mapIn e.kind e.index)))
      ∧ (bit (c.param 0 4) 0 = false → ∃ t u, exec (.repairSoft id spare) s = .next t ∧ Completes u t id { status := 0x000 }
        ∧ e ∈ t.referee.dugout ∧ e ∈ t.flashEntries ∧ (e.kind ≠ 3 → t.flashEntries = joinEntries s.flashEntries [e])
        ∧ (e.kind ≤ 2 → t.mem = s.mem
            ∧ u.cluster e.clusterNo = (s.cluster e.clusterNo).modCore e.core (Core.mapOut e.kind e.index))
        ∧ (e.kind = 3 → t.mem = s.mem
            ∧ ((vget (t.cluster e.clusterNo).cores e.core {}).mode = .benched
              ∨ (vget (t.cluster e.clusterNo).cores e.core {}).failing = true)
            ∧ ((vget (s.cluster e.clusterNo).cores e.core {}).atBoundary = true →
              (vget (t.cluster e.clusterNo).cores e.core {}).mode = .benched))))
    ∧ (∀ ok, s.running? id 0xA11 = some c → worst (s.repairFuseStart c).rejs = none →
      let blown := fun (used : Nat) => { s.referee.fuses with
        free := s.referee.fuses.free - 1, fieldUsed := used
        repairs := if ok then s.referee.fuses.repairs ++ [c.repairEntry] else s.referee.fuses.repairs }
      (s.referee.life = .field → ∃ t u, exec (.repairFuse id ok) s = .next t ∧ t.mem = s.mem
        ∧ (s.authMatches c 8 (c.held.take 2548) = false →
            Completes s.newNonce t id { status := 0x119, aux := 72 } ∧ t.referee.fuses = s.referee.fuses)
        ∧ (s.authMatches c 8 (c.held.take 2548) = true → Completes u t id { status := if ok then 0x000 else 0x203 }
            ∧ t.referee.fuses = blown (s.referee.fuses.fieldUsed + 1)))
      ∧ (s.referee.life ≠ .field → ∃ t u, exec (.repairFuse id ok) s = .next t
        ∧ Completes u t id { status := if ok then 0x000 else 0x203 }
        ∧ t.referee.fuses = blown s.referee.fuses.fieldUsed ∧ t.mem = s.mem))
    ∧ (s.running? id 0xA20 = some c → worst (s.diagRosterStart c).rejs = none →
      ∃ t, exec (.diagRosterRead id) s = .next t
        ∧ Completes (s.store (c.param 0 8) (s.rosterEntries c)) t id { status := 0x000 }
        ∧ ∀ a, (a < c.param 0 8 ∨ c.param 0 8 + (s.rosterEntries c).length ≤ a) → t.mem.byte a = s.mem.byte a)

/-- ATTEST sends its report, certificate or header by one DMA_WR. FW_STAGE writes the image that it read and checked at its start to the flash,
and in MODE 1 commits the SVN of the running image. LIFECYCLE_ADVANCE blows the next state where an authorisation permits it;
an advance to ENDED needs none, destroys the seed and every context, waits for what is still in flight, and restarts the module
once its own completion is written. That the row is taken again for that is the model's choice (log entry 27). -/
def Obligations.FirmwareAndLifeCycleAdvance : Prop :=
  ∀ (s : State) (id : Nat) (c : Cmd),
    (s.running? id 0xB00 = some c → c.stage = .go → worst (s.attestStart c).rejs = none → s.hostUp = true →
        s.dmaRoom false = true →
      ∃ t tag, exec (.attest id) s = .next t
        ∧ t.hostTx = s.hostTx ++ [.dmaWr tag (c.param 0 8) (s.attestOutput c).1 0#64]
        ∧ (c.param 8 8 = 1 → (s.attestOutput c).1 = bytesAt s.referee.flash.cert 0 3796 ∧ t.referee = s.referee)
        ∧ (∃ d, t.cmd? id = some d ∧ d.st = .running ∧ d.stage = .dma 0) ∧ t.mem = s.mem)
    ∧ (∀ ok, s.running? id 0xB01 = some c → c.param 16 8 ≠ 1 →
      ∃ t, exec (.fwStage id ok) s = .next t ∧ Completes (s.modFlash (fun f => { f with
        manifest := if ok then c.held.take 4096 else [], body := c.held.drop 4096 })) t id
          { status := if ok then 0x000 else 0x203 })
    ∧ (s.running? id 0xB01 = some c → c.param 16 8 = 1 → worst (s.fwStageStart c).rejs = none →
      ∃ t, exec (.fwStageCommitSvn id) s = .next t ∧ Completes (s.modFuses (fun f => { f with
        svn := max f.svn s.referee.imageSvn })) t id { status := 0x000 })
    ∧ (s.running? id 0xB02 = some c → c.stage = .go → s.mayAdvance c.lifeTarget = true →
      (c.lifeTarget ≠ 4 → ∃ t u, exec (.lifecycleAdvance id) s = .next t ∧ t.mem = s.mem
        ∧ (s.authMatches c 8 (c.held.take 2548) = false → Completes s.newNonce t id { status := 0x119, aux := 72 })
        ∧ (s.authMatches c 8 (c.held.take 2548) = true → Completes u t id { status := 0x000 }
          ∧ t.referee.fuses.life.code = c.lifeTarget ∧ t.referee.life = s.referee.life
          ∧ (c.lifeTarget = 2 → t.referee.flash.cert = c.held.drop 2548)
          ∧ (c.lifeTarget ≠ 2 → t.referee.flash = s.referee.flash)
          ∧ (c.lifeTarget ≠ 1 → t.referee.fuses.seed = s.referee.fuses.seed)))
      ∧ (c.lifeTarget = 4 → ∃ t, exec (.lifecycleAdvance id) s = .next t ∧ t.referee.fuses.life = .ended
        ∧ t.referee.fuses.seed = none ∧ t.contexts = State.reset.contexts
        ∧ (∀ q, s.cmds = [c] → c.src = .host q → c.cq < 64 → s.canWrite c.cq id = true → (∀ n < 64, (s.cq n).done = []) →
            t.referee.life = .ended ∧ t.referee.state = .rom ∧ t.cmds = [] ∧ t.sqs = State.reset.sqs
            ∧ t.referee.flash = s.referee.flash)))
    ∧ (∀ k q, s.running? id 0xB02 = some c → c.stage = .await [] k → c.src = .host q → c.written = false → s.hostUp = false →
        exec (.lifecycleAdvance id) s = .next s)

/-! ## Rejections (R396) -/

/-- The commands whose checks are made again when they act: number, opcode, checks. -/
def Sys2Proof.checkedOf : Instr → Option (Nat × Nat × (State → Cmd → Started))
  | .ctxCreate id => some (id, 0x000, State.ctxCreateStart)
  | .regionSet id => some (id, 0x002, State.regionSetStart)
  | .cancel id => some (id, 0x020, State.cancelStart)
  | .clearSticky id => some (id, 0x030, State.clearStickyStart)
  | .fabGroupReadmit id => some (id, 0x511, State.groupReadmitStart)
  | .fabGroupRelease id => some (id, 0x512, State.groupReleaseStart)
  | .playbookStop id => some (id, 0x601, State.playbookCtlStart)
  | .playbookHold id => some (id, 0x602, State.playbookCtlStart)
  | .playbookResume id => some (id, 0x603, State.playbookCtlStart)
  | .draftCancel id => some (id, 0x705, State.draftCancelStart)
  | .keepPair id => some (id, 0x800, State.keepPairStart)
  | .keepUnpair id => some (id, 0x801, State.keepUnpairStart)
  | .keepCheck id _ => some (id, 0x803, State.keepCheckStart)
  | .benchCheck id _ => some (id, 0xA00, State.benchCheckStart)
  | .selfTest id _ => some (id, 0xA01, State.selfTestStart)
  | .repairSoft id spare => some (id, 0xA10, fun s c => s.repairSoftStart spare c)
  | .repairFuse id _ => some (id, 0xA11, State.repairFuseStart)
  | .diagRosterRead id => some (id, 0xA20, State.diagRosterStart)
  | .lifecycleAdvance id => some (id, 0xB02, fun s c => { rejs := s.lifecycleRejs c })
  | _ => none

/-- A command that has yet to act and fails a check completes with the REJ_ status of the lowest failed check and the offset of its
field, COUNT 0, and has no other effect. A number that is not that of a running command of the row's opcode changes nothing. That
a command which the host issued is checked when it starts and these are checked again when they act, is the model's choice (log
entries 7 and 15). -/
def Obligations.RejectedCommandsHaveNoEffect : Prop :=
  ∀ (i : Instr) (s : State) (id op : Nat) (start : State → Cmd → Started), checkedOf i = some (id, op, start) →
    (∀ c r, s.running? id op = some c → c.stage = .go → worst (start s c).rejs = some r →
      ∃ t, exec i s = .next t ∧ Completes s t id { status := r.1, aux := r.2 })
    ∧ (s.running? id op = none → exec i s = .next s)
end

