-- ==== Sys2Proof/Laws/State.lean ====
section
/-! SUPPORT. One lemma for each field of State under each update of State: what the field holds afterwards. -/

namespace Sys2Proof.Machine.State

variable (s : State)

/-! `rest` -/
@[simp] theorem rest_pending (q : List Instr) : (s.rest q).pending = q := rfl
@[simp] theorem rest_free (q : List Instr) : (s.rest q).free = s.free := rfl
@[simp] theorem rest_mem (q : List Instr) : (s.rest q).mem = s.mem := rfl
@[simp] theorem rest_contexts (q : List Instr) : (s.rest q).contexts = s.contexts := rfl
@[simp] theorem rest_clusters (q : List Instr) : (s.rest q).clusters = s.clusters := rfl
@[simp] theorem rest_sqs (q : List Instr) : (s.rest q).sqs = s.sqs := rfl
@[simp] theorem rest_cqs (q : List Instr) : (s.rest q).cqs = s.cqs := rfl
@[simp] theorem rest_cmds (q : List Instr) : (s.rest q).cmds = s.cmds := rfl
@[simp] theorem rest_nextId (q : List Instr) : (s.rest q).nextId = s.nextId := rfl
@[simp] theorem rest_turn (q : List Instr) : (s.rest q).turn = s.turn := rfl
@[simp] theorem rest_seqs (q : List Instr) : (s.rest q).seqs = s.seqs := rfl
@[simp] theorem rest_slots (q : List Instr) : (s.rest q).slots = s.slots := rfl
@[simp] theorem rest_tiles (q : List Instr) : (s.rest q).tiles = s.tiles := rfl
@[simp] theorem rest_scratch (q : List Instr) : (s.rest q).scratch = s.scratch := rfl
@[simp] theorem rest_drafts (q : List Instr) : (s.rest q).drafts = s.drafts := rfl
@[simp] theorem rest_fabric (q : List Instr) : (s.rest q).fabric = s.fabric := rfl
@[simp] theorem rest_keeper (q : List Instr) : (s.rest q).keeper = s.keeper := rfl
@[simp] theorem rest_save (q : List Instr) : (s.rest q).save = s.save := rfl
@[simp] theorem rest_scout (q : List Instr) : (s.rest q).scout = s.scout := rfl
@[simp] theorem rest_liust (q : List Instr) : (s.rest q).liust = s.liust := rfl
@[simp] theorem rest_ctrs (q : List Instr) : (s.rest q).ctrs = s.ctrs := rfl
@[simp] theorem rest_memside (q : List Instr) : (s.rest q).memside = s.memside := rfl
@[simp] theorem rest_power (q : List Instr) : (s.rest q).power = s.power := rfl
@[simp] theorem rest_referee (q : List Instr) : (s.rest q).referee = s.referee := rfl
@[simp] theorem rest_errors (q : List Instr) : (s.rest q).errors = s.errors := rfl
@[simp] theorem rest_cfgLate (q : List Instr) : (s.rest q).cfgLate = s.cfgLate := rfl
@[simp] theorem rest_rngSeed (q : List Instr) : (s.rest q).rngSeed = s.rngSeed := rfl
@[simp] theorem rest_cycles (q : List Instr) : (s.rest q).cycles = s.cycles := rfl
@[simp] theorem rest_wall (q : List Instr) : (s.rest q).wall = s.wall := rfl
@[simp] theorem rest_hostTx (q : List Instr) : (s.rest q).hostTx = s.hostTx := rfl
@[simp] theorem rest_fabTx (q : List Instr) : (s.rest q).fabTx = s.fabTx := rfl
@[simp] theorem rest_smbTx (q : List Instr) : (s.rest q).smbTx = s.smbTx := rfl

/-! `setMem` -/
@[simp] theorem setMem_pending (m : Mem) : (s.setMem m).pending = s.pending := rfl
@[simp] theorem setMem_free (m : Mem) : (s.setMem m).free = s.free := rfl
@[simp] theorem setMem_mem (m : Mem) : (s.setMem m).mem = m := rfl
@[simp] theorem setMem_contexts (m : Mem) : (s.setMem m).contexts = s.contexts := rfl
@[simp] theorem setMem_clusters (m : Mem) : (s.setMem m).clusters = s.clusters := rfl
@[simp] theorem setMem_sqs (m : Mem) : (s.setMem m).sqs = s.sqs := rfl
@[simp] theorem setMem_cqs (m : Mem) : (s.setMem m).cqs = s.cqs := rfl
@[simp] theorem setMem_cmds (m : Mem) : (s.setMem m).cmds = s.cmds := rfl
@[simp] theorem setMem_nextId (m : Mem) : (s.setMem m).nextId = s.nextId := rfl
@[simp] theorem setMem_turn (m : Mem) : (s.setMem m).turn = s.turn := rfl
@[simp] theorem setMem_seqs (m : Mem) : (s.setMem m).seqs = s.seqs := rfl
@[simp] theorem setMem_slots (m : Mem) : (s.setMem m).slots = s.slots := rfl
@[simp] theorem setMem_tiles (m : Mem) : (s.setMem m).tiles = s.tiles := rfl
@[simp] theorem setMem_scratch (m : Mem) : (s.setMem m).scratch = s.scratch := rfl
@[simp] theorem setMem_drafts (m : Mem) : (s.setMem m).drafts = s.drafts := rfl
@[simp] theorem setMem_fabric (m : Mem) : (s.setMem m).fabric = s.fabric := rfl
@[simp] theorem setMem_keeper (m : Mem) : (s.setMem m).keeper = s.keeper := rfl
@[simp] theorem setMem_save (m : Mem) : (s.setMem m).save = s.save := rfl
@[simp] theorem setMem_scout (m : Mem) : (s.setMem m).scout = s.scout := rfl
@[simp] theorem setMem_liust (m : Mem) : (s.setMem m).liust = s.liust := rfl
@[simp] theorem setMem_ctrs (m : Mem) : (s.setMem m).ctrs = s.ctrs := rfl
@[simp] theorem setMem_memside (m : Mem) : (s.setMem m).memside = s.memside := rfl
@[simp] theorem setMem_power (m : Mem) : (s.setMem m).power = s.power := rfl
@[simp] theorem setMem_referee (m : Mem) : (s.setMem m).referee = s.referee := rfl
@[simp] theorem setMem_errors (m : Mem) : (s.setMem m).errors = s.errors := rfl
@[simp] theorem setMem_cfgLate (m : Mem) : (s.setMem m).cfgLate = s.cfgLate := rfl
@[simp] theorem setMem_rngSeed (m : Mem) : (s.setMem m).rngSeed = s.rngSeed := rfl
@[simp] theorem setMem_cycles (m : Mem) : (s.setMem m).cycles = s.cycles := rfl
@[simp] theorem setMem_wall (m : Mem) : (s.setMem m).wall = s.wall := rfl
@[simp] theorem setMem_hostTx (m : Mem) : (s.setMem m).hostTx = s.hostTx := rfl
@[simp] theorem setMem_fabTx (m : Mem) : (s.setMem m).fabTx = s.fabTx := rfl
@[simp] theorem setMem_smbTx (m : Mem) : (s.setMem m).smbTx = s.smbTx := rfl

/-! `land` -/
@[simp] theorem land_pending (w : BlockWr) : (s.land w).pending = s.pending := rfl
@[simp] theorem land_free (w : BlockWr) : (s.land w).free = s.free + (if s.mem.spoils w && !w.carry then 64 else 0) := rfl
@[simp] theorem land_mem (w : BlockWr) : (s.land w).mem = s.mem.writeBlock s.free w := rfl
@[simp] theorem land_contexts (w : BlockWr) : (s.land w).contexts = s.contexts := rfl
@[simp] theorem land_clusters (w : BlockWr) : (s.land w).clusters = s.clusters := rfl
@[simp] theorem land_sqs (w : BlockWr) : (s.land w).sqs = s.sqs := rfl
@[simp] theorem land_cqs (w : BlockWr) : (s.land w).cqs = s.cqs := rfl
@[simp] theorem land_cmds (w : BlockWr) : (s.land w).cmds = s.cmds := rfl
@[simp] theorem land_nextId (w : BlockWr) : (s.land w).nextId = s.nextId := rfl
@[simp] theorem land_turn (w : BlockWr) : (s.land w).turn = s.turn := rfl
@[simp] theorem land_seqs (w : BlockWr) : (s.land w).seqs = s.seqs := rfl
@[simp] theorem land_slots (w : BlockWr) : (s.land w).slots = s.slots := rfl
@[simp] theorem land_tiles (w : BlockWr) : (s.land w).tiles = s.tiles := rfl
@[simp] theorem land_scratch (w : BlockWr) : (s.land w).scratch = s.scratch := rfl
@[simp] theorem land_drafts (w : BlockWr) : (s.land w).drafts = s.drafts := rfl
@[simp] theorem land_fabric (w : BlockWr) : (s.land w).fabric = s.fabric := rfl
@[simp] theorem land_keeper (w : BlockWr) : (s.land w).keeper = s.keeper := rfl
@[simp] theorem land_save (w : BlockWr) : (s.land w).save = s.save := rfl
@[simp] theorem land_scout (w : BlockWr) : (s.land w).scout = s.scout := rfl
@[simp] theorem land_liust (w : BlockWr) : (s.land w).liust = s.liust := rfl
@[simp] theorem land_ctrs (w : BlockWr) : (s.land w).ctrs = s.ctrs := rfl
@[simp] theorem land_memside (w : BlockWr) : (s.land w).memside = { s.memside with uncured := s.memside.uncured.filter (fun a => a != w.loc) } := rfl
@[simp] theorem land_power (w : BlockWr) : (s.land w).power = s.power := rfl
@[simp] theorem land_referee (w : BlockWr) : (s.land w).referee = s.referee := rfl
@[simp] theorem land_errors (w : BlockWr) : (s.land w).errors = s.errors := rfl
@[simp] theorem land_cfgLate (w : BlockWr) : (s.land w).cfgLate = s.cfgLate := rfl
@[simp] theorem land_rngSeed (w : BlockWr) : (s.land w).rngSeed = s.rngSeed := rfl
@[simp] theorem land_cycles (w : BlockWr) : (s.land w).cycles = s.cycles := rfl
@[simp] theorem land_wall (w : BlockWr) : (s.land w).wall = s.wall := rfl
@[simp] theorem land_hostTx (w : BlockWr) : (s.land w).hostTx = s.hostTx := rfl
@[simp] theorem land_fabTx (w : BlockWr) : (s.land w).fabTx = s.fabTx := rfl
@[simp] theorem land_smbTx (w : BlockWr) : (s.land w).smbTx = s.smbTx := rfl

/-! `bump` -/
@[simp] theorem bump_pending (c : Ctr) (n : Nat) : (s.bump c n).pending = s.pending := rfl
@[simp] theorem bump_free (c : Ctr) (n : Nat) : (s.bump c n).free = s.free := rfl
@[simp] theorem bump_mem (c : Ctr) (n : Nat) : (s.bump c n).mem = s.mem := rfl
@[simp] theorem bump_contexts (c : Ctr) (n : Nat) : (s.bump c n).contexts = s.contexts := rfl
@[simp] theorem bump_clusters (c : Ctr) (n : Nat) : (s.bump c n).clusters = s.clusters := rfl
@[simp] theorem bump_sqs (c : Ctr) (n : Nat) : (s.bump c n).sqs = s.sqs := rfl
@[simp] theorem bump_cqs (c : Ctr) (n : Nat) : (s.bump c n).cqs = s.cqs := rfl
@[simp] theorem bump_cmds (c : Ctr) (n : Nat) : (s.bump c n).cmds = s.cmds := rfl
@[simp] theorem bump_nextId (c : Ctr) (n : Nat) : (s.bump c n).nextId = s.nextId := rfl
@[simp] theorem bump_turn (c : Ctr) (n : Nat) : (s.bump c n).turn = s.turn := rfl
@[simp] theorem bump_seqs (c : Ctr) (n : Nat) : (s.bump c n).seqs = Vector.ofFn (fun i : Fin 4 => s.seqs[i.val].modOpen s.cmds i.val (Window.countIn c n)) := rfl
@[simp] theorem bump_slots (c : Ctr) (n : Nat) : (s.bump c n).slots = s.slots := rfl
@[simp] theorem bump_tiles (c : Ctr) (n : Nat) : (s.bump c n).tiles = s.tiles := rfl
@[simp] theorem bump_scratch (c : Ctr) (n : Nat) : (s.bump c n).scratch = s.scratch := rfl
@[simp] theorem bump_drafts (c : Ctr) (n : Nat) : (s.bump c n).drafts = s.drafts := rfl
@[simp] theorem bump_fabric (c : Ctr) (n : Nat) : (s.bump c n).fabric = s.fabric := rfl
@[simp] theorem bump_keeper (c : Ctr) (n : Nat) : (s.bump c n).keeper = s.keeper := rfl
@[simp] theorem bump_save (c : Ctr) (n : Nat) : (s.bump c n).save = s.save := rfl
@[simp] theorem bump_scout (c : Ctr) (n : Nat) : (s.bump c n).scout = s.scout := rfl
@[simp] theorem bump_liust (c : Ctr) (n : Nat) : (s.bump c n).liust = s.liust := rfl
@[simp] theorem bump_ctrs (c : Ctr) (n : Nat) : (s.bump c n).ctrs = vmod s.ctrs c.idx (fun w => satAdd w n) := rfl
@[simp] theorem bump_memside (c : Ctr) (n : Nat) : (s.bump c n).memside = s.memside := rfl
@[simp] theorem bump_power (c : Ctr) (n : Nat) : (s.bump c n).power = s.power := rfl
@[simp] theorem bump_referee (c : Ctr) (n : Nat) : (s.bump c n).referee = s.referee := rfl
@[simp] theorem bump_errors (c : Ctr) (n : Nat) : (s.bump c n).errors = s.errors := rfl
@[simp] theorem bump_cfgLate (c : Ctr) (n : Nat) : (s.bump c n).cfgLate = s.cfgLate := rfl
@[simp] theorem bump_rngSeed (c : Ctr) (n : Nat) : (s.bump c n).rngSeed = s.rngSeed := rfl
@[simp] theorem bump_cycles (c : Ctr) (n : Nat) : (s.bump c n).cycles = s.cycles := rfl
@[simp] theorem bump_wall (c : Ctr) (n : Nat) : (s.bump c n).wall = s.wall := rfl
@[simp] theorem bump_hostTx (c : Ctr) (n : Nat) : (s.bump c n).hostTx = s.hostTx := rfl
@[simp] theorem bump_fabTx (c : Ctr) (n : Nat) : (s.bump c n).fabTx = s.fabTx := rfl
@[simp] theorem bump_smbTx (c : Ctr) (n : Nat) : (s.bump c n).smbTx = s.smbTx := rfl

/-! `clearCtr` -/
@[simp] theorem clearCtr_pending (c : Ctr) : (s.clearCtr c).pending = s.pending := rfl
@[simp] theorem clearCtr_free (c : Ctr) : (s.clearCtr c).free = s.free := rfl
@[simp] theorem clearCtr_mem (c : Ctr) : (s.clearCtr c).mem = s.mem := rfl
@[simp] theorem clearCtr_contexts (c : Ctr) : (s.clearCtr c).contexts = s.contexts := rfl
@[simp] theorem clearCtr_clusters (c : Ctr) : (s.clearCtr c).clusters = s.clusters := rfl
@[simp] theorem clearCtr_sqs (c : Ctr) : (s.clearCtr c).sqs = s.sqs := rfl
@[simp] theorem clearCtr_cqs (c : Ctr) : (s.clearCtr c).cqs = s.cqs := rfl
@[simp] theorem clearCtr_cmds (c : Ctr) : (s.clearCtr c).cmds = s.cmds := rfl
@[simp] theorem clearCtr_nextId (c : Ctr) : (s.clearCtr c).nextId = s.nextId := rfl
@[simp] theorem clearCtr_turn (c : Ctr) : (s.clearCtr c).turn = s.turn := rfl
@[simp] theorem clearCtr_seqs (c : Ctr) : (s.clearCtr c).seqs = s.seqs := rfl
@[simp] theorem clearCtr_slots (c : Ctr) : (s.clearCtr c).slots = s.slots := rfl
@[simp] theorem clearCtr_tiles (c : Ctr) : (s.clearCtr c).tiles = s.tiles := rfl
@[simp] theorem clearCtr_scratch (c : Ctr) : (s.clearCtr c).scratch = s.scratch := rfl
@[simp] theorem clearCtr_drafts (c : Ctr) : (s.clearCtr c).drafts = s.drafts := rfl
@[simp] theorem clearCtr_fabric (c : Ctr) : (s.clearCtr c).fabric = s.fabric := rfl
@[simp] theorem clearCtr_keeper (c : Ctr) : (s.clearCtr c).keeper = s.keeper := rfl
@[simp] theorem clearCtr_save (c : Ctr) : (s.clearCtr c).save = s.save := rfl
@[simp] theorem clearCtr_scout (c : Ctr) : (s.clearCtr c).scout = s.scout := rfl
@[simp] theorem clearCtr_liust (c : Ctr) : (s.clearCtr c).liust = s.liust := rfl
@[simp] theorem clearCtr_ctrs (c : Ctr) : (s.clearCtr c).ctrs = vset s.ctrs c.idx 0#64 := rfl
@[simp] theorem clearCtr_memside (c : Ctr) : (s.clearCtr c).memside = s.memside := rfl
@[simp] theorem clearCtr_power (c : Ctr) : (s.clearCtr c).power = s.power := rfl
@[simp] theorem clearCtr_referee (c : Ctr) : (s.clearCtr c).referee = s.referee := rfl
@[simp] theorem clearCtr_errors (c : Ctr) : (s.clearCtr c).errors = s.errors := rfl
@[simp] theorem clearCtr_cfgLate (c : Ctr) : (s.clearCtr c).cfgLate = s.cfgLate := rfl
@[simp] theorem clearCtr_rngSeed (c : Ctr) : (s.clearCtr c).rngSeed = s.rngSeed := rfl
@[simp] theorem clearCtr_cycles (c : Ctr) : (s.clearCtr c).cycles = s.cycles := rfl
@[simp] theorem clearCtr_wall (c : Ctr) : (s.clearCtr c).wall = s.wall := rfl
@[simp] theorem clearCtr_hostTx (c : Ctr) : (s.clearCtr c).hostTx = s.hostTx := rfl
@[simp] theorem clearCtr_fabTx (c : Ctr) : (s.clearCtr c).fabTx = s.fabTx := rfl
@[simp] theorem clearCtr_smbTx (c : Ctr) : (s.clearCtr c).smbTx = s.smbTx := rfl

/-! `modCmd` -/
@[simp] theorem modCmd_pending (i : Nat) (f : Cmd → Cmd) : (s.modCmd i f).pending = s.pending := rfl
@[simp] theorem modCmd_free (i : Nat) (f : Cmd → Cmd) : (s.modCmd i f).free = s.free := rfl
@[simp] theorem modCmd_mem (i : Nat) (f : Cmd → Cmd) : (s.modCmd i f).mem = s.mem := rfl
@[simp] theorem modCmd_contexts (i : Nat) (f : Cmd → Cmd) : (s.modCmd i f).contexts = s.contexts := rfl
@[simp] theorem modCmd_clusters (i : Nat) (f : Cmd → Cmd) : (s.modCmd i f).clusters = s.clusters := rfl
@[simp] theorem modCmd_sqs (i : Nat) (f : Cmd → Cmd) : (s.modCmd i f).sqs = s.sqs := rfl
@[simp] theorem modCmd_cqs (i : Nat) (f : Cmd → Cmd) : (s.modCmd i f).cqs = s.cqs := rfl
@[simp] theorem modCmd_cmds (i : Nat) (f : Cmd → Cmd) : (s.modCmd i f).cmds = s.cmds.map (fun c => if c.id == i then f c else c) := rfl
@[simp] theorem modCmd_nextId (i : Nat) (f : Cmd → Cmd) : (s.modCmd i f).nextId = s.nextId := rfl
@[simp] theorem modCmd_turn (i : Nat) (f : Cmd → Cmd) : (s.modCmd i f).turn = s.turn := rfl
@[simp] theorem modCmd_seqs (i : Nat) (f : Cmd → Cmd) : (s.modCmd i f).seqs = s.seqs := rfl
@[simp] theorem modCmd_slots (i : Nat) (f : Cmd → Cmd) : (s.modCmd i f).slots = s.slots := rfl
@[simp] theorem modCmd_tiles (i : Nat) (f : Cmd → Cmd) : (s.modCmd i f).tiles = s.tiles := rfl
@[simp] theorem modCmd_scratch (i : Nat) (f : Cmd → Cmd) : (s.modCmd i f).scratch = s.scratch := rfl
@[simp] theorem modCmd_drafts (i : Nat) (f : Cmd → Cmd) : (s.modCmd i f).drafts = s.drafts := rfl
@[simp] theorem modCmd_fabric (i : Nat) (f : Cmd → Cmd) : (s.modCmd i f).fabric = s.fabric := rfl
@[simp] theorem modCmd_keeper (i : Nat) (f : Cmd → Cmd) : (s.modCmd i f).keeper = s.keeper := rfl
@[simp] theorem modCmd_save (i : Nat) (f : Cmd → Cmd) : (s.modCmd i f).save = s.save := rfl
@[simp] theorem modCmd_scout (i : Nat) (f : Cmd → Cmd) : (s.modCmd i f).scout = s.scout := rfl
@[simp] theorem modCmd_liust (i : Nat) (f : Cmd → Cmd) : (s.modCmd i f).liust = s.liust := rfl
@[simp] theorem modCmd_ctrs (i : Nat) (f : Cmd → Cmd) : (s.modCmd i f).ctrs = s.ctrs := rfl
@[simp] theorem modCmd_memside (i : Nat) (f : Cmd → Cmd) : (s.modCmd i f).memside = s.memside := rfl
@[simp] theorem modCmd_power (i : Nat) (f : Cmd → Cmd) : (s.modCmd i f).power = s.power := rfl
@[simp] theorem modCmd_referee (i : Nat) (f : Cmd → Cmd) : (s.modCmd i f).referee = s.referee := rfl
@[simp] theorem modCmd_errors (i : Nat) (f : Cmd → Cmd) : (s.modCmd i f).errors = s.errors := rfl
@[simp] theorem modCmd_cfgLate (i : Nat) (f : Cmd → Cmd) : (s.modCmd i f).cfgLate = s.cfgLate := rfl
@[simp] theorem modCmd_rngSeed (i : Nat) (f : Cmd → Cmd) : (s.modCmd i f).rngSeed = s.rngSeed := rfl
@[simp] theorem modCmd_cycles (i : Nat) (f : Cmd → Cmd) : (s.modCmd i f).cycles = s.cycles := rfl
@[simp] theorem modCmd_wall (i : Nat) (f : Cmd → Cmd) : (s.modCmd i f).wall = s.wall := rfl
@[simp] theorem modCmd_hostTx (i : Nat) (f : Cmd → Cmd) : (s.modCmd i f).hostTx = s.hostTx := rfl
@[simp] theorem modCmd_fabTx (i : Nat) (f : Cmd → Cmd) : (s.modCmd i f).fabTx = s.fabTx := rfl
@[simp] theorem modCmd_smbTx (i : Nat) (f : Cmd → Cmd) : (s.modCmd i f).smbTx = s.smbTx := rfl

/-! `modCmds` -/
@[simp] theorem modCmds_pending (f : Cmd → Cmd) : (s.modCmds f).pending = s.pending := rfl
@[simp] theorem modCmds_free (f : Cmd → Cmd) : (s.modCmds f).free = s.free := rfl
@[simp] theorem modCmds_mem (f : Cmd → Cmd) : (s.modCmds f).mem = s.mem := rfl
@[simp] theorem modCmds_contexts (f : Cmd → Cmd) : (s.modCmds f).contexts = s.contexts := rfl
@[simp] theorem modCmds_clusters (f : Cmd → Cmd) : (s.modCmds f).clusters = s.clusters := rfl
@[simp] theorem modCmds_sqs (f : Cmd → Cmd) : (s.modCmds f).sqs = s.sqs := rfl
@[simp] theorem modCmds_cqs (f : Cmd → Cmd) : (s.modCmds f).cqs = s.cqs := rfl
@[simp] theorem modCmds_cmds (f : Cmd → Cmd) : (s.modCmds f).cmds = s.cmds.map f := rfl
@[simp] theorem modCmds_nextId (f : Cmd → Cmd) : (s.modCmds f).nextId = s.nextId := rfl
@[simp] theorem modCmds_turn (f : Cmd → Cmd) : (s.modCmds f).turn = s.turn := rfl
@[simp] theorem modCmds_seqs (f : Cmd → Cmd) : (s.modCmds f).seqs = s.seqs := rfl
@[simp] theorem modCmds_slots (f : Cmd → Cmd) : (s.modCmds f).slots = s.slots := rfl
@[simp] theorem modCmds_tiles (f : Cmd → Cmd) : (s.modCmds f).tiles = s.tiles := rfl
@[simp] theorem modCmds_scratch (f : Cmd → Cmd) : (s.modCmds f).scratch = s.scratch := rfl
@[simp] theorem modCmds_drafts (f : Cmd → Cmd) : (s.modCmds f).drafts = s.drafts := rfl
@[simp] theorem modCmds_fabric (f : Cmd → Cmd) : (s.modCmds f).fabric = s.fabric := rfl
@[simp] theorem modCmds_keeper (f : Cmd → Cmd) : (s.modCmds f).keeper = s.keeper := rfl
@[simp] theorem modCmds_save (f : Cmd → Cmd) : (s.modCmds f).save = s.save := rfl
@[simp] theorem modCmds_scout (f : Cmd → Cmd) : (s.modCmds f).scout = s.scout := rfl
@[simp] theorem modCmds_liust (f : Cmd → Cmd) : (s.modCmds f).liust = s.liust := rfl
@[simp] theorem modCmds_ctrs (f : Cmd → Cmd) : (s.modCmds f).ctrs = s.ctrs := rfl
@[simp] theorem modCmds_memside (f : Cmd → Cmd) : (s.modCmds f).memside = s.memside := rfl
@[simp] theorem modCmds_power (f : Cmd → Cmd) : (s.modCmds f).power = s.power := rfl
@[simp] theorem modCmds_referee (f : Cmd → Cmd) : (s.modCmds f).referee = s.referee := rfl
@[simp] theorem modCmds_errors (f : Cmd → Cmd) : (s.modCmds f).errors = s.errors := rfl
@[simp] theorem modCmds_cfgLate (f : Cmd → Cmd) : (s.modCmds f).cfgLate = s.cfgLate := rfl
@[simp] theorem modCmds_rngSeed (f : Cmd → Cmd) : (s.modCmds f).rngSeed = s.rngSeed := rfl
@[simp] theorem modCmds_cycles (f : Cmd → Cmd) : (s.modCmds f).cycles = s.cycles := rfl
@[simp] theorem modCmds_wall (f : Cmd → Cmd) : (s.modCmds f).wall = s.wall := rfl
@[simp] theorem modCmds_hostTx (f : Cmd → Cmd) : (s.modCmds f).hostTx = s.hostTx := rfl
@[simp] theorem modCmds_fabTx (f : Cmd → Cmd) : (s.modCmds f).fabTx = s.fabTx := rfl
@[simp] theorem modCmds_smbTx (f : Cmd → Cmd) : (s.modCmds f).smbTx = s.smbTx := rfl

/-! `setStage` -/
@[simp] theorem setStage_pending (i : Nat) (g : Stage) : (s.setStage i g).pending = s.pending := rfl
@[simp] theorem setStage_free (i : Nat) (g : Stage) : (s.setStage i g).free = s.free := rfl
@[simp] theorem setStage_mem (i : Nat) (g : Stage) : (s.setStage i g).mem = s.mem := rfl
@[simp] theorem setStage_contexts (i : Nat) (g : Stage) : (s.setStage i g).contexts = s.contexts := rfl
@[simp] theorem setStage_clusters (i : Nat) (g : Stage) : (s.setStage i g).clusters = s.clusters := rfl
@[simp] theorem setStage_sqs (i : Nat) (g : Stage) : (s.setStage i g).sqs = s.sqs := rfl
@[simp] theorem setStage_cqs (i : Nat) (g : Stage) : (s.setStage i g).cqs = s.cqs := rfl
@[simp] theorem setStage_cmds (i : Nat) (g : Stage) : (s.setStage i g).cmds = s.cmds.map (fun c => if c.id == i then { c with stage := g } else c) := rfl
@[simp] theorem setStage_nextId (i : Nat) (g : Stage) : (s.setStage i g).nextId = s.nextId := rfl
@[simp] theorem setStage_turn (i : Nat) (g : Stage) : (s.setStage i g).turn = s.turn := rfl
@[simp] theorem setStage_seqs (i : Nat) (g : Stage) : (s.setStage i g).seqs = s.seqs := rfl
@[simp] theorem setStage_slots (i : Nat) (g : Stage) : (s.setStage i g).slots = s.slots := rfl
@[simp] theorem setStage_tiles (i : Nat) (g : Stage) : (s.setStage i g).tiles = s.tiles := rfl
@[simp] theorem setStage_scratch (i : Nat) (g : Stage) : (s.setStage i g).scratch = s.scratch := rfl
@[simp] theorem setStage_drafts (i : Nat) (g : Stage) : (s.setStage i g).drafts = s.drafts := rfl
@[simp] theorem setStage_fabric (i : Nat) (g : Stage) : (s.setStage i g).fabric = s.fabric := rfl
@[simp] theorem setStage_keeper (i : Nat) (g : Stage) : (s.setStage i g).keeper = s.keeper := rfl
@[simp] theorem setStage_save (i : Nat) (g : Stage) : (s.setStage i g).save = s.save := rfl
@[simp] theorem setStage_scout (i : Nat) (g : Stage) : (s.setStage i g).scout = s.scout := rfl
@[simp] theorem setStage_liust (i : Nat) (g : Stage) : (s.setStage i g).liust = s.liust := rfl
@[simp] theorem setStage_ctrs (i : Nat) (g : Stage) : (s.setStage i g).ctrs = s.ctrs := rfl
@[simp] theorem setStage_memside (i : Nat) (g : Stage) : (s.setStage i g).memside = s.memside := rfl
@[simp] theorem setStage_power (i : Nat) (g : Stage) : (s.setStage i g).power = s.power := rfl
@[simp] theorem setStage_referee (i : Nat) (g : Stage) : (s.setStage i g).referee = s.referee := rfl
@[simp] theorem setStage_errors (i : Nat) (g : Stage) : (s.setStage i g).errors = s.errors := rfl
@[simp] theorem setStage_cfgLate (i : Nat) (g : Stage) : (s.setStage i g).cfgLate = s.cfgLate := rfl
@[simp] theorem setStage_rngSeed (i : Nat) (g : Stage) : (s.setStage i g).rngSeed = s.rngSeed := rfl
@[simp] theorem setStage_cycles (i : Nat) (g : Stage) : (s.setStage i g).cycles = s.cycles := rfl
@[simp] theorem setStage_wall (i : Nat) (g : Stage) : (s.setStage i g).wall = s.wall := rfl
@[simp] theorem setStage_hostTx (i : Nat) (g : Stage) : (s.setStage i g).hostTx = s.hostTx := rfl
@[simp] theorem setStage_fabTx (i : Nat) (g : Stage) : (s.setStage i g).fabTx = s.fabTx := rfl
@[simp] theorem setStage_smbTx (i : Nat) (g : Stage) : (s.setStage i g).smbTx = s.smbTx := rfl

/-! `modContext` -/
@[simp] theorem modContext_pending (n : Nat) (f : Context → Context) : (s.modContext n f).pending = s.pending := rfl
@[simp] theorem modContext_free (n : Nat) (f : Context → Context) : (s.modContext n f).free = s.free := rfl
@[simp] theorem modContext_mem (n : Nat) (f : Context → Context) : (s.modContext n f).mem = s.mem := rfl
@[simp] theorem modContext_contexts (n : Nat) (f : Context → Context) : (s.modContext n f).contexts = vmod s.contexts n f := rfl
@[simp] theorem modContext_clusters (n : Nat) (f : Context → Context) : (s.modContext n f).clusters = s.clusters := rfl
@[simp] theorem modContext_sqs (n : Nat) (f : Context → Context) : (s.modContext n f).sqs = s.sqs := rfl
@[simp] theorem modContext_cqs (n : Nat) (f : Context → Context) : (s.modContext n f).cqs = s.cqs := rfl
@[simp] theorem modContext_cmds (n : Nat) (f : Context → Context) : (s.modContext n f).cmds = s.cmds := rfl
@[simp] theorem modContext_nextId (n : Nat) (f : Context → Context) : (s.modContext n f).nextId = s.nextId := rfl
@[simp] theorem modContext_turn (n : Nat) (f : Context → Context) : (s.modContext n f).turn = s.turn := rfl
@[simp] theorem modContext_seqs (n : Nat) (f : Context → Context) : (s.modContext n f).seqs = s.seqs := rfl
@[simp] theorem modContext_slots (n : Nat) (f : Context → Context) : (s.modContext n f).slots = s.slots := rfl
@[simp] theorem modContext_tiles (n : Nat) (f : Context → Context) : (s.modContext n f).tiles = s.tiles := rfl
@[simp] theorem modContext_scratch (n : Nat) (f : Context → Context) : (s.modContext n f).scratch = s.scratch := rfl
@[simp] theorem modContext_drafts (n : Nat) (f : Context → Context) : (s.modContext n f).drafts = s.drafts := rfl
@[simp] theorem modContext_fabric (n : Nat) (f : Context → Context) : (s.modContext n f).fabric = s.fabric := rfl
@[simp] theorem modContext_keeper (n : Nat) (f : Context → Context) : (s.modContext n f).keeper = s.keeper := rfl
@[simp] theorem modContext_save (n : Nat) (f : Context → Context) : (s.modContext n f).save = s.save := rfl
@[simp] theorem modContext_scout (n : Nat) (f : Context → Context) : (s.modContext n f).scout = s.scout := rfl
@[simp] theorem modContext_liust (n : Nat) (f : Context → Context) : (s.modContext n f).liust = s.liust := rfl
@[simp] theorem modContext_ctrs (n : Nat) (f : Context → Context) : (s.modContext n f).ctrs = s.ctrs := rfl
@[simp] theorem modContext_memside (n : Nat) (f : Context → Context) : (s.modContext n f).memside = s.memside := rfl
@[simp] theorem modContext_power (n : Nat) (f : Context → Context) : (s.modContext n f).power = s.power := rfl
@[simp] theorem modContext_referee (n : Nat) (f : Context → Context) : (s.modContext n f).referee = s.referee := rfl
@[simp] theorem modContext_errors (n : Nat) (f : Context → Context) : (s.modContext n f).errors = s.errors := rfl
@[simp] theorem modContext_cfgLate (n : Nat) (f : Context → Context) : (s.modContext n f).cfgLate = s.cfgLate := rfl
@[simp] theorem modContext_rngSeed (n : Nat) (f : Context → Context) : (s.modContext n f).rngSeed = s.rngSeed := rfl
@[simp] theorem modContext_cycles (n : Nat) (f : Context → Context) : (s.modContext n f).cycles = s.cycles := rfl
@[simp] theorem modContext_wall (n : Nat) (f : Context → Context) : (s.modContext n f).wall = s.wall := rfl
@[simp] theorem modContext_hostTx (n : Nat) (f : Context → Context) : (s.modContext n f).hostTx = s.hostTx := rfl
@[simp] theorem modContext_fabTx (n : Nat) (f : Context → Context) : (s.modContext n f).fabTx = s.fabTx := rfl
@[simp] theorem modContext_smbTx (n : Nat) (f : Context → Context) : (s.modContext n f).smbTx = s.smbTx := rfl

/-! `modCluster` -/
@[simp] theorem modCluster_pending (n : Nat) (f : Cluster → Cluster) : (s.modCluster n f).pending = s.pending := rfl
@[simp] theorem modCluster_free (n : Nat) (f : Cluster → Cluster) : (s.modCluster n f).free = s.free := rfl
@[simp] theorem modCluster_mem (n : Nat) (f : Cluster → Cluster) : (s.modCluster n f).mem = s.mem := rfl
@[simp] theorem modCluster_contexts (n : Nat) (f : Cluster → Cluster) : (s.modCluster n f).contexts = s.contexts := rfl
@[simp] theorem modCluster_clusters (n : Nat) (f : Cluster → Cluster) : (s.modCluster n f).clusters = vmod s.clusters n f := rfl
@[simp] theorem modCluster_sqs (n : Nat) (f : Cluster → Cluster) : (s.modCluster n f).sqs = s.sqs := rfl
@[simp] theorem modCluster_cqs (n : Nat) (f : Cluster → Cluster) : (s.modCluster n f).cqs = s.cqs := rfl
@[simp] theorem modCluster_cmds (n : Nat) (f : Cluster → Cluster) : (s.modCluster n f).cmds = s.cmds := rfl
@[simp] theorem modCluster_nextId (n : Nat) (f : Cluster → Cluster) : (s.modCluster n f).nextId = s.nextId := rfl
@[simp] theorem modCluster_turn (n : Nat) (f : Cluster → Cluster) : (s.modCluster n f).turn = s.turn := rfl
@[simp] theorem modCluster_seqs (n : Nat) (f : Cluster → Cluster) : (s.modCluster n f).seqs = s.seqs := rfl
@[simp] theorem modCluster_slots (n : Nat) (f : Cluster → Cluster) : (s.modCluster n f).slots = s.slots := rfl
@[simp] theorem modCluster_tiles (n : Nat) (f : Cluster → Cluster) : (s.modCluster n f).tiles = s.tiles := rfl
@[simp] theorem modCluster_scratch (n : Nat) (f : Cluster → Cluster) : (s.modCluster n f).scratch = s.scratch := rfl
@[simp] theorem modCluster_drafts (n : Nat) (f : Cluster → Cluster) : (s.modCluster n f).drafts = s.drafts := rfl
@[simp] theorem modCluster_fabric (n : Nat) (f : Cluster → Cluster) : (s.modCluster n f).fabric = s.fabric := rfl
@[simp] theorem modCluster_keeper (n : Nat) (f : Cluster → Cluster) : (s.modCluster n f).keeper = s.keeper := rfl
@[simp] theorem modCluster_save (n : Nat) (f : Cluster → Cluster) : (s.modCluster n f).save = s.save := rfl
@[simp] theorem modCluster_scout (n : Nat) (f : Cluster → Cluster) : (s.modCluster n f).scout = s.scout := rfl
@[simp] theorem modCluster_liust (n : Nat) (f : Cluster → Cluster) : (s.modCluster n f).liust = s.liust := rfl
@[simp] theorem modCluster_ctrs (n : Nat) (f : Cluster → Cluster) : (s.modCluster n f).ctrs = s.ctrs := rfl
@[simp] theorem modCluster_memside (n : Nat) (f : Cluster → Cluster) : (s.modCluster n f).memside = s.memside := rfl
@[simp] theorem modCluster_power (n : Nat) (f : Cluster → Cluster) : (s.modCluster n f).power = s.power := rfl
@[simp] theorem modCluster_referee (n : Nat) (f : Cluster → Cluster) : (s.modCluster n f).referee = s.referee := rfl
@[simp] theorem modCluster_errors (n : Nat) (f : Cluster → Cluster) : (s.modCluster n f).errors = s.errors := rfl
@[simp] theorem modCluster_cfgLate (n : Nat) (f : Cluster → Cluster) : (s.modCluster n f).cfgLate = s.cfgLate := rfl
@[simp] theorem modCluster_rngSeed (n : Nat) (f : Cluster → Cluster) : (s.modCluster n f).rngSeed = s.rngSeed := rfl
@[simp] theorem modCluster_cycles (n : Nat) (f : Cluster → Cluster) : (s.modCluster n f).cycles = s.cycles := rfl
@[simp] theorem modCluster_wall (n : Nat) (f : Cluster → Cluster) : (s.modCluster n f).wall = s.wall := rfl
@[simp] theorem modCluster_hostTx (n : Nat) (f : Cluster → Cluster) : (s.modCluster n f).hostTx = s.hostTx := rfl
@[simp] theorem modCluster_fabTx (n : Nat) (f : Cluster → Cluster) : (s.modCluster n f).fabTx = s.fabTx := rfl
@[simp] theorem modCluster_smbTx (n : Nat) (f : Cluster → Cluster) : (s.modCluster n f).smbTx = s.smbTx := rfl

/-! `modSq` -/
@[simp] theorem modSq_pending (n : Nat) (f : Sq → Sq) : (s.modSq n f).pending = s.pending := rfl
@[simp] theorem modSq_free (n : Nat) (f : Sq → Sq) : (s.modSq n f).free = s.free := rfl
@[simp] theorem modSq_mem (n : Nat) (f : Sq → Sq) : (s.modSq n f).mem = s.mem := rfl
@[simp] theorem modSq_contexts (n : Nat) (f : Sq → Sq) : (s.modSq n f).contexts = s.contexts := rfl
@[simp] theorem modSq_clusters (n : Nat) (f : Sq → Sq) : (s.modSq n f).clusters = s.clusters := rfl
@[simp] theorem modSq_sqs (n : Nat) (f : Sq → Sq) : (s.modSq n f).sqs = vmod s.sqs n f := rfl
@[simp] theorem modSq_cqs (n : Nat) (f : Sq → Sq) : (s.modSq n f).cqs = s.cqs := rfl
@[simp] theorem modSq_cmds (n : Nat) (f : Sq → Sq) : (s.modSq n f).cmds = s.cmds := rfl
@[simp] theorem modSq_nextId (n : Nat) (f : Sq → Sq) : (s.modSq n f).nextId = s.nextId := rfl
@[simp] theorem modSq_turn (n : Nat) (f : Sq → Sq) : (s.modSq n f).turn = s.turn := rfl
@[simp] theorem modSq_seqs (n : Nat) (f : Sq → Sq) : (s.modSq n f).seqs = s.seqs := rfl
@[simp] theorem modSq_slots (n : Nat) (f : Sq → Sq) : (s.modSq n f).slots = s.slots := rfl
@[simp] theorem modSq_tiles (n : Nat) (f : Sq → Sq) : (s.modSq n f).tiles = s.tiles := rfl
@[simp] theorem modSq_scratch (n : Nat) (f : Sq → Sq) : (s.modSq n f).scratch = s.scratch := rfl
@[simp] theorem modSq_drafts (n : Nat) (f : Sq → Sq) : (s.modSq n f).drafts = s.drafts := rfl
@[simp] theorem modSq_fabric (n : Nat) (f : Sq → Sq) : (s.modSq n f).fabric = s.fabric := rfl
@[simp] theorem modSq_keeper (n : Nat) (f : Sq → Sq) : (s.modSq n f).keeper = s.keeper := rfl
@[simp] theorem modSq_save (n : Nat) (f : Sq → Sq) : (s.modSq n f).save = s.save := rfl
@[simp] theorem modSq_scout (n : Nat) (f : Sq → Sq) : (s.modSq n f).scout = s.scout := rfl
@[simp] theorem modSq_liust (n : Nat) (f : Sq → Sq) : (s.modSq n f).liust = s.liust := rfl
@[simp] theorem modSq_ctrs (n : Nat) (f : Sq → Sq) : (s.modSq n f).ctrs = s.ctrs := rfl
@[simp] theorem modSq_memside (n : Nat) (f : Sq → Sq) : (s.modSq n f).memside = s.memside := rfl
@[simp] theorem modSq_power (n : Nat) (f : Sq → Sq) : (s.modSq n f).power = s.power := rfl
@[simp] theorem modSq_referee (n : Nat) (f : Sq → Sq) : (s.modSq n f).referee = s.referee := rfl
@[simp] theorem modSq_errors (n : Nat) (f : Sq → Sq) : (s.modSq n f).errors = s.errors := rfl
@[simp] theorem modSq_cfgLate (n : Nat) (f : Sq → Sq) : (s.modSq n f).cfgLate = s.cfgLate := rfl
@[simp] theorem modSq_rngSeed (n : Nat) (f : Sq → Sq) : (s.modSq n f).rngSeed = s.rngSeed := rfl
@[simp] theorem modSq_cycles (n : Nat) (f : Sq → Sq) : (s.modSq n f).cycles = s.cycles := rfl
@[simp] theorem modSq_wall (n : Nat) (f : Sq → Sq) : (s.modSq n f).wall = s.wall := rfl
@[simp] theorem modSq_hostTx (n : Nat) (f : Sq → Sq) : (s.modSq n f).hostTx = s.hostTx := rfl
@[simp] theorem modSq_fabTx (n : Nat) (f : Sq → Sq) : (s.modSq n f).fabTx = s.fabTx := rfl
@[simp] theorem modSq_smbTx (n : Nat) (f : Sq → Sq) : (s.modSq n f).smbTx = s.smbTx := rfl

/-! `modCq` -/
@[simp] theorem modCq_pending (n : Nat) (f : Cq → Cq) : (s.modCq n f).pending = s.pending := rfl
@[simp] theorem modCq_free (n : Nat) (f : Cq → Cq) : (s.modCq n f).free = s.free := rfl
@[simp] theorem modCq_mem (n : Nat) (f : Cq → Cq) : (s.modCq n f).mem = s.mem := rfl
@[simp] theorem modCq_contexts (n : Nat) (f : Cq → Cq) : (s.modCq n f).contexts = s.contexts := rfl
@[simp] theorem modCq_clusters (n : Nat) (f : Cq → Cq) : (s.modCq n f).clusters = s.clusters := rfl
@[simp] theorem modCq_sqs (n : Nat) (f : Cq → Cq) : (s.modCq n f).sqs = s.sqs := rfl
@[simp] theorem modCq_cqs (n : Nat) (f : Cq → Cq) : (s.modCq n f).cqs = vmod s.cqs n f := rfl
@[simp] theorem modCq_cmds (n : Nat) (f : Cq → Cq) : (s.modCq n f).cmds = s.cmds := rfl
@[simp] theorem modCq_nextId (n : Nat) (f : Cq → Cq) : (s.modCq n f).nextId = s.nextId := rfl
@[simp] theorem modCq_turn (n : Nat) (f : Cq → Cq) : (s.modCq n f).turn = s.turn := rfl
@[simp] theorem modCq_seqs (n : Nat) (f : Cq → Cq) : (s.modCq n f).seqs = s.seqs := rfl
@[simp] theorem modCq_slots (n : Nat) (f : Cq → Cq) : (s.modCq n f).slots = s.slots := rfl
@[simp] theorem modCq_tiles (n : Nat) (f : Cq → Cq) : (s.modCq n f).tiles = s.tiles := rfl
@[simp] theorem modCq_scratch (n : Nat) (f : Cq → Cq) : (s.modCq n f).scratch = s.scratch := rfl
@[simp] theorem modCq_drafts (n : Nat) (f : Cq → Cq) : (s.modCq n f).drafts = s.drafts := rfl
@[simp] theorem modCq_fabric (n : Nat) (f : Cq → Cq) : (s.modCq n f).fabric = s.fabric := rfl
@[simp] theorem modCq_keeper (n : Nat) (f : Cq → Cq) : (s.modCq n f).keeper = s.keeper := rfl
@[simp] theorem modCq_save (n : Nat) (f : Cq → Cq) : (s.modCq n f).save = s.save := rfl
@[simp] theorem modCq_scout (n : Nat) (f : Cq → Cq) : (s.modCq n f).scout = s.scout := rfl
@[simp] theorem modCq_liust (n : Nat) (f : Cq → Cq) : (s.modCq n f).liust = s.liust := rfl
@[simp] theorem modCq_ctrs (n : Nat) (f : Cq → Cq) : (s.modCq n f).ctrs = s.ctrs := rfl
@[simp] theorem modCq_memside (n : Nat) (f : Cq → Cq) : (s.modCq n f).memside = s.memside := rfl
@[simp] theorem modCq_power (n : Nat) (f : Cq → Cq) : (s.modCq n f).power = s.power := rfl
@[simp] theorem modCq_referee (n : Nat) (f : Cq → Cq) : (s.modCq n f).referee = s.referee := rfl
@[simp] theorem modCq_errors (n : Nat) (f : Cq → Cq) : (s.modCq n f).errors = s.errors := rfl
@[simp] theorem modCq_cfgLate (n : Nat) (f : Cq → Cq) : (s.modCq n f).cfgLate = s.cfgLate := rfl
@[simp] theorem modCq_rngSeed (n : Nat) (f : Cq → Cq) : (s.modCq n f).rngSeed = s.rngSeed := rfl
@[simp] theorem modCq_cycles (n : Nat) (f : Cq → Cq) : (s.modCq n f).cycles = s.cycles := rfl
@[simp] theorem modCq_wall (n : Nat) (f : Cq → Cq) : (s.modCq n f).wall = s.wall := rfl
@[simp] theorem modCq_hostTx (n : Nat) (f : Cq → Cq) : (s.modCq n f).hostTx = s.hostTx := rfl
@[simp] theorem modCq_fabTx (n : Nat) (f : Cq → Cq) : (s.modCq n f).fabTx = s.fabTx := rfl
@[simp] theorem modCq_smbTx (n : Nat) (f : Cq → Cq) : (s.modCq n f).smbTx = s.smbTx := rfl

/-! `modSeq` -/
@[simp] theorem modSeq_pending (n : Nat) (f : Seq → Seq) : (s.modSeq n f).pending = s.pending := rfl
@[simp] theorem modSeq_free (n : Nat) (f : Seq → Seq) : (s.modSeq n f).free = s.free := rfl
@[simp] theorem modSeq_mem (n : Nat) (f : Seq → Seq) : (s.modSeq n f).mem = s.mem := rfl
@[simp] theorem modSeq_contexts (n : Nat) (f : Seq → Seq) : (s.modSeq n f).contexts = s.contexts := rfl
@[simp] theorem modSeq_clusters (n : Nat) (f : Seq → Seq) : (s.modSeq n f).clusters = s.clusters := rfl
@[simp] theorem modSeq_sqs (n : Nat) (f : Seq → Seq) : (s.modSeq n f).sqs = s.sqs := rfl
@[simp] theorem modSeq_cqs (n : Nat) (f : Seq → Seq) : (s.modSeq n f).cqs = s.cqs := rfl
@[simp] theorem modSeq_cmds (n : Nat) (f : Seq → Seq) : (s.modSeq n f).cmds = s.cmds := rfl
@[simp] theorem modSeq_nextId (n : Nat) (f : Seq → Seq) : (s.modSeq n f).nextId = s.nextId := rfl
@[simp] theorem modSeq_turn (n : Nat) (f : Seq → Seq) : (s.modSeq n f).turn = s.turn := rfl
@[simp] theorem modSeq_seqs (n : Nat) (f : Seq → Seq) : (s.modSeq n f).seqs = vmod s.seqs n f := rfl
@[simp] theorem modSeq_slots (n : Nat) (f : Seq → Seq) : (s.modSeq n f).slots = s.slots := rfl
@[simp] theorem modSeq_tiles (n : Nat) (f : Seq → Seq) : (s.modSeq n f).tiles = s.tiles := rfl
@[simp] theorem modSeq_scratch (n : Nat) (f : Seq → Seq) : (s.modSeq n f).scratch = s.scratch := rfl
@[simp] theorem modSeq_drafts (n : Nat) (f : Seq → Seq) : (s.modSeq n f).drafts = s.drafts := rfl
@[simp] theorem modSeq_fabric (n : Nat) (f : Seq → Seq) : (s.modSeq n f).fabric = s.fabric := rfl
@[simp] theorem modSeq_keeper (n : Nat) (f : Seq → Seq) : (s.modSeq n f).keeper = s.keeper := rfl
@[simp] theorem modSeq_save (n : Nat) (f : Seq → Seq) : (s.modSeq n f).save = s.save := rfl
@[simp] theorem modSeq_scout (n : Nat) (f : Seq → Seq) : (s.modSeq n f).scout = s.scout := rfl
@[simp] theorem modSeq_liust (n : Nat) (f : Seq → Seq) : (s.modSeq n f).liust = s.liust := rfl
@[simp] theorem modSeq_ctrs (n : Nat) (f : Seq → Seq) : (s.modSeq n f).ctrs = s.ctrs := rfl
@[simp] theorem modSeq_memside (n : Nat) (f : Seq → Seq) : (s.modSeq n f).memside = s.memside := rfl
@[simp] theorem modSeq_power (n : Nat) (f : Seq → Seq) : (s.modSeq n f).power = s.power := rfl
@[simp] theorem modSeq_referee (n : Nat) (f : Seq → Seq) : (s.modSeq n f).referee = s.referee := rfl
@[simp] theorem modSeq_errors (n : Nat) (f : Seq → Seq) : (s.modSeq n f).errors = s.errors := rfl
@[simp] theorem modSeq_cfgLate (n : Nat) (f : Seq → Seq) : (s.modSeq n f).cfgLate = s.cfgLate := rfl
@[simp] theorem modSeq_rngSeed (n : Nat) (f : Seq → Seq) : (s.modSeq n f).rngSeed = s.rngSeed := rfl
@[simp] theorem modSeq_cycles (n : Nat) (f : Seq → Seq) : (s.modSeq n f).cycles = s.cycles := rfl
@[simp] theorem modSeq_wall (n : Nat) (f : Seq → Seq) : (s.modSeq n f).wall = s.wall := rfl
@[simp] theorem modSeq_hostTx (n : Nat) (f : Seq → Seq) : (s.modSeq n f).hostTx = s.hostTx := rfl
@[simp] theorem modSeq_fabTx (n : Nat) (f : Seq → Seq) : (s.modSeq n f).fabTx = s.fabTx := rfl
@[simp] theorem modSeq_smbTx (n : Nat) (f : Seq → Seq) : (s.modSeq n f).smbTx = s.smbTx := rfl

/-! `modDraft` -/
@[simp] theorem modDraft_pending (n : Nat) (f : Draft → Draft) : (s.modDraft n f).pending = s.pending := rfl
@[simp] theorem modDraft_free (n : Nat) (f : Draft → Draft) : (s.modDraft n f).free = s.free := rfl
@[simp] theorem modDraft_mem (n : Nat) (f : Draft → Draft) : (s.modDraft n f).mem = s.mem := rfl
@[simp] theorem modDraft_contexts (n : Nat) (f : Draft → Draft) : (s.modDraft n f).contexts = s.contexts := rfl
@[simp] theorem modDraft_clusters (n : Nat) (f : Draft → Draft) : (s.modDraft n f).clusters = s.clusters := rfl
@[simp] theorem modDraft_sqs (n : Nat) (f : Draft → Draft) : (s.modDraft n f).sqs = s.sqs := rfl
@[simp] theorem modDraft_cqs (n : Nat) (f : Draft → Draft) : (s.modDraft n f).cqs = s.cqs := rfl
@[simp] theorem modDraft_cmds (n : Nat) (f : Draft → Draft) : (s.modDraft n f).cmds = s.cmds := rfl
@[simp] theorem modDraft_nextId (n : Nat) (f : Draft → Draft) : (s.modDraft n f).nextId = s.nextId := rfl
@[simp] theorem modDraft_turn (n : Nat) (f : Draft → Draft) : (s.modDraft n f).turn = s.turn := rfl
@[simp] theorem modDraft_seqs (n : Nat) (f : Draft → Draft) : (s.modDraft n f).seqs = s.seqs := rfl
@[simp] theorem modDraft_slots (n : Nat) (f : Draft → Draft) : (s.modDraft n f).slots = s.slots := rfl
@[simp] theorem modDraft_tiles (n : Nat) (f : Draft → Draft) : (s.modDraft n f).tiles = s.tiles := rfl
@[simp] theorem modDraft_scratch (n : Nat) (f : Draft → Draft) : (s.modDraft n f).scratch = s.scratch := rfl
@[simp] theorem modDraft_drafts (n : Nat) (f : Draft → Draft) : (s.modDraft n f).drafts = vmod s.drafts n f := rfl
@[simp] theorem modDraft_fabric (n : Nat) (f : Draft → Draft) : (s.modDraft n f).fabric = s.fabric := rfl
@[simp] theorem modDraft_keeper (n : Nat) (f : Draft → Draft) : (s.modDraft n f).keeper = s.keeper := rfl
@[simp] theorem modDraft_save (n : Nat) (f : Draft → Draft) : (s.modDraft n f).save = s.save := rfl
@[simp] theorem modDraft_scout (n : Nat) (f : Draft → Draft) : (s.modDraft n f).scout = s.scout := rfl
@[simp] theorem modDraft_liust (n : Nat) (f : Draft → Draft) : (s.modDraft n f).liust = s.liust := rfl
@[simp] theorem modDraft_ctrs (n : Nat) (f : Draft → Draft) : (s.modDraft n f).ctrs = s.ctrs := rfl
@[simp] theorem modDraft_memside (n : Nat) (f : Draft → Draft) : (s.modDraft n f).memside = s.memside := rfl
@[simp] theorem modDraft_power (n : Nat) (f : Draft → Draft) : (s.modDraft n f).power = s.power := rfl
@[simp] theorem modDraft_referee (n : Nat) (f : Draft → Draft) : (s.modDraft n f).referee = s.referee := rfl
@[simp] theorem modDraft_errors (n : Nat) (f : Draft → Draft) : (s.modDraft n f).errors = s.errors := rfl
@[simp] theorem modDraft_cfgLate (n : Nat) (f : Draft → Draft) : (s.modDraft n f).cfgLate = s.cfgLate := rfl
@[simp] theorem modDraft_rngSeed (n : Nat) (f : Draft → Draft) : (s.modDraft n f).rngSeed = s.rngSeed := rfl
@[simp] theorem modDraft_cycles (n : Nat) (f : Draft → Draft) : (s.modDraft n f).cycles = s.cycles := rfl
@[simp] theorem modDraft_wall (n : Nat) (f : Draft → Draft) : (s.modDraft n f).wall = s.wall := rfl
@[simp] theorem modDraft_hostTx (n : Nat) (f : Draft → Draft) : (s.modDraft n f).hostTx = s.hostTx := rfl
@[simp] theorem modDraft_fabTx (n : Nat) (f : Draft → Draft) : (s.modDraft n f).fabTx = s.fabTx := rfl
@[simp] theorem modDraft_smbTx (n : Nat) (f : Draft → Draft) : (s.modDraft n f).smbTx = s.smbTx := rfl

/-! `modFabric` -/
@[simp] theorem modFabric_pending (f : Fabric → Fabric) : (s.modFabric f).pending = s.pending := rfl
@[simp] theorem modFabric_free (f : Fabric → Fabric) : (s.modFabric f).free = s.free := rfl
@[simp] theorem modFabric_mem (f : Fabric → Fabric) : (s.modFabric f).mem = s.mem := rfl
@[simp] theorem modFabric_contexts (f : Fabric → Fabric) : (s.modFabric f).contexts = s.contexts := rfl
@[simp] theorem modFabric_clusters (f : Fabric → Fabric) : (s.modFabric f).clusters = s.clusters := rfl
@[simp] theorem modFabric_sqs (f : Fabric → Fabric) : (s.modFabric f).sqs = s.sqs := rfl
@[simp] theorem modFabric_cqs (f : Fabric → Fabric) : (s.modFabric f).cqs = s.cqs := rfl
@[simp] theorem modFabric_cmds (f : Fabric → Fabric) : (s.modFabric f).cmds = s.cmds := rfl
@[simp] theorem modFabric_nextId (f : Fabric → Fabric) : (s.modFabric f).nextId = s.nextId := rfl
@[simp] theorem modFabric_turn (f : Fabric → Fabric) : (s.modFabric f).turn = s.turn := rfl
@[simp] theorem modFabric_seqs (f : Fabric → Fabric) : (s.modFabric f).seqs = s.seqs := rfl
@[simp] theorem modFabric_slots (f : Fabric → Fabric) : (s.modFabric f).slots = s.slots := rfl
@[simp] theorem modFabric_tiles (f : Fabric → Fabric) : (s.modFabric f).tiles = s.tiles := rfl
@[simp] theorem modFabric_scratch (f : Fabric → Fabric) : (s.modFabric f).scratch = s.scratch := rfl
@[simp] theorem modFabric_drafts (f : Fabric → Fabric) : (s.modFabric f).drafts = s.drafts := rfl
@[simp] theorem modFabric_fabric (f : Fabric → Fabric) : (s.modFabric f).fabric = f s.fabric := rfl
@[simp] theorem modFabric_keeper (f : Fabric → Fabric) : (s.modFabric f).keeper = s.keeper := rfl
@[simp] theorem modFabric_save (f : Fabric → Fabric) : (s.modFabric f).save = s.save := rfl
@[simp] theorem modFabric_scout (f : Fabric → Fabric) : (s.modFabric f).scout = s.scout := rfl
@[simp] theorem modFabric_liust (f : Fabric → Fabric) : (s.modFabric f).liust = s.liust := rfl
@[simp] theorem modFabric_ctrs (f : Fabric → Fabric) : (s.modFabric f).ctrs = s.ctrs := rfl
@[simp] theorem modFabric_memside (f : Fabric → Fabric) : (s.modFabric f).memside = s.memside := rfl
@[simp] theorem modFabric_power (f : Fabric → Fabric) : (s.modFabric f).power = s.power := rfl
@[simp] theorem modFabric_referee (f : Fabric → Fabric) : (s.modFabric f).referee = s.referee := rfl
@[simp] theorem modFabric_errors (f : Fabric → Fabric) : (s.modFabric f).errors = s.errors := rfl
@[simp] theorem modFabric_cfgLate (f : Fabric → Fabric) : (s.modFabric f).cfgLate = s.cfgLate := rfl
@[simp] theorem modFabric_rngSeed (f : Fabric → Fabric) : (s.modFabric f).rngSeed = s.rngSeed := rfl
@[simp] theorem modFabric_cycles (f : Fabric → Fabric) : (s.modFabric f).cycles = s.cycles := rfl
@[simp] theorem modFabric_wall (f : Fabric → Fabric) : (s.modFabric f).wall = s.wall := rfl
@[simp] theorem modFabric_hostTx (f : Fabric → Fabric) : (s.modFabric f).hostTx = s.hostTx := rfl
@[simp] theorem modFabric_fabTx (f : Fabric → Fabric) : (s.modFabric f).fabTx = s.fabTx := rfl
@[simp] theorem modFabric_smbTx (f : Fabric → Fabric) : (s.modFabric f).smbTx = s.smbTx := rfl

/-! `modLiust` -/
@[simp] theorem modLiust_pending (f : Liust → Liust) : (s.modLiust f).pending = s.pending := rfl
@[simp] theorem modLiust_free (f : Liust → Liust) : (s.modLiust f).free = s.free := rfl
@[simp] theorem modLiust_mem (f : Liust → Liust) : (s.modLiust f).mem = s.mem := rfl
@[simp] theorem modLiust_contexts (f : Liust → Liust) : (s.modLiust f).contexts = s.contexts := rfl
@[simp] theorem modLiust_clusters (f : Liust → Liust) : (s.modLiust f).clusters = s.clusters := rfl
@[simp] theorem modLiust_sqs (f : Liust → Liust) : (s.modLiust f).sqs = s.sqs := rfl
@[simp] theorem modLiust_cqs (f : Liust → Liust) : (s.modLiust f).cqs = s.cqs := rfl
@[simp] theorem modLiust_cmds (f : Liust → Liust) : (s.modLiust f).cmds = s.cmds := rfl
@[simp] theorem modLiust_nextId (f : Liust → Liust) : (s.modLiust f).nextId = s.nextId := rfl
@[simp] theorem modLiust_turn (f : Liust → Liust) : (s.modLiust f).turn = s.turn := rfl
@[simp] theorem modLiust_seqs (f : Liust → Liust) : (s.modLiust f).seqs = s.seqs := rfl
@[simp] theorem modLiust_slots (f : Liust → Liust) : (s.modLiust f).slots = s.slots := rfl
@[simp] theorem modLiust_tiles (f : Liust → Liust) : (s.modLiust f).tiles = s.tiles := rfl
@[simp] theorem modLiust_scratch (f : Liust → Liust) : (s.modLiust f).scratch = s.scratch := rfl
@[simp] theorem modLiust_drafts (f : Liust → Liust) : (s.modLiust f).drafts = s.drafts := rfl
@[simp] theorem modLiust_fabric (f : Liust → Liust) : (s.modLiust f).fabric = s.fabric := rfl
@[simp] theorem modLiust_keeper (f : Liust → Liust) : (s.modLiust f).keeper = s.keeper := rfl
@[simp] theorem modLiust_save (f : Liust → Liust) : (s.modLiust f).save = s.save := rfl
@[simp] theorem modLiust_scout (f : Liust → Liust) : (s.modLiust f).scout = s.scout := rfl
@[simp] theorem modLiust_liust (f : Liust → Liust) : (s.modLiust f).liust = f s.liust := rfl
@[simp] theorem modLiust_ctrs (f : Liust → Liust) : (s.modLiust f).ctrs = s.ctrs := rfl
@[simp] theorem modLiust_memside (f : Liust → Liust) : (s.modLiust f).memside = s.memside := rfl
@[simp] theorem modLiust_power (f : Liust → Liust) : (s.modLiust f).power = s.power := rfl
@[simp] theorem modLiust_referee (f : Liust → Liust) : (s.modLiust f).referee = s.referee := rfl
@[simp] theorem modLiust_errors (f : Liust → Liust) : (s.modLiust f).errors = s.errors := rfl
@[simp] theorem modLiust_cfgLate (f : Liust → Liust) : (s.modLiust f).cfgLate = s.cfgLate := rfl
@[simp] theorem modLiust_rngSeed (f : Liust → Liust) : (s.modLiust f).rngSeed = s.rngSeed := rfl
@[simp] theorem modLiust_cycles (f : Liust → Liust) : (s.modLiust f).cycles = s.cycles := rfl
@[simp] theorem modLiust_wall (f : Liust → Liust) : (s.modLiust f).wall = s.wall := rfl
@[simp] theorem modLiust_hostTx (f : Liust → Liust) : (s.modLiust f).hostTx = s.hostTx := rfl
@[simp] theorem modLiust_fabTx (f : Liust → Liust) : (s.modLiust f).fabTx = s.fabTx := rfl
@[simp] theorem modLiust_smbTx (f : Liust → Liust) : (s.modLiust f).smbTx = s.smbTx := rfl

/-! `modPower` -/
@[simp] theorem modPower_pending (f : Power → Power) : (s.modPower f).pending = s.pending := rfl
@[simp] theorem modPower_free (f : Power → Power) : (s.modPower f).free = s.free := rfl
@[simp] theorem modPower_mem (f : Power → Power) : (s.modPower f).mem = s.mem := rfl
@[simp] theorem modPower_contexts (f : Power → Power) : (s.modPower f).contexts = s.contexts := rfl
@[simp] theorem modPower_clusters (f : Power → Power) : (s.modPower f).clusters = s.clusters := rfl
@[simp] theorem modPower_sqs (f : Power → Power) : (s.modPower f).sqs = s.sqs := rfl
@[simp] theorem modPower_cqs (f : Power → Power) : (s.modPower f).cqs = s.cqs := rfl
@[simp] theorem modPower_cmds (f : Power → Power) : (s.modPower f).cmds = s.cmds := rfl
@[simp] theorem modPower_nextId (f : Power → Power) : (s.modPower f).nextId = s.nextId := rfl
@[simp] theorem modPower_turn (f : Power → Power) : (s.modPower f).turn = s.turn := rfl
@[simp] theorem modPower_seqs (f : Power → Power) : (s.modPower f).seqs = s.seqs := rfl
@[simp] theorem modPower_slots (f : Power → Power) : (s.modPower f).slots = s.slots := rfl
@[simp] theorem modPower_tiles (f : Power → Power) : (s.modPower f).tiles = s.tiles := rfl
@[simp] theorem modPower_scratch (f : Power → Power) : (s.modPower f).scratch = s.scratch := rfl
@[simp] theorem modPower_drafts (f : Power → Power) : (s.modPower f).drafts = s.drafts := rfl
@[simp] theorem modPower_fabric (f : Power → Power) : (s.modPower f).fabric = s.fabric := rfl
@[simp] theorem modPower_keeper (f : Power → Power) : (s.modPower f).keeper = s.keeper := rfl
@[simp] theorem modPower_save (f : Power → Power) : (s.modPower f).save = s.save := rfl
@[simp] theorem modPower_scout (f : Power → Power) : (s.modPower f).scout = s.scout := rfl
@[simp] theorem modPower_liust (f : Power → Power) : (s.modPower f).liust = s.liust := rfl
@[simp] theorem modPower_ctrs (f : Power → Power) : (s.modPower f).ctrs = s.ctrs := rfl
@[simp] theorem modPower_memside (f : Power → Power) : (s.modPower f).memside = s.memside := rfl
@[simp] theorem modPower_power (f : Power → Power) : (s.modPower f).power = f s.power := rfl
@[simp] theorem modPower_referee (f : Power → Power) : (s.modPower f).referee = s.referee := rfl
@[simp] theorem modPower_errors (f : Power → Power) : (s.modPower f).errors = s.errors := rfl
@[simp] theorem modPower_cfgLate (f : Power → Power) : (s.modPower f).cfgLate = s.cfgLate := rfl
@[simp] theorem modPower_rngSeed (f : Power → Power) : (s.modPower f).rngSeed = s.rngSeed := rfl
@[simp] theorem modPower_cycles (f : Power → Power) : (s.modPower f).cycles = s.cycles := rfl
@[simp] theorem modPower_wall (f : Power → Power) : (s.modPower f).wall = s.wall := rfl
@[simp] theorem modPower_hostTx (f : Power → Power) : (s.modPower f).hostTx = s.hostTx := rfl
@[simp] theorem modPower_fabTx (f : Power → Power) : (s.modPower f).fabTx = s.fabTx := rfl
@[simp] theorem modPower_smbTx (f : Power → Power) : (s.modPower f).smbTx = s.smbTx := rfl

/-! `modReferee` -/
@[simp] theorem modReferee_pending (f : Referee → Referee) : (s.modReferee f).pending = s.pending := rfl
@[simp] theorem modReferee_free (f : Referee → Referee) : (s.modReferee f).free = s.free := rfl
@[simp] theorem modReferee_mem (f : Referee → Referee) : (s.modReferee f).mem = s.mem := rfl
@[simp] theorem modReferee_contexts (f : Referee → Referee) : (s.modReferee f).contexts = s.contexts := rfl
@[simp] theorem modReferee_clusters (f : Referee → Referee) : (s.modReferee f).clusters = s.clusters := rfl
@[simp] theorem modReferee_sqs (f : Referee → Referee) : (s.modReferee f).sqs = s.sqs := rfl
@[simp] theorem modReferee_cqs (f : Referee → Referee) : (s.modReferee f).cqs = s.cqs := rfl
@[simp] theorem modReferee_cmds (f : Referee → Referee) : (s.modReferee f).cmds = s.cmds := rfl
@[simp] theorem modReferee_nextId (f : Referee → Referee) : (s.modReferee f).nextId = s.nextId := rfl
@[simp] theorem modReferee_turn (f : Referee → Referee) : (s.modReferee f).turn = s.turn := rfl
@[simp] theorem modReferee_seqs (f : Referee → Referee) : (s.modReferee f).seqs = s.seqs := rfl
@[simp] theorem modReferee_slots (f : Referee → Referee) : (s.modReferee f).slots = s.slots := rfl
@[simp] theorem modReferee_tiles (f : Referee → Referee) : (s.modReferee f).tiles = s.tiles := rfl
@[simp] theorem modReferee_scratch (f : Referee → Referee) : (s.modReferee f).scratch = s.scratch := rfl
@[simp] theorem modReferee_drafts (f : Referee → Referee) : (s.modReferee f).drafts = s.drafts := rfl
@[simp] theorem modReferee_fabric (f : Referee → Referee) : (s.modReferee f).fabric = s.fabric := rfl
@[simp] theorem modReferee_keeper (f : Referee → Referee) : (s.modReferee f).keeper = s.keeper := rfl
@[simp] theorem modReferee_save (f : Referee → Referee) : (s.modReferee f).save = s.save := rfl
@[simp] theorem modReferee_scout (f : Referee → Referee) : (s.modReferee f).scout = s.scout := rfl
@[simp] theorem modReferee_liust (f : Referee → Referee) : (s.modReferee f).liust = s.liust := rfl
@[simp] theorem modReferee_ctrs (f : Referee → Referee) : (s.modReferee f).ctrs = s.ctrs := rfl
@[simp] theorem modReferee_memside (f : Referee → Referee) : (s.modReferee f).memside = s.memside := rfl
@[simp] theorem modReferee_power (f : Referee → Referee) : (s.modReferee f).power = s.power := rfl
@[simp] theorem modReferee_referee (f : Referee → Referee) : (s.modReferee f).referee = f s.referee := rfl
@[simp] theorem modReferee_errors (f : Referee → Referee) : (s.modReferee f).errors = s.errors := rfl
@[simp] theorem modReferee_cfgLate (f : Referee → Referee) : (s.modReferee f).cfgLate = s.cfgLate := rfl
@[simp] theorem modReferee_rngSeed (f : Referee → Referee) : (s.modReferee f).rngSeed = s.rngSeed := rfl
@[simp] theorem modReferee_cycles (f : Referee → Referee) : (s.modReferee f).cycles = s.cycles := rfl
@[simp] theorem modReferee_wall (f : Referee → Referee) : (s.modReferee f).wall = s.wall := rfl
@[simp] theorem modReferee_hostTx (f : Referee → Referee) : (s.modReferee f).hostTx = s.hostTx := rfl
@[simp] theorem modReferee_fabTx (f : Referee → Referee) : (s.modReferee f).fabTx = s.fabTx := rfl
@[simp] theorem modReferee_smbTx (f : Referee → Referee) : (s.modReferee f).smbTx = s.smbTx := rfl

/-! `modErrors` -/
@[simp] theorem modErrors_pending (f : Errors → Errors) : (s.modErrors f).pending = s.pending := rfl
@[simp] theorem modErrors_free (f : Errors → Errors) : (s.modErrors f).free = s.free := rfl
@[simp] theorem modErrors_mem (f : Errors → Errors) : (s.modErrors f).mem = s.mem := rfl
@[simp] theorem modErrors_contexts (f : Errors → Errors) : (s.modErrors f).contexts = s.contexts := rfl
@[simp] theorem modErrors_clusters (f : Errors → Errors) : (s.modErrors f).clusters = s.clusters := rfl
@[simp] theorem modErrors_sqs (f : Errors → Errors) : (s.modErrors f).sqs = s.sqs := rfl
@[simp] theorem modErrors_cqs (f : Errors → Errors) : (s.modErrors f).cqs = s.cqs := rfl
@[simp] theorem modErrors_cmds (f : Errors → Errors) : (s.modErrors f).cmds = s.cmds := rfl
@[simp] theorem modErrors_nextId (f : Errors → Errors) : (s.modErrors f).nextId = s.nextId := rfl
@[simp] theorem modErrors_turn (f : Errors → Errors) : (s.modErrors f).turn = s.turn := rfl
@[simp] theorem modErrors_seqs (f : Errors → Errors) : (s.modErrors f).seqs = s.seqs := rfl
@[simp] theorem modErrors_slots (f : Errors → Errors) : (s.modErrors f).slots = s.slots := rfl
@[simp] theorem modErrors_tiles (f : Errors → Errors) : (s.modErrors f).tiles = s.tiles := rfl
@[simp] theorem modErrors_scratch (f : Errors → Errors) : (s.modErrors f).scratch = s.scratch := rfl
@[simp] theorem modErrors_drafts (f : Errors → Errors) : (s.modErrors f).drafts = s.drafts := rfl
@[simp] theorem modErrors_fabric (f : Errors → Errors) : (s.modErrors f).fabric = s.fabric := rfl
@[simp] theorem modErrors_keeper (f : Errors → Errors) : (s.modErrors f).keeper = s.keeper := rfl
@[simp] theorem modErrors_save (f : Errors → Errors) : (s.modErrors f).save = s.save := rfl
@[simp] theorem modErrors_scout (f : Errors → Errors) : (s.modErrors f).scout = s.scout := rfl
@[simp] theorem modErrors_liust (f : Errors → Errors) : (s.modErrors f).liust = s.liust := rfl
@[simp] theorem modErrors_ctrs (f : Errors → Errors) : (s.modErrors f).ctrs = s.ctrs := rfl
@[simp] theorem modErrors_memside (f : Errors → Errors) : (s.modErrors f).memside = s.memside := rfl
@[simp] theorem modErrors_power (f : Errors → Errors) : (s.modErrors f).power = s.power := rfl
@[simp] theorem modErrors_referee (f : Errors → Errors) : (s.modErrors f).referee = s.referee := rfl
@[simp] theorem modErrors_errors (f : Errors → Errors) : (s.modErrors f).errors = f s.errors := rfl
@[simp] theorem modErrors_cfgLate (f : Errors → Errors) : (s.modErrors f).cfgLate = s.cfgLate := rfl
@[simp] theorem modErrors_rngSeed (f : Errors → Errors) : (s.modErrors f).rngSeed = s.rngSeed := rfl
@[simp] theorem modErrors_cycles (f : Errors → Errors) : (s.modErrors f).cycles = s.cycles := rfl
@[simp] theorem modErrors_wall (f : Errors → Errors) : (s.modErrors f).wall = s.wall := rfl
@[simp] theorem modErrors_hostTx (f : Errors → Errors) : (s.modErrors f).hostTx = s.hostTx := rfl
@[simp] theorem modErrors_fabTx (f : Errors → Errors) : (s.modErrors f).fabTx = s.fabTx := rfl
@[simp] theorem modErrors_smbTx (f : Errors → Errors) : (s.modErrors f).smbTx = s.smbTx := rfl

/-! `modMemside` -/
@[simp] theorem modMemside_pending (f : MemSide → MemSide) : (s.modMemside f).pending = s.pending := rfl
@[simp] theorem modMemside_free (f : MemSide → MemSide) : (s.modMemside f).free = s.free := rfl
@[simp] theorem modMemside_mem (f : MemSide → MemSide) : (s.modMemside f).mem = s.mem := rfl
@[simp] theorem modMemside_contexts (f : MemSide → MemSide) : (s.modMemside f).contexts = s.contexts := rfl
@[simp] theorem modMemside_clusters (f : MemSide → MemSide) : (s.modMemside f).clusters = s.clusters := rfl
@[simp] theorem modMemside_sqs (f : MemSide → MemSide) : (s.modMemside f).sqs = s.sqs := rfl
@[simp] theorem modMemside_cqs (f : MemSide → MemSide) : (s.modMemside f).cqs = s.cqs := rfl
@[simp] theorem modMemside_cmds (f : MemSide → MemSide) : (s.modMemside f).cmds = s.cmds := rfl
@[simp] theorem modMemside_nextId (f : MemSide → MemSide) : (s.modMemside f).nextId = s.nextId := rfl
@[simp] theorem modMemside_turn (f : MemSide → MemSide) : (s.modMemside f).turn = s.turn := rfl
@[simp] theorem modMemside_seqs (f : MemSide → MemSide) : (s.modMemside f).seqs = s.seqs := rfl
@[simp] theorem modMemside_slots (f : MemSide → MemSide) : (s.modMemside f).slots = s.slots := rfl
@[simp] theorem modMemside_tiles (f : MemSide → MemSide) : (s.modMemside f).tiles = s.tiles := rfl
@[simp] theorem modMemside_scratch (f : MemSide → MemSide) : (s.modMemside f).scratch = s.scratch := rfl
@[simp] theorem modMemside_drafts (f : MemSide → MemSide) : (s.modMemside f).drafts = s.drafts := rfl
@[simp] theorem modMemside_fabric (f : MemSide → MemSide) : (s.modMemside f).fabric = s.fabric := rfl
@[simp] theorem modMemside_keeper (f : MemSide → MemSide) : (s.modMemside f).keeper = s.keeper := rfl
@[simp] theorem modMemside_save (f : MemSide → MemSide) : (s.modMemside f).save = s.save := rfl
@[simp] theorem modMemside_scout (f : MemSide → MemSide) : (s.modMemside f).scout = s.scout := rfl
@[simp] theorem modMemside_liust (f : MemSide → MemSide) : (s.modMemside f).liust = s.liust := rfl
@[simp] theorem modMemside_ctrs (f : MemSide → MemSide) : (s.modMemside f).ctrs = s.ctrs := rfl
@[simp] theorem modMemside_memside (f : MemSide → MemSide) : (s.modMemside f).memside = f s.memside := rfl
@[simp] theorem modMemside_power (f : MemSide → MemSide) : (s.modMemside f).power = s.power := rfl
@[simp] theorem modMemside_referee (f : MemSide → MemSide) : (s.modMemside f).referee = s.referee := rfl
@[simp] theorem modMemside_errors (f : MemSide → MemSide) : (s.modMemside f).errors = s.errors := rfl
@[simp] theorem modMemside_cfgLate (f : MemSide → MemSide) : (s.modMemside f).cfgLate = s.cfgLate := rfl
@[simp] theorem modMemside_rngSeed (f : MemSide → MemSide) : (s.modMemside f).rngSeed = s.rngSeed := rfl
@[simp] theorem modMemside_cycles (f : MemSide → MemSide) : (s.modMemside f).cycles = s.cycles := rfl
@[simp] theorem modMemside_wall (f : MemSide → MemSide) : (s.modMemside f).wall = s.wall := rfl
@[simp] theorem modMemside_hostTx (f : MemSide → MemSide) : (s.modMemside f).hostTx = s.hostTx := rfl
@[simp] theorem modMemside_fabTx (f : MemSide → MemSide) : (s.modMemside f).fabTx = s.fabTx := rfl
@[simp] theorem modMemside_smbTx (f : MemSide → MemSide) : (s.modMemside f).smbTx = s.smbTx := rfl

/-! `modKeeper` -/
@[simp] theorem modKeeper_pending (f : Keeper → Keeper) : (s.modKeeper f).pending = s.pending := rfl
@[simp] theorem modKeeper_free (f : Keeper → Keeper) : (s.modKeeper f).free = s.free := rfl
@[simp] theorem modKeeper_mem (f : Keeper → Keeper) : (s.modKeeper f).mem = s.mem := rfl
@[simp] theorem modKeeper_contexts (f : Keeper → Keeper) : (s.modKeeper f).contexts = s.contexts := rfl
@[simp] theorem modKeeper_clusters (f : Keeper → Keeper) : (s.modKeeper f).clusters = s.clusters := rfl
@[simp] theorem modKeeper_sqs (f : Keeper → Keeper) : (s.modKeeper f).sqs = s.sqs := rfl
@[simp] theorem modKeeper_cqs (f : Keeper → Keeper) : (s.modKeeper f).cqs = s.cqs := rfl
@[simp] theorem modKeeper_cmds (f : Keeper → Keeper) : (s.modKeeper f).cmds = s.cmds := rfl
@[simp] theorem modKeeper_nextId (f : Keeper → Keeper) : (s.modKeeper f).nextId = s.nextId := rfl
@[simp] theorem modKeeper_turn (f : Keeper → Keeper) : (s.modKeeper f).turn = s.turn := rfl
@[simp] theorem modKeeper_seqs (f : Keeper → Keeper) : (s.modKeeper f).seqs = s.seqs := rfl
@[simp] theorem modKeeper_slots (f : Keeper → Keeper) : (s.modKeeper f).slots = s.slots := rfl
@[simp] theorem modKeeper_tiles (f : Keeper → Keeper) : (s.modKeeper f).tiles = s.tiles := rfl
@[simp] theorem modKeeper_scratch (f : Keeper → Keeper) : (s.modKeeper f).scratch = s.scratch := rfl
@[simp] theorem modKeeper_drafts (f : Keeper → Keeper) : (s.modKeeper f).drafts = s.drafts := rfl
@[simp] theorem modKeeper_fabric (f : Keeper → Keeper) : (s.modKeeper f).fabric = s.fabric := rfl
@[simp] theorem modKeeper_keeper (f : Keeper → Keeper) : (s.modKeeper f).keeper = f s.keeper := rfl
@[simp] theorem modKeeper_save (f : Keeper → Keeper) : (s.modKeeper f).save = s.save := rfl
@[simp] theorem modKeeper_scout (f : Keeper → Keeper) : (s.modKeeper f).scout = s.scout := rfl
@[simp] theorem modKeeper_liust (f : Keeper → Keeper) : (s.modKeeper f).liust = s.liust := rfl
@[simp] theorem modKeeper_ctrs (f : Keeper → Keeper) : (s.modKeeper f).ctrs = s.ctrs := rfl
@[simp] theorem modKeeper_memside (f : Keeper → Keeper) : (s.modKeeper f).memside = s.memside := rfl
@[simp] theorem modKeeper_power (f : Keeper → Keeper) : (s.modKeeper f).power = s.power := rfl
@[simp] theorem modKeeper_referee (f : Keeper → Keeper) : (s.modKeeper f).referee = s.referee := rfl
@[simp] theorem modKeeper_errors (f : Keeper → Keeper) : (s.modKeeper f).errors = s.errors := rfl
@[simp] theorem modKeeper_cfgLate (f : Keeper → Keeper) : (s.modKeeper f).cfgLate = s.cfgLate := rfl
@[simp] theorem modKeeper_rngSeed (f : Keeper → Keeper) : (s.modKeeper f).rngSeed = s.rngSeed := rfl
@[simp] theorem modKeeper_cycles (f : Keeper → Keeper) : (s.modKeeper f).cycles = s.cycles := rfl
@[simp] theorem modKeeper_wall (f : Keeper → Keeper) : (s.modKeeper f).wall = s.wall := rfl
@[simp] theorem modKeeper_hostTx (f : Keeper → Keeper) : (s.modKeeper f).hostTx = s.hostTx := rfl
@[simp] theorem modKeeper_fabTx (f : Keeper → Keeper) : (s.modKeeper f).fabTx = s.fabTx := rfl
@[simp] theorem modKeeper_smbTx (f : Keeper → Keeper) : (s.modKeeper f).smbTx = s.smbTx := rfl

/-! `modSave` -/
@[simp] theorem modSave_pending (f : Save → Save) : (s.modSave f).pending = s.pending := rfl
@[simp] theorem modSave_free (f : Save → Save) : (s.modSave f).free = s.free := rfl
@[simp] theorem modSave_mem (f : Save → Save) : (s.modSave f).mem = s.mem := rfl
@[simp] theorem modSave_contexts (f : Save → Save) : (s.modSave f).contexts = s.contexts := rfl
@[simp] theorem modSave_clusters (f : Save → Save) : (s.modSave f).clusters = s.clusters := rfl
@[simp] theorem modSave_sqs (f : Save → Save) : (s.modSave f).sqs = s.sqs := rfl
@[simp] theorem modSave_cqs (f : Save → Save) : (s.modSave f).cqs = s.cqs := rfl
@[simp] theorem modSave_cmds (f : Save → Save) : (s.modSave f).cmds = s.cmds := rfl
@[simp] theorem modSave_nextId (f : Save → Save) : (s.modSave f).nextId = s.nextId := rfl
@[simp] theorem modSave_turn (f : Save → Save) : (s.modSave f).turn = s.turn := rfl
@[simp] theorem modSave_seqs (f : Save → Save) : (s.modSave f).seqs = s.seqs := rfl
@[simp] theorem modSave_slots (f : Save → Save) : (s.modSave f).slots = s.slots := rfl
@[simp] theorem modSave_tiles (f : Save → Save) : (s.modSave f).tiles = s.tiles := rfl
@[simp] theorem modSave_scratch (f : Save → Save) : (s.modSave f).scratch = s.scratch := rfl
@[simp] theorem modSave_drafts (f : Save → Save) : (s.modSave f).drafts = s.drafts := rfl
@[simp] theorem modSave_fabric (f : Save → Save) : (s.modSave f).fabric = s.fabric := rfl
@[simp] theorem modSave_keeper (f : Save → Save) : (s.modSave f).keeper = s.keeper := rfl
@[simp] theorem modSave_save (f : Save → Save) : (s.modSave f).save = f s.save := rfl
@[simp] theorem modSave_scout (f : Save → Save) : (s.modSave f).scout = s.scout := rfl
@[simp] theorem modSave_liust (f : Save → Save) : (s.modSave f).liust = s.liust := rfl
@[simp] theorem modSave_ctrs (f : Save → Save) : (s.modSave f).ctrs = s.ctrs := rfl
@[simp] theorem modSave_memside (f : Save → Save) : (s.modSave f).memside = s.memside := rfl
@[simp] theorem modSave_power (f : Save → Save) : (s.modSave f).power = s.power := rfl
@[simp] theorem modSave_referee (f : Save → Save) : (s.modSave f).referee = s.referee := rfl
@[simp] theorem modSave_errors (f : Save → Save) : (s.modSave f).errors = s.errors := rfl
@[simp] theorem modSave_cfgLate (f : Save → Save) : (s.modSave f).cfgLate = s.cfgLate := rfl
@[simp] theorem modSave_rngSeed (f : Save → Save) : (s.modSave f).rngSeed = s.rngSeed := rfl
@[simp] theorem modSave_cycles (f : Save → Save) : (s.modSave f).cycles = s.cycles := rfl
@[simp] theorem modSave_wall (f : Save → Save) : (s.modSave f).wall = s.wall := rfl
@[simp] theorem modSave_hostTx (f : Save → Save) : (s.modSave f).hostTx = s.hostTx := rfl
@[simp] theorem modSave_fabTx (f : Save → Save) : (s.modSave f).fabTx = s.fabTx := rfl
@[simp] theorem modSave_smbTx (f : Save → Save) : (s.modSave f).smbTx = s.smbTx := rfl

/-! `modScout` -/
@[simp] theorem modScout_pending (f : Scout → Scout) : (s.modScout f).pending = s.pending := rfl
@[simp] theorem modScout_free (f : Scout → Scout) : (s.modScout f).free = s.free := rfl
@[simp] theorem modScout_mem (f : Scout → Scout) : (s.modScout f).mem = s.mem := rfl
@[simp] theorem modScout_contexts (f : Scout → Scout) : (s.modScout f).contexts = s.contexts := rfl
@[simp] theorem modScout_clusters (f : Scout → Scout) : (s.modScout f).clusters = s.clusters := rfl
@[simp] theorem modScout_sqs (f : Scout → Scout) : (s.modScout f).sqs = s.sqs := rfl
@[simp] theorem modScout_cqs (f : Scout → Scout) : (s.modScout f).cqs = s.cqs := rfl
@[simp] theorem modScout_cmds (f : Scout → Scout) : (s.modScout f).cmds = s.cmds := rfl
@[simp] theorem modScout_nextId (f : Scout → Scout) : (s.modScout f).nextId = s.nextId := rfl
@[simp] theorem modScout_turn (f : Scout → Scout) : (s.modScout f).turn = s.turn := rfl
@[simp] theorem modScout_seqs (f : Scout → Scout) : (s.modScout f).seqs = s.seqs := rfl
@[simp] theorem modScout_slots (f : Scout → Scout) : (s.modScout f).slots = s.slots := rfl
@[simp] theorem modScout_tiles (f : Scout → Scout) : (s.modScout f).tiles = s.tiles := rfl
@[simp] theorem modScout_scratch (f : Scout → Scout) : (s.modScout f).scratch = s.scratch := rfl
@[simp] theorem modScout_drafts (f : Scout → Scout) : (s.modScout f).drafts = s.drafts := rfl
@[simp] theorem modScout_fabric (f : Scout → Scout) : (s.modScout f).fabric = s.fabric := rfl
@[simp] theorem modScout_keeper (f : Scout → Scout) : (s.modScout f).keeper = s.keeper := rfl
@[simp] theorem modScout_save (f : Scout → Scout) : (s.modScout f).save = s.save := rfl
@[simp] theorem modScout_scout (f : Scout → Scout) : (s.modScout f).scout = f s.scout := rfl
@[simp] theorem modScout_liust (f : Scout → Scout) : (s.modScout f).liust = s.liust := rfl
@[simp] theorem modScout_ctrs (f : Scout → Scout) : (s.modScout f).ctrs = s.ctrs := rfl
@[simp] theorem modScout_memside (f : Scout → Scout) : (s.modScout f).memside = s.memside := rfl
@[simp] theorem modScout_power (f : Scout → Scout) : (s.modScout f).power = s.power := rfl
@[simp] theorem modScout_referee (f : Scout → Scout) : (s.modScout f).referee = s.referee := rfl
@[simp] theorem modScout_errors (f : Scout → Scout) : (s.modScout f).errors = s.errors := rfl
@[simp] theorem modScout_cfgLate (f : Scout → Scout) : (s.modScout f).cfgLate = s.cfgLate := rfl
@[simp] theorem modScout_rngSeed (f : Scout → Scout) : (s.modScout f).rngSeed = s.rngSeed := rfl
@[simp] theorem modScout_cycles (f : Scout → Scout) : (s.modScout f).cycles = s.cycles := rfl
@[simp] theorem modScout_wall (f : Scout → Scout) : (s.modScout f).wall = s.wall := rfl
@[simp] theorem modScout_hostTx (f : Scout → Scout) : (s.modScout f).hostTx = s.hostTx := rfl
@[simp] theorem modScout_fabTx (f : Scout → Scout) : (s.modScout f).fabTx = s.fabTx := rfl
@[simp] theorem modScout_smbTx (f : Scout → Scout) : (s.modScout f).smbTx = s.smbTx := rfl

/-! `modPort` -/
@[simp] theorem modPort_pending (n : Nat) (f : Port → Port) : (s.modPort n f).pending = s.pending := rfl
@[simp] theorem modPort_free (n : Nat) (f : Port → Port) : (s.modPort n f).free = s.free := rfl
@[simp] theorem modPort_mem (n : Nat) (f : Port → Port) : (s.modPort n f).mem = s.mem := rfl
@[simp] theorem modPort_contexts (n : Nat) (f : Port → Port) : (s.modPort n f).contexts = s.contexts := rfl
@[simp] theorem modPort_clusters (n : Nat) (f : Port → Port) : (s.modPort n f).clusters = s.clusters := rfl
@[simp] theorem modPort_sqs (n : Nat) (f : Port → Port) : (s.modPort n f).sqs = s.sqs := rfl
@[simp] theorem modPort_cqs (n : Nat) (f : Port → Port) : (s.modPort n f).cqs = s.cqs := rfl
@[simp] theorem modPort_cmds (n : Nat) (f : Port → Port) : (s.modPort n f).cmds = s.cmds := rfl
@[simp] theorem modPort_nextId (n : Nat) (f : Port → Port) : (s.modPort n f).nextId = s.nextId := rfl
@[simp] theorem modPort_turn (n : Nat) (f : Port → Port) : (s.modPort n f).turn = s.turn := rfl
@[simp] theorem modPort_seqs (n : Nat) (f : Port → Port) : (s.modPort n f).seqs = s.seqs := rfl
@[simp] theorem modPort_slots (n : Nat) (f : Port → Port) : (s.modPort n f).slots = s.slots := rfl
@[simp] theorem modPort_tiles (n : Nat) (f : Port → Port) : (s.modPort n f).tiles = s.tiles := rfl
@[simp] theorem modPort_scratch (n : Nat) (f : Port → Port) : (s.modPort n f).scratch = s.scratch := rfl
@[simp] theorem modPort_drafts (n : Nat) (f : Port → Port) : (s.modPort n f).drafts = s.drafts := rfl
@[simp] theorem modPort_fabric (n : Nat) (f : Port → Port) : (s.modPort n f).fabric = { s.fabric with ports := vmod s.fabric.ports n f } := rfl
@[simp] theorem modPort_keeper (n : Nat) (f : Port → Port) : (s.modPort n f).keeper = s.keeper := rfl
@[simp] theorem modPort_save (n : Nat) (f : Port → Port) : (s.modPort n f).save = s.save := rfl
@[simp] theorem modPort_scout (n : Nat) (f : Port → Port) : (s.modPort n f).scout = s.scout := rfl
@[simp] theorem modPort_liust (n : Nat) (f : Port → Port) : (s.modPort n f).liust = s.liust := rfl
@[simp] theorem modPort_ctrs (n : Nat) (f : Port → Port) : (s.modPort n f).ctrs = s.ctrs := rfl
@[simp] theorem modPort_memside (n : Nat) (f : Port → Port) : (s.modPort n f).memside = s.memside := rfl
@[simp] theorem modPort_power (n : Nat) (f : Port → Port) : (s.modPort n f).power = s.power := rfl
@[simp] theorem modPort_referee (n : Nat) (f : Port → Port) : (s.modPort n f).referee = s.referee := rfl
@[simp] theorem modPort_errors (n : Nat) (f : Port → Port) : (s.modPort n f).errors = s.errors := rfl
@[simp] theorem modPort_cfgLate (n : Nat) (f : Port → Port) : (s.modPort n f).cfgLate = s.cfgLate := rfl
@[simp] theorem modPort_rngSeed (n : Nat) (f : Port → Port) : (s.modPort n f).rngSeed = s.rngSeed := rfl
@[simp] theorem modPort_cycles (n : Nat) (f : Port → Port) : (s.modPort n f).cycles = s.cycles := rfl
@[simp] theorem modPort_wall (n : Nat) (f : Port → Port) : (s.modPort n f).wall = s.wall := rfl
@[simp] theorem modPort_hostTx (n : Nat) (f : Port → Port) : (s.modPort n f).hostTx = s.hostTx := rfl
@[simp] theorem modPort_fabTx (n : Nat) (f : Port → Port) : (s.modPort n f).fabTx = s.fabTx := rfl
@[simp] theorem modPort_smbTx (n : Nat) (f : Port → Port) : (s.modPort n f).smbTx = s.smbTx := rfl

/-! `modFlash` -/
@[simp] theorem modFlash_pending (f : Flash → Flash) : (s.modFlash f).pending = s.pending := rfl
@[simp] theorem modFlash_free (f : Flash → Flash) : (s.modFlash f).free = s.free := rfl
@[simp] theorem modFlash_mem (f : Flash → Flash) : (s.modFlash f).mem = s.mem := rfl
@[simp] theorem modFlash_contexts (f : Flash → Flash) : (s.modFlash f).contexts = s.contexts := rfl
@[simp] theorem modFlash_clusters (f : Flash → Flash) : (s.modFlash f).clusters = s.clusters := rfl
@[simp] theorem modFlash_sqs (f : Flash → Flash) : (s.modFlash f).sqs = s.sqs := rfl
@[simp] theorem modFlash_cqs (f : Flash → Flash) : (s.modFlash f).cqs = s.cqs := rfl
@[simp] theorem modFlash_cmds (f : Flash → Flash) : (s.modFlash f).cmds = s.cmds := rfl
@[simp] theorem modFlash_nextId (f : Flash → Flash) : (s.modFlash f).nextId = s.nextId := rfl
@[simp] theorem modFlash_turn (f : Flash → Flash) : (s.modFlash f).turn = s.turn := rfl
@[simp] theorem modFlash_seqs (f : Flash → Flash) : (s.modFlash f).seqs = s.seqs := rfl
@[simp] theorem modFlash_slots (f : Flash → Flash) : (s.modFlash f).slots = s.slots := rfl
@[simp] theorem modFlash_tiles (f : Flash → Flash) : (s.modFlash f).tiles = s.tiles := rfl
@[simp] theorem modFlash_scratch (f : Flash → Flash) : (s.modFlash f).scratch = s.scratch := rfl
@[simp] theorem modFlash_drafts (f : Flash → Flash) : (s.modFlash f).drafts = s.drafts := rfl
@[simp] theorem modFlash_fabric (f : Flash → Flash) : (s.modFlash f).fabric = s.fabric := rfl
@[simp] theorem modFlash_keeper (f : Flash → Flash) : (s.modFlash f).keeper = s.keeper := rfl
@[simp] theorem modFlash_save (f : Flash → Flash) : (s.modFlash f).save = s.save := rfl
@[simp] theorem modFlash_scout (f : Flash → Flash) : (s.modFlash f).scout = s.scout := rfl
@[simp] theorem modFlash_liust (f : Flash → Flash) : (s.modFlash f).liust = s.liust := rfl
@[simp] theorem modFlash_ctrs (f : Flash → Flash) : (s.modFlash f).ctrs = s.ctrs := rfl
@[simp] theorem modFlash_memside (f : Flash → Flash) : (s.modFlash f).memside = s.memside := rfl
@[simp] theorem modFlash_power (f : Flash → Flash) : (s.modFlash f).power = s.power := rfl
@[simp] theorem modFlash_referee (f : Flash → Flash) : (s.modFlash f).referee = { s.referee with flash := f s.referee.flash } := rfl
@[simp] theorem modFlash_errors (f : Flash → Flash) : (s.modFlash f).errors = s.errors := rfl
@[simp] theorem modFlash_cfgLate (f : Flash → Flash) : (s.modFlash f).cfgLate = s.cfgLate := rfl
@[simp] theorem modFlash_rngSeed (f : Flash → Flash) : (s.modFlash f).rngSeed = s.rngSeed := rfl
@[simp] theorem modFlash_cycles (f : Flash → Flash) : (s.modFlash f).cycles = s.cycles := rfl
@[simp] theorem modFlash_wall (f : Flash → Flash) : (s.modFlash f).wall = s.wall := rfl
@[simp] theorem modFlash_hostTx (f : Flash → Flash) : (s.modFlash f).hostTx = s.hostTx := rfl
@[simp] theorem modFlash_fabTx (f : Flash → Flash) : (s.modFlash f).fabTx = s.fabTx := rfl
@[simp] theorem modFlash_smbTx (f : Flash → Flash) : (s.modFlash f).smbTx = s.smbTx := rfl

/-! `modFuses` -/
@[simp] theorem modFuses_pending (f : Fuses → Fuses) : (s.modFuses f).pending = s.pending := rfl
@[simp] theorem modFuses_free (f : Fuses → Fuses) : (s.modFuses f).free = s.free := rfl
@[simp] theorem modFuses_mem (f : Fuses → Fuses) : (s.modFuses f).mem = s.mem := rfl
@[simp] theorem modFuses_contexts (f : Fuses → Fuses) : (s.modFuses f).contexts = s.contexts := rfl
@[simp] theorem modFuses_clusters (f : Fuses → Fuses) : (s.modFuses f).clusters = s.clusters := rfl
@[simp] theorem modFuses_sqs (f : Fuses → Fuses) : (s.modFuses f).sqs = s.sqs := rfl
@[simp] theorem modFuses_cqs (f : Fuses → Fuses) : (s.modFuses f).cqs = s.cqs := rfl
@[simp] theorem modFuses_cmds (f : Fuses → Fuses) : (s.modFuses f).cmds = s.cmds := rfl
@[simp] theorem modFuses_nextId (f : Fuses → Fuses) : (s.modFuses f).nextId = s.nextId := rfl
@[simp] theorem modFuses_turn (f : Fuses → Fuses) : (s.modFuses f).turn = s.turn := rfl
@[simp] theorem modFuses_seqs (f : Fuses → Fuses) : (s.modFuses f).seqs = s.seqs := rfl
@[simp] theorem modFuses_slots (f : Fuses → Fuses) : (s.modFuses f).slots = s.slots := rfl
@[simp] theorem modFuses_tiles (f : Fuses → Fuses) : (s.modFuses f).tiles = s.tiles := rfl
@[simp] theorem modFuses_scratch (f : Fuses → Fuses) : (s.modFuses f).scratch = s.scratch := rfl
@[simp] theorem modFuses_drafts (f : Fuses → Fuses) : (s.modFuses f).drafts = s.drafts := rfl
@[simp] theorem modFuses_fabric (f : Fuses → Fuses) : (s.modFuses f).fabric = s.fabric := rfl
@[simp] theorem modFuses_keeper (f : Fuses → Fuses) : (s.modFuses f).keeper = s.keeper := rfl
@[simp] theorem modFuses_save (f : Fuses → Fuses) : (s.modFuses f).save = s.save := rfl
@[simp] theorem modFuses_scout (f : Fuses → Fuses) : (s.modFuses f).scout = s.scout := rfl
@[simp] theorem modFuses_liust (f : Fuses → Fuses) : (s.modFuses f).liust = s.liust := rfl
@[simp] theorem modFuses_ctrs (f : Fuses → Fuses) : (s.modFuses f).ctrs = s.ctrs := rfl
@[simp] theorem modFuses_memside (f : Fuses → Fuses) : (s.modFuses f).memside = s.memside := rfl
@[simp] theorem modFuses_power (f : Fuses → Fuses) : (s.modFuses f).power = s.power := rfl
@[simp] theorem modFuses_referee (f : Fuses → Fuses) : (s.modFuses f).referee = { s.referee with fuses := f s.referee.fuses } := rfl
@[simp] theorem modFuses_errors (f : Fuses → Fuses) : (s.modFuses f).errors = s.errors := rfl
@[simp] theorem modFuses_cfgLate (f : Fuses → Fuses) : (s.modFuses f).cfgLate = s.cfgLate := rfl
@[simp] theorem modFuses_rngSeed (f : Fuses → Fuses) : (s.modFuses f).rngSeed = s.rngSeed := rfl
@[simp] theorem modFuses_cycles (f : Fuses → Fuses) : (s.modFuses f).cycles = s.cycles := rfl
@[simp] theorem modFuses_wall (f : Fuses → Fuses) : (s.modFuses f).wall = s.wall := rfl
@[simp] theorem modFuses_hostTx (f : Fuses → Fuses) : (s.modFuses f).hostTx = s.hostTx := rfl
@[simp] theorem modFuses_fabTx (f : Fuses → Fuses) : (s.modFuses f).fabTx = s.fabTx := rfl
@[simp] theorem modFuses_smbTx (f : Fuses → Fuses) : (s.modFuses f).smbTx = s.smbTx := rfl

/-! `modDomain` -/
@[simp] theorem modDomain_pending (c : Nat) (f : Domain → Domain) : (s.modDomain c f).pending = s.pending := rfl
@[simp] theorem modDomain_free (c : Nat) (f : Domain → Domain) : (s.modDomain c f).free = s.free := rfl
@[simp] theorem modDomain_mem (c : Nat) (f : Domain → Domain) : (s.modDomain c f).mem = s.mem := rfl
@[simp] theorem modDomain_contexts (c : Nat) (f : Domain → Domain) : (s.modDomain c f).contexts = s.contexts := rfl
@[simp] theorem modDomain_clusters (c : Nat) (f : Domain → Domain) : (s.modDomain c f).clusters = s.clusters := rfl
@[simp] theorem modDomain_sqs (c : Nat) (f : Domain → Domain) : (s.modDomain c f).sqs = s.sqs := rfl
@[simp] theorem modDomain_cqs (c : Nat) (f : Domain → Domain) : (s.modDomain c f).cqs = s.cqs := rfl
@[simp] theorem modDomain_cmds (c : Nat) (f : Domain → Domain) : (s.modDomain c f).cmds = s.cmds := rfl
@[simp] theorem modDomain_nextId (c : Nat) (f : Domain → Domain) : (s.modDomain c f).nextId = s.nextId := rfl
@[simp] theorem modDomain_turn (c : Nat) (f : Domain → Domain) : (s.modDomain c f).turn = s.turn := rfl
@[simp] theorem modDomain_seqs (c : Nat) (f : Domain → Domain) : (s.modDomain c f).seqs = s.seqs := rfl
@[simp] theorem modDomain_slots (c : Nat) (f : Domain → Domain) : (s.modDomain c f).slots = s.slots := rfl
@[simp] theorem modDomain_tiles (c : Nat) (f : Domain → Domain) : (s.modDomain c f).tiles = s.tiles := rfl
@[simp] theorem modDomain_scratch (c : Nat) (f : Domain → Domain) : (s.modDomain c f).scratch = s.scratch := rfl
@[simp] theorem modDomain_drafts (c : Nat) (f : Domain → Domain) : (s.modDomain c f).drafts = s.drafts := rfl
@[simp] theorem modDomain_fabric (c : Nat) (f : Domain → Domain) : (s.modDomain c f).fabric = s.fabric := rfl
@[simp] theorem modDomain_keeper (c : Nat) (f : Domain → Domain) : (s.modDomain c f).keeper = s.keeper := rfl
@[simp] theorem modDomain_save (c : Nat) (f : Domain → Domain) : (s.modDomain c f).save = s.save := rfl
@[simp] theorem modDomain_scout (c : Nat) (f : Domain → Domain) : (s.modDomain c f).scout = s.scout := rfl
@[simp] theorem modDomain_liust (c : Nat) (f : Domain → Domain) : (s.modDomain c f).liust = s.liust := rfl
@[simp] theorem modDomain_ctrs (c : Nat) (f : Domain → Domain) : (s.modDomain c f).ctrs = s.ctrs := rfl
@[simp] theorem modDomain_memside (c : Nat) (f : Domain → Domain) : (s.modDomain c f).memside = s.memside := rfl
@[simp] theorem modDomain_power (c : Nat) (f : Domain → Domain) : (s.modDomain c f).power = { s.power with domains := s.power.domains.map (fun d => if d.1 == c then (c, f d.2) else d) } := rfl
@[simp] theorem modDomain_referee (c : Nat) (f : Domain → Domain) : (s.modDomain c f).referee = s.referee := rfl
@[simp] theorem modDomain_errors (c : Nat) (f : Domain → Domain) : (s.modDomain c f).errors = s.errors := rfl
@[simp] theorem modDomain_cfgLate (c : Nat) (f : Domain → Domain) : (s.modDomain c f).cfgLate = s.cfgLate := rfl
@[simp] theorem modDomain_rngSeed (c : Nat) (f : Domain → Domain) : (s.modDomain c f).rngSeed = s.rngSeed := rfl
@[simp] theorem modDomain_cycles (c : Nat) (f : Domain → Domain) : (s.modDomain c f).cycles = s.cycles := rfl
@[simp] theorem modDomain_wall (c : Nat) (f : Domain → Domain) : (s.modDomain c f).wall = s.wall := rfl
@[simp] theorem modDomain_hostTx (c : Nat) (f : Domain → Domain) : (s.modDomain c f).hostTx = s.hostTx := rfl
@[simp] theorem modDomain_fabTx (c : Nat) (f : Domain → Domain) : (s.modDomain c f).fabTx = s.fabTx := rfl
@[simp] theorem modDomain_smbTx (c : Nat) (f : Domain → Domain) : (s.modDomain c f).smbTx = s.smbTx := rfl

/-! `sendHost` -/
@[simp] theorem sendHost_pending (t : HostTx) : (s.sendHost t).pending = s.pending := rfl
@[simp] theorem sendHost_free (t : HostTx) : (s.sendHost t).free = s.free := rfl
@[simp] theorem sendHost_mem (t : HostTx) : (s.sendHost t).mem = s.mem := rfl
@[simp] theorem sendHost_contexts (t : HostTx) : (s.sendHost t).contexts = s.contexts := rfl
@[simp] theorem sendHost_clusters (t : HostTx) : (s.sendHost t).clusters = s.clusters := rfl
@[simp] theorem sendHost_sqs (t : HostTx) : (s.sendHost t).sqs = s.sqs := rfl
@[simp] theorem sendHost_cqs (t : HostTx) : (s.sendHost t).cqs = s.cqs := rfl
@[simp] theorem sendHost_cmds (t : HostTx) : (s.sendHost t).cmds = s.cmds := rfl
@[simp] theorem sendHost_nextId (t : HostTx) : (s.sendHost t).nextId = s.nextId := rfl
@[simp] theorem sendHost_turn (t : HostTx) : (s.sendHost t).turn = s.turn := rfl
@[simp] theorem sendHost_seqs (t : HostTx) : (s.sendHost t).seqs = s.seqs := rfl
@[simp] theorem sendHost_slots (t : HostTx) : (s.sendHost t).slots = s.slots := rfl
@[simp] theorem sendHost_tiles (t : HostTx) : (s.sendHost t).tiles = s.tiles := rfl
@[simp] theorem sendHost_scratch (t : HostTx) : (s.sendHost t).scratch = s.scratch := rfl
@[simp] theorem sendHost_drafts (t : HostTx) : (s.sendHost t).drafts = s.drafts := rfl
@[simp] theorem sendHost_fabric (t : HostTx) : (s.sendHost t).fabric = s.fabric := rfl
@[simp] theorem sendHost_keeper (t : HostTx) : (s.sendHost t).keeper = s.keeper := rfl
@[simp] theorem sendHost_save (t : HostTx) : (s.sendHost t).save = s.save := rfl
@[simp] theorem sendHost_scout (t : HostTx) : (s.sendHost t).scout = s.scout := rfl
@[simp] theorem sendHost_liust (t : HostTx) : (s.sendHost t).liust = s.liust := rfl
@[simp] theorem sendHost_ctrs (t : HostTx) : (s.sendHost t).ctrs = s.ctrs := rfl
@[simp] theorem sendHost_memside (t : HostTx) : (s.sendHost t).memside = s.memside := rfl
@[simp] theorem sendHost_power (t : HostTx) : (s.sendHost t).power = s.power := rfl
@[simp] theorem sendHost_referee (t : HostTx) : (s.sendHost t).referee = s.referee := rfl
@[simp] theorem sendHost_errors (t : HostTx) : (s.sendHost t).errors = s.errors := rfl
@[simp] theorem sendHost_cfgLate (t : HostTx) : (s.sendHost t).cfgLate = s.cfgLate := rfl
@[simp] theorem sendHost_rngSeed (t : HostTx) : (s.sendHost t).rngSeed = s.rngSeed := rfl
@[simp] theorem sendHost_cycles (t : HostTx) : (s.sendHost t).cycles = s.cycles := rfl
@[simp] theorem sendHost_wall (t : HostTx) : (s.sendHost t).wall = s.wall := rfl
@[simp] theorem sendHost_hostTx (t : HostTx) : (s.sendHost t).hostTx = s.hostTx ++ [t] := rfl
@[simp] theorem sendHost_fabTx (t : HostTx) : (s.sendHost t).fabTx = s.fabTx := rfl
@[simp] theorem sendHost_smbTx (t : HostTx) : (s.sendHost t).smbTx = s.smbTx := rfl

/-! `sendFab` -/
@[simp] theorem sendFab_pending (t : FabTx) : (s.sendFab t).pending = s.pending := rfl
@[simp] theorem sendFab_free (t : FabTx) : (s.sendFab t).free = s.free := rfl
@[simp] theorem sendFab_mem (t : FabTx) : (s.sendFab t).mem = s.mem := rfl
@[simp] theorem sendFab_contexts (t : FabTx) : (s.sendFab t).contexts = s.contexts := rfl
@[simp] theorem sendFab_clusters (t : FabTx) : (s.sendFab t).clusters = s.clusters := rfl
@[simp] theorem sendFab_sqs (t : FabTx) : (s.sendFab t).sqs = s.sqs := rfl
@[simp] theorem sendFab_cqs (t : FabTx) : (s.sendFab t).cqs = s.cqs := rfl
@[simp] theorem sendFab_cmds (t : FabTx) : (s.sendFab t).cmds = s.cmds := rfl
@[simp] theorem sendFab_nextId (t : FabTx) : (s.sendFab t).nextId = s.nextId := rfl
@[simp] theorem sendFab_turn (t : FabTx) : (s.sendFab t).turn = s.turn := rfl
@[simp] theorem sendFab_seqs (t : FabTx) : (s.sendFab t).seqs = s.seqs := rfl
@[simp] theorem sendFab_slots (t : FabTx) : (s.sendFab t).slots = s.slots := rfl
@[simp] theorem sendFab_tiles (t : FabTx) : (s.sendFab t).tiles = s.tiles := rfl
@[simp] theorem sendFab_scratch (t : FabTx) : (s.sendFab t).scratch = s.scratch := rfl
@[simp] theorem sendFab_drafts (t : FabTx) : (s.sendFab t).drafts = s.drafts := rfl
@[simp] theorem sendFab_fabric (t : FabTx) : (s.sendFab t).fabric = s.fabric := rfl
@[simp] theorem sendFab_keeper (t : FabTx) : (s.sendFab t).keeper = s.keeper := rfl
@[simp] theorem sendFab_save (t : FabTx) : (s.sendFab t).save = s.save := rfl
@[simp] theorem sendFab_scout (t : FabTx) : (s.sendFab t).scout = s.scout := rfl
@[simp] theorem sendFab_liust (t : FabTx) : (s.sendFab t).liust = s.liust := rfl
@[simp] theorem sendFab_ctrs (t : FabTx) : (s.sendFab t).ctrs = s.ctrs := rfl
@[simp] theorem sendFab_memside (t : FabTx) : (s.sendFab t).memside = s.memside := rfl
@[simp] theorem sendFab_power (t : FabTx) : (s.sendFab t).power = s.power := rfl
@[simp] theorem sendFab_referee (t : FabTx) : (s.sendFab t).referee = s.referee := rfl
@[simp] theorem sendFab_errors (t : FabTx) : (s.sendFab t).errors = s.errors := rfl
@[simp] theorem sendFab_cfgLate (t : FabTx) : (s.sendFab t).cfgLate = s.cfgLate := rfl
@[simp] theorem sendFab_rngSeed (t : FabTx) : (s.sendFab t).rngSeed = s.rngSeed := rfl
@[simp] theorem sendFab_cycles (t : FabTx) : (s.sendFab t).cycles = s.cycles := rfl
@[simp] theorem sendFab_wall (t : FabTx) : (s.sendFab t).wall = s.wall := rfl
@[simp] theorem sendFab_hostTx (t : FabTx) : (s.sendFab t).hostTx = s.hostTx := rfl
@[simp] theorem sendFab_fabTx (t : FabTx) : (s.sendFab t).fabTx = s.fabTx ++ [t] := rfl
@[simp] theorem sendFab_smbTx (t : FabTx) : (s.sendFab t).smbTx = s.smbTx := rfl

/-! `sendSmb` -/
@[simp] theorem sendSmb_pending (t : SmbTx) : (s.sendSmb t).pending = s.pending := rfl
@[simp] theorem sendSmb_free (t : SmbTx) : (s.sendSmb t).free = s.free := rfl
@[simp] theorem sendSmb_mem (t : SmbTx) : (s.sendSmb t).mem = s.mem := rfl
@[simp] theorem sendSmb_contexts (t : SmbTx) : (s.sendSmb t).contexts = s.contexts := rfl
@[simp] theorem sendSmb_clusters (t : SmbTx) : (s.sendSmb t).clusters = s.clusters := rfl
@[simp] theorem sendSmb_sqs (t : SmbTx) : (s.sendSmb t).sqs = s.sqs := rfl
@[simp] theorem sendSmb_cqs (t : SmbTx) : (s.sendSmb t).cqs = s.cqs := rfl
@[simp] theorem sendSmb_cmds (t : SmbTx) : (s.sendSmb t).cmds = s.cmds := rfl
@[simp] theorem sendSmb_nextId (t : SmbTx) : (s.sendSmb t).nextId = s.nextId := rfl
@[simp] theorem sendSmb_turn (t : SmbTx) : (s.sendSmb t).turn = s.turn := rfl
@[simp] theorem sendSmb_seqs (t : SmbTx) : (s.sendSmb t).seqs = s.seqs := rfl
@[simp] theorem sendSmb_slots (t : SmbTx) : (s.sendSmb t).slots = s.slots := rfl
@[simp] theorem sendSmb_tiles (t : SmbTx) : (s.sendSmb t).tiles = s.tiles := rfl
@[simp] theorem sendSmb_scratch (t : SmbTx) : (s.sendSmb t).scratch = s.scratch := rfl
@[simp] theorem sendSmb_drafts (t : SmbTx) : (s.sendSmb t).drafts = s.drafts := rfl
@[simp] theorem sendSmb_fabric (t : SmbTx) : (s.sendSmb t).fabric = s.fabric := rfl
@[simp] theorem sendSmb_keeper (t : SmbTx) : (s.sendSmb t).keeper = s.keeper := rfl
@[simp] theorem sendSmb_save (t : SmbTx) : (s.sendSmb t).save = s.save := rfl
@[simp] theorem sendSmb_scout (t : SmbTx) : (s.sendSmb t).scout = s.scout := rfl
@[simp] theorem sendSmb_liust (t : SmbTx) : (s.sendSmb t).liust = s.liust := rfl
@[simp] theorem sendSmb_ctrs (t : SmbTx) : (s.sendSmb t).ctrs = s.ctrs := rfl
@[simp] theorem sendSmb_memside (t : SmbTx) : (s.sendSmb t).memside = s.memside := rfl
@[simp] theorem sendSmb_power (t : SmbTx) : (s.sendSmb t).power = s.power := rfl
@[simp] theorem sendSmb_referee (t : SmbTx) : (s.sendSmb t).referee = s.referee := rfl
@[simp] theorem sendSmb_errors (t : SmbTx) : (s.sendSmb t).errors = s.errors := rfl
@[simp] theorem sendSmb_cfgLate (t : SmbTx) : (s.sendSmb t).cfgLate = s.cfgLate := rfl
@[simp] theorem sendSmb_rngSeed (t : SmbTx) : (s.sendSmb t).rngSeed = s.rngSeed := rfl
@[simp] theorem sendSmb_cycles (t : SmbTx) : (s.sendSmb t).cycles = s.cycles := rfl
@[simp] theorem sendSmb_wall (t : SmbTx) : (s.sendSmb t).wall = s.wall := rfl
@[simp] theorem sendSmb_hostTx (t : SmbTx) : (s.sendSmb t).hostTx = s.hostTx := rfl
@[simp] theorem sendSmb_fabTx (t : SmbTx) : (s.sendSmb t).fabTx = s.fabTx := rfl
@[simp] theorem sendSmb_smbTx (t : SmbTx) : (s.sendSmb t).smbTx = s.smbTx ++ [t] := rfl

/-! `writeBlock`: it lands or is held (R202) -/
@[simp] theorem writeBlock_pending (w : BlockWr) : (s.writeBlock w).pending = s.pending := by unfold State.writeBlock; split <;> rfl
@[simp] theorem writeBlock_contexts (w : BlockWr) : (s.writeBlock w).contexts = s.contexts := by unfold State.writeBlock; split <;> rfl
@[simp] theorem writeBlock_clusters (w : BlockWr) : (s.writeBlock w).clusters = s.clusters := by unfold State.writeBlock; split <;> rfl
@[simp] theorem writeBlock_sqs (w : BlockWr) : (s.writeBlock w).sqs = s.sqs := by unfold State.writeBlock; split <;> rfl
@[simp] theorem writeBlock_cqs (w : BlockWr) : (s.writeBlock w).cqs = s.cqs := by unfold State.writeBlock; split <;> rfl
@[simp] theorem writeBlock_cmds (w : BlockWr) : (s.writeBlock w).cmds = s.cmds := by unfold State.writeBlock; split <;> rfl
@[simp] theorem writeBlock_nextId (w : BlockWr) : (s.writeBlock w).nextId = s.nextId := by unfold State.writeBlock; split <;> rfl
@[simp] theorem writeBlock_turn (w : BlockWr) : (s.writeBlock w).turn = s.turn := by unfold State.writeBlock; split <;> rfl
@[simp] theorem writeBlock_seqs (w : BlockWr) : (s.writeBlock w).seqs = s.seqs := by unfold State.writeBlock; split <;> rfl
@[simp] theorem writeBlock_slots (w : BlockWr) : (s.writeBlock w).slots = s.slots := by unfold State.writeBlock; split <;> rfl
@[simp] theorem writeBlock_tiles (w : BlockWr) : (s.writeBlock w).tiles = s.tiles := by unfold State.writeBlock; split <;> rfl
@[simp] theorem writeBlock_scratch (w : BlockWr) : (s.writeBlock w).scratch = s.scratch := by unfold State.writeBlock; split <;> rfl
@[simp] theorem writeBlock_drafts (w : BlockWr) : (s.writeBlock w).drafts = s.drafts := by unfold State.writeBlock; split <;> rfl
@[simp] theorem writeBlock_fabric (w : BlockWr) : (s.writeBlock w).fabric = s.fabric := by unfold State.writeBlock; split <;> rfl
@[simp] theorem writeBlock_keeper (w : BlockWr) : (s.writeBlock w).keeper = s.keeper := by unfold State.writeBlock; split <;> rfl
@[simp] theorem writeBlock_save (w : BlockWr) : (s.writeBlock w).save = s.save := by unfold State.writeBlock; split <;> rfl
@[simp] theorem writeBlock_scout (w : BlockWr) : (s.writeBlock w).scout = s.scout := by unfold State.writeBlock; split <;> rfl
@[simp] theorem writeBlock_liust (w : BlockWr) : (s.writeBlock w).liust = s.liust := by unfold State.writeBlock; split <;> rfl
@[simp] theorem writeBlock_ctrs (w : BlockWr) : (s.writeBlock w).ctrs = s.ctrs := by unfold State.writeBlock; split <;> rfl
@[simp] theorem writeBlock_power (w : BlockWr) : (s.writeBlock w).power = s.power := by unfold State.writeBlock; split <;> rfl
@[simp] theorem writeBlock_referee (w : BlockWr) : (s.writeBlock w).referee = s.referee := by unfold State.writeBlock; split <;> rfl
@[simp] theorem writeBlock_errors (w : BlockWr) : (s.writeBlock w).errors = s.errors := by unfold State.writeBlock; split <;> rfl
@[simp] theorem writeBlock_cfgLate (w : BlockWr) : (s.writeBlock w).cfgLate = s.cfgLate := by unfold State.writeBlock; split <;> rfl
@[simp] theorem writeBlock_rngSeed (w : BlockWr) : (s.writeBlock w).rngSeed = s.rngSeed := by unfold State.writeBlock; split <;> rfl
@[simp] theorem writeBlock_cycles (w : BlockWr) : (s.writeBlock w).cycles = s.cycles := by unfold State.writeBlock; split <;> rfl
@[simp] theorem writeBlock_wall (w : BlockWr) : (s.writeBlock w).wall = s.wall := by unfold State.writeBlock; split <;> rfl
@[simp] theorem writeBlock_hostTx (w : BlockWr) : (s.writeBlock w).hostTx = s.hostTx := by unfold State.writeBlock; split <;> rfl
@[simp] theorem writeBlock_fabTx (w : BlockWr) : (s.writeBlock w).fabTx = s.fabTx := by unfold State.writeBlock; split <;> rfl
@[simp] theorem writeBlock_smbTx (w : BlockWr) : (s.writeBlock w).smbTx = s.smbTx := by unfold State.writeBlock; split <;> rfl

theorem writeBlock_lands (w : BlockWr) (h : s.memside.pendingUe.contains w.loc = false) : s.writeBlock w = s.land w := by
  simp only [State.writeBlock, h]; rfl

theorem writeBlock_held (w : BlockWr) (h : s.memside.pendingUe.contains w.loc = true) :
    s.writeBlock w = { s with memside := { s.memside with held := s.memside.held ++ [w] } } := by
  simp only [State.writeBlock, h]; rfl

end Sys2Proof.Machine.State
end

