-- ==== Sys2Proof/Laws/Mem.lean ====
section
/-! SUPPORT. Memory: a read after a write, what a write leaves alone, and that every operation keeps the canonical form. -/

namespace Sys2Proof.Machine

/-! ## The list of cells -/

theorem mem_insertCell {a : Nat} {b : Byte} {l : List Host.Cell} {c : Host.Cell} (h : c ∈ insertCell a b l) :
    c = (a, b) ∧ b ≠ 0#8 ∨ c ∈ l := by
  induction l with
  | nil =>
    unfold insertCell at h
    split at h <;> simp_all
  | cons x r ih =>
    obtain ⟨x, v⟩ := x
    unfold insertCell at h
    (repeat' split at h) <;> simp_all <;> grind

/-- An insertion keeps the locations rising. -/
theorem insertCell_rising {a : Nat} {b : Byte} {l : List Host.Cell} (h : l.Pairwise (fun x y => x.1 < y.1)) :
    (insertCell a b l).Pairwise (fun x y => x.1 < y.1) := by
  induction l with
  | nil => unfold insertCell; split <;> simp
  | cons x r ih =>
    obtain ⟨x, v⟩ := x
    rw [List.pairwise_cons] at h
    have ih := ih h.2
    unfold insertCell
    split
    · rename_i hx
      refine List.pairwise_cons.2 ⟨fun c hc => ?_, ih⟩
      rcases mem_insertCell hc with ⟨rfl, _⟩ | hc
      · exact hx
      · exact h.1 c hc
    · split
      · rename_i hx he
        have he : x = a := by simpa using he
        subst he
        split
        · exact h.2
        · exact List.pairwise_cons.2 ⟨h.1, h.2⟩
      · rename_i hx he
        have he : x ≠ a := by simpa using he
        split
        · exact List.pairwise_cons.2 h
        · refine List.pairwise_cons.2 ⟨fun c hc => ?_, List.pairwise_cons.2 h⟩
          rcases List.mem_cons.1 hc with rfl | hc
          · simp only; omega
          · have := h.1 c hc; simp only at this ⊢; omega

/-- An insertion lists no 00h. -/
theorem insertCell_nonzero {a : Nat} {b : Byte} {l : List Host.Cell} (h : ∀ c ∈ l, c.2 ≠ 0#8) :
    ∀ c ∈ insertCell a b l, c.2 ≠ 0#8 := by
  intro c hc
  rcases mem_insertCell hc with ⟨rfl, hb⟩ | hc
  · exact hb
  · exact h c hc

/-- Another location reads as before. -/
theorem lookupCell_insertCell_other {a x : Nat} {b : Byte} {l : List Host.Cell} (h : x ≠ a) :
    lookupCell x (insertCell a b l) = lookupCell x l := by
  induction l with
  | nil => unfold insertCell; split <;> simp [lookupCell, Ne.symm h]
  | cons y r ih =>
    obtain ⟨y, v⟩ := y
    unfold insertCell
    (repeat' split) <;> simp_all [lookupCell] <;> grind

/-- A location beyond a rising list reads 00h. -/
theorem lookupCell_beyond {x : Nat} {l : List Host.Cell} (h : ∀ c ∈ l, x < c.1) : lookupCell x l = 0#8 := by
  induction l with
  | nil => rfl
  | cons y r ih =>
    have hy := h y (by simp)
    have : (y.1 == x) = false := by simp; omega
    simp [lookupCell, this, ih (fun c hc => h c (by simp [hc]))]

/-- The location written reads as written. -/
theorem lookupCell_insertCell_same {a : Nat} {b : Byte} {l : List Host.Cell}
    (h : l.Pairwise (fun x y => x.1 < y.1)) : lookupCell a (insertCell a b l) = b := by
  induction l with
  | nil => unfold insertCell; split <;> simp_all [lookupCell]
  | cons y r ih =>
    obtain ⟨y, v⟩ := y
    rw [List.pairwise_cons] at h
    unfold insertCell
    split
    · rename_i hy
      have : (y == a) = false := by simp; omega
      simp [lookupCell, this, ih h.2]
    · split
      · rename_i hy he
        have he : y = a := by simpa using he
        subst he
        split
        · rename_i hb
          have hb : b = 0#8 := by simpa using hb
          rw [hb]
          exact lookupCell_beyond (fun c hc => h.1 c hc)
        · simp [lookupCell]
      · rename_i hy he
        have he : y ≠ a := by simpa using he
        split
        · rename_i hb
          have hb : b = 0#8 := by simpa using hb
          rw [hb]
          refine lookupCell_beyond (fun c hc => ?_)
          rcases List.mem_cons.1 hc with rfl | hc
          · simp only; omega
          · have := h.1 c hc; simp only at this; omega
        · simp [lookupCell]

/-! ## Rising lists of blocks -/

theorem mem_insertNat {a x : Nat} {l : List Nat} : x ∈ insertNat a l ↔ x = a ∨ x ∈ l := by
  induction l with
  | nil => simp [insertNat]
  | cons y r ih =>
    unfold insertNat
    split
    · simp [ih]; grind
    · split <;> simp_all

theorem insertNat_rising {a : Nat} {l : List Nat} (h : l.Pairwise (· < ·)) : (insertNat a l).Pairwise (· < ·) := by
  induction l with
  | nil => simp [insertNat]
  | cons y r ih =>
    rw [List.pairwise_cons] at h
    unfold insertNat
    split
    · rename_i hy
      refine List.pairwise_cons.2 ⟨fun c hc => ?_, ih h.2⟩
      rcases mem_insertNat.1 hc with rfl | hc
      · exact hy
      · exact h.1 c hc
    · split
      · exact List.pairwise_cons.2 h
      · rename_i hy he
        have he : y ≠ a := by simpa using he
        refine List.pairwise_cons.2 ⟨fun c hc => ?_, List.pairwise_cons.2 h⟩
        rcases List.mem_cons.1 hc with rfl | hc
        · omega
        · have := h.1 c hc; omega

/-! ## The operations keep the canonical form -/

theorem Mem.empty_wf : ({} : Mem).wf := by refine ⟨?_, ?_, ?_⟩ <;> simp

theorem Mem.setByte_wf {m : Mem} (h : m.wf) (a : Nat) (b : Byte) : (m.setByte a b).wf :=
  ⟨insertCell_rising h.1, insertCell_nonzero h.2.1, h.2.2⟩

theorem Mem.setBytes_wf {m : Mem} (h : m.wf) (a : Nat) (bs : List Byte) : (m.setBytes a bs).wf := by
  induction bs generalizing m a with
  | nil => exact h
  | cons b r ih => exact ih (setByte_wf h a b) (a + 1)

theorem Mem.setPoison_wf {m : Mem} (h : m.wf) (a : Nat) (p : Bool) : (m.setPoison a p).wf := by
  refine ⟨h.1, h.2.1, ?_⟩
  unfold Mem.setPoison
  cases p with
  | true => exact insertNat_rising h.2.2
  | false => exact h.2.2.filter _

theorem Mem.writeBlock_wf {m : Mem} (h : m.wf) (k : Nat) (w : BlockWr) : (m.writeBlock k w).wf :=
  setPoison_wf (setBytes_wf h _ _) _ _

theorem Mem.drop_wf {m : Mem} (h : m.wf) (lo n : Nat) : (m.drop lo n).wf :=
  ⟨h.1.filter _, fun c hc => h.2.1 c (List.mem_filter.1 hc).1, h.2.2.filter _⟩

theorem Mem.onlyModule_wf {m : Mem} (h : m.wf) : m.onlyModule.wf :=
  ⟨h.1.filter _, fun c hc => h.2.1 c (List.mem_filter.1 hc).1, h.2.2.filter _⟩

theorem Mem.undef_wf {m : Mem} (h : m.wf) (u : List (Nat × Nat)) : ({ m with undef := u } : Mem).wf := h

theorem foldl_keeps {α β : Type} {p : β → Prop} {f : β → α → β} (hf : ∀ b a, p b → p (f b a)) (l : List α) {b : β}
    (h : p b) : p (l.foldl f b) := by
  induction l generalizing b with
  | nil => exact h
  | cons a r ih => exact ih (hf b a h)

theorem Mem.replace_wf {m : Mem} (h : m.wf) (g : Nat) (old new : Bool) : (m.replace g old new).wf := by
  have hc : ∀ l : List Host.Cell, (∀ c ∈ l, c.2 ≠ 0#8) → ∀ r : List Host.Cell, (r.Pairwise (fun x y => x.1 < y.1) ∧ ∀ c ∈ r, c.2 ≠ 0#8) →
      ∀ f : Nat → Nat, (l.foldl (fun l c => insertCell (f c.1) c.2 l) r).Pairwise (fun x y => x.1 < y.1)
        ∧ ∀ c ∈ l.foldl (fun l c => insertCell (f c.1) c.2 l) r, c.2 ≠ 0#8 := by
    intro l _ r hr f
    exact foldl_keeps (p := fun r : List Host.Cell => r.Pairwise (fun x y => x.1 < y.1) ∧ ∀ c ∈ r, c.2 ≠ 0#8)
      (fun r c hr => ⟨insertCell_rising hr.1, insertCell_nonzero hr.2⟩) l hr
  have hp : ∀ l r : List Nat, r.Pairwise (· < ·) → ∀ f : Nat → Nat, (l.foldl (fun l a => insertNat (f a) l) r).Pairwise (· < ·) :=
    fun l r hr f => foldl_keeps (p := fun r : List Nat => r.Pairwise (· < ·)) (fun r a hr => insertNat_rising hr) l hr
  have h1 := hc (m.cells.filter (fun c => isHbm c.1 && bits c.1 39 32 == g))
    (fun c hc => h.2.1 c (List.mem_filter.1 hc).1) (m.cells.filter (fun c => !(isHbm c.1 && bits c.1 39 32 == g)))
    ⟨h.1.filter _, fun c hc => h.2.1 c (List.mem_filter.1 hc).1⟩
    (fun a => hbmAddr new (hbmPhys old a).1 (hbmPhys old a).2)
  exact ⟨h1.1, h1.2, hp _ _ (h.2.2.filter _) _⟩

/-! ## What a write leaves alone -/

@[simp] theorem Mem.setByte_isUndef (m : Mem) (a x : Nat) (b : Byte) : (m.setByte a b).isUndef x = m.isUndef x := rfl
@[simp] theorem Mem.setByte_poisoned (m : Mem) (a x : Nat) (b : Byte) : (m.setByte a b).poisoned x = m.poisoned x := rfl

@[simp] theorem Mem.setBytes_undef (m : Mem) (a : Nat) (bs : List Byte) : (m.setBytes a bs).undef = m.undef := by
  induction bs generalizing m a with
  | nil => rfl
  | cons b r ih => exact ih (m.setByte a b) (a + 1)

@[simp] theorem Mem.setBytes_poison (m : Mem) (a : Nat) (bs : List Byte) : (m.setBytes a bs).poison = m.poison := by
  induction bs generalizing m a with
  | nil => rfl
  | cons b r ih => exact ih (m.setByte a b) (a + 1)

@[simp] theorem Mem.setBytes_isUndef (m : Mem) (a x : Nat) (bs : List Byte) :
    (m.setBytes a bs).isUndef x = m.isUndef x := by
  unfold Mem.isUndef
  rw [Mem.setBytes_undef]

theorem Mem.setBytes_poisoned (m : Mem) (a x : Nat) (bs : List Byte) : (m.setBytes a bs).poisoned x = m.poisoned x := by
  unfold Mem.poisoned
  simp only [Mem.setBytes_isUndef, Mem.setBytes_poison]

@[simp] theorem Mem.setPoison_isUndef (m : Mem) (a x : Nat) (p : Bool) : (m.setPoison a p).isUndef x = m.isUndef x := rfl

theorem Mem.setByte_byte_other {m : Mem} {a x : Nat} {b : Byte} (h : x ≠ a) : (m.setByte a b).byte x = m.byte x := by
  unfold Mem.byte
  rw [Mem.setByte_isUndef]
  split
  · rfl
  · exact lookupCell_insertCell_other h

theorem Mem.setByte_byte_same {m : Mem} (h : m.wf) {a : Nat} (hu : m.isUndef a = false) (b : Byte) :
    (m.setByte a b).byte a = b := by
  unfold Mem.byte
  rw [Mem.setByte_isUndef, hu]
  exact lookupCell_insertCell_same h.1

/-- Bytes outside the range written read as before. -/
theorem Mem.setBytes_byte_outside {m : Mem} {a x : Nat} {bs : List Byte} (h : x < a ∨ a + bs.length ≤ x) :
    (m.setBytes a bs).byte x = m.byte x := by
  induction bs generalizing m a with
  | nil => rfl
  | cons b r ih =>
    simp only [List.length_cons] at h
    rw [Mem.setBytes, ih (by omega), Mem.setByte_byte_other (by omega)]

/-- Bytes written read as written. -/
theorem Mem.setBytes_byte_inside {m : Mem} (h : m.wf) {a i : Nat} {bs : List Byte} (hi : i < bs.length)
    (hu : m.isUndef (a + i) = false) : (m.setBytes a bs).byte (a + i) = bs[i] := by
  induction bs generalizing m a i with
  | nil => simp at hi
  | cons b r ih =>
    rw [Mem.setBytes]
    cases i with
    | zero =>
      rw [Mem.setBytes_byte_outside (by omega)]
      exact Mem.setByte_byte_same h hu b
    | succ j =>
      have := ih (m := m.setByte a b) (a := a + 1) (i := j) (Mem.setByte_wf h a b) (by simpa using hi)
        (by rw [Mem.setByte_isUndef]; rw [show a + 1 + j = a + (j + 1) by omega]; exact hu)
      rw [show a + (j + 1) = a + 1 + j by omega, this]
      simp

@[simp] theorem Mem.setPoison_byte (m : Mem) (a x : Nat) (p : Bool) : (m.setPoison a p).byte x = m.byte x := rfl

theorem natLe_length (n v : Nat) : (natLe n v).length = n := by
  induction n generalizing v with
  | zero => rfl
  | succ k ih => simp [natLe, ih]

theorem blockBytes_length (spoilt : Bool) (k d : Nat) :
    (if spoilt then (List.range 64).map (fun i => Config.freeByte (k + i)) else natLe 64 d).length = 64 := by
  split
  · simp
  · exact natLe_length 64 d

/-- A block write leaves every byte outside its block alone. -/
theorem Mem.writeBlock_byte_outside {m : Mem} {k x : Nat} {w : BlockWr} (h : x < w.loc ∨ w.loc + 64 ≤ x) :
    (m.writeBlock k w).byte x = m.byte x := by
  unfold Mem.writeBlock
  simp only [Mem.setPoison_byte]
  refine Mem.setBytes_byte_outside ?_
  rw [blockBytes_length]
  exact h

@[simp] theorem Mem.writeBlock_undef (m : Mem) (k : Nat) (w : BlockWr) : (m.writeBlock k w).undef = m.undef := by
  simp [Mem.writeBlock, Mem.setPoison]

theorem Mem.setPoison_poisoned_other {m : Mem} {a x : Nat} {p : Bool} (h : blockOf x ≠ blockOf a) :
    (m.setPoison a p).poisoned x = m.poisoned x := by
  unfold Mem.poisoned
  simp only [Mem.setPoison_isUndef]
  cases p <;> simp [Mem.setPoison, List.contains_eq_mem, mem_insertNat, List.mem_filter, h]

theorem Mem.setPoison_poisoned_same {m : Mem} {a : Nat} {p : Bool} (h : m.isUndef a = false) :
    (m.setPoison a p).poisoned a = p := by
  unfold Mem.poisoned
  simp only [Mem.setPoison_isUndef, h]
  cases p <;> simp [Mem.setPoison, List.contains_eq_mem, mem_insertNat, List.mem_filter]

/-- A block write leaves the mark of every other block alone. -/
theorem Mem.writeBlock_poisoned_other {m : Mem} {k x : Nat} {w : BlockWr} (h : blockOf x ≠ blockOf w.loc) :
    (m.writeBlock k w).poisoned x = m.poisoned x := by
  unfold Mem.writeBlock
  simp only
  rw [Mem.setPoison_poisoned_other h, Mem.setBytes_poisoned]

end Sys2Proof.Machine
end

