-- ==== Sys2Proof/Laws/Canonical.lean ====
section
/-! SUPPORT. Every operation keeps the canonical form of memory. -/

namespace Sys2Proof.Machine

/-- The canonical form, kept folded. -/
def CanonMem (m : Mem) : Prop := m.wf

@[simp] theorem canonMem_of {s : State} (h : Canonical s) : CanonMem s.mem := h
@[simp] theorem canonMem_writeBlock {m : Mem} (h : CanonMem m) (k : Nat) (w : BlockWr) : CanonMem (m.writeBlock k w) :=
  Mem.writeBlock_wf h k w
@[simp] theorem canonMem_setPoison {m : Mem} (h : CanonMem m) (a : Nat) (p : Bool) : CanonMem (m.setPoison a p) :=
  Mem.setPoison_wf h a p
@[simp] theorem canonMem_setBytes {m : Mem} (h : CanonMem m) (a : Nat) (bs : List Byte) : CanonMem (m.setBytes a bs) :=
  Mem.setBytes_wf h a bs
@[simp] theorem canonMem_drop {m : Mem} (h : CanonMem m) (lo n : Nat) : CanonMem (m.drop lo n) := Mem.drop_wf h lo n
@[simp] theorem canonMem_onlyModule {m : Mem} (h : CanonMem m) : CanonMem m.onlyModule := Mem.onlyModule_wf h
@[simp] theorem canonMem_replace {m : Mem} (h : CanonMem m) (g : Nat) (old new : Bool) : CanonMem (m.replace g old new) :=
  Mem.replace_wf h g old new
@[simp] theorem canonMem_undef {c p : _} {u : List (Nat × Nat)} {m : Mem} (h : CanonMem m) (hc : m.cells = c) (hp : m.poison = p) :
    CanonMem ⟨c, p, u⟩ := by subst hc hp; exact h
@[simp] theorem canonMem_empty : CanonMem {} := Mem.empty_wf

@[simp] theorem canonMem_scramble {m : Mem} (h : CanonMem m) (free a n : Nat) : CanonMem (m.scramble free a n) :=
  foldl_keeps (p := CanonMem) (fun _ _ hm => canonMem_setPoison hm _ _) _ (canonMem_setBytes h _ _)
@[simp] theorem canonMem_unplaced {s : State} (h : Canonical s) : CanonMem s.unplaced :=
  foldl_keeps (p := CanonMem) (fun m g hm => by split <;> simp [hm]) _ h

theorem canon_of {s t : State} (e : t.mem = s.mem) (h : Canonical s) : Canonical t := by
  unfold Canonical at *; rw [e]; exact h

@[simp] theorem canon_mk {a b m d e f g h i j k l n o p q r u v w x y z a' b' c' d' e' f' g' h' i'} (hm : CanonMem m) :
    Canonical (State.mk a b m d e f g h i j k l n o p q r u v w x y z a' b' c' d' e' f' g' h' i') := hm

@[simp] theorem canon_foldl {α : Type} {f : State → α → State} (hf : ∀ t a, Canonical t → Canonical (f t a)) (l : List α)
    {s : State} (h : Canonical s) : Canonical (l.foldl f s) := foldl_keeps hf l h

@[simp] theorem canon_ite {c : Prop} [Decidable c] {s t : State} (hs : Canonical s) (ht : Canonical t) :
    Canonical (if c then s else t) := by split <;> assumption



/-! Ops -/

@[simp] theorem canon_setMem {s : State} (m : Mem) (hm : CanonMem m) (h : Canonical s) :
    Canonical (State.setMem s m) := by
  exact hm
@[simp] theorem canon_land {s : State} (w : BlockWr) (h : Canonical s) :
    Canonical (State.land s w) := by
  simp (maxDischargeDepth := 30) [State.land, h]
@[simp] theorem canon_writeBlock {s : State} (w : BlockWr) (h : Canonical s) :
    Canonical (State.writeBlock s w) := by
  simp (maxDischargeDepth := 30) [State.writeBlock, h]
@[simp] theorem canon_writeBlocks {s : State} (x1 : List BlockWr) (h : Canonical s) :
    Canonical (State.writeBlocks s x1) := by
  induction x1 generalizing s with
  | nil => exact h
  | cons w r ih => exact ih (canon_writeBlock w h)
@[simp] theorem canon_freeBit {s : State} (h : Canonical s) :
    Canonical (State.freeBit s).2 := by
  simp (maxDischargeDepth := 30) [State.freeBit, h]
@[simp] theorem canon_freeNat {s : State} (h : Canonical s) :
    Canonical (State.freeNat s).2 := by
  simp (maxDischargeDepth := 30) [State.freeNat, h]
@[simp] theorem canon_bump {s : State} (c : Ctr) (n : Nat) (h : Canonical s) :
    Canonical (State.bump s c n) := by
  simp (maxDischargeDepth := 30) [State.bump, h]
@[simp] theorem canon_bumpIf {s : State} (b : Bool) (c : Ctr) (h : Canonical s) :
    Canonical (State.bumpIf s b c) := by
  simp (maxDischargeDepth := 30) [State.bumpIf, h]
@[simp] theorem canon_clearCtr {s : State} (c : Ctr) (h : Canonical s) :
    Canonical (State.clearCtr s c) := by
  simp (maxDischargeDepth := 30) [State.clearCtr, h]
@[simp] theorem canon_modCmd {s : State} (id : Nat) (f : Cmd → Cmd) (h : Canonical s) :
    Canonical (State.modCmd s id f) := by
  simp (maxDischargeDepth := 30) [State.modCmd, h]
@[simp] theorem canon_modCmds {s : State} (f : Cmd → Cmd) (h : Canonical s) :
    Canonical (State.modCmds s f) := by
  simp (maxDischargeDepth := 30) [State.modCmds, h]
@[simp] theorem canon_setStage {s : State} (id : Nat) (g : Stage) (h : Canonical s) :
    Canonical (State.setStage s id g) := by
  simp (maxDischargeDepth := 30) [State.setStage, h]
@[simp] theorem canon_modContext {s : State} (c : Nat) (f : Context → Context) (h : Canonical s) :
    Canonical (State.modContext s c f) := by
  simp (maxDischargeDepth := 30) [State.modContext, h]
@[simp] theorem canon_modCluster {s : State} (n : Nat) (f : Cluster → Cluster) (h : Canonical s) :
    Canonical (State.modCluster s n f) := by
  simp (maxDischargeDepth := 30) [State.modCluster, h]
@[simp] theorem canon_modSq {s : State} (n : Nat) (f : Sq → Sq) (h : Canonical s) :
    Canonical (State.modSq s n f) := by
  simp (maxDischargeDepth := 30) [State.modSq, h]
@[simp] theorem canon_modCq {s : State} (n : Nat) (f : Cq → Cq) (h : Canonical s) :
    Canonical (State.modCq s n f) := by
  simp (maxDischargeDepth := 30) [State.modCq, h]
@[simp] theorem canon_modSeq {s : State} (n : Nat) (f : Seq → Seq) (h : Canonical s) :
    Canonical (State.modSeq s n f) := by
  simp (maxDischargeDepth := 30) [State.modSeq, h]
@[simp] theorem canon_modDraft {s : State} (n : Nat) (f : Draft → Draft) (h : Canonical s) :
    Canonical (State.modDraft s n f) := by
  simp (maxDischargeDepth := 30) [State.modDraft, h]
@[simp] theorem canon_modFabric {s : State} (f : Fabric → Fabric) (h : Canonical s) :
    Canonical (State.modFabric s f) := by
  simp (maxDischargeDepth := 30) [State.modFabric, h]
@[simp] theorem canon_modPort {s : State} (n : Nat) (f : Port → Port) (h : Canonical s) :
    Canonical (State.modPort s n f) := by
  simp (maxDischargeDepth := 30) [State.modPort, h]
@[simp] theorem canon_modLiust {s : State} (f : Liust → Liust) (h : Canonical s) :
    Canonical (State.modLiust s f) := by
  simp (maxDischargeDepth := 30) [State.modLiust, h]
@[simp] theorem canon_modPower {s : State} (f : Power → Power) (h : Canonical s) :
    Canonical (State.modPower s f) := by
  simp (maxDischargeDepth := 30) [State.modPower, h]
@[simp] theorem canon_modReferee {s : State} (f : Referee → Referee) (h : Canonical s) :
    Canonical (State.modReferee s f) := by
  simp (maxDischargeDepth := 30) [State.modReferee, h]
@[simp] theorem canon_modErrors {s : State} (f : Errors → Errors) (h : Canonical s) :
    Canonical (State.modErrors s f) := by
  simp (maxDischargeDepth := 30) [State.modErrors, h]
@[simp] theorem canon_modMemside {s : State} (f : MemSide → MemSide) (h : Canonical s) :
    Canonical (State.modMemside s f) := by
  simp (maxDischargeDepth := 30) [State.modMemside, h]
@[simp] theorem canon_modKeeper {s : State} (f : Keeper → Keeper) (h : Canonical s) :
    Canonical (State.modKeeper s f) := by
  simp (maxDischargeDepth := 30) [State.modKeeper, h]
@[simp] theorem canon_modSave {s : State} (f : Save → Save) (h : Canonical s) :
    Canonical (State.modSave s f) := by
  simp (maxDischargeDepth := 30) [State.modSave, h]
@[simp] theorem canon_modScout {s : State} (f : Scout → Scout) (h : Canonical s) :
    Canonical (State.modScout s f) := by
  simp (maxDischargeDepth := 30) [State.modScout, h]
@[simp] theorem canon_modFlash {s : State} (f : Flash → Flash) (h : Canonical s) :
    Canonical (State.modFlash s f) := by
  simp (maxDischargeDepth := 30) [State.modFlash, h]
@[simp] theorem canon_modFuses {s : State} (f : Fuses → Fuses) (h : Canonical s) :
    Canonical (State.modFuses s f) := by
  simp (maxDischargeDepth := 30) [State.modFuses, h]
@[simp] theorem canon_modDomain {s : State} (code : Nat) (f : Domain → Domain) (h : Canonical s) :
    Canonical (State.modDomain s code f) := by
  simp (maxDischargeDepth := 30) [State.modDomain, h]
@[simp] theorem canon_sendHost {s : State} (t : HostTx) (h : Canonical s) :
    Canonical (State.sendHost s t) := by
  simp (maxDischargeDepth := 30) [State.sendHost, h]
@[simp] theorem canon_sendFab {s : State} (t : FabTx) (h : Canonical s) :
    Canonical (State.sendFab s t) := by
  simp (maxDischargeDepth := 30) [State.sendFab, h]
@[simp] theorem canon_sendSmb {s : State} (t : SmbTx) (h : Canonical s) :
    Canonical (State.sendSmb s t) := by
  simp (maxDischargeDepth := 30) [State.sendSmb, h]
@[simp] theorem canon_touch {s : State} (c : Nat) (h : Canonical s) :
    Canonical (State.touch s c) := by
  simp (maxDischargeDepth := 30) [State.touch, h]
@[simp] theorem canon_touchAll {s : State} (l : List Nat) (h : Canonical s) :
    Canonical (State.touchAll s l) := by
  simp +contextual (maxDischargeDepth := 30) [State.touchAll, h]
@[simp] theorem canon_access {s : State} (dies : List Nat) (a : Nat) (n : Nat) (f : State → State) (h : Canonical s) (hf : ∀ t, Canonical t → Canonical (f t)) :
    Canonical (State.access s dies a n f) := by
  simp (maxDischargeDepth := 30) [State.access, h, hf]
@[simp] theorem canon_setNf {s : State} (src : Src) (h : Canonical s) :
    Canonical (State.setNf s src) := by
  unfold State.setNf
  (repeat' split) <;> simp +contextual (maxDischargeDepth := 30) [h]
@[simp] theorem canon_endHost {s : State} (id : Nat) (c : Compl) (h : Canonical s) :
    Canonical (State.endHost s id c) := by
  unfold State.endHost
  (repeat' split) <;> simp +contextual (maxDischargeDepth := 30) [h]
@[simp] theorem canon_settleAwaits {s : State} (h : Canonical s) :
    Canonical (State.settleAwaits s) := by
  unfold State.settleAwaits
  refine canon_foldl (fun t a ht => ?_) _ (by simp (maxDischargeDepth := 30) [h])
  try dsimp only
  (repeat' split) <;> simp (maxDischargeDepth := 30) [ht]
@[simp] theorem canon_retire {s : State} (id st : Nat) (by' : Option (Nat × Word32)) (h : Canonical s) :
    Canonical (State.retire s id st by') := by
  simp (maxDischargeDepth := 30) [State.retire, h]
@[simp] theorem canon_settleSeq {s : State} (n : Nat) (h : Canonical s) :
    Canonical (State.settleSeq s n) := by
  simp (maxDischargeDepth := 30) [State.settleSeq, h]
@[simp] theorem canon_endEntry {s : State} (c : Cmd) (n : Nat) (entry : Nat) (step : Word32) (k : Compl) (h : Canonical s) :
    Canonical (State.endEntry s c n entry step k) := by
  exact canon_settleSeq _ (canon_retire _ _ _ (canon_modSeq _ _ h))
@[simp] theorem canon_poisonSlots {s : State} (c : Cmd) (st : Nat) (h : Canonical s) :
    Canonical (State.poisonSlots s c st) := by
  simp (maxDischargeDepth := 30) [State.poisonSlots, h]
@[simp] theorem canon_releaseScratch {s : State} (c : Cmd) (h : Canonical s) :
    Canonical (State.releaseScratch s c) := by
  simp (maxDischargeDepth := 30) [State.releaseScratch, h]
@[simp] theorem canon_leaveCores {s : State} (id : Nat) (h : Canonical s) :
    Canonical (State.leaveCores s id) := by
  simp (maxDischargeDepth := 30) [State.leaveCores, h]
@[simp] theorem canon_finish {s : State} (id : Nat) (k : Compl) (h : Canonical s) :
    Canonical (State.finish s id k) := by
  unfold State.finish
  (repeat' split) <;> simp +contextual (maxDischargeDepth := 30) [h]
@[simp] theorem canon_hostReject {s : State} (h : Canonical s) :
    Canonical (State.hostReject s) := by
  simp (maxDischargeDepth := 30) [State.hostReject, h]
@[simp] theorem canon_atHost {s : State} (f : State → State) (h : Canonical s) (hf : ∀ t, Canonical t → Canonical (f t)) :
    Canonical (State.atHost s f) := by
  simp (maxDischargeDepth := 30) [State.atHost, h, hf]
@[simp] theorem canon_dmaRd {s : State} (addr : Nat) (len : Nat) (o : DmaOwner) (h : Canonical s) :
    Canonical (State.dmaRd s addr len o) := by
  simp (maxDischargeDepth := 30) [State.dmaRd, h]
@[simp] theorem canon_dmaWr {s : State} (addr : Nat) (data : List Byte) (poison : Word64) (o : DmaOwner) (h : Canonical s) :
    Canonical (State.dmaWr s addr data poison o) := by
  simp (maxDischargeDepth := 30) [State.dmaWr, h]

/-! Operands -/

@[simp] theorem canon_fillTiles {s : State} (c : Cmd) (e : Effect) (h : Canonical s) :
    Canonical (State.fillTiles s c e) := by
  simp +contextual (maxDischargeDepth := 30) [State.fillTiles, h]
@[simp] theorem canon_dropTiles {s : State} (c : Cmd) (h : Canonical s) :
    Canonical (State.dropTiles s c) := by
  simp (maxDischargeDepth := 30) [State.dropTiles, h]
@[simp] theorem canon_noteTiles {s : State} (c : Cmd) (h : Canonical s) :
    Canonical (State.noteTiles s c) := by
  simp (maxDischargeDepth := 30) [State.noteTiles, h]
@[simp] theorem canon_addSlots {s : State} (ctx : Nat) (adds : List SlotAdd) (h : Canonical s) :
    Canonical (State.addSlots s ctx adds) := by
  simp +contextual (maxDischargeDepth := 30) [State.addSlots, h]
@[simp] theorem canon_closeSlots {s : State} (ctx : Nat) (nums : List Nat) (h : Canonical s) :
    Canonical (State.closeSlots s ctx nums) := by
  simp (maxDischargeDepth := 30) [State.closeSlots, h]
@[simp] theorem canon_bumps {s : State} (x1 : List (Ctr × Nat)) (h : Canonical s) :
    Canonical (State.bumps s x1) := by
  induction x1 generalizing s with
  | nil => exact h
  | cons w r ih => exact ih (canon_bump w.1 w.2 h)
@[simp] theorem canon_noteGrad {s : State} (c : Cmd) (nf : Nat) (h : Canonical s) :
    Canonical (State.noteGrad s c nf) := by
  simp (maxDischargeDepth := 30) [State.noteGrad, h]
@[simp] theorem canon_stopEffect {s : State} (c : Cmd) (e : Effect) (limit : Option Nat) (h : Canonical s) :
    Canonical (State.stopEffect s c e limit) := by
  simp (maxDischargeDepth := 30) [State.stopEffect, h]
@[simp] theorem canon_stopPoison {s : State} (c : Cmd) (e : Effect) (h : Canonical s) :
    Canonical (State.stopPoison s c e) := by
  simp (maxDischargeDepth := 30) [State.stopPoison, h]
@[simp] theorem canon_landEffect {s : State} (c : Cmd) (e : Effect) (h : Canonical s) :
    Canonical (State.landEffect s c e) := by
  simp (maxDischargeDepth := 30) [State.landEffect, h]
@[simp] theorem canon_perform {s : State} (c : Cmd) (e : Effect) (h : Canonical s) :
    Canonical (State.perform s c e) := by
  simp (maxDischargeDepth := 30) [State.perform, h]
@[simp] theorem canon_runOp {s : State} (id : Nat) (opcode : Nat) (f : State → Cmd → Effect) (h : Canonical s) :
    Canonical (State.runOp s id opcode f) := by
  unfold State.runOp
  (repeat' split) <;> simp +contextual (maxDischargeDepth := 30) [h]

/-! Sequence -/

@[simp] theorem canon_advance {s : State} (n : Nat) (h : Canonical s) :
    Canonical (State.advance s n) := by
  simp (maxDischargeDepth := 30) [State.advance, h]
@[simp] theorem canon_jump {s : State} (n : Nat) (entry : Nat) (h : Canonical s) :
    Canonical (State.jump s n entry) := by
  simp (maxDischargeDepth := 30) [State.jump, h]
@[simp] theorem canon_modGroup {s : State} (g : Nat) (f : Group → Group) (h : Canonical s) :
    Canonical (State.modGroup s g f) := by
  simp (maxDischargeDepth := 30) [State.modGroup, h]
@[simp] theorem canon_numberColl {s : State} (id : Nat) (h : Canonical s) :
    Canonical (State.numberColl s id) := by
  unfold State.numberColl
  (repeat' split) <;> simp +contextual (maxDischargeDepth := 30) [h]
@[simp] theorem canon_joinEntry {s : State} (n : Nat) (h : Canonical s) :
    Canonical (State.joinEntry s n) := by
  simp (maxDischargeDepth := 30) [State.joinEntry, h]
@[simp] theorem canon_admitEntry {s : State} (n : Nat) (h : Canonical s) :
    Canonical (State.admitEntry s n) := by
  simp (maxDischargeDepth := 30) [State.admitEntry, h]
@[simp] theorem canon_issueControl {s : State} (n : Nat) (op : Nat) (f : State → State) (h : Canonical s) (hf : ∀ t, Canonical t → Canonical (f t)) :
    Canonical (State.issueControl s n op f) := by
  simp (maxDischargeDepth := 30) [State.issueControl, h, hf]
@[simp] theorem canon_doPlaybookIssue {s : State} (n : Nat) (h : Canonical s) :
    Canonical (State.doPlaybookIssue s n) := by
  simp (maxDischargeDepth := 30) [State.doPlaybookIssue, h]

/-! Admin -/

@[simp] theorem canon_runChecked {s : State} (id : Nat) (opcode : Nat) (start : State → Cmd → Started) (act : State → Cmd → State) (h : Canonical s) (hact : ∀ t c, Canonical t → Canonical (act t c)) :
    Canonical (State.runChecked s id opcode start act) := by
  unfold State.runChecked
  (repeat' split) <;> simp +contextual (maxDischargeDepth := 30) [h, hact]
@[simp] theorem canon_doCtxCreate {s : State} (id : Nat) (h : Canonical s) :
    Canonical (State.doCtxCreate s id) := by
  simp +contextual (maxDischargeDepth := 30) [State.doCtxCreate, h]
@[simp] theorem canon_setPlace {s : State} (local' : Bool) (g : Nat) (h : Canonical s) :
    Canonical (State.setPlace s local' g) := by
  simp (maxDischargeDepth := 30) [State.setPlace, h]
@[simp] theorem canon_setRegion {s : State} (ctx : Nat) (n : Nat) (r : Region) (h : Canonical s) :
    Canonical (State.setRegion s ctx n r) := by
  simp +contextual (maxDischargeDepth := 30) [State.setRegion, h]
@[simp] theorem canon_doRegionSet {s : State} (id : Nat) (h : Canonical s) :
    Canonical (State.doRegionSet s id) := by
  simp +contextual (maxDischargeDepth := 30) [State.doRegionSet, h]

/-! Playbook -/

@[simp] theorem canon_writeVerdict {s : State} (a : Nat) (b : List Byte) (h : Canonical s) :
    Canonical (State.writeVerdict s a b) := by
  simp (maxDischargeDepth := 30) [State.writeVerdict, h]
@[simp] theorem canon_writeSeed {s : State} (w : Word64) (h : Canonical s) :
    Canonical (State.writeSeed s w) := by
  simp (maxDischargeDepth := 30) [State.writeSeed, h]
@[simp] theorem canon_acceptPlaybook {s : State} (digest : List Byte → BitVec 256) (c : Cmd) (n : Nat) (h : Canonical s) :
    Canonical (State.acceptPlaybook s digest c n) := by
  exact canon_setStage _ _ (canon_writeVerdict _ _ (canon_writeSeed _ (canon_modSeq _ _ h)))
@[simp] theorem canon_stepBoundary {s : State} (h : Canonical s) :
    Canonical (State.stepBoundary s) := by
  simp (maxDischargeDepth := 30) [State.stepBoundary, h]
@[simp] theorem canon_doEnterHeld {s : State} (n : Nat) (h : Canonical s) :
    Canonical (State.doEnterHeld s n) := by
  simp (maxDischargeDepth := 30) [State.doEnterHeld, h]
@[simp] theorem canon_doEntryFailed {s : State} (n : Nat) (h : Canonical s) :
    Canonical (State.doEntryFailed s n) := by
  simp (maxDischargeDepth := 30) [State.doEntryFailed, h]
@[simp] theorem canon_doWindowClose {s : State} (n : Nat) (h : Canonical s) :
    Canonical (State.doWindowClose s n) := by
  unfold State.doWindowClose
  (repeat' split) <;> simp +contextual (maxDischargeDepth := 30) [h]
@[simp] theorem canon_doPbFeed {s : State} (id : Nat) (h : Canonical s) :
    Canonical (State.doPbFeed s id) := by
  unfold State.doPbFeed
  (repeat' split) <;> simp +contextual (maxDischargeDepth := 30) [h]
@[simp] theorem canon_doPbPost {s : State} (id : Nat) (h : Canonical s) :
    Canonical (State.doPbPost s id) := by
  unfold State.doPbPost
  (repeat' split) <;> simp +contextual (maxDischargeDepth := 30) [h]
@[simp] theorem canon_doFeedTail {s : State} (n : Nat) (v : Word32) (h : Canonical s) :
    Canonical (State.doFeedTail s n v) := by
  simp (maxDischargeDepth := 30) [State.doFeedTail, h]
@[simp] theorem canon_noteSpike {s : State} (h : Canonical s) :
    Canonical (State.noteSpike s) := by
  simp (maxDischargeDepth := 30) [State.noteSpike, h]
@[simp] theorem canon_doPbLoss {s : State} (id : Nat) (h : Canonical s) :
    Canonical (State.doPbLoss s id) := by
  unfold State.doPbLoss
  (repeat' split) <;> simp +contextual (maxDischargeDepth := 30) [h]

/-! FabNet -/

@[simp] theorem canon_sendOn {s : State} (n : Nat) (p : Packet) (h : Canonical s) :
    Canonical (State.sendOn s n p) := by
  simp (maxDischargeDepth := 30) [State.sendOn, h]
@[simp] theorem canon_sendWaiting {s : State} (n : Nat) (w : Waiting) (h : Canonical s) :
    Canonical (State.sendWaiting s n w) := by
  simp (maxDischargeDepth := 30) [State.sendWaiting, h]
@[simp] theorem canon_wait {s : State} (w : Waiting) (h : Canonical s) :
    Canonical (State.wait s w) := by
  simp (maxDischargeDepth := 30) [State.wait, h]
@[simp] theorem canon_chooseRoute {s : State} (w : Waiting) (h : Canonical s) :
    Canonical (State.chooseRoute s w).2 := by
  simp (maxDischargeDepth := 30) [State.chooseRoute, h]
@[simp] theorem canon_transmit {s : State} (w : Waiting) (h : Canonical s) :
    Canonical (State.transmit s w) := by
  have hc := canon_chooseRoute w h
  unfold State.transmit
  generalize State.chooseRoute s w = p at hc
  obtain ⟨r, t⟩ := p
  cases r <;> simp (maxDischargeDepth := 30) [show Canonical t from hc]
@[simp] theorem canon_inject {s : State} (p : Packet) (h : Canonical s) :
    Canonical (State.inject s p) := by
  simp (maxDischargeDepth := 30) [State.inject, h]
@[simp] theorem canon_contend {s : State} (n : Nat) (vc : Nat) (x3 : Nat) (x4 : List Waiting) (h : Canonical s) :
    Canonical (State.contend s n vc x3 x4) := by
  induction x3 generalizing s x4 with
  | zero => exact h
  | succ k ih =>
    unfold State.contend
    dsimp only
    split
    · exact h
    · exact ih _ (canon_sendWaiting _ _ (canon_modFabric _ h))
@[simp] theorem canon_routeAll {s : State} (x1 : List Waiting) (h : Canonical s) :
    Canonical (State.routeAll s x1).1 := by
  induction x1 generalizing s with
  | nil => exact h
  | cons w r ih =>
    have hc := canon_chooseRoute w h
    unfold State.routeAll
    generalize State.chooseRoute s w = p at hc
    obtain ⟨q, t⟩ := p
    have ht : Canonical t := hc
    cases q
    · exact ih (canon_bump _ _ ht)
    · exact ih (canon_wait _ ht)
    · exact ih ht
@[simp] theorem canon_ageOut {s : State} (h : Canonical s) :
    Canonical (State.ageOut s) := by
  simp (maxDischargeDepth := 30) [State.ageOut, h]
@[simp] theorem canon_flushQueue {s : State} (h : Canonical s) :
    Canonical (State.flushQueue s) := by
  simp +contextual (maxDischargeDepth := 30) [State.flushQueue, h]
@[simp] theorem canon_receive {s : State} (p : Packet) (t : PktType) (f : State → State) (h : Canonical s) (hf : ∀ t, Canonical t → Canonical (f t)) :
    Canonical (State.receive s p t f) := by
  simp (maxDischargeDepth := 30) [State.receive, h, hf]
@[simp] theorem canon_doForward {s : State} (inPort : Nat) (p : Packet) (micros : Nat) (credits : List Nat) (h : Canonical s) :
    Canonical (State.doForward s inPort p micros credits) := by
  simp +contextual (maxDischargeDepth := 30) [State.doForward, h]
  (repeat' split) <;> simp +contextual (maxDischargeDepth := 30) [h]
@[simp] theorem canon_landBlocks {s : State} (id : Nat) (f : Fmt) (x3 : List BlockWr) (h : Canonical s) :
    Canonical (State.landBlocks s id f x3).1 := by
  induction x3 generalizing s with
  | nil => exact h
  | cons w r ih =>
    unfold State.landBlocks; split
    · exact h
    · split
      · simp [h]
      · refine ih ?_
        try dsimp only
        split <;> simp (maxDischargeDepth := 30) [h]
@[simp] theorem canon_addPoisonIn {s : State} (id : Nat) (n : Nat) (h : Canonical s) :
    Canonical (State.addPoisonIn s id n) := by
  simp (maxDischargeDepth := 30) [State.addPoisonIn, h]
@[simp] theorem canon_finishPart {s : State} (id : Nat) (k : Compl) (h : Canonical s) :
    Canonical (State.finishPart s id k) := by
  unfold State.finishPart
  (repeat' split) <;> simp +contextual (maxDischargeDepth := 30) [h]
@[simp] theorem canon_serveRead {s : State} (p : Packet) (h : Canonical s) :
    Canonical (State.serveRead s p).1 := by
  simp +contextual (maxDischargeDepth := 30) [State.serveRead, h]
  (repeat' split) <;> simp +contextual (maxDischargeDepth := 30) [h]
@[simp] theorem canon_serveWrite {s : State} (p : Packet) (h : Canonical s) :
    Canonical (State.serveWrite s p).1 := by
  simp +contextual (maxDischargeDepth := 30) [State.serveWrite, h]
  (repeat' split) <;> simp +contextual (maxDischargeDepth := 30) [h]
@[simp] theorem canon_serve {s : State} (p : Packet) (n : Nat) (write : Bool) (f : State → Packet → State × Packet) (h : Canonical s) (hf : ∀ t q, Canonical t → Canonical (f t q).1) :
    Canonical (State.serve s p n write f) := by
  unfold State.serve
  dsimp only
  split
  · exact canon_inject _ (hf _ _ h)
  · exact canon_access _ _ _ _ h (fun t ht => canon_inject _ (hf _ _ ht))
@[simp] theorem canon_dropRemote {s : State} (tag : Nat) (h : Canonical s) :
    Canonical (State.dropRemote s tag) := by
  simp (maxDischargeDepth := 30) [State.dropRemote, h]
@[simp] theorem canon_dropQueued {s : State} (tags : List Nat) (h : Canonical s) :
    Canonical (State.dropQueued s tags) := by
  simp (maxDischargeDepth := 30) [State.dropQueued, h]
@[simp] theorem canon_failRemote {s : State} (id : Nat) (st : Nat) (h : Canonical s) :
    Canonical (State.failRemote s id st) := by
  simp (maxDischargeDepth := 30) [State.failRemote, h]
@[simp] theorem canon_remoteRequest {s : State} (id : Nat) (localAddr : Nat) (first : Nat) (p : Packet) (h : Canonical s) :
    Canonical (State.remoteRequest s id localAddr first p) := by
  simp (maxDischargeDepth := 30) [State.remoteRequest, h]
@[simp] theorem canon_sendPiece {s : State} (c : Cmd) (o : Operand) (r : Operand) (p : Nat × Nat × Nat) (h : Canonical s) :
    Canonical (State.sendPiece s c o r p) := by
  simp (maxDischargeDepth := 30) [State.sendPiece, h]
@[simp] theorem canon_sendPart {s : State} (c : Cmd) (dst : Nat) (la : Nat) (ra : Nat) (h : Canonical s) :
    Canonical (State.sendPart s c dst la ra) := by
  simp (maxDischargeDepth := 30) [State.sendPart, h]
@[simp] theorem canon_sendNext {s : State} (b : Nat × Nat × Nat × Nat) (h : Canonical s) :
    Canonical (State.sendNext s b) := by
  unfold State.sendNext
  (repeat' split) <;> simp +contextual (maxDischargeDepth := 30) [h]
@[simp] theorem canon_pumpRemotes {s : State} (h : Canonical s) :
    Canonical (State.pumpRemotes s) := by
  simp +contextual (maxDischargeDepth := 30) [State.pumpRemotes, h]
@[simp] theorem canon_settleRemote {s : State} (id : Nat) (h : Canonical s) :
    Canonical (State.settleRemote s id) := by
  simp (maxDischargeDepth := 30) [State.settleRemote, h]
@[simp] theorem canon_settleRestores {s : State} (h : Canonical s) :
    Canonical (State.settleRestores s) := by
  simp +contextual (maxDischargeDepth := 30) [State.settleRestores, h]
@[simp] theorem canon_copyPiece {s : State} (id : Nat) (src : Operand) (dst : Operand) (p : Nat × Nat × Nat) (h : Canonical s) :
    Canonical (State.copyPiece s id src dst p) := by
  simp (maxDischargeDepth := 30) [State.copyPiece, h]
@[simp] theorem canon_doRemote {s : State} (id : Nat) (opcode : Nat) (h : Canonical s) :
    Canonical (State.doRemote s id opcode) := by
  unfold State.doRemote
  (repeat' split) <;> simp +contextual (maxDischargeDepth := 30) [h]
@[simp] theorem canon_takeResponse {s : State} (p : Packet) (h : Canonical s) :
    Canonical (State.takeResponse s p) := by
  unfold State.takeResponse
  (repeat' split) <;> simp +contextual (maxDischargeDepth := 30) [h]

/-! Ssu -/

@[simp] theorem canon_countCe {s : State} (a : Nat) (h : Canonical s) :
    Canonical (State.countCe s a) := by
  simp (maxDischargeDepth := 30) [State.countCe, h]
@[simp] theorem canon_countTransient {s : State} (a : Nat) (h : Canonical s) :
    Canonical (State.countTransient s a) := by
  simp (maxDischargeDepth := 30) [State.countTransient, h]
@[simp] theorem canon_lastingError {s : State} (a : Nat) (h : Canonical s) :
    Canonical (State.lastingError s a) := by
  simp (maxDischargeDepth := 30) [State.lastingError, h]
@[simp] theorem canon_classify {s : State} (a : Nat) (o : ReadOutcome) (h : Canonical s) :
    Canonical (State.classify s a o).2 := by
  simp +contextual (maxDischargeDepth := 30) [State.classify, h]
  (repeat' split) <;> simp +contextual (maxDischargeDepth := 30) [h]
@[simp] theorem canon_corrected {s : State} (a : Nat) (h : Canonical s) :
    Canonical (State.corrected s a) := by
  simp (maxDischargeDepth := 30) [State.corrected, h]
@[simp] theorem canon_landHeld {s : State} (a : Nat) (h : Canonical s) :
    Canonical (State.landHeld s a) := by
  simp +contextual (maxDischargeDepth := 30) [State.landHeld, h]
@[simp] theorem canon_secondRead {s : State} (a : Nat) (second : ReadOutcome) (h : Canonical s) :
    Canonical (State.secondRead s a second) := by
  simp +contextual (maxDischargeDepth := 30) [State.secondRead, h]
  (repeat' split) <;> simp +contextual (maxDischargeDepth := 30) [h]
@[simp] theorem canon_firstRead {s : State} (a : Nat) (o : ReadOutcome) (h : Canonical s) :
    Canonical (State.firstRead s a o) := by
  simp +contextual (maxDischargeDepth := 30) [State.firstRead, h]
  (repeat' split) <;> simp +contextual (maxDischargeDepth := 30) [h]
@[simp] theorem canon_addTo {s : State} (a : Nat) (bf : Bool) (cs : List (List Word32)) (poisoned : Bool) (h : Canonical s) :
    Canonical (State.addTo s a bf cs poisoned) := by
  simp (maxDischargeDepth := 30) [State.addTo, h]
@[simp] theorem canon_ssuOp {s : State} (op : SsuOp) (h : Canonical s) :
    Canonical (State.ssuOp s op) := by
  unfold State.ssuOp
  (repeat' split) <;> simp +contextual (maxDischargeDepth := 30) [h]

/-! Coll -/

@[simp] theorem canon_doGroupDefine {s : State} (id : Nat) (h : Canonical s) :
    Canonical (State.doGroupDefine s id) := by
  unfold State.doGroupDefine
  (repeat' split) <;> simp +contextual (maxDischargeDepth := 30) [h]
@[simp] theorem canon_modColl {s : State} (id : Nat) (f : Coll → Coll) (h : Canonical s) :
    Canonical (State.modColl s id f) := by
  simp (maxDischargeDepth := 30) [State.modColl, h]
@[simp] theorem canon_trySends {s : State} (id : Nat) (h : Canonical s) :
    Canonical (State.trySends s id) := by
  unfold State.trySends
  (repeat' split) <;> simp +contextual (maxDischargeDepth := 30) [h]
@[simp] theorem canon_addSends {s : State} (id : Nat) (l : List Send) (h : Canonical s) :
    Canonical (State.addSends s id l) := by
  simp (maxDischargeDepth := 30) [State.addSends, h]
@[simp] theorem canon_landContribution {s : State} (k : Coll) (r : Nat) (off : Nat) (data : List Byte) (poison : Nat) (empty : Bool) (h : Canonical s) :
    Canonical (State.landContribution s k r off data poison empty).1 := by
  unfold State.landContribution; dsimp only; split
  · simp [h]
  split
  · split <;> simp (maxDischargeDepth := 30) [h]
  split
  · simp [h]
  refine canon_modColl _ _ (foldl_keeps (p := fun (a : State × Bool) => Canonical a.1) (fun a x ha => ?_) _ h)
  try dsimp only
  (repeat' split) <;> simp (maxDischargeDepth := 30) [ha]
@[simp] theorem canon_landGather {s : State} (k : Coll) (r : Nat) (off : Nat) (data : List Byte) (poison : Nat) (empty : Bool) (h : Canonical s) :
    Canonical (State.landGather s k r off data poison empty).1 := by
  unfold State.landGather
  (repeat' split) <;> simp +contextual (maxDischargeDepth := 30) [h]
@[simp] theorem canon_uncount {s : State} (id : Nat) (n : Nat) (h : Canonical s) :
    Canonical (State.uncount s id n) := by
  simp (maxDischargeDepth := 30) [State.uncount, h]
@[simp] theorem canon_formShard {s : State} (id : Nat) (i : Nat) (h : Canonical s) :
    Canonical (State.formShard s id i) := by
  unfold State.formShard
  (repeat' split) <;> simp +contextual (maxDischargeDepth := 30) [h]
@[simp] theorem canon_endColl {s : State} (k : Coll) (h : Canonical s) :
    Canonical (State.endColl s k) := by
  simp (maxDischargeDepth := 30) [State.endColl, h]
@[simp] theorem canon_settleColl {s : State} (id : Nat) (h : Canonical s) :
    Canonical (State.settleColl s id) := by
  simp +contextual (maxDischargeDepth := 30) [State.settleColl, h]
  (repeat' split) <;> simp +contextual (maxDischargeDepth := 30) [h]
@[simp] theorem canon_landOwn {s : State} (id : Nat) (i : Nat) (h : Canonical s) :
    Canonical (State.landOwn s id i) := by
  unfold State.landOwn
  (repeat' split) <;> simp +contextual (maxDischargeDepth := 30) [h]
@[simp] theorem canon_launch {s : State} (id : Nat) (h : Canonical s) :
    Canonical (State.launch s id) := by
  unfold State.launch
  (repeat' split) <;> simp +contextual (maxDischargeDepth := 30) [h]
@[simp] theorem canon_sendReady {s : State} (k : Coll) (h : Canonical s) :
    Canonical (State.sendReady s k) := by
  simp +contextual (maxDischargeDepth := 30) [State.sendReady, h]
@[simp] theorem canon_takeReady {s : State} (id : Nat) (r : Nat) (h : Canonical s) :
    Canonical (State.takeReady s id r) := by
  simp (maxDischargeDepth := 30) [State.takeReady, h]
@[simp] theorem canon_noteNoBall {s : State} (h : Canonical s) :
    Canonical (State.noteNoBall s) := by
  simp (maxDischargeDepth := 30) [State.noteNoBall, h]
@[simp] theorem canon_formVerdict {s : State} (c : Cmd) (localNf : Bool) (r : Barrier) (h : Canonical s) :
    Canonical (State.formVerdict s c localNf r) := by
  simp (maxDischargeDepth := 30) [State.formVerdict, h]
@[simp] theorem canon_takeBarrier {s : State} (id : Nat) (r : Barrier) (h : Canonical s) :
    Canonical (State.takeBarrier s id r) := by
  unfold State.takeBarrier
  (repeat' split) <;> simp +contextual (maxDischargeDepth := 30) [h]
@[simp] theorem canon_settleBarrier {s : State} (id : Nat) (h : Canonical s) :
    Canonical (State.settleBarrier s id) := by
  unfold State.settleBarrier
  (repeat' split) <;> simp +contextual (maxDischargeDepth := 30) [h]
@[simp] theorem canon_noteFlag {s : State} (id : Nat) (r : Nat) (flag : Bool) (held : Option Barrier) (h : Canonical s) :
    Canonical (State.noteFlag s id r flag held) := by
  simp (maxDischargeDepth := 30) [State.noteFlag, h]
@[simp] theorem canon_sendFlag {s : State} (id : Nat) (h : Canonical s) :
    Canonical (State.sendFlag s id) := by
  unfold State.sendFlag
  (repeat' split) <;> simp +contextual (maxDischargeDepth := 30) [h]
@[simp] theorem canon_takeEarly {s : State} (id : Nat) (h : Canonical s) :
    Canonical (State.takeEarly s id) := by
  unfold State.takeEarly; split
  · exact h
  · refine canon_foldl (fun t a ht => ?_) _ (by simp [h])
    try dsimp only
    split <;> simp [ht]
@[simp] theorem canon_earlyOrDrop {s : State} (p : Packet) (h : Canonical s) :
    Canonical (State.earlyOrDrop s p) := by
  unfold State.earlyOrDrop
  (repeat' split) <;> simp +contextual (maxDischargeDepth := 30) [h]
@[simp] theorem canon_doColl {s : State} (id : Nat) (opcode : Nat) (kind : Nat) (h : Canonical s) :
    Canonical (State.doColl s id opcode kind) := by
  unfold State.doColl
  (repeat' split) <;> simp +contextual (maxDischargeDepth := 30) [h]
@[simp] theorem canon_runBarrier {s : State} (c : Cmd) (group : Nat) (flag : Bool) (h : Canonical s) :
    Canonical (State.runBarrier s c group flag) := by
  unfold State.runBarrier
  (repeat' split) <;> simp +contextual (maxDischargeDepth := 30) [h]
@[simp] theorem canon_takeData {s : State} (k : Coll) (p : Packet) (h : Canonical s) :
    Canonical (State.takeData s k p) := by
  simp +contextual (maxDischargeDepth := 30) [State.takeData, h]
  (repeat' split) <;> simp +contextual (maxDischargeDepth := 30) [h]
@[simp] theorem canon_collLoses {s : State} (gone : List Nat) (k0 : Coll) (h : Canonical s) :
    Canonical (State.collLoses s gone k0) := by
  simp +contextual (maxDischargeDepth := 30) [State.collLoses, h]
@[simp] theorem canon_leaderLost {s : State} (before : List Nat) (g : Group) (h : Canonical s) :
    Canonical (State.leaderLost s before g) := by
  simp +contextual (maxDischargeDepth := 30) [State.leaderLost, h]
  (repeat' split) <;> simp +contextual (maxDischargeDepth := 30) [h]
@[simp] theorem canon_groupsLose {s : State} (before : State) (gone : List Nat) (h : Canonical s) :
    Canonical (State.groupsLose s before gone) := by
  unfold State.groupsLose
  refine canon_foldl (fun t a ht => ?_) _ (canon_foldl (fun t a ht => ?_) _ (by simp [h]))
  · split <;> simp [ht]
  · try dsimp only
    split <;> simp [ht]

/-! Drain -/

@[simp] theorem canon_openSlots {s : State} (c : Cmd) (names : List (Nat × Nat × Nat)) (h : Canonical s) :
    Canonical (State.openSlots s c names) := by
  simp (maxDischargeDepth := 30) [State.openSlots, h]

/-! Place -/

@[simp] theorem canon_settleModes {s : State} (clusters : List Nat) (seeking : List Cmd) (h : Canonical s) :
    Canonical (State.settleModes s clusters seeking) := by
  simp +contextual (maxDischargeDepth := 30) [State.settleModes, h]
@[simp] theorem canon_placeOn {s : State} (c : Cmd) (before : List Cmd) (n : Nat) (h : Canonical s) :
    Canonical (State.placeOn s c before n) := by
  simp +contextual (maxDischargeDepth := 30) [State.placeOn, h]
@[simp] theorem canon_place {s : State} (c : Cmd) (before : List Cmd) (h : Canonical s) :
    Canonical (State.place s c before) := by
  simp +contextual (maxDischargeDepth := 30) [State.place, h]
@[simp] theorem canon_moveShare {s : State} (n : Nat) (core : Nat) (id : Nat) (h : Canonical s) :
    Canonical (State.moveShare s n core id) := by
  unfold State.moveShare
  (repeat' split) <;> simp +contextual (maxDischargeDepth := 30) [h]

/-! Vector -/

@[simp] theorem canon_landTable {s : State} (c : Cmd) (n : Nat) (cl : Nat) (h : Canonical s) :
    Canonical (State.landTable s c n cl) := by
  simp (maxDischargeDepth := 30) [State.landTable, h]
@[simp] theorem canon_takeTables {s : State} (cl : Nat) (h : Canonical s) :
    Canonical (State.takeTables s cl) := by
  simp (maxDischargeDepth := 30) [State.takeTables, h]

/-! Draft -/

@[simp] theorem canon_closeGen {s : State} (t : Nat) (h : Canonical s) :
    Canonical (State.closeGen s t) := by
  simp (maxDischargeDepth := 30) [State.closeGen, h]
@[simp] theorem canon_retireGen {s : State} (t : Nat) (h : Canonical s) :
    Canonical (State.retireGen s t) := by
  simp (maxDischargeDepth := 30) [State.retireGen, h]
@[simp] theorem canon_creditDraft {s : State} (d : Draft) (drafted : Nat) (undrafted : Nat) (h : Canonical s) :
    Canonical (State.creditDraft s d drafted undrafted) := by
  unfold State.creditDraft
  (repeat' split) <;> simp +contextual (maxDischargeDepth := 30) [h]
@[simp] theorem canon_writeDraftList {s : State} (t : Nat) (lists : List (List Nat × Bool)) (h : Canonical s) :
    Canonical (State.writeDraftList s t lists) := by
  simp +contextual (maxDischargeDepth := 30) [State.writeDraftList, h]
  (repeat' split) <;> simp +contextual (maxDischargeDepth := 30) [h]
@[simp] theorem canon_settleList {s : State} (t : Nat) (h : Canonical s) :
    Canonical (State.settleList s t) := by
  simp (maxDischargeDepth := 30) [State.settleList, h]
@[simp] theorem canon_askFor {s : State} (t : Nat) (a : Ask) (h : Canonical s) :
    Canonical (State.askFor s t a) := by
  simp (maxDischargeDepth := 30) [State.askFor, h]
@[simp] theorem canon_sendCopy {s : State} (t : Nat) (r : FetchReq) (a : Nat) (h : Canonical s) :
    Canonical (State.sendCopy s t r a) := by
  simp +contextual (maxDischargeDepth := 30) [State.sendCopy, h]
@[simp] theorem canon_serveFetch {s : State} (t : Nat) (r : FetchReq) (h : Canonical s) :
    Canonical (State.serveFetch s t r) := by
  simp +contextual (maxDischargeDepth := 30) [State.serveFetch, h]
  (repeat' split) <;> simp +contextual (maxDischargeDepth := 30) [h]
@[simp] theorem canon_serveFetches {s : State} (t : Nat) (h : Canonical s) :
    Canonical (State.serveFetches s t) := by
  simp +contextual (maxDischargeDepth := 30) [State.serveFetches, h]
@[simp] theorem canon_serveAll {s : State} (h : Canonical s) :
    Canonical (State.serveAll s) := by
  simp +contextual (maxDischargeDepth := 30) [State.serveAll, h]
@[simp] theorem canon_settleTransfer {s : State} (t : Nat) (h : Canonical s) :
    Canonical (State.settleTransfer s t) := by
  simp +contextual (maxDischargeDepth := 30) [State.settleTransfer, h]
  (repeat' split) <;> simp +contextual (maxDischargeDepth := 30) [h]
@[simp] theorem canon_useCopy {s : State} (t : Nat) (bytes : List Byte) (poison : Nat) (a : Ask) (h : Canonical s) :
    Canonical (State.useCopy s t bytes poison a) := by
  unfold State.useCopy
  (repeat' split) <;> simp +contextual (maxDischargeDepth := 30) [h]
@[simp] theorem canon_settleCopy {s : State} (t : Nat) (source : Nat) (e : Nat) (h : Canonical s) :
    Canonical (State.settleCopy s t source e) := by
  simp +contextual (maxDischargeDepth := 30) [State.settleCopy, h]
  (repeat' split) <;> simp +contextual (maxDischargeDepth := 30) [h]
@[simp] theorem canon_draftNf {s : State} (t : Nat) (h : Canonical s) :
    Canonical (State.draftNf s t) := by
  unfold State.draftNf
  (repeat' split) <;> simp +contextual (maxDischargeDepth := 30) [h]
@[simp] theorem canon_takePart {s : State} (t : Nat) (p : DraftPart) (h : Canonical s) :
    Canonical (State.takePart s t p) := by
  unfold State.takePart
  (repeat' split) <;> simp +contextual (maxDischargeDepth := 30) [h]
@[simp] theorem canon_deliver {s : State} (t : Nat) (p : Packet) (h : Canonical s) :
    Canonical (State.deliver s t p) := by
  simp (maxDischargeDepth := 30) [State.deliver, h]
@[simp] theorem canon_deliverAll {s : State} (t : Nat) (l : List Packet) (h : Canonical s) :
    Canonical (State.deliverAll s t l) := by
  simp +contextual (maxDischargeDepth := 30) [State.deliverAll, h]
@[simp] theorem canon_doDraftPacket {s : State} (p : Packet) (h : Canonical s) :
    Canonical (State.doDraftPacket s p) := by
  simp (maxDischargeDepth := 30) [State.doDraftPacket, h]
@[simp] theorem canon_doDraftPropose {s : State} (id : Nat) (h : Canonical s) :
    Canonical (State.doDraftPropose s id) := by
  simp +contextual (maxDischargeDepth := 30) [State.doDraftPropose, h]
  (repeat' split) <;> simp +contextual (maxDischargeDepth := 30) [h]
@[simp] theorem canon_doDraftMerge {s : State} (id : Nat) (h : Canonical s) :
    Canonical (State.doDraftMerge s id) := by
  unfold State.doDraftMerge
  (repeat' split) <;> simp +contextual (maxDischargeDepth := 30) [h]
@[simp] theorem canon_askExpert {s : State} (t : Nat) (e : Nat) (h : Canonical s) :
    Canonical (State.askExpert s t e) := by
  simp +contextual (maxDischargeDepth := 30) [State.askExpert, h]
  (repeat' split) <;> simp +contextual (maxDischargeDepth := 30) [h]
@[simp] theorem canon_placeCopy {s : State} (d : Draft) (e : Nat) (i : Nat) (h : Canonical s) :
    Canonical (State.placeCopy s d e i).1 := by
  unfold State.placeCopy
  (repeat' split) <;> simp +contextual (maxDischargeDepth := 30) [h]
@[simp] theorem canon_overExperts {α : Type} {s : State} (d : Draft) (l : List (Nat × List Pair)) (f : State → Nat → Nat → List Pair → α) (h : Canonical s) :
    Canonical (State.overExperts s d l f).1 := by
  unfold State.overExperts
  refine foldl_keeps (p := fun (a : State × _) => Canonical a.1) (fun a x ha => ?_) _ h
  simp [ha]
@[simp] theorem canon_fwdEffect {s : State} (d : Draft) (c : Cmd) (pairs : List (Nat × List Pair)) (bad : Nat) (h : Canonical s) :
    Canonical (State.fwdEffect s d c pairs bad).1 := by
  unfold State.fwdEffect
  (repeat' split) <;> simp +contextual (maxDischargeDepth := 30) [h]
@[simp] theorem canon_doDraftFwd {s : State} (id : Nat) (h : Canonical s) :
    Canonical (State.doDraftFwd s id) := by
  unfold State.doDraftFwd
  (repeat' split) <;> simp +contextual (maxDischargeDepth := 30) [h]
@[simp] theorem canon_bwdEffect {s : State} (d : Draft) (c : Cmd) (pairs : List (Nat × List Pair)) (bad : Nat) (h : Canonical s) :
    Canonical (State.bwdEffect s d c pairs bad).1 := by
  unfold State.bwdEffect
  (repeat' split) <;> simp +contextual (maxDischargeDepth := 30) [h]
@[simp] theorem canon_performPart {s : State} (c : Cmd) (e : Effect) (h : Canonical s) :
    Canonical (State.performPart s c e).1 := by
  unfold State.performPart
  (repeat' split) <;> simp +contextual (maxDischargeDepth := 30) [h]
@[simp] theorem canon_settleBwd {s : State} (t : Nat) (id : Nat) (h : Canonical s) :
    Canonical (State.settleBwd s t id) := by
  unfold State.settleBwd
  (repeat' split) <;> simp +contextual (maxDischargeDepth := 30) [h]
@[simp] theorem canon_doDraftBwd {s : State} (id : Nat) (h : Canonical s) :
    Canonical (State.doDraftBwd s id) := by
  unfold State.doDraftBwd
  (repeat' split) <;> simp +contextual (maxDischargeDepth := 30) [h]
@[simp] theorem canon_reduceExpert {s : State} (t : Nat) (e : Nat) (h : Canonical s) :
    Canonical (State.reduceExpert s t e) := by
  simp +contextual (maxDischargeDepth := 30) [State.reduceExpert, h]
  (repeat' split) <;> simp +contextual (maxDischargeDepth := 30) [h]
@[simp] theorem canon_doDraftTransfer {s : State} (id : Nat) (h : Canonical s) :
    Canonical (State.doDraftTransfer s id) := by
  unfold State.doDraftTransfer
  (repeat' split) <;> simp +contextual (maxDischargeDepth := 30) [h]
@[simp] theorem canon_takePlacements {s : State} (ctx : Nat) (h : Canonical s) :
    Canonical (State.takePlacements s ctx) := by
  unfold State.takePlacements
  refine canon_foldl (fun t a ht => ?_) _ (by simp (maxDischargeDepth := 30) [h])
  try dsimp only
  (repeat' split) <;> simp (maxDischargeDepth := 30) [ht]
@[simp] theorem canon_draftsLose {s : State} (gone : List Nat) (h : Canonical s) :
    Canonical (State.draftsLose s gone) := by
  simp +contextual (maxDischargeDepth := 30) [State.draftsLose, h]

/-! Opt -/

@[simp] theorem canon_optOn {s : State} (c : Cmd) (us : List Nat) (h : Canonical s) :
    Canonical (State.optOn s c us) := by
  simp (maxDischargeDepth := 30) [State.optOn, h]
@[simp] theorem canon_doOptUpdate {s : State} (id : Nat) (h : Canonical s) :
    Canonical (State.doOptUpdate s id) := by
  unfold State.doOptUpdate
  (repeat' split) <;> simp +contextual (maxDischargeDepth := 30) [h]

/-! FabMgmt -/

@[simp] theorem canon_sendMgmt {s : State} (n : Nat) (t : PktType) (m : Mgmt) (h : Canonical s) :
    Canonical (State.sendMgmt s n t m) := by
  simp (maxDischargeDepth := 30) [State.sendMgmt, h]
@[simp] theorem canon_flood {s : State} (t : PktType) (m : Mgmt) (skip : Option Nat) (h : Canonical s) :
    Canonical (State.flood s t m skip) := by
  simp +contextual (maxDischargeDepth := 30) [State.flood, h]
@[simp] theorem canon_originate {s : State} (t : PktType) (seq : Nat) (target : Nat) (payload : List Byte) (h : Canonical s) :
    Canonical (State.originate s t seq target payload) := by
  simp +contextual (maxDischargeDepth := 30) [State.originate, h]
@[simp] theorem canon_sendHello {s : State} (n : Nat) (h : Canonical s) :
    Canonical (State.sendHello s n) := by
  simp (maxDischargeDepth := 30) [State.sendHello, h]
@[simp] theorem canon_nextRequest {s : State} (h : Canonical s) :
    Canonical (State.nextRequest s) := by
  simp (maxDischargeDepth := 30) [State.nextRequest, h]
@[simp] theorem canon_sendJoin {s : State} (captain : Nat) (nbrs : List (Nat × Nat × Nat × Nat)) (h : Canonical s) :
    Canonical (State.sendJoin s captain nbrs) := by
  simp (maxDischargeDepth := 30) [State.sendJoin, h]
@[simp] theorem canon_joinRoster {s : State} (r : Roster) (h : Canonical s) :
    Canonical (State.joinRoster s r) := by
  simp (maxDischargeDepth := 30) [State.joinRoster, h]
@[simp] theorem canon_joinHeard {s : State} (captain : Nat) (h : Canonical s) :
    Canonical (State.joinHeard s captain) := by
  simp (maxDischargeDepth := 30) [State.joinHeard, h]
@[simp] theorem canon_withSections {s : State} (r : Roster) (h : Canonical s) :
    Canonical (State.withSections s r).2 := by
  simp (maxDischargeDepth := 30) [State.withSections, h]
@[simp] theorem canon_settlePair {s : State} (old : Roster) (r : Roster) (mine : Bool) (h : Canonical s) :
    Canonical (State.settlePair s old r mine) := by
  unfold State.settlePair
  extract_lets k0 k
  split
  · simp [h]
  split
  · exact h
  split
  · simp [h]
  extract_lets shown b parted f t
  have hb : Canonical b.2 := by simp only [b]; split <;> simp [h]
  have hf : Canonical t := by simp only [t, f]; split <;> simp [hb]
  (repeat' split) <;> first | exact hf | simp (maxDischargeDepth := 30) [hf] | (dsimp only; simp (maxDischargeDepth := 30) [hf])
@[simp] theorem canon_remotesLose {s : State} (gone : List Nat) (h : Canonical s) :
    Canonical (State.remotesLose s gone) := by
  simp +contextual (maxDischargeDepth := 30) [State.remotesLose, h]
@[simp] theorem canon_holdLost {s : State} (gone : List Nat) (h : Canonical s) :
    Canonical (State.holdLost s gone) := by
  simp +contextual (maxDischargeDepth := 30) [State.holdLost, h]
@[simp] theorem canon_enact {s : State} (r : Roster) (h : Canonical s) :
    Canonical (State.enact s r) := by
  simp (maxDischargeDepth := 30) [State.enact, h]
@[simp] theorem canon_installRoster {s : State} (r : Roster) (h : Canonical s) :
    Canonical (State.installRoster s r) := by
  simp (maxDischargeDepth := 30) [State.installRoster, h]
@[simp] theorem canon_publish {s : State} (r : Roster) (h : Canonical s) :
    Canonical (State.publish s r) := by
  simp (maxDischargeDepth := 30) [State.publish, h]
@[simp] theorem canon_fabOff {s : State} (h : Canonical s) :
    Canonical (State.fabOff s) := by
  simp (maxDischargeDepth := 30) [State.fabOff, h]
@[simp] theorem canon_enterHold {s : State} (h : Canonical s) :
    Canonical (State.enterHold s) := by
  simp (maxDischargeDepth := 30) [State.enterHold, h]
@[simp] theorem canon_leaveHold {s : State} (h : Canonical s) :
    Canonical (State.leaveHold s) := by
  simp (maxDischargeDepth := 30) [State.leaveHold, h]
@[simp] theorem canon_settleReorient {s : State} (h : Canonical s) :
    Canonical (State.settleReorient s) := by
  unfold State.settleReorient
  (repeat' split) <;> simp +contextual (maxDischargeDepth := 30) [h]
@[simp] theorem canon_startReorient {s : State} (h : Canonical s) :
    Canonical (State.startReorient s) := by
  simp (maxDischargeDepth := 30) [State.startReorient, h]
@[simp] theorem canon_afterPublish {s : State} (merge : Bool) (h : Canonical s) :
    Canonical (State.afterPublish s merge) := by
  simp (maxDischargeDepth := 30) [State.afterPublish, h]
@[simp] theorem canon_doInstallPhase {s : State} (h : Canonical s) :
    Canonical (State.doInstallPhase s) := by
  simp (maxDischargeDepth := 30) [State.doInstallPhase, h]
@[simp] theorem canon_mgmtArrives {s : State} (n : Nat) (m : Mgmt) (f : State → State) (h : Canonical s) (hf : ∀ t, Canonical t → Canonical (f t)) :
    Canonical (State.mgmtArrives s n m f) := by
  simp (maxDischargeDepth := 30) [State.mgmtArrives, h, hf]
@[simp] theorem canon_collectPart {s : State} (t : PktType) (m : Mgmt) (h : Canonical s) :
    Canonical (State.collectPart s t m).1 := by
  simp +contextual (maxDischargeDepth := 30) [State.collectPart, h]
  (repeat' split) <;> simp +contextual (maxDischargeDepth := 30) [h]
@[simp] theorem canon_mgmtIn {s : State} (n : Nat) (t : PktType) (m : Mgmt) (f : State → List Byte → State) (h : Canonical s) (hf : ∀ t b, Canonical t → Canonical (f t b)) :
    Canonical (State.mgmtIn s n t m f) := by
  unfold State.mgmtIn
  refine canon_mgmtArrives _ _ _ h (fun t ht => ?_)
  dsimp only; split
  · exact ht
  · split
    · refine hf _ _ ?_
      split <;> simp (maxDischargeDepth := 30) [ht]
    · split <;> simp (maxDischargeDepth := 30) [ht]
@[simp] theorem canon_actOnLinks {s : State} (h : Canonical s) :
    Canonical (State.actOnLinks s) := by
  simp (maxDischargeDepth := 30) [State.actOnLinks, h]
@[simp] theorem canon_unhear {s : State} (origin : Nat) (port : Nat) (h : Canonical s) :
    Canonical (State.unhear s origin port) := by
  simp (maxDischargeDepth := 30) [State.unhear, h]
@[simp] theorem canon_takeLink {s : State} (origin : Nat) (w : Nat) (h : Canonical s) :
    Canonical (State.takeLink s origin w) := by
  simp (maxDischargeDepth := 30) [State.takeLink, h]
@[simp] theorem canon_takeLinks {s : State} (origin : Nat) (b : List Byte) (h : Canonical s) :
    Canonical (State.takeLinks s origin b) := by
  simp +contextual (maxDischargeDepth := 30) [State.takeLinks, h]
@[simp] theorem canon_reportLink {s : State} (n : Nat) (working : Bool) (h : Canonical s) :
    Canonical (State.reportLink s n working) := by
  simp (maxDischargeDepth := 30) [State.reportLink, h]
@[simp] theorem canon_reportUnlisted {s : State} (h : Canonical s) :
    Canonical (State.reportUnlisted s) := by
  simp +contextual (maxDischargeDepth := 30) [State.reportUnlisted, h]
@[simp] theorem canon_trainPort {s : State} (n : Nat) (h : Canonical s) :
    Canonical (State.trainPort s n) := by
  simp (maxDischargeDepth := 30) [State.trainPort, h]
@[simp] theorem canon_trainPorts {s : State} (h : Canonical s) :
    Canonical (State.trainPorts s) := by
  simp +contextual (maxDischargeDepth := 30) [State.trainPorts, h]
@[simp] theorem canon_doFabEnSet {s : State} (id : Nat) (h : Canonical s) :
    Canonical (State.doFabEnSet s id) := by
  simp (maxDischargeDepth := 30) [State.doFabEnSet, h]
@[simp] theorem canon_resign {s : State} (h : Canonical s) :
    Canonical (State.resign s) := by
  simp (maxDischargeDepth := 30) [State.resign, h]
@[simp] theorem canon_doFabEnClear {s : State} (id : Nat) (h : Canonical s) :
    Canonical (State.doFabEnClear s id) := by
  simp (maxDischargeDepth := 30) [State.doFabEnClear, h]
@[simp] theorem canon_doPassSwap {s : State} (h : Canonical s) :
    Canonical (State.doPassSwap s) := by
  simp (maxDischargeDepth := 30) [State.doPassSwap, h]
@[simp] theorem canon_doPortUp {s : State} (n : Nat) (lanes4 : Bool) (h : Canonical s) :
    Canonical (State.doPortUp s n lanes4) := by
  unfold State.doPortUp
  (repeat' split) <;> simp +contextual (maxDischargeDepth := 30) [h]
@[simp] theorem canon_doPortDown {s : State} (n : Nat) (h : Canonical s) :
    Canonical (State.doPortDown s n) := by
  unfold State.doPortDown
  (repeat' split) <;> simp +contextual (maxDischargeDepth := 30) [h]
@[simp] theorem canon_doPortRetry {s : State} (n : Nat) (h : Canonical s) :
    Canonical (State.doPortRetry s n) := by
  unfold State.doPortRetry
  (repeat' split) <;> simp +contextual (maxDischargeDepth := 30) [h]
@[simp] theorem canon_doFlitError {s : State} (n : Nat) (intact : Bool) (h : Canonical s) :
    Canonical (State.doFlitError s n intact) := by
  simp (maxDischargeDepth := 30) [State.doFlitError, h]
@[simp] theorem canon_portCable {s : State} (n : Nat) (connected : Bool) (h : Canonical s) :
    Canonical (State.portCable s n connected) := by
  simp (maxDischargeDepth := 30) [State.portCable, h]
@[simp] theorem canon_mergeInto {s : State} (h : Canonical s) :
    Canonical (State.mergeInto s) := by
  simp (maxDischargeDepth := 30) [State.mergeInto, h]
@[simp] theorem canon_doHello {s : State} (n : Nat) (m : Mgmt) (h : Canonical s) :
    Canonical (State.doHello s n m) := by
  unfold State.doHello
  refine canon_mgmtArrives _ _ _ h (fun t ht => ?_)
  try dsimp only
  (repeat' split) <;> simp (maxDischargeDepth := 30) [ht]
@[simp] theorem canon_doHeartbeat {s : State} (n : Nat) (m : Mgmt) (h : Canonical s) :
    Canonical (State.doHeartbeat s n m) := by
  simp (maxDischargeDepth := 30) [State.doHeartbeat, h]
@[simp] theorem canon_takeFabCfg {s : State} (h : Canonical s) :
    Canonical (State.takeFabCfg s) := by
  simp (maxDischargeDepth := 30) [State.takeFabCfg, h]
@[simp] theorem canon_doBeat {s : State} (h : Canonical s) :
    Canonical (State.doBeat s) := by
  simp +contextual (maxDischargeDepth := 30) [State.doBeat, h]
@[simp] theorem canon_doBeatMiss {s : State} (n : Nat) (h : Canonical s) :
    Canonical (State.doBeatMiss s n) := by
  simp (maxDischargeDepth := 30) [State.doBeatMiss, h]
@[simp] theorem canon_doFound {s : State} (h : Canonical s) :
    Canonical (State.doFound s) := by
  simp (maxDischargeDepth := 30) [State.doFound, h]
@[simp] theorem canon_admitJoin {s : State} (origin : Nat) (entries : List Nat) (h : Canonical s) :
    Canonical (State.admitJoin s origin entries) := by
  simp +contextual (maxDischargeDepth := 30) [State.admitJoin, h]
  (repeat' split) <;> simp +contextual (maxDischargeDepth := 30) [h]
@[simp] theorem canon_doJoin {s : State} (n : Nat) (m : Mgmt) (h : Canonical s) :
    Canonical (State.doJoin s n m) := by
  simp +contextual (maxDischargeDepth := 30) [State.doJoin, h]
@[simp] theorem canon_doLeave {s : State} (n : Nat) (m : Mgmt) (h : Canonical s) :
    Canonical (State.doLeave s n m) := by
  simp +contextual (maxDischargeDepth := 30) [State.doLeave, h]
@[simp] theorem canon_takeRoster {s : State} (r : Roster) (h : Canonical s) :
    Canonical (State.takeRoster s r) := by
  unfold State.takeRoster
  (repeat' split) <;> simp +contextual (maxDischargeDepth := 30) [h]
@[simp] theorem canon_doMgmtResend {s : State} (n : Nat) (h : Canonical s) :
    Canonical (State.doMgmtResend s n) := by
  simp +contextual (maxDischargeDepth := 30) [State.doMgmtResend, h]

/-! Trust -/

@[simp] theorem canon_identitySign {s : State} (body : List Byte) (h : Canonical s) :
    Canonical (State.identitySign s body).2 := by
  unfold State.identitySign
  split <;> exact canon_of rfl h
@[simp] theorem canon_newNonce {s : State} (h : Canonical s) :
    Canonical (State.newNonce s) := by
  simp (maxDischargeDepth := 30) [State.newNonce, h]

/-! Keep -/

@[simp] theorem canon_republish {s : State} (h : Canonical s) :
    Canonical (State.republish s) := by
  simp (maxDischargeDepth := 30) [State.republish, h]
@[simp] theorem canon_doKeepPair {s : State} (id : Nat) (h : Canonical s) :
    Canonical (State.doKeepPair s id) := by
  simp +contextual (maxDischargeDepth := 30) [State.doKeepPair, h]
@[simp] theorem canon_doKeepUnpair {s : State} (id : Nat) (h : Canonical s) :
    Canonical (State.doKeepUnpair s id) := by
  simp +contextual (maxDischargeDepth := 30) [State.doKeepUnpair, h]
@[simp] theorem canon_doDistRegister {s : State} (id : Nat) (h : Canonical s) :
    Canonical (State.doDistRegister s id) := by
  unfold State.doDistRegister
  (repeat' split) <;> simp +contextual (maxDischargeDepth := 30) [h]
@[simp] theorem canon_doKeepCheck {s : State} (id : Nat) (peer : List (BitVec 256)) (h : Canonical s) :
    Canonical (State.doKeepCheck s id peer) := by
  unfold State.doKeepCheck
  refine canon_runChecked _ _ _ _ h (fun t c ht => ?_)
  try dsimp only
  (repeat' split) <;> simp (maxDischargeDepth := 30) [ht]
@[simp] theorem canon_doKeepRestore {s : State} (id : Nat) (peer : List PeerPiece) (h : Canonical s) :
    Canonical (State.doKeepRestore s id peer) := by
  unfold State.doKeepRestore
  (repeat' split) <;> simp +contextual (maxDischargeDepth := 30) [h]

/-! Save -/

@[simp] theorem canon_askParts {s : State} (id : Nat) (first : Nat) (addr : Nat) (total : Nat) (h : Canonical s) :
    Canonical (State.askParts s id first addr total) := by
  simp +contextual (maxDischargeDepth := 30) [State.askParts, h]
@[simp] theorem canon_saveActs {s : State} (c : Cmd) (h : Canonical s) :
    Canonical (State.saveActs s c) := by
  simp (maxDischargeDepth := 30) [State.saveActs, h]
@[simp] theorem canon_saveStepNo {s : State} (c : Cmd) (h : Canonical s) :
    Canonical (State.saveStepNo s c).2 := by
  unfold State.saveStepNo
  (repeat' split) <;> simp +contextual (maxDischargeDepth := 30) [h]
@[simp] theorem canon_saveSend {s : State} (c : Cmd) (bufs : List (Nat × Nat)) (h : Canonical s) :
    Canonical (State.saveSend s c bufs) := by
  simp +contextual (maxDischargeDepth := 30) [State.saveSend, h]
  (repeat' split) <;> simp +contextual (maxDischargeDepth := 30) [h]
@[simp] theorem canon_saveBegin {s : State} (c : Cmd) (h : Canonical s) :
    Canonical (State.saveBegin s c) := by
  simp (maxDischargeDepth := 30) [State.saveBegin, h]
@[simp] theorem canon_saveOn {s : State} (c : Cmd) (h : Canonical s) :
    Canonical (State.saveOn s c) := by
  simp +contextual (maxDischargeDepth := 30) [State.saveOn, h]
  (repeat' split) <;> simp +contextual (maxDischargeDepth := 30) [h]
@[simp] theorem canon_doSaveShard {s : State} (id : Nat) (h : Canonical s) :
    Canonical (State.doSaveShard s id) := by
  unfold State.doSaveShard
  (repeat' split) <;> simp +contextual (maxDischargeDepth := 30) [h]
@[simp] theorem canon_saveAcked {s : State} (c : Cmd) (part : Nat) (h : Canonical s) :
    Canonical (State.saveAcked s c part) := by
  simp (maxDischargeDepth := 30) [State.saveAcked, h]
@[simp] theorem canon_restoreBlocks {s : State} (ps : List (Nat × Nat)) (data : List Byte) (marks : Nat → Bool) (h : Canonical s) :
    Canonical (State.restoreBlocks s ps data marks) := by
  simp (maxDischargeDepth := 30) [State.restoreBlocks, h]
@[simp] theorem canon_scramble {s : State} (ps : List (Nat × Nat)) (total : Nat) (h : Canonical s) :
    Canonical (State.scramble s ps total) := by
  simp (maxDischargeDepth := 30) [State.scramble, h]
@[simp] theorem canon_restoreOn {s : State} (c : Cmd) (h : Canonical s) :
    Canonical (State.restoreOn s c) := by
  have hp : Canonical ((s.askParts c.id manifestPart c.saveManifest 2676).askParts c.id 0 c.saveBuflist (16 * c.saveBufs)) := by
    simp [h]
  unfold State.restoreOn
  dsimp only
  split
  · split
    · exact canon_finish _ _ hp
    split
    · exact canon_finish _ _ hp
    split
    · exact canon_finish _ _ hp
    split
    · refine canon_foldl (fun u k hu => ?_) _ hp
      split <;> simp [hu]
    split
    · refine canon_finish _ _ (canon_scramble _ _ (canon_foldl (fun u k hu => ?_) _ hp))
      split <;> simp [hu]
    · refine canon_perform _ _ (canon_foldl (fun u k hu => ?_) _ hp)
      split <;> simp [hu]
  · exact hp
@[simp] theorem canon_doSaveRestore {s : State} (id : Nat) (h : Canonical s) :
    Canonical (State.doSaveRestore s id) := by
  unfold State.doSaveRestore
  (repeat' split) <;> simp +contextual (maxDischargeDepth := 30) [h]
@[simp] theorem canon_saveBroken {s : State} (c : Cmd) (flt : Nat) (h : Canonical s) :
    Canonical (State.saveBroken s c flt) := by
  simp (maxDischargeDepth := 30) [State.saveBroken, h]

/-! Queue -/

@[simp] theorem canon_detachFetches {s : State} (n : Nat) (h : Canonical s) :
    Canonical (State.detachFetches s n) := by
  simp (maxDischargeDepth := 30) [State.detachFetches, h]
@[simp] theorem canon_doSqCfgWrite {s : State} (n : Nat) (off : Nat) (len : Nat) (data : Word64) (h : Canonical s) :
    Canonical (State.doSqCfgWrite s n off len data) := by
  simp (maxDischargeDepth := 30) [State.doSqCfgWrite, h]
@[simp] theorem canon_doCqCfgWrite {s : State} (n : Nat) (off : Nat) (len : Nat) (data : Word64) (h : Canonical s) :
    Canonical (State.doCqCfgWrite s n off len data) := by
  simp (maxDischargeDepth := 30) [State.doCqCfgWrite, h]
@[simp] theorem canon_doCqHeadWrite {s : State} (n : Nat) (off : Nat) (len : Nat) (data : Word64) (h : Canonical s) :
    Canonical (State.doCqHeadWrite s n off len data) := by
  simp (maxDischargeDepth := 30) [State.doCqHeadWrite, h]
@[simp] theorem canon_doDoorbell {s : State} (n : Nat) (data : Word64) (h : Canonical s) :
    Canonical (State.doDoorbell s n data) := by
  simp (maxDischargeDepth := 30) [State.doDoorbell, h]
@[simp] theorem canon_doSqFetch {s : State} (n : Nat) (h : Canonical s) :
    Canonical (State.doSqFetch s n) := by
  simp (maxDischargeDepth := 30) [State.doSqFetch, h]
@[simp] theorem canon_fetched {s : State} (n : Nat) (count : Nat) (data : List Byte) (h : Canonical s) :
    Canonical (State.fetched s n count data) := by
  simp (maxDischargeDepth := 30) [State.fetched, h]
@[simp] theorem canon_fetchRefused {s : State} (n : Nat) (h : Canonical s) :
    Canonical (State.fetchRefused s n) := by
  simp (maxDischargeDepth := 30) [State.fetchRefused, h]
@[simp] theorem canon_admitHost {s : State} (n : Nat) (p : List Byte) (h : Canonical s) :
    Canonical (State.admitHost s n p) := by
  simp (maxDischargeDepth := 30) [State.admitHost, h]
@[simp] theorem canon_rejectHost {s : State} (n : Nat) (p : List Byte) (r : Rej) (h : Canonical s) :
    Canonical (State.rejectHost s n p r) := by
  simp (maxDischargeDepth := 30) [State.rejectHost, h]
@[simp] theorem canon_doCommandAdmission {s : State} (n : Nat) (h : Canonical s) :
    Canonical (State.doCommandAdmission s n) := by
  unfold State.doCommandAdmission
  (repeat' split) <;> simp +contextual (maxDischargeDepth := 30) [h]
@[simp] theorem canon_writeCompletion {s : State} (n : Nat) (id : Nat) (h : Canonical s) :
    Canonical (State.writeCompletion s n id) := by
  unfold State.writeCompletion
  (repeat' split) <;> simp +contextual (maxDischargeDepth := 30) [h]
@[simp] theorem canon_doCompletionWrite {s : State} (id : Nat) (h : Canonical s) :
    Canonical (State.doCompletionWrite s id) := by
  unfold State.doCompletionWrite
  (repeat' split) <;> simp +contextual (maxDischargeDepth := 30) [h]
@[simp] theorem canon_flushHeld {s : State} (n : Nat) (x2 : Nat) (h : Canonical s) :
    Canonical (State.flushHeld s n x2) := by
  induction x2 generalizing s with
  | zero => exact h
  | succ k ih =>
    unfold State.flushHeld; split
    · exact h
    · split
      · exact ih (canon_writeCompletion _ _ h)
      · exact h
@[simp] theorem canon_completionAcked {s : State} (id : Nat) (h : Canonical s) :
    Canonical (State.completionAcked s id) := by
  unfold State.completionAcked
  (repeat' split) <;> simp +contextual (maxDischargeDepth := 30) [h]
@[simp] theorem canon_completionLost {s : State} (id : Nat) (h : Canonical s) :
    Canonical (State.completionLost s id) := by
  unfold State.completionLost
  (repeat' split) <;> simp +contextual (maxDischargeDepth := 30) [h]

/-! Power -/

@[simp] theorem canon_cutOff {s : State} (h : Canonical s) :
    Canonical (State.cutOff s) := by
  unfold State.cutOff
  exact canon_foldl (fun t r ht => canon_mk (canonMem_scramble ht _ _ _)) _ h
@[simp] theorem canon_resetTo {s : State} (mem : Mem) (hm : CanonMem mem) (p : Power) (h : Canonical s) :
    Canonical (State.resetTo s mem p) := by
  simp [State.resetTo, hm]
@[simp] theorem canon_noteMargin {s : State} (h : Canonical s) :
    Canonical (State.noteMargin s) := by
  simp (maxDischargeDepth := 30) [State.noteMargin, h]
@[simp] theorem canon_checkMargin {s : State} (h : Canonical s) :
    Canonical (State.checkMargin s) := by
  simp (maxDischargeDepth := 30) [State.checkMargin, h]
@[simp] theorem canon_moduleReset {s : State} (x : Straps) (h : Canonical s) :
    Canonical (State.moduleReset s x) := by
  simp (maxDischargeDepth := 30) [State.moduleReset, h]
@[simp] theorem canon_goDown {s : State} (cause : OffCause) (domain : Nat) (on : Bool) (h : Canonical s) :
    Canonical (State.goDown s cause domain on) := by
  simp (maxDischargeDepth := 30) [State.goDown, h]
@[simp] theorem canon_powerFail {s : State} (cause : OffCause) (domain : Nat) (h : Canonical s) :
    Canonical (State.powerFail s cause domain) := by
  simp (maxDischargeDepth := 30) [State.powerFail, h]
@[simp] theorem canon_aoDown {s : State} (h : Canonical s) :
    Canonical (State.aoDown s) := by
  simp (maxDischargeDepth := 30) [State.aoDown, h]
@[simp] theorem canon_doVinChange {s : State} (mv : Nat) (us : Nat) (h : Canonical s) :
    Canonical (State.doVinChange s mv us) := by
  simp (maxDischargeDepth := 30) [State.doVinChange, h]
@[simp] theorem canon_refPresent {s : State} (h : Canonical s) :
    Canonical (State.refPresent s).2 := by
  unfold State.refPresent
  (repeat' split) <;> simp +contextual (maxDischargeDepth := 30) [h]
@[simp] theorem canon_doPowerUp {s : State} (x : Straps) (seated : Bool) (mv : Nat) (h : Canonical s) :
    Canonical (State.doPowerUp s x seated mv) := by
  simp (maxDischargeDepth := 30) [State.doPowerUp, h]
@[simp] theorem canon_doResetN {s : State} (ns : Nat) (x : Straps) (h : Canonical s) :
    Canonical (State.doResetN s ns x) := by
  unfold State.doResetN
  (repeat' split) <;> simp +contextual (maxDischargeDepth := 30) [h]
@[simp] theorem canon_trip {s : State} (h : Canonical s) :
    Canonical (State.trip s) := by
  simp (maxDischargeDepth := 30) [State.trip, h]
@[simp] theorem canon_chooseStep {s : State} (h : Canonical s) :
    Canonical (State.chooseStep s) := by
  simp (maxDischargeDepth := 30) [State.chooseStep, h]
@[simp] theorem canon_settleCaps {s : State} (h : Canonical s) :
    Canonical (State.settleCaps s) := by
  simp +contextual (maxDischargeDepth := 30) [State.settleCaps, h]
@[simp] theorem canon_doInterval {s : State} (pm : Nat) (h : Canonical s) :
    Canonical (State.doInterval s pm) := by
  simp (maxDischargeDepth := 30) [State.doInterval, h]
@[simp] theorem canon_report {s : State} (n : Nat) (core : Nat) (cls : Nat) (h : Canonical s) :
    Canonical (State.report s n core cls) := by
  simp (maxDischargeDepth := 30) [State.report, h]
@[simp] theorem canon_reportCores {s : State} (c : Cmd) (h : Canonical s) :
    Canonical (State.reportCores s c) := by
  simp +contextual (maxDischargeDepth := 30) [State.reportCores, h]
@[simp] theorem canon_doClass {s : State} (n : Nat) (core : Nat) (cls : Nat) (h : Canonical s) :
    Canonical (State.doClass s n core cls) := by
  simp (maxDischargeDepth := 30) [State.doClass, h]
@[simp] theorem canon_doFastClamp {s : State} (mw : Nat) (ma : Nat) (mv : Nat) (h : Canonical s) :
    Canonical (State.doFastClamp s mw ma mv) := by
  simp (maxDischargeDepth := 30) [State.doFastClamp, h]
@[simp] theorem canon_writePwrCfg {s : State} (w : Word64) (h : Canonical s) :
    Canonical (State.writePwrCfg s w) := by
  simp (maxDischargeDepth := 30) [State.writePwrCfg, h]
@[simp] theorem canon_doPowerCapSet {s : State} (id : Nat) (h : Canonical s) :
    Canonical (State.doPowerCapSet s id) := by
  unfold State.doPowerCapSet
  (repeat' split) <;> simp +contextual (maxDischargeDepth := 30) [h]
@[simp] theorem canon_settleVotes {s : State} (h : Canonical s) :
    Canonical (State.settleVotes s) := by
  unfold State.settleVotes
  refine canon_foldl (fun t a ht => ?_) _ (by simp (maxDischargeDepth := 30) [h])
  try dsimp only
  (repeat' split) <;> simp (maxDischargeDepth := 30) [ht]
@[simp] theorem canon_clusterLoses {s : State} (n : Nat) (h : Canonical s) :
    Canonical (State.clusterLoses s n) := by
  simp (maxDischargeDepth := 30) [State.clusterLoses, h]
@[simp] theorem canon_groupDown {s : State} (g : Nat) (h : Canonical s) :
    Canonical (State.groupDown s g) := by
  simp +contextual (maxDischargeDepth := 30) [State.groupDown, h]
@[simp] theorem canon_powerDown {s : State} (c : Nat) (st : DomSt) (h : Canonical s) :
    Canonical (State.powerDown s c st) := by
  simp (maxDischargeDepth := 30) [State.powerDown, h]
@[simp] theorem canon_settleDomain {s : State} (c : Nat) (h : Canonical s) :
    Canonical (State.settleDomain s c) := by
  simp +contextual (maxDischargeDepth := 30) [State.settleDomain, h]
  (repeat' split) <;> simp +contextual (maxDischargeDepth := 30) [h]
@[simp] theorem canon_startWake {s : State} (c : Nat) (h : Canonical s) :
    Canonical (State.startWake s c) := by
  simp (maxDischargeDepth := 30) [State.startWake, h]
@[simp] theorem canon_doPowerVote {s : State} (id : Nat) (h : Canonical s) :
    Canonical (State.doPowerVote s id) := by
  unfold State.doPowerVote
  (repeat' split) <;> simp +contextual (maxDischargeDepth := 30) [h]
@[simp] theorem canon_doDomainEntry {s : State} (c : Nat) (h : Canonical s) :
    Canonical (State.doDomainEntry s c) := by
  unfold State.doDomainEntry
  (repeat' split) <;> simp +contextual (maxDischargeDepth := 30) [h]
@[simp] theorem canon_broughtUp {s : State} (c : Nat) (was : DomSt) (h : Canonical s) :
    Canonical (State.broughtUp s c was) := by
  simp +contextual (maxDischargeDepth := 30) [State.broughtUp, h]
@[simp] theorem canon_doDomainWake {s : State} (c : Nat) (h : Canonical s) :
    Canonical (State.doDomainWake s c) := by
  simp (maxDischargeDepth := 30) [State.doDomainWake, h]
@[simp] theorem canon_doPrivilegedWake {s : State} (c : Nat) (timeout : Option WakeStep) (h : Canonical s) :
    Canonical (State.doPrivilegedWake s c timeout) := by
  unfold State.doPrivilegedWake
  (repeat' split) <;> simp +contextual (maxDischargeDepth := 30) [h]
@[simp] theorem canon_doParentRelease {s : State} (c : Nat) (h : Canonical s) :
    Canonical (State.doParentRelease s c) := by
  simp (maxDischargeDepth := 30) [State.doParentRelease, h]
@[simp] theorem canon_doDimmChange {s : State} (n : Nat) (d : Option Dimm) (h : Canonical s) :
    Canonical (State.doDimmChange s n d) := by
  unfold State.doDimmChange
  dsimp only
  have hm : CanonMem (s.mem.drop (ddrBase n) 0x4000000000) := canonMem_drop h _ _
  exact canon_ite (canonMem_undef (m := s.mem.drop (ddrBase n) 0x4000000000) hm rfl rfl) hm

/-! Stop -/

@[simp] theorem canon_closeAfter {s : State} (c : Cmd) (h : Canonical s) :
    Canonical (State.closeAfter s c) := by
  simp (maxDischargeDepth := 30) [State.closeAfter, h]
@[simp] theorem canon_cutShort {s : State} (c : Cmd) (st : Nat) (h : Canonical s) :
    Canonical (State.cutShort s c st) := by
  simp (maxDischargeDepth := 30) [State.cutShort, h]
@[simp] theorem canon_retireDrafts {s : State} (ctx : Nat) (h : Canonical s) :
    Canonical (State.retireDrafts s ctx) := by
  simp +contextual (maxDischargeDepth := 30) [State.retireDrafts, h]
@[simp] theorem canon_cancelCmd {s : State} (id : Nat) (h : Canonical s) :
    Canonical (State.cancelCmd s id) := by
  unfold State.cancelCmd
  (repeat' split) <;> simp +contextual (maxDischargeDepth := 30) [h]
@[simp] theorem canon_stopPlaybook {s : State} (n : Nat) (byCancel : Bool) (h : Canonical s) :
    Canonical (State.stopPlaybook s n byCancel) := by
  simp +contextual (maxDischargeDepth := 30) [State.stopPlaybook, h]
@[simp] theorem canon_doPlaybookStop {s : State} (id : Nat) (h : Canonical s) :
    Canonical (State.doPlaybookStop s id) := by
  simp +contextual (maxDischargeDepth := 30) [State.doPlaybookStop, h]
@[simp] theorem canon_cancelAll {s : State} (id : Nat) (p : Cmd → Bool) (h : Canonical s) :
    Canonical (State.cancelAll s id p).1 := by
  simp +contextual (maxDischargeDepth := 30) [State.cancelAll, h]
@[simp] theorem canon_awaitAll {s : State} (id : Nat) (ids : List Nat) (count : Nat) (h : Canonical s) :
    Canonical (State.awaitAll s id ids count) := by
  simp (maxDischargeDepth := 30) [State.awaitAll, h]
@[simp] theorem canon_doCancel {s : State} (id : Nat) (h : Canonical s) :
    Canonical (State.doCancel s id) := by
  simp +contextual (maxDischargeDepth := 30) [State.doCancel, h]
@[simp] theorem canon_clearContext {s : State} (x : Nat) (h : Canonical s) :
    Canonical (State.clearContext s x) := by
  simp (maxDischargeDepth := 30) [State.clearContext, h]
@[simp] theorem canon_stopQueues {s : State} (x : Nat) (h : Canonical s) :
    Canonical (State.stopQueues s x) := by
  simp (maxDischargeDepth := 30) [State.stopQueues, h]
@[simp] theorem canon_destroyContext {s : State} (id : Nat) (x : Nat) (h : Canonical s) :
    Canonical (State.destroyContext s id x) := by
  simp +contextual (maxDischargeDepth := 30) [State.destroyContext, h]
@[simp] theorem canon_doCtxDestroy {s : State} (id : Nat) (h : Canonical s) :
    Canonical (State.doCtxDestroy s id) := by
  unfold State.doCtxDestroy
  (repeat' split) <;> simp +contextual (maxDischargeDepth := 30) [h]
@[simp] theorem canon_doDraftCancel {s : State} (id : Nat) (h : Canonical s) :
    Canonical (State.doDraftCancel s id) := by
  simp +contextual (maxDischargeDepth := 30) [State.doDraftCancel, h]
@[simp] theorem canon_flushCq {s : State} (n : Nat) (x2 : Nat) (h : Canonical s) :
    Canonical (State.flushCq s n x2) := by
  induction x2 generalizing s with
  | zero => exact h
  | succ k ih =>
    unfold State.flushCq; split
    · exact h
    · split
      · exact ih (canon_writeCompletion _ _ h)
      · exact h
@[simp] theorem canon_flushAll {s : State} (h : Canonical s) :
    Canonical (State.flushAll s) := by
  simp +contextual (maxDischargeDepth := 30) [State.flushAll, h]

/-! Errors -/

@[simp] theorem canon_recordBench {s : State} (e : Repair) (h : Canonical s) :
    Canonical (State.recordBench s e) := by
  simp (maxDischargeDepth := 30) [State.recordBench, h]
@[simp] theorem canon_benchCore {s : State} (n : Nat) (i : Nat) (h : Canonical s) :
    Canonical (State.benchCore s n i) := by
  simp (maxDischargeDepth := 30) [State.benchCore, h]
@[simp] theorem canon_relocate {s : State} (n : Nat) (i : Nat) (id : Nat) (h : Canonical s) :
    Canonical (State.relocate s n i id) := by
  simp +contextual (maxDischargeDepth := 30) [State.relocate, h]
  (repeat' split) <;> simp +contextual (maxDischargeDepth := 30) [h]
@[simp] theorem canon_markFailing {s : State} (n : Nat) (i : Nat) (h : Canonical s) :
    Canonical (State.markFailing s n i) := by
  simp +contextual (maxDischargeDepth := 30) [State.markFailing, h]
@[simp] theorem canon_benchAtBoundary {s : State} (n : Nat) (i : Nat) (h : Canonical s) :
    Canonical (State.benchAtBoundary s n i) := by
  simp (maxDischargeDepth := 30) [State.benchAtBoundary, h]
@[simp] theorem canon_endHw {s : State} (id : Nat) (h : Canonical s) :
    Canonical (State.endHw s id) := by
  unfold State.endHw
  (repeat' split) <;> simp +contextual (maxDischargeDepth := 30) [h]
@[simp] theorem canon_doResidue {s : State} (c : CoreRef) (again : Bool) (h : Canonical s) :
    Canonical (State.doResidue s c again) := by
  simp (maxDischargeDepth := 30) [State.doResidue, h]
@[simp] theorem canon_poisonStore {s : State} (n : Nat) (i : Nat) (h : Canonical s) :
    Canonical (State.poisonStore s n i) := by
  simp +contextual (maxDischargeDepth := 30) [State.poisonStore, h]
  (repeat' split) <;> simp +contextual (maxDischargeDepth := 30) [h]
@[simp] theorem canon_poisonPool {s : State} (n : Nat) (h : Canonical s) :
    Canonical (State.poisonPool s n) := by
  simp (maxDischargeDepth := 30) [State.poisonPool, h]
@[simp] theorem canon_poisonBuffer {s : State} (n : Nat) (off : Nat) (h : Canonical s) :
    Canonical (State.poisonBuffer s n off) := by
  simp (maxDischargeDepth := 30) [State.poisonBuffer, h]
@[simp] theorem canon_doSramUe {s : State} (place : SramPlace) (o : SramOutcome) (h : Canonical s) :
    Canonical (State.doSramUe s place o) := by
  unfold State.doSramUe
  (repeat' split) <;> simp +contextual (maxDischargeDepth := 30) [h]
@[simp] theorem canon_restartShare (c : CoreRef) {s : State} (id : Nat) (h : Canonical s) :
    Canonical (State.restartShare c s id) := by
  simp (maxDischargeDepth := 30) [State.restartShare, h]
@[simp] theorem canon_doCoreFailing {s : State} (c : CoreRef) (ids : List Nat) (h : Canonical s) :
    Canonical (State.doCoreFailing s c ids) := by
  simp +contextual (maxDischargeDepth := 30) [State.doCoreFailing, h]
@[simp] theorem canon_doCoreBench {s : State} (c : CoreRef) (h : Canonical s) :
    Canonical (State.doCoreBench s c) := by
  simp (maxDischargeDepth := 30) [State.doCoreBench, h]
@[simp] theorem canon_doDlink {s : State} (a : Nat) (b : Nat) (intact : Bool) (retrained : Bool) (ids : List Nat) (h : Canonical s) :
    Canonical (State.doDlink s a b intact retrained ids) := by
  simp +contextual (maxDischargeDepth := 30) [State.doDlink, h]

/-! Regs -/

@[simp] theorem canon_clearW1c {s : State} (r : Reg) (m : Nat) (h : Canonical s) :
    Canonical (State.clearW1c s r m) := by
  unfold State.clearW1c
  (repeat' split) <;> simp +contextual (maxDischargeDepth := 30) [h]
@[simp] theorem canon_clearAllSticky {s : State} (h : Canonical s) :
    Canonical (State.clearAllSticky s) := by
  simp +contextual (maxDischargeDepth := 30) [State.clearAllSticky, h]
@[simp] theorem canon_doClearSticky {s : State} (id : Nat) (h : Canonical s) :
    Canonical (State.doClearSticky s id) := by
  unfold State.doClearSticky
  refine canon_runChecked _ _ _ _ h (fun t c ht => ?_)
  try dsimp only
  (repeat' split) <;> simp (maxDischargeDepth := 30) [ht]
@[simp] theorem canon_clearCtrs {s : State} (l : List Ctr) (h : Canonical s) :
    Canonical (State.clearCtrs s l) := by
  simp +contextual (maxDischargeDepth := 30) [State.clearCtrs, h]
@[simp] theorem canon_clearSeqCtrs {s : State} (h : Canonical s) :
    Canonical (State.clearSeqCtrs s) := by
  simp (maxDischargeDepth := 30) [State.clearSeqCtrs, h]
@[simp] theorem canon_clearMemCtrs {s : State} (h : Canonical s) :
    Canonical (State.clearMemCtrs s) := by
  simp (maxDischargeDepth := 30) [State.clearMemCtrs, h]
@[simp] theorem canon_clearGroups {s : State} (m : Nat) (h : Canonical s) :
    Canonical (State.clearGroups s m) := by
  simp (maxDischargeDepth := 30) [State.clearGroups, h]
@[simp] theorem canon_writeCluster {s : State} (n : Nat) (k : Nat) (w : Word64) (h : Canonical s) :
    Canonical (State.writeCluster s n k w) := by
  simp (maxDischargeDepth := 30) [State.writeCluster, h]
@[simp] theorem canon_writePbCfg {s : State} (n : Nat) (w : Word64) (h : Canonical s) :
    Canonical (State.writePbCfg s n w) := by
  simp (maxDischargeDepth := 30) [State.writePbCfg, h]
@[simp] theorem canon_writeFabCfg {s : State} (w : Word64) (h : Canonical s) :
    Canonical (State.writeFabCfg s w) := by
  simp (maxDischargeDepth := 30) [State.writeFabCfg, h]
@[simp] theorem canon_writeFabCtrl {s : State} (w : Nat) (h : Canonical s) :
    Canonical (State.writeFabCtrl s w) := by
  simp (maxDischargeDepth := 30) [State.writeFabCtrl, h]
@[simp] theorem canon_writePass {s : State} (d : Nat) (k : Nat) (w : Nat) (h : Canonical s) :
    Canonical (State.writePass s d k w) := by
  simp (maxDischargeDepth := 30) [State.writePass, h]
@[simp] theorem canon_regWrite {s : State} (r : Reg) (m : Nat) (v : Nat) (go : State → Reg → State) (h : Canonical s) (hgo : ∀ t r, Canonical t → Canonical (go t r)) :
    Canonical (State.regWrite s r m v go) := by
  unfold State.regWrite
  (repeat' split) <;> simp +contextual (maxDischargeDepth := 30) [h, hgo]

/-! Referee -/

@[simp] theorem canon_replaceRow {s : State} (a : Nat) (h : Canonical s) :
    Canonical (State.replaceRow s a) := by
  simp (maxDischargeDepth := 30) [State.replaceRow, h]
@[simp] theorem canon_applyRepair {s : State} (e : Repair) (h : Canonical s) :
    Canonical (State.applyRepair s e) := by
  unfold State.applyRepair
  (repeat' split) <;> simp +contextual (maxDischargeDepth := 30) [h]
@[simp] theorem canon_loadRepairs {s : State} (h : Canonical s) :
    Canonical (State.loadRepairs s) := by
  unfold State.loadRepairs
  (repeat' split) <;> simp +contextual (maxDischargeDepth := 30) [h]
@[simp] theorem canon_wakeAll {s : State} (h : Canonical s) :
    Canonical (State.wakeAll s) := by
  simp (maxDischargeDepth := 30) [State.wakeAll, h]
@[simp] theorem canon_trainLink {s : State} (h : Canonical s) :
    Canonical (State.trainLink s) := by
  simp (maxDischargeDepth := 30) [State.trainLink, h]
@[simp] theorem canon_doBoot {s : State} (h : Canonical s) :
    Canonical (State.doBoot s) := by
  simp (maxDischargeDepth := 30) [State.doBoot, h]
@[simp] theorem canon_recFail {s : State} (n : Nat) (h : Canonical s) :
    Canonical (State.recFail s n) := by
  simp (maxDischargeDepth := 30) [State.recFail, h]
@[simp] theorem canon_recAsk {s : State} (off : Nat) (h : Canonical s) :
    Canonical (State.recAsk s off) := by
  simp (maxDischargeDepth := 30) [State.recAsk, h]
@[simp] theorem canon_selfReset {s : State} (h : Canonical s) :
    Canonical (State.selfReset s) := by
  simp (maxDischargeDepth := 30) [State.selfReset, h]
theorem canon_flashWrite {s : State} (f : Flash → Flash) (go : State → State)
    (hg : ∀ t, Canonical t → Canonical (go t)) (h : Canonical s) : Canonical (State.flashWrite s f go) := by
  unfold State.flashWrite; dsimp only; split
  · simp (maxDischargeDepth := 30) [h]
  · exact hg _ (by simp (maxDischargeDepth := 30) [h])
@[simp] theorem canon_recDone {s : State} (h : Canonical s) :
    Canonical (State.recDone s) := by
  unfold State.recDone; split
  · simp (maxDischargeDepth := 30) [h]
  · exact canon_flashWrite _ _ (fun t ht => canon_selfReset ht) h
@[simp] theorem canon_recNext {s : State} (h : Canonical s) :
    Canonical (State.recNext s) := by
  simp (maxDischargeDepth := 30) [State.recNext, h]
@[simp] theorem canon_recData {s : State} (off : Nat) (data : List Byte) (h : Canonical s) :
    Canonical (State.recData s off data) := by
  unfold State.recData
  (repeat' split) <;> first
    | exact canon_flashWrite _ _ (fun t ht => by simp (maxDischargeDepth := 30) [ht]) h
    | simp (maxDischargeDepth := 30) [h]
@[simp] theorem canon_recRefused {s : State} (h : Canonical s) :
    Canonical (State.recRefused s) := by
  simp (maxDischargeDepth := 30) [State.recRefused, h]
@[simp] theorem canon_doRecGo {s : State} (h : Canonical s) :
    Canonical (State.doRecGo s) := by
  simp (maxDischargeDepth := 30) [State.doRecGo, h]
@[simp] theorem canon_doPeerLoad {s : State} (h : Canonical s) :
    Canonical (State.doPeerLoad s) := by
  simp (maxDischargeDepth := 30) [State.doPeerLoad, h]
@[simp] theorem canon_postCluster {s : State} (rs : List (Nat × CoreTest)) (bad : BitVec 8) (n : Nat) (h : Canonical s) :
    Canonical (State.postCluster s rs bad n) := by
  simp +contextual (maxDischargeDepth := 30) [State.postCluster, h]
@[simp] theorem canon_doPost {s : State} (rs : List (Nat × CoreTest)) (bad : BitVec 8) (h : Canonical s) :
    Canonical (State.doPost s rs bad) := by
  simp +contextual (maxDischargeDepth := 30) [State.doPost, h]
@[simp] theorem canon_store {s : State} (a : Nat) (b : List Byte) (h : Canonical s) :
    Canonical (State.store s a b) := by
  simp (maxDischargeDepth := 30) [State.store, h]
@[simp] theorem canon_checkCore {s : State} (rs : List (Nat × CoreTest)) (result : Nat) (n : Nat) (i : Nat) (h : Canonical s) :
    Canonical (State.checkCore s rs result n i) := by
  simp (maxDischargeDepth := 30) [State.checkCore, h]
@[simp] theorem canon_doBenchCheck {s : State} (id : Nat) (rs : List (Nat × CoreTest)) (h : Canonical s) :
    Canonical (State.doBenchCheck s id rs) := by
  simp +contextual (maxDischargeDepth := 30) [State.doBenchCheck, h]
@[simp] theorem canon_doSelfTest {s : State} (id : Nat) (t : CoreTest) (h : Canonical s) :
    Canonical (State.doSelfTest s id t) := by
  simp +contextual (maxDischargeDepth := 30) [State.doSelfTest, h]
@[simp] theorem canon_unbench {s : State} (e : Repair) (h : Canonical s) :
    Canonical (State.unbench s e) := by
  simp (maxDischargeDepth := 30) [State.unbench, h]
@[simp] theorem canon_setRepairs {s : State} (f : List Repair → List Repair) (h : Canonical s) :
    Canonical (State.setRepairs s f) := by
  simp (maxDischargeDepth := 30) [State.setRepairs, h]
@[simp] theorem canon_doRepairSoft {s : State} (id : Nat) (spare : Bool) (h : Canonical s) :
    Canonical (State.doRepairSoft s id spare) := by
  simp +contextual (maxDischargeDepth := 30) [State.doRepairSoft, h]
@[simp] theorem canon_checkAuth {s : State} (c : Cmd) (off : Nat) (h : Canonical s) :
    Canonical (State.checkAuth s c off).2 := by
  simp (maxDischargeDepth := 30) [State.checkAuth, h]
@[simp] theorem canon_doRepairFuse {s : State} (id : Nat) (readBackOk : Bool) (h : Canonical s) :
    Canonical (State.doRepairFuse s id readBackOk) := by
  unfold State.doRepairFuse
  refine canon_runChecked _ _ _ _ h (fun t c ht => ?_)
  try dsimp only
  (repeat' split) <;> simp (maxDischargeDepth := 30) [ht]
@[simp] theorem canon_doDiagRoster {s : State} (id : Nat) (h : Canonical s) :
    Canonical (State.doDiagRoster s id) := by
  simp +contextual (maxDischargeDepth := 30) [State.doDiagRoster, h]
@[simp] theorem canon_attestOutput {s : State} (c : Cmd) (h : Canonical s) :
    Canonical (State.attestOutput s c).2 := by
  unfold State.attestOutput
  (repeat' split) <;> simp +contextual (maxDischargeDepth := 30) [h]
@[simp] theorem canon_doAttest {s : State} (id : Nat) (h : Canonical s) :
    Canonical (State.doAttest s id) := by
  unfold State.doAttest
  (repeat' split) <;> simp +contextual (maxDischargeDepth := 30) [h]
@[simp] theorem canon_doFwStage {s : State} (id : Nat) (readBackOk : Bool) (h : Canonical s) :
    Canonical (State.doFwStage s id readBackOk) := by
  unfold State.doFwStage
  (repeat' split) <;> simp +contextual (maxDischargeDepth := 30) [h]
@[simp] theorem canon_doCommitSvn {s : State} (id : Nat) (h : Canonical s) :
    Canonical (State.doCommitSvn s id) := by
  unfold State.doCommitSvn
  (repeat' split) <;> simp +contextual (maxDischargeDepth := 30) [h]
@[simp] theorem canon_endLife {s : State} (id : Nat) (h : Canonical s) :
    Canonical (State.endLife s id) := by
  simp +contextual (maxDischargeDepth := 30) [State.endLife, h]
@[simp] theorem canon_startEnd {s : State} (id : Nat) (h : Canonical s) :
    Canonical (State.startEnd s id) := by
  simp +contextual (maxDischargeDepth := 30) [State.startEnd, h]
@[simp] theorem canon_advanceLife {s : State} (id : Nat) (h : Canonical s) :
    Canonical (State.advanceLife s id) := by
  unfold State.advanceLife
  refine canon_runChecked _ _ _ _ h (fun t c ht => ?_)
  dsimp only
  have ha : Canonical (if advanceSigned c.lifeTarget = true then t.checkAuth c 8 else (true, t)).2 := by split <;> simp [ht]
  (repeat' split) <;> simp_all (maxDischargeDepth := 30)
@[simp] theorem canon_doLifecycle {s : State} (id : Nat) (h : Canonical s) :
    Canonical (State.doLifecycle s id) := by
  unfold State.doLifecycle
  (repeat' split) <;> simp +contextual (maxDischargeDepth := 30) [h]
@[simp] theorem canon_sample {s : State} (now : Nat) (h : Canonical s) :
    Canonical (State.sample s now) := by
  simp (maxDischargeDepth := 30) [State.sample, h]
@[simp] theorem canon_doWindow {s : State} (util : Nat) (now : Nat) (h : Canonical s) :
    Canonical (State.doWindow s util now) := by
  simp (maxDischargeDepth := 30) [State.doWindow, h]

/-! Liust -/

@[simp] theorem canon_liustBadLen {s : State} (h : Canonical s) :
    Canonical (State.liustBadLen s) := by
  simp (maxDischargeDepth := 30) [State.liustBadLen, h]
@[simp] theorem canon_go {s : State} (r : Reg) (h : Canonical s) :
    Canonical (State.go s r) := by
  unfold State.go
  (repeat' split) <;> simp +contextual (maxDischargeDepth := 30) [h]
@[simp] theorem canon_writeReg {s : State} (r : Reg) (addr : Nat) (len : Nat) (data : Word64) (h : Canonical s) :
    Canonical (State.writeReg s r addr len data) := by
  unfold State.writeReg
  (repeat' split) <;> simp +contextual (maxDischargeDepth := 30) [h]
@[simp] theorem canon_doCfgWr {s : State} (addr : Nat) (len : Nat) (data : Word64) (h : Canonical s) :
    Canonical (State.doCfgWr s addr len data) := by
  unfold State.doCfgWr
  (repeat' split) <;> simp +contextual (maxDischargeDepth := 30) [h]
@[simp] theorem canon_doCfgRd {s : State} (tag : Nat) (addr : Nat) (len : Nat) (h : Canonical s) :
    Canonical (State.doCfgRd s tag addr len) := by
  simp (maxDischargeDepth := 30) [State.doCfgRd, h]
@[simp] theorem canon_doHostWr {s : State} (addr : Nat) (hctx : Nat) (data : List Byte) (poison : Word64) (h : Canonical s) :
    Canonical (State.doHostWr s addr hctx data poison) := by
  simp +contextual (maxDischargeDepth := 30) [State.doHostWr, h]
@[simp] theorem canon_doHostRd {s : State} (tag : Nat) (addr : Nat) (len : Nat) (hctx : Nat) (h : Canonical s) :
    Canonical (State.doHostRd s tag addr len hctx) := by
  simp +contextual (maxDischargeDepth := 30) [State.doHostRd, h]
@[simp] theorem canon_dropDma {s : State} (tag : Nat) (h : Canonical s) :
    Canonical (State.dropDma s tag) := by
  simp (maxDischargeDepth := 30) [State.dropDma, h]
@[simp] theorem canon_transferBroken {s : State} (id : Nat) (flt : Nat) (h : Canonical s) :
    Canonical (State.transferBroken s id flt) := by
  unfold State.transferBroken
  (repeat' split) <;> simp +contextual (maxDischargeDepth := 30) [h]
@[simp] theorem canon_dmaRefused {s : State} (o : DmaOwner) (flt : Nat) (h : Canonical s) :
    Canonical (State.dmaRefused s o flt) := by
  unfold State.dmaRefused
  (repeat' split) <;> simp +contextual (maxDischargeDepth := 30) [h]
@[simp] theorem canon_transferOn {s : State} (id : Nat) (h : Canonical s) :
    Canonical (State.transferOn s id) := by
  unfold State.transferOn
  (repeat' split) <;> simp +contextual (maxDischargeDepth := 30) [h]
@[simp] theorem canon_dmaData {s : State} (o : DmaOwner) (data : List Byte) (poison : Word64) (h : Canonical s) :
    Canonical (State.dmaData s o data poison) := by
  unfold State.dmaData
  (repeat' split) <;> simp +contextual (maxDischargeDepth := 30) [h]
@[simp] theorem canon_doDmaResp {s : State} (tag : Nat) (status : Nat) (data : List Byte) (poison : Word64) (h : Canonical s) :
    Canonical (State.doDmaResp s tag status data poison) := by
  unfold State.doDmaResp
  (repeat' split) <;> simp +contextual (maxDischargeDepth := 30) [h]
@[simp] theorem canon_partAcked {s : State} (id : Nat) (part : Nat) (h : Canonical s) :
    Canonical (State.partAcked s id part) := by
  unfold State.partAcked
  (repeat' split) <;> simp +contextual (maxDischargeDepth := 30) [h]
@[simp] theorem canon_doDmaWrAck {s : State} (tag : Nat) (status : Nat) (h : Canonical s) :
    Canonical (State.doDmaWrAck s tag status) := by
  unfold State.doDmaWrAck
  (repeat' split) <;> simp +contextual (maxDischargeDepth := 30) [h]
@[simp] theorem canon_doDmaTimeout {s : State} (tag : Nat) (h : Canonical s) :
    Canonical (State.doDmaTimeout s tag) := by
  unfold State.doDmaTimeout
  (repeat' split) <;> simp +contextual (maxDischargeDepth := 30) [h]
@[simp] theorem canon_doTransaction {s : State} (header : BitVec 256) (payload : List Byte) (h : Canonical s) :
    Canonical (State.doTransaction s header payload) := by
  simp +contextual (maxDischargeDepth := 30) [State.doTransaction, h]
  (repeat' split) <;> simp +contextual (maxDischargeDepth := 30) [h]
@[simp] theorem canon_linkLost {s : State} (h : Canonical s) :
    Canonical (State.linkLost s) := by
  simp +contextual (maxDischargeDepth := 30) [State.linkLost, h]
@[simp] theorem canon_doLiustFlit {s : State} (intact : Bool) (h : Canonical s) :
    Canonical (State.doLiustFlit s intact) := by
  simp (maxDischargeDepth := 30) [State.doLiustFlit, h]
@[simp] theorem canon_doLinkDown {s : State} (h : Canonical s) :
    Canonical (State.doLinkDown s) := by
  unfold State.doLinkDown
  (repeat' split) <;> simp +contextual (maxDischargeDepth := 30) [h]
@[simp] theorem canon_doLinkUp {s : State} (w : LiustWidth) (h : Canonical s) :
    Canonical (State.doLinkUp s w) := by
  simp (maxDischargeDepth := 30) [State.doLinkUp, h]
@[simp] theorem canon_liustCable {s : State} (connected : Bool) (h : Canonical s) :
    Canonical (State.liustCable s connected) := by
  simp (maxDischargeDepth := 30) [State.liustCable, h]
@[simp] theorem canon_onPort {s : State} (f : State → State) (h : Canonical s) (hf : ∀ t, Canonical t → Canonical (f t)) :
    Canonical (State.onPort s f) := by
  simp (maxDischargeDepth := 30) [State.onPort, h, hf]
@[simp] theorem canon_sendByte {s : State} (code : Nat) (b : Byte) (h : Canonical s) :
    Canonical (State.sendByte s code b) := by
  simp (maxDischargeDepth := 30) [State.sendByte, h]
@[simp] theorem canon_sendWord {s : State} (code : Nat) (reading : ℤ) (w : BitVec 16) (h : Canonical s) :
    Canonical (State.sendWord s code reading w) := by
  simp (maxDischargeDepth := 30) [State.sendWord, h]
@[simp] theorem canon_sendBlock {s : State} (code : Nat) (l : List Byte) (h : Canonical s) :
    Canonical (State.sendBlock s code l) := by
  simp (maxDischargeDepth := 30) [State.sendBlock, h]
@[simp] theorem canon_sendReading {s : State} (code : Nat) (milli : Nat) (h : Canonical s) :
    Canonical (State.sendReading s code milli) := by
  simp (maxDischargeDepth := 30) [State.sendReading, h]

/-! Start -/

@[simp] theorem canon_chooseModes {s : State} (c : Cmd) (h : Canonical s) :
    Canonical (State.chooseModes s c) := by
  simp (maxDischargeDepth := 30) [State.chooseModes, h]
@[simp] theorem canon_boundary {s : State} (c : Cmd) (h : Canonical s) :
    Canonical (State.boundary s c) := by
  simp +contextual (maxDischargeDepth := 30) [State.boundary, h]
@[simp] theorem canon_takeScratch {s : State} (c : Cmd) (ops : List (Nat × Operand)) (h : Canonical s) :
    Canonical (State.takeScratch s c ops) := by
  simp (maxDischargeDepth := 30) [State.takeScratch, h]
@[simp] theorem canon_run {s : State} (c : Cmd) (k : Started) (h : Canonical s) :
    Canonical (State.run s c k) := by
  simp (maxDischargeDepth := 30) [State.run, h]
@[simp] theorem canon_controlDone {s : State} (c : Cmd) (h : Canonical s) :
    Canonical (State.controlDone s c) := by
  simp (maxDischargeDepth := 30) [State.controlDone, h]
@[simp] theorem canon_begin {s : State} (c : Cmd) (before : List Cmd) (h : Canonical s) :
    Canonical (State.begin s c before) := by
  simp +contextual (maxDischargeDepth := 30) [State.begin, h]
  (repeat' split) <;> simp +contextual (maxDischargeDepth := 30) [h]
@[simp] theorem canon_tryBegin {s : State} (c : Cmd) (h : Canonical s) :
    Canonical (State.tryBegin s c) := by
  simp (maxDischargeDepth := 30) [State.tryBegin, h]
@[simp] theorem canon_doCommandStart {s : State} (id : Nat) (h : Canonical s) :
    Canonical (State.doCommandStart s id) := by
  unfold State.doCommandStart
  (repeat' split) <;> simp +contextual (maxDischargeDepth := 30) [h]
@[simp] theorem canon_noteRelay {s : State} (n : Nat) (id : Nat) (h : Canonical s) :
    Canonical (State.noteRelay s n id) := by
  simp (maxDischargeDepth := 30) [State.noteRelay, h]
@[simp] theorem canon_doRelayAdmission {s : State} (id : Nat) (h : Canonical s) :
    Canonical (State.doRelayAdmission s id) := by
  unfold State.doRelayAdmission
  (repeat' split) <;> simp +contextual (maxDischargeDepth := 30) [h]
@[simp] theorem canon_doPlaybookStart {s : State} (id : Nat) (h : Canonical s) :
    Canonical (State.doPlaybookStart s id) := by
  unfold State.doPlaybookStart
  (repeat' split) <;> simp +contextual (maxDischargeDepth := 30) [h]
@[simp] theorem canon_endStep {s : State} (n : Nat) (h : Canonical s) :
    Canonical (State.endStep s n) := by
  simp (maxDischargeDepth := 30) [State.endStep, h]

/-! Tick -/

@[simp] theorem canon_tickSeq {s : State} (n : Nat) (h : Canonical s) :
    Canonical (State.tickSeq s n) := by
  simp (maxDischargeDepth := 30) [State.tickSeq, h]
@[simp] theorem canon_tick {s : State} (h : Canonical s) :
    Canonical (State.tick s) := by
  simp +contextual (maxDischargeDepth := 30) [State.tick, h]

/-! Step -/

@[simp] theorem canon_rest {s : State} (q : List Instr) (h : Canonical s) :
    Canonical (State.rest s q) := by
  simp (maxDischargeDepth := 30) [State.rest, h]
theorem canon_onBlock {s t : State} {a : Nat} {f : State → State} (h : Canonical s)
    (hf : ∀ u, Canonical u → Canonical (f u)) (e : s.onBlock a f = .next t) : Canonical t := by
  unfold State.onBlock at e
  split at e
  · injection e
  · injection e with e
    rw [← e]
    split
    · exact canon_access _ _ _ _ h hf
    · exact h

end Sys2Proof.Machine
end

