-- ==== Sys2Proof/Laws/Numbers.lean ====
section
/-! SUPPORT. Every operation keeps the numbers of commands in flight below the next number. -/

namespace Sys2Proof.Machine

/-- The numbers of the commands lie below n. -/
def Numb (l : List Cmd) (n : Nat) : Prop := ∀ c ∈ l, c.id < n

@[simp] theorem numb_of {s : State} (h : Numbered s) : Numb s.cmds s.nextId := h
@[simp] theorem numb_map {l : List Cmd} {n : Nat} {f : Cmd → Cmd} (h : Numb l n) (hf : ∀ c, (f c).id = c.id) :
    Numb (l.map f) n := by
  intro c hc
  simp only [List.mem_map] at hc
  obtain ⟨d, hd, e⟩ := hc
  rw [← e, hf]; exact h d hd
@[simp] theorem numb_filter {l : List Cmd} {n : Nat} {p : Cmd → Bool} (h : Numb l n) : Numb (l.filter p) n :=
  fun c hc => h c (List.mem_of_mem_filter hc)
theorem numb_snoc {l : List Cmd} {n : Nat} {c : Cmd} (h : Numb l n) (hc : c.id = n) : Numb (l ++ [c]) (n + 1) := by
  intro d hd
  simp only [List.mem_append, List.mem_singleton] at hd
  rcases hd with hd | hd
  · exact Nat.lt_succ_of_lt (h d hd)
  · rw [hd, hc]; exact Nat.lt_succ_self n
@[simp] theorem numb_nil (n : Nat) : Numb [] n := fun _ hc => by cases hc
@[simp] theorem release_id (id st : Nat) (b : Option (Nat × Word32)) (c : Cmd) : (Cmd.release id st b c).id = c.id := rfl

theorem num_of {s t : State} (e : t.cmds = s.cmds) (e' : t.nextId = s.nextId) (h : Numbered s) : Numbered t := by
  unfold Numbered at *; rw [e, e']; exact h

@[simp] theorem num_mk {a b m d e f g h i j k l n o p q r u v w x y z a' b' c' d' e' f' g' h' i'} (hm : Numb h i) :
    Numbered (State.mk a b m d e f g h i j k l n o p q r u v w x y z a' b' c' d' e' f' g' h' i') := hm

@[simp] theorem num_foldl {α : Type} {f : State → α → State} (hf : ∀ t a, Numbered t → Numbered (f t a)) (l : List α)
    {s : State} (h : Numbered s) : Numbered (l.foldl f s) := foldl_keeps hf l h

@[simp] theorem num_ite {c : Prop} [Decidable c] {s t : State} (hs : Numbered s) (ht : Numbered t) :
    Numbered (if c then s else t) := by split <;> assumption

@[simp] theorem ite_id {c : Prop} [Decidable c] (x y : Cmd) {n : Nat} (hx : x.id = n) (hy : y.id = n) :
    (if c then x else y).id = n := by split <;> assumption



/-! Ops -/

@[simp] theorem num_setMem {s : State} (m : Mem) (h : Numbered s) :
    Numbered (State.setMem s m) := by
  simp (maxDischargeDepth := 30) [State.setMem, h]
@[simp] theorem num_land {s : State} (w : BlockWr) (h : Numbered s) :
    Numbered (State.land s w) := by
  simp (maxDischargeDepth := 30) [State.land, h]
@[simp] theorem num_writeBlock {s : State} (w : BlockWr) (h : Numbered s) :
    Numbered (State.writeBlock s w) := by
  simp (maxDischargeDepth := 30) [State.writeBlock, h]
@[simp] theorem num_writeBlocks {s : State} (x1 : List BlockWr) (h : Numbered s) :
    Numbered (State.writeBlocks s x1) := by
  induction x1 generalizing s with
  | nil => exact h
  | cons w r ih => exact ih (num_writeBlock w h)
@[simp] theorem num_freeBit {s : State} (h : Numbered s) :
    Numbered (State.freeBit s).2 := by
  simp (maxDischargeDepth := 30) [State.freeBit, h]
@[simp] theorem num_freeNat {s : State} (h : Numbered s) :
    Numbered (State.freeNat s).2 := by
  simp (maxDischargeDepth := 30) [State.freeNat, h]
@[simp] theorem num_bump {s : State} (c : Ctr) (n : Nat) (h : Numbered s) :
    Numbered (State.bump s c n) := by
  simp (maxDischargeDepth := 30) [State.bump, h]
@[simp] theorem num_bumpIf {s : State} (b : Bool) (c : Ctr) (h : Numbered s) :
    Numbered (State.bumpIf s b c) := by
  simp (maxDischargeDepth := 30) [State.bumpIf, h]
@[simp] theorem num_clearCtr {s : State} (c : Ctr) (h : Numbered s) :
    Numbered (State.clearCtr s c) := by
  simp (maxDischargeDepth := 30) [State.clearCtr, h]
@[simp] theorem num_modCmd {s : State} (id : Nat) (f : Cmd → Cmd) (hf : ∀ c, (f c).id = c.id) (h : Numbered s) :
    Numbered (State.modCmd s id f) := by
  exact numb_map h (fun c => by split <;> simp [hf])
@[simp] theorem num_modCmds {s : State} (f : Cmd → Cmd) (hf : ∀ c, (f c).id = c.id) (h : Numbered s) :
    Numbered (State.modCmds s f) := by
  exact numb_map h hf
@[simp] theorem num_setStage {s : State} (id : Nat) (g : Stage) (h : Numbered s) :
    Numbered (State.setStage s id g) := by
  simp (maxDischargeDepth := 30) [State.setStage, h]
@[simp] theorem num_modContext {s : State} (c : Nat) (f : Context → Context) (h : Numbered s) :
    Numbered (State.modContext s c f) := by
  simp (maxDischargeDepth := 30) [State.modContext, h]
@[simp] theorem num_modCluster {s : State} (n : Nat) (f : Cluster → Cluster) (h : Numbered s) :
    Numbered (State.modCluster s n f) := by
  simp (maxDischargeDepth := 30) [State.modCluster, h]
@[simp] theorem num_modSq {s : State} (n : Nat) (f : Sq → Sq) (h : Numbered s) :
    Numbered (State.modSq s n f) := by
  simp (maxDischargeDepth := 30) [State.modSq, h]
@[simp] theorem num_modCq {s : State} (n : Nat) (f : Cq → Cq) (h : Numbered s) :
    Numbered (State.modCq s n f) := by
  simp (maxDischargeDepth := 30) [State.modCq, h]
@[simp] theorem num_modSeq {s : State} (n : Nat) (f : Seq → Seq) (h : Numbered s) :
    Numbered (State.modSeq s n f) := by
  simp (maxDischargeDepth := 30) [State.modSeq, h]
@[simp] theorem num_modDraft {s : State} (n : Nat) (f : Draft → Draft) (h : Numbered s) :
    Numbered (State.modDraft s n f) := by
  simp (maxDischargeDepth := 30) [State.modDraft, h]
@[simp] theorem num_modFabric {s : State} (f : Fabric → Fabric) (h : Numbered s) :
    Numbered (State.modFabric s f) := by
  simp (maxDischargeDepth := 30) [State.modFabric, h]
@[simp] theorem num_modPort {s : State} (n : Nat) (f : Port → Port) (h : Numbered s) :
    Numbered (State.modPort s n f) := by
  simp (maxDischargeDepth := 30) [State.modPort, h]
@[simp] theorem num_modLiust {s : State} (f : Liust → Liust) (h : Numbered s) :
    Numbered (State.modLiust s f) := by
  simp (maxDischargeDepth := 30) [State.modLiust, h]
@[simp] theorem num_modPower {s : State} (f : Power → Power) (h : Numbered s) :
    Numbered (State.modPower s f) := by
  simp (maxDischargeDepth := 30) [State.modPower, h]
@[simp] theorem num_modReferee {s : State} (f : Referee → Referee) (h : Numbered s) :
    Numbered (State.modReferee s f) := by
  simp (maxDischargeDepth := 30) [State.modReferee, h]
@[simp] theorem num_modErrors {s : State} (f : Errors → Errors) (h : Numbered s) :
    Numbered (State.modErrors s f) := by
  simp (maxDischargeDepth := 30) [State.modErrors, h]
@[simp] theorem num_modMemside {s : State} (f : MemSide → MemSide) (h : Numbered s) :
    Numbered (State.modMemside s f) := by
  simp (maxDischargeDepth := 30) [State.modMemside, h]
@[simp] theorem num_modKeeper {s : State} (f : Keeper → Keeper) (h : Numbered s) :
    Numbered (State.modKeeper s f) := by
  simp (maxDischargeDepth := 30) [State.modKeeper, h]
@[simp] theorem num_modSave {s : State} (f : Save → Save) (h : Numbered s) :
    Numbered (State.modSave s f) := by
  simp (maxDischargeDepth := 30) [State.modSave, h]
@[simp] theorem num_modScout {s : State} (f : Scout → Scout) (h : Numbered s) :
    Numbered (State.modScout s f) := by
  simp (maxDischargeDepth := 30) [State.modScout, h]
@[simp] theorem num_modFlash {s : State} (f : Flash → Flash) (h : Numbered s) :
    Numbered (State.modFlash s f) := by
  simp (maxDischargeDepth := 30) [State.modFlash, h]
@[simp] theorem num_modFuses {s : State} (f : Fuses → Fuses) (h : Numbered s) :
    Numbered (State.modFuses s f) := by
  simp (maxDischargeDepth := 30) [State.modFuses, h]
@[simp] theorem num_modDomain {s : State} (code : Nat) (f : Domain → Domain) (h : Numbered s) :
    Numbered (State.modDomain s code f) := by
  simp (maxDischargeDepth := 30) [State.modDomain, h]
@[simp] theorem num_sendHost {s : State} (t : HostTx) (h : Numbered s) :
    Numbered (State.sendHost s t) := by
  simp (maxDischargeDepth := 30) [State.sendHost, h]
@[simp] theorem num_sendFab {s : State} (t : FabTx) (h : Numbered s) :
    Numbered (State.sendFab s t) := by
  simp (maxDischargeDepth := 30) [State.sendFab, h]
@[simp] theorem num_sendSmb {s : State} (t : SmbTx) (h : Numbered s) :
    Numbered (State.sendSmb s t) := by
  simp (maxDischargeDepth := 30) [State.sendSmb, h]
@[simp] theorem num_touch {s : State} (c : Nat) (h : Numbered s) :
    Numbered (State.touch s c) := by
  simp (maxDischargeDepth := 30) [State.touch, h]
@[simp] theorem num_touchAll {s : State} (l : List Nat) (h : Numbered s) :
    Numbered (State.touchAll s l) := by
  simp +contextual (maxDischargeDepth := 30) [State.touchAll, h]
@[simp] theorem num_access {s : State} (dies : List Nat) (a : Nat) (n : Nat) (f : State → State) (h : Numbered s) (hf : ∀ t, Numbered t → Numbered (f t)) :
    Numbered (State.access s dies a n f) := by
  simp (maxDischargeDepth := 30) [State.access, h, hf]
@[simp] theorem num_setNf {s : State} (src : Src) (h : Numbered s) :
    Numbered (State.setNf s src) := by
  unfold State.setNf
  (repeat' split) <;> simp +contextual (maxDischargeDepth := 30) [h]
@[simp] theorem num_endHost {s : State} (id : Nat) (c : Compl) (h : Numbered s) :
    Numbered (State.endHost s id c) := by
  unfold State.endHost
  (repeat' split) <;> simp +contextual (maxDischargeDepth := 30) [h]
@[simp] theorem num_settleAwaits {s : State} (h : Numbered s) :
    Numbered (State.settleAwaits s) := by
  unfold State.settleAwaits
  refine num_foldl (fun t a ht => ?_) _ (by simp (maxDischargeDepth := 30) [h])
  try dsimp only
  (repeat' split) <;> simp (maxDischargeDepth := 30) [ht]
@[simp] theorem num_retire {s : State} (id st : Nat) (by' : Option (Nat × Word32)) (h : Numbered s) :
    Numbered (State.retire s id st by') := by
  unfold State.retire
  exact num_settleAwaits (num_mk (numb_map (numb_filter h) (release_id _ _ _)))
@[simp] theorem num_settleSeq {s : State} (n : Nat) (h : Numbered s) :
    Numbered (State.settleSeq s n) := by
  simp (maxDischargeDepth := 30) [State.settleSeq, h]
@[simp] theorem num_endEntry {s : State} (c : Cmd) (n : Nat) (entry : Nat) (step : Word32) (k : Compl) (h : Numbered s) :
    Numbered (State.endEntry s c n entry step k) := by
  exact num_settleSeq _ (num_retire _ _ _ (num_modSeq _ _ h))
@[simp] theorem num_poisonSlots {s : State} (c : Cmd) (st : Nat) (h : Numbered s) :
    Numbered (State.poisonSlots s c st) := by
  simp (maxDischargeDepth := 30) [State.poisonSlots, h]
@[simp] theorem num_releaseScratch {s : State} (c : Cmd) (h : Numbered s) :
    Numbered (State.releaseScratch s c) := by
  simp (maxDischargeDepth := 30) [State.releaseScratch, h]
@[simp] theorem num_leaveCores {s : State} (id : Nat) (h : Numbered s) :
    Numbered (State.leaveCores s id) := by
  simp (maxDischargeDepth := 30) [State.leaveCores, h]
@[simp] theorem num_finish {s : State} (id : Nat) (k : Compl) (h : Numbered s) :
    Numbered (State.finish s id k) := by
  unfold State.finish
  (repeat' split) <;> simp +contextual (maxDischargeDepth := 30) [h]
@[simp] theorem num_hostReject {s : State} (h : Numbered s) :
    Numbered (State.hostReject s) := by
  simp (maxDischargeDepth := 30) [State.hostReject, h]
@[simp] theorem num_atHost {s : State} (f : State → State) (h : Numbered s) (hf : ∀ t, Numbered t → Numbered (f t)) :
    Numbered (State.atHost s f) := by
  simp (maxDischargeDepth := 30) [State.atHost, h, hf]
@[simp] theorem num_dmaRd {s : State} (addr : Nat) (len : Nat) (o : DmaOwner) (h : Numbered s) :
    Numbered (State.dmaRd s addr len o) := by
  simp (maxDischargeDepth := 30) [State.dmaRd, h]
@[simp] theorem num_dmaWr {s : State} (addr : Nat) (data : List Byte) (poison : Word64) (o : DmaOwner) (h : Numbered s) :
    Numbered (State.dmaWr s addr data poison o) := by
  simp (maxDischargeDepth := 30) [State.dmaWr, h]

/-! Operands -/

@[simp] theorem num_fillTiles {s : State} (c : Cmd) (e : Effect) (h : Numbered s) :
    Numbered (State.fillTiles s c e) := by
  simp +contextual (maxDischargeDepth := 30) [State.fillTiles, h]
@[simp] theorem num_dropTiles {s : State} (c : Cmd) (h : Numbered s) :
    Numbered (State.dropTiles s c) := by
  simp (maxDischargeDepth := 30) [State.dropTiles, h]
@[simp] theorem num_noteTiles {s : State} (c : Cmd) (h : Numbered s) :
    Numbered (State.noteTiles s c) := by
  simp (maxDischargeDepth := 30) [State.noteTiles, h]
@[simp] theorem num_addSlots {s : State} (ctx : Nat) (adds : List SlotAdd) (h : Numbered s) :
    Numbered (State.addSlots s ctx adds) := by
  simp +contextual (maxDischargeDepth := 30) [State.addSlots, h]
@[simp] theorem num_closeSlots {s : State} (ctx : Nat) (nums : List Nat) (h : Numbered s) :
    Numbered (State.closeSlots s ctx nums) := by
  simp (maxDischargeDepth := 30) [State.closeSlots, h]
@[simp] theorem num_bumps {s : State} (x1 : List (Ctr × Nat)) (h : Numbered s) :
    Numbered (State.bumps s x1) := by
  induction x1 generalizing s with
  | nil => exact h
  | cons w r ih => exact ih (num_bump w.1 w.2 h)
@[simp] theorem num_noteGrad {s : State} (c : Cmd) (nf : Nat) (h : Numbered s) :
    Numbered (State.noteGrad s c nf) := by
  simp (maxDischargeDepth := 30) [State.noteGrad, h]
@[simp] theorem num_stopEffect {s : State} (c : Cmd) (e : Effect) (limit : Option Nat) (h : Numbered s) :
    Numbered (State.stopEffect s c e limit) := by
  simp (maxDischargeDepth := 30) [State.stopEffect, h]
@[simp] theorem num_stopPoison {s : State} (c : Cmd) (e : Effect) (h : Numbered s) :
    Numbered (State.stopPoison s c e) := by
  simp (maxDischargeDepth := 30) [State.stopPoison, h]
@[simp] theorem num_landEffect {s : State} (c : Cmd) (e : Effect) (h : Numbered s) :
    Numbered (State.landEffect s c e) := by
  simp (maxDischargeDepth := 30) [State.landEffect, h]
@[simp] theorem num_perform {s : State} (c : Cmd) (e : Effect) (h : Numbered s) :
    Numbered (State.perform s c e) := by
  simp (maxDischargeDepth := 30) [State.perform, h]
@[simp] theorem num_runOp {s : State} (id : Nat) (opcode : Nat) (f : State → Cmd → Effect) (h : Numbered s) :
    Numbered (State.runOp s id opcode f) := by
  unfold State.runOp
  (repeat' split) <;> simp +contextual (maxDischargeDepth := 30) [h]

/-! Sequence -/

@[simp] theorem num_advance {s : State} (n : Nat) (h : Numbered s) :
    Numbered (State.advance s n) := by
  simp (maxDischargeDepth := 30) [State.advance, h]
@[simp] theorem num_jump {s : State} (n : Nat) (entry : Nat) (h : Numbered s) :
    Numbered (State.jump s n entry) := by
  simp (maxDischargeDepth := 30) [State.jump, h]
@[simp] theorem num_modGroup {s : State} (g : Nat) (f : Group → Group) (h : Numbered s) :
    Numbered (State.modGroup s g f) := by
  simp (maxDischargeDepth := 30) [State.modGroup, h]
@[simp] theorem num_numberColl {s : State} (id : Nat) (h : Numbered s) :
    Numbered (State.numberColl s id) := by
  unfold State.numberColl
  (repeat' split) <;> simp +contextual (maxDischargeDepth := 30) [h]
@[simp] theorem num_joinEntry {s : State} (n : Nat) (h : Numbered s) :
    Numbered (State.joinEntry s n) := by
  unfold State.joinEntry
  dsimp only
  refine num_numberColl _ ?_
  exact numb_snoc (l := s.cmds) (n := s.nextId) h rfl
@[simp] theorem num_admitEntry {s : State} (n : Nat) (h : Numbered s) :
    Numbered (State.admitEntry s n) := by
  unfold State.admitEntry
  refine num_advance _ (num_numberColl _ ?_)
  exact numb_snoc (l := s.cmds) (n := s.nextId) h rfl
@[simp] theorem num_issueControl {s : State} (n : Nat) (op : Nat) (f : State → State) (h : Numbered s) (hf : ∀ t, Numbered t → Numbered (f t)) :
    Numbered (State.issueControl s n op f) := by
  simp (maxDischargeDepth := 30) [State.issueControl, h, hf]
@[simp] theorem num_doPlaybookIssue {s : State} (n : Nat) (h : Numbered s) :
    Numbered (State.doPlaybookIssue s n) := by
  simp (maxDischargeDepth := 30) [State.doPlaybookIssue, h]

/-! Admin -/

@[simp] theorem num_runChecked {s : State} (id : Nat) (opcode : Nat) (start : State → Cmd → Started) (act : State → Cmd → State) (h : Numbered s) (hact : ∀ t c, Numbered t → Numbered (act t c)) :
    Numbered (State.runChecked s id opcode start act) := by
  unfold State.runChecked
  (repeat' split) <;> simp +contextual (maxDischargeDepth := 30) [h, hact]
@[simp] theorem num_doCtxCreate {s : State} (id : Nat) (h : Numbered s) :
    Numbered (State.doCtxCreate s id) := by
  simp +contextual (maxDischargeDepth := 30) [State.doCtxCreate, h]
@[simp] theorem num_setPlace {s : State} (local' : Bool) (g : Nat) (h : Numbered s) :
    Numbered (State.setPlace s local' g) := by
  simp (maxDischargeDepth := 30) [State.setPlace, h]
@[simp] theorem num_setRegion {s : State} (ctx : Nat) (n : Nat) (r : Region) (h : Numbered s) :
    Numbered (State.setRegion s ctx n r) := by
  simp +contextual (maxDischargeDepth := 30) [State.setRegion, h]
@[simp] theorem num_doRegionSet {s : State} (id : Nat) (h : Numbered s) :
    Numbered (State.doRegionSet s id) := by
  simp +contextual (maxDischargeDepth := 30) [State.doRegionSet, h]

/-! Playbook -/

@[simp] theorem num_writeVerdict {s : State} (a : Nat) (b : List Byte) (h : Numbered s) :
    Numbered (State.writeVerdict s a b) := by
  simp (maxDischargeDepth := 30) [State.writeVerdict, h]
@[simp] theorem num_writeSeed {s : State} (w : Word64) (h : Numbered s) :
    Numbered (State.writeSeed s w) := by
  simp (maxDischargeDepth := 30) [State.writeSeed, h]
@[simp] theorem num_acceptPlaybook {s : State} (digest : List Byte → BitVec 256) (c : Cmd) (n : Nat) (h : Numbered s) :
    Numbered (State.acceptPlaybook s digest c n) := by
  exact num_setStage _ _ (num_writeVerdict _ _ (num_writeSeed _ (num_modSeq _ _ h)))
@[simp] theorem num_stepBoundary {s : State} (h : Numbered s) :
    Numbered (State.stepBoundary s) := by
  simp (maxDischargeDepth := 30) [State.stepBoundary, h]
@[simp] theorem num_doEnterHeld {s : State} (n : Nat) (h : Numbered s) :
    Numbered (State.doEnterHeld s n) := by
  simp (maxDischargeDepth := 30) [State.doEnterHeld, h]
@[simp] theorem num_doEntryFailed {s : State} (n : Nat) (h : Numbered s) :
    Numbered (State.doEntryFailed s n) := by
  simp (maxDischargeDepth := 30) [State.doEntryFailed, h]
@[simp] theorem num_doWindowClose {s : State} (n : Nat) (h : Numbered s) :
    Numbered (State.doWindowClose s n) := by
  unfold State.doWindowClose
  (repeat' split) <;> simp +contextual (maxDischargeDepth := 30) [h]
@[simp] theorem num_doPbFeed {s : State} (id : Nat) (h : Numbered s) :
    Numbered (State.doPbFeed s id) := by
  unfold State.doPbFeed
  (repeat' split) <;> simp +contextual (maxDischargeDepth := 30) [h]
@[simp] theorem num_doPbPost {s : State} (id : Nat) (h : Numbered s) :
    Numbered (State.doPbPost s id) := by
  unfold State.doPbPost
  (repeat' split) <;> simp +contextual (maxDischargeDepth := 30) [h]
@[simp] theorem num_doFeedTail {s : State} (n : Nat) (v : Word32) (h : Numbered s) :
    Numbered (State.doFeedTail s n v) := by
  simp (maxDischargeDepth := 30) [State.doFeedTail, h]
@[simp] theorem num_noteSpike {s : State} (h : Numbered s) :
    Numbered (State.noteSpike s) := by
  simp (maxDischargeDepth := 30) [State.noteSpike, h]
@[simp] theorem num_doPbLoss {s : State} (id : Nat) (h : Numbered s) :
    Numbered (State.doPbLoss s id) := by
  unfold State.doPbLoss
  (repeat' split) <;> simp +contextual (maxDischargeDepth := 30) [h]

/-! FabNet -/

@[simp] theorem num_sendOn {s : State} (n : Nat) (p : Packet) (h : Numbered s) :
    Numbered (State.sendOn s n p) := by
  simp (maxDischargeDepth := 30) [State.sendOn, h]
@[simp] theorem num_sendWaiting {s : State} (n : Nat) (w : Waiting) (h : Numbered s) :
    Numbered (State.sendWaiting s n w) := by
  simp (maxDischargeDepth := 30) [State.sendWaiting, h]
@[simp] theorem num_wait {s : State} (w : Waiting) (h : Numbered s) :
    Numbered (State.wait s w) := by
  simp (maxDischargeDepth := 30) [State.wait, h]
@[simp] theorem num_chooseRoute {s : State} (w : Waiting) (h : Numbered s) :
    Numbered (State.chooseRoute s w).2 := by
  simp (maxDischargeDepth := 30) [State.chooseRoute, h]
@[simp] theorem num_transmit {s : State} (w : Waiting) (h : Numbered s) :
    Numbered (State.transmit s w) := by
  have hc := num_chooseRoute w h
  unfold State.transmit
  generalize State.chooseRoute s w = p at hc
  obtain ⟨r, t⟩ := p
  cases r <;> simp (maxDischargeDepth := 30) [show Numbered t from hc]
@[simp] theorem num_inject {s : State} (p : Packet) (h : Numbered s) :
    Numbered (State.inject s p) := by
  simp (maxDischargeDepth := 30) [State.inject, h]
@[simp] theorem num_contend {s : State} (n : Nat) (vc : Nat) (x3 : Nat) (x4 : List Waiting) (h : Numbered s) :
    Numbered (State.contend s n vc x3 x4) := by
  induction x3 generalizing s x4 with
  | zero => exact h
  | succ k ih =>
    unfold State.contend
    dsimp only
    split
    · exact h
    · exact ih _ (num_sendWaiting _ _ (num_modFabric _ h))
@[simp] theorem num_routeAll {s : State} (x1 : List Waiting) (h : Numbered s) :
    Numbered (State.routeAll s x1).1 := by
  induction x1 generalizing s with
  | nil => exact h
  | cons w r ih =>
    have hc := num_chooseRoute w h
    unfold State.routeAll
    generalize State.chooseRoute s w = p at hc
    obtain ⟨q, t⟩ := p
    have ht : Numbered t := hc
    cases q
    · exact ih (num_bump _ _ ht)
    · exact ih (num_wait _ ht)
    · exact ih ht
@[simp] theorem num_ageOut {s : State} (h : Numbered s) :
    Numbered (State.ageOut s) := by
  simp (maxDischargeDepth := 30) [State.ageOut, h]
@[simp] theorem num_flushQueue {s : State} (h : Numbered s) :
    Numbered (State.flushQueue s) := by
  simp +contextual (maxDischargeDepth := 30) [State.flushQueue, h]
@[simp] theorem num_receive {s : State} (p : Packet) (t : PktType) (f : State → State) (h : Numbered s) (hf : ∀ t, Numbered t → Numbered (f t)) :
    Numbered (State.receive s p t f) := by
  simp (maxDischargeDepth := 30) [State.receive, h, hf]
@[simp] theorem num_doForward {s : State} (inPort : Nat) (p : Packet) (micros : Nat) (credits : List Nat) (h : Numbered s) :
    Numbered (State.doForward s inPort p micros credits) := by
  simp +contextual (maxDischargeDepth := 30) [State.doForward, h]
  (repeat' split) <;> simp +contextual (maxDischargeDepth := 30) [h]
@[simp] theorem num_landBlocks {s : State} (id : Nat) (f : Fmt) (x3 : List BlockWr) (h : Numbered s) :
    Numbered (State.landBlocks s id f x3).1 := by
  induction x3 generalizing s with
  | nil => exact h
  | cons w r ih =>
    unfold State.landBlocks; split
    · exact h
    · split
      · simp [h]
      · refine ih ?_
        try dsimp only
        split <;> simp (maxDischargeDepth := 30) [h]
@[simp] theorem num_addPoisonIn {s : State} (id : Nat) (n : Nat) (h : Numbered s) :
    Numbered (State.addPoisonIn s id n) := by
  simp (maxDischargeDepth := 30) [State.addPoisonIn, h]
@[simp] theorem num_finishPart {s : State} (id : Nat) (k : Compl) (h : Numbered s) :
    Numbered (State.finishPart s id k) := by
  unfold State.finishPart
  (repeat' split) <;> simp +contextual (maxDischargeDepth := 30) [h]
@[simp] theorem num_serveRead {s : State} (p : Packet) (h : Numbered s) :
    Numbered (State.serveRead s p).1 := by
  simp +contextual (maxDischargeDepth := 30) [State.serveRead, h]
  (repeat' split) <;> simp +contextual (maxDischargeDepth := 30) [h]
@[simp] theorem num_serveWrite {s : State} (p : Packet) (h : Numbered s) :
    Numbered (State.serveWrite s p).1 := by
  simp +contextual (maxDischargeDepth := 30) [State.serveWrite, h]
  (repeat' split) <;> simp +contextual (maxDischargeDepth := 30) [h]
@[simp] theorem num_serve {s : State} (p : Packet) (n : Nat) (write : Bool) (f : State → Packet → State × Packet) (h : Numbered s) (hf : ∀ t q, Numbered t → Numbered (f t q).1) :
    Numbered (State.serve s p n write f) := by
  unfold State.serve
  dsimp only
  split
  · exact num_inject _ (hf _ _ h)
  · exact num_access _ _ _ _ h (fun t ht => num_inject _ (hf _ _ ht))
@[simp] theorem num_dropRemote {s : State} (tag : Nat) (h : Numbered s) :
    Numbered (State.dropRemote s tag) := by
  simp (maxDischargeDepth := 30) [State.dropRemote, h]
@[simp] theorem num_dropQueued {s : State} (tags : List Nat) (h : Numbered s) :
    Numbered (State.dropQueued s tags) := by
  simp (maxDischargeDepth := 30) [State.dropQueued, h]
@[simp] theorem num_failRemote {s : State} (id : Nat) (st : Nat) (h : Numbered s) :
    Numbered (State.failRemote s id st) := by
  simp (maxDischargeDepth := 30) [State.failRemote, h]
@[simp] theorem num_remoteRequest {s : State} (id : Nat) (localAddr : Nat) (first : Nat) (p : Packet) (h : Numbered s) :
    Numbered (State.remoteRequest s id localAddr first p) := by
  simp (maxDischargeDepth := 30) [State.remoteRequest, h]
@[simp] theorem num_sendPiece {s : State} (c : Cmd) (o : Operand) (r : Operand) (p : Nat × Nat × Nat) (h : Numbered s) :
    Numbered (State.sendPiece s c o r p) := by
  simp (maxDischargeDepth := 30) [State.sendPiece, h]
@[simp] theorem num_sendPart {s : State} (c : Cmd) (dst : Nat) (la : Nat) (ra : Nat) (h : Numbered s) :
    Numbered (State.sendPart s c dst la ra) := by
  simp (maxDischargeDepth := 30) [State.sendPart, h]
@[simp] theorem num_sendNext {s : State} (b : Nat × Nat × Nat × Nat) (h : Numbered s) :
    Numbered (State.sendNext s b) := by
  unfold State.sendNext
  (repeat' split) <;> simp +contextual (maxDischargeDepth := 30) [h]
@[simp] theorem num_pumpRemotes {s : State} (h : Numbered s) :
    Numbered (State.pumpRemotes s) := by
  simp +contextual (maxDischargeDepth := 30) [State.pumpRemotes, h]
@[simp] theorem num_settleRemote {s : State} (id : Nat) (h : Numbered s) :
    Numbered (State.settleRemote s id) := by
  simp (maxDischargeDepth := 30) [State.settleRemote, h]
@[simp] theorem num_settleRestores {s : State} (h : Numbered s) :
    Numbered (State.settleRestores s) := by
  simp +contextual (maxDischargeDepth := 30) [State.settleRestores, h]
@[simp] theorem num_copyPiece {s : State} (id : Nat) (src : Operand) (dst : Operand) (p : Nat × Nat × Nat) (h : Numbered s) :
    Numbered (State.copyPiece s id src dst p) := by
  simp (maxDischargeDepth := 30) [State.copyPiece, h]
@[simp] theorem num_doRemote {s : State} (id : Nat) (opcode : Nat) (h : Numbered s) :
    Numbered (State.doRemote s id opcode) := by
  unfold State.doRemote
  (repeat' split) <;> simp +contextual (maxDischargeDepth := 30) [h]
@[simp] theorem num_takeResponse {s : State} (p : Packet) (h : Numbered s) :
    Numbered (State.takeResponse s p) := by
  unfold State.takeResponse
  (repeat' split) <;> simp +contextual (maxDischargeDepth := 30) [h]

/-! Ssu -/

@[simp] theorem num_countCe {s : State} (a : Nat) (h : Numbered s) :
    Numbered (State.countCe s a) := by
  simp (maxDischargeDepth := 30) [State.countCe, h]
@[simp] theorem num_countTransient {s : State} (a : Nat) (h : Numbered s) :
    Numbered (State.countTransient s a) := by
  simp (maxDischargeDepth := 30) [State.countTransient, h]
@[simp] theorem num_lastingError {s : State} (a : Nat) (h : Numbered s) :
    Numbered (State.lastingError s a) := by
  simp (maxDischargeDepth := 30) [State.lastingError, h]
@[simp] theorem num_classify {s : State} (a : Nat) (o : ReadOutcome) (h : Numbered s) :
    Numbered (State.classify s a o).2 := by
  simp +contextual (maxDischargeDepth := 30) [State.classify, h]
  (repeat' split) <;> simp +contextual (maxDischargeDepth := 30) [h]
@[simp] theorem num_corrected {s : State} (a : Nat) (h : Numbered s) :
    Numbered (State.corrected s a) := by
  simp (maxDischargeDepth := 30) [State.corrected, h]
@[simp] theorem num_landHeld {s : State} (a : Nat) (h : Numbered s) :
    Numbered (State.landHeld s a) := by
  simp +contextual (maxDischargeDepth := 30) [State.landHeld, h]
@[simp] theorem num_secondRead {s : State} (a : Nat) (second : ReadOutcome) (h : Numbered s) :
    Numbered (State.secondRead s a second) := by
  simp +contextual (maxDischargeDepth := 30) [State.secondRead, h]
  (repeat' split) <;> simp +contextual (maxDischargeDepth := 30) [h]
@[simp] theorem num_firstRead {s : State} (a : Nat) (o : ReadOutcome) (h : Numbered s) :
    Numbered (State.firstRead s a o) := by
  simp +contextual (maxDischargeDepth := 30) [State.firstRead, h]
  (repeat' split) <;> simp +contextual (maxDischargeDepth := 30) [h]
@[simp] theorem num_addTo {s : State} (a : Nat) (bf : Bool) (cs : List (List Word32)) (poisoned : Bool) (h : Numbered s) :
    Numbered (State.addTo s a bf cs poisoned) := by
  simp (maxDischargeDepth := 30) [State.addTo, h]
@[simp] theorem num_ssuOp {s : State} (op : SsuOp) (h : Numbered s) :
    Numbered (State.ssuOp s op) := by
  unfold State.ssuOp
  (repeat' split) <;> simp +contextual (maxDischargeDepth := 30) [h]

/-! Coll -/

@[simp] theorem num_doGroupDefine {s : State} (id : Nat) (h : Numbered s) :
    Numbered (State.doGroupDefine s id) := by
  unfold State.doGroupDefine
  (repeat' split) <;> simp +contextual (maxDischargeDepth := 30) [h]
@[simp] theorem num_modColl {s : State} (id : Nat) (f : Coll → Coll) (h : Numbered s) :
    Numbered (State.modColl s id f) := by
  simp (maxDischargeDepth := 30) [State.modColl, h]
@[simp] theorem num_trySends {s : State} (id : Nat) (h : Numbered s) :
    Numbered (State.trySends s id) := by
  unfold State.trySends
  (repeat' split) <;> simp +contextual (maxDischargeDepth := 30) [h]
@[simp] theorem num_addSends {s : State} (id : Nat) (l : List Send) (h : Numbered s) :
    Numbered (State.addSends s id l) := by
  simp (maxDischargeDepth := 30) [State.addSends, h]
@[simp] theorem num_landContribution {s : State} (k : Coll) (r : Nat) (off : Nat) (data : List Byte) (poison : Nat) (empty : Bool) (h : Numbered s) :
    Numbered (State.landContribution s k r off data poison empty).1 := by
  unfold State.landContribution; dsimp only; split
  · simp [h]
  split
  · split <;> simp (maxDischargeDepth := 30) [h]
  split
  · simp [h]
  refine num_modColl _ _ (foldl_keeps (p := fun (a : State × Bool) => Numbered a.1) (fun a x ha => ?_) _ h)
  try dsimp only
  (repeat' split) <;> simp (maxDischargeDepth := 30) [ha]
@[simp] theorem num_landGather {s : State} (k : Coll) (r : Nat) (off : Nat) (data : List Byte) (poison : Nat) (empty : Bool) (h : Numbered s) :
    Numbered (State.landGather s k r off data poison empty).1 := by
  unfold State.landGather
  (repeat' split) <;> simp +contextual (maxDischargeDepth := 30) [h]
@[simp] theorem num_uncount {s : State} (id : Nat) (n : Nat) (h : Numbered s) :
    Numbered (State.uncount s id n) := by
  simp (maxDischargeDepth := 30) [State.uncount, h]
@[simp] theorem num_formShard {s : State} (id : Nat) (i : Nat) (h : Numbered s) :
    Numbered (State.formShard s id i) := by
  unfold State.formShard
  (repeat' split) <;> simp +contextual (maxDischargeDepth := 30) [h]
@[simp] theorem num_endColl {s : State} (k : Coll) (h : Numbered s) :
    Numbered (State.endColl s k) := by
  simp (maxDischargeDepth := 30) [State.endColl, h]
@[simp] theorem num_settleColl {s : State} (id : Nat) (h : Numbered s) :
    Numbered (State.settleColl s id) := by
  simp +contextual (maxDischargeDepth := 30) [State.settleColl, h]
  (repeat' split) <;> simp +contextual (maxDischargeDepth := 30) [h]
@[simp] theorem num_landOwn {s : State} (id : Nat) (i : Nat) (h : Numbered s) :
    Numbered (State.landOwn s id i) := by
  unfold State.landOwn
  (repeat' split) <;> simp +contextual (maxDischargeDepth := 30) [h]
@[simp] theorem num_launch {s : State} (id : Nat) (h : Numbered s) :
    Numbered (State.launch s id) := by
  unfold State.launch
  (repeat' split) <;> simp +contextual (maxDischargeDepth := 30) [h]
@[simp] theorem num_sendReady {s : State} (k : Coll) (h : Numbered s) :
    Numbered (State.sendReady s k) := by
  simp +contextual (maxDischargeDepth := 30) [State.sendReady, h]
@[simp] theorem num_takeReady {s : State} (id : Nat) (r : Nat) (h : Numbered s) :
    Numbered (State.takeReady s id r) := by
  simp (maxDischargeDepth := 30) [State.takeReady, h]
@[simp] theorem num_noteNoBall {s : State} (h : Numbered s) :
    Numbered (State.noteNoBall s) := by
  simp (maxDischargeDepth := 30) [State.noteNoBall, h]
@[simp] theorem num_formVerdict {s : State} (c : Cmd) (localNf : Bool) (r : Barrier) (h : Numbered s) :
    Numbered (State.formVerdict s c localNf r) := by
  simp (maxDischargeDepth := 30) [State.formVerdict, h]
@[simp] theorem num_takeBarrier {s : State} (id : Nat) (r : Barrier) (h : Numbered s) :
    Numbered (State.takeBarrier s id r) := by
  unfold State.takeBarrier
  (repeat' split) <;> simp +contextual (maxDischargeDepth := 30) [h]
@[simp] theorem num_settleBarrier {s : State} (id : Nat) (h : Numbered s) :
    Numbered (State.settleBarrier s id) := by
  unfold State.settleBarrier
  (repeat' split) <;> simp +contextual (maxDischargeDepth := 30) [h]
@[simp] theorem num_noteFlag {s : State} (id : Nat) (r : Nat) (flag : Bool) (held : Option Barrier) (h : Numbered s) :
    Numbered (State.noteFlag s id r flag held) := by
  simp (maxDischargeDepth := 30) [State.noteFlag, h]
@[simp] theorem num_sendFlag {s : State} (id : Nat) (h : Numbered s) :
    Numbered (State.sendFlag s id) := by
  unfold State.sendFlag
  (repeat' split) <;> simp +contextual (maxDischargeDepth := 30) [h]
@[simp] theorem num_takeEarly {s : State} (id : Nat) (h : Numbered s) :
    Numbered (State.takeEarly s id) := by
  unfold State.takeEarly; split
  · exact h
  · refine num_foldl (fun t a ht => ?_) _ (by simp [h])
    try dsimp only
    split <;> simp [ht]
@[simp] theorem num_earlyOrDrop {s : State} (p : Packet) (h : Numbered s) :
    Numbered (State.earlyOrDrop s p) := by
  unfold State.earlyOrDrop
  (repeat' split) <;> simp +contextual (maxDischargeDepth := 30) [h]
@[simp] theorem num_doColl {s : State} (id : Nat) (opcode : Nat) (kind : Nat) (h : Numbered s) :
    Numbered (State.doColl s id opcode kind) := by
  unfold State.doColl
  (repeat' split) <;> simp +contextual (maxDischargeDepth := 30) [h]
@[simp] theorem num_runBarrier {s : State} (c : Cmd) (group : Nat) (flag : Bool) (h : Numbered s) :
    Numbered (State.runBarrier s c group flag) := by
  unfold State.runBarrier
  (repeat' split) <;> simp +contextual (maxDischargeDepth := 30) [h]
@[simp] theorem num_takeData {s : State} (k : Coll) (p : Packet) (h : Numbered s) :
    Numbered (State.takeData s k p) := by
  simp +contextual (maxDischargeDepth := 30) [State.takeData, h]
  (repeat' split) <;> simp +contextual (maxDischargeDepth := 30) [h]
@[simp] theorem num_collLoses {s : State} (gone : List Nat) (k0 : Coll) (h : Numbered s) :
    Numbered (State.collLoses s gone k0) := by
  simp +contextual (maxDischargeDepth := 30) [State.collLoses, h]
@[simp] theorem num_leaderLost {s : State} (before : List Nat) (g : Group) (h : Numbered s) :
    Numbered (State.leaderLost s before g) := by
  simp +contextual (maxDischargeDepth := 30) [State.leaderLost, h]
  (repeat' split) <;> simp +contextual (maxDischargeDepth := 30) [h]
@[simp] theorem num_groupsLose {s : State} (before : State) (gone : List Nat) (h : Numbered s) :
    Numbered (State.groupsLose s before gone) := by
  unfold State.groupsLose
  refine num_foldl (fun t a ht => ?_) _ (num_foldl (fun t a ht => ?_) _ (by simp [h]))
  · split <;> simp [ht]
  · try dsimp only
    split <;> simp [ht]

/-! Drain -/

@[simp] theorem num_openSlots {s : State} (c : Cmd) (names : List (Nat × Nat × Nat)) (h : Numbered s) :
    Numbered (State.openSlots s c names) := by
  simp (maxDischargeDepth := 30) [State.openSlots, h]

/-! Place -/

@[simp] theorem num_settleModes {s : State} (clusters : List Nat) (seeking : List Cmd) (h : Numbered s) :
    Numbered (State.settleModes s clusters seeking) := by
  simp +contextual (maxDischargeDepth := 30) [State.settleModes, h]
@[simp] theorem num_placeOn {s : State} (c : Cmd) (before : List Cmd) (n : Nat) (h : Numbered s) :
    Numbered (State.placeOn s c before n) := by
  simp +contextual (maxDischargeDepth := 30) [State.placeOn, h]
@[simp] theorem num_place {s : State} (c : Cmd) (before : List Cmd) (h : Numbered s) :
    Numbered (State.place s c before) := by
  simp +contextual (maxDischargeDepth := 30) [State.place, h]
@[simp] theorem num_moveShare {s : State} (n : Nat) (core : Nat) (id : Nat) (h : Numbered s) :
    Numbered (State.moveShare s n core id) := by
  unfold State.moveShare
  (repeat' split) <;> simp +contextual (maxDischargeDepth := 30) [h]

/-! Vector -/

@[simp] theorem num_landTable {s : State} (c : Cmd) (n : Nat) (cl : Nat) (h : Numbered s) :
    Numbered (State.landTable s c n cl) := by
  simp (maxDischargeDepth := 30) [State.landTable, h]
@[simp] theorem num_takeTables {s : State} (cl : Nat) (h : Numbered s) :
    Numbered (State.takeTables s cl) := by
  simp (maxDischargeDepth := 30) [State.takeTables, h]

/-! Draft -/

@[simp] theorem num_closeGen {s : State} (t : Nat) (h : Numbered s) :
    Numbered (State.closeGen s t) := by
  simp (maxDischargeDepth := 30) [State.closeGen, h]
@[simp] theorem num_retireGen {s : State} (t : Nat) (h : Numbered s) :
    Numbered (State.retireGen s t) := by
  simp (maxDischargeDepth := 30) [State.retireGen, h]
@[simp] theorem num_creditDraft {s : State} (d : Draft) (drafted : Nat) (undrafted : Nat) (h : Numbered s) :
    Numbered (State.creditDraft s d drafted undrafted) := by
  unfold State.creditDraft
  (repeat' split) <;> simp +contextual (maxDischargeDepth := 30) [h]
@[simp] theorem num_writeDraftList {s : State} (t : Nat) (lists : List (List Nat × Bool)) (h : Numbered s) :
    Numbered (State.writeDraftList s t lists) := by
  simp +contextual (maxDischargeDepth := 30) [State.writeDraftList, h]
  (repeat' split) <;> simp +contextual (maxDischargeDepth := 30) [h]
@[simp] theorem num_settleList {s : State} (t : Nat) (h : Numbered s) :
    Numbered (State.settleList s t) := by
  simp (maxDischargeDepth := 30) [State.settleList, h]
@[simp] theorem num_askFor {s : State} (t : Nat) (a : Ask) (h : Numbered s) :
    Numbered (State.askFor s t a) := by
  simp (maxDischargeDepth := 30) [State.askFor, h]
@[simp] theorem num_sendCopy {s : State} (t : Nat) (r : FetchReq) (a : Nat) (h : Numbered s) :
    Numbered (State.sendCopy s t r a) := by
  simp +contextual (maxDischargeDepth := 30) [State.sendCopy, h]
@[simp] theorem num_serveFetch {s : State} (t : Nat) (r : FetchReq) (h : Numbered s) :
    Numbered (State.serveFetch s t r) := by
  simp +contextual (maxDischargeDepth := 30) [State.serveFetch, h]
  (repeat' split) <;> simp +contextual (maxDischargeDepth := 30) [h]
@[simp] theorem num_serveFetches {s : State} (t : Nat) (h : Numbered s) :
    Numbered (State.serveFetches s t) := by
  simp +contextual (maxDischargeDepth := 30) [State.serveFetches, h]
@[simp] theorem num_serveAll {s : State} (h : Numbered s) :
    Numbered (State.serveAll s) := by
  simp +contextual (maxDischargeDepth := 30) [State.serveAll, h]
@[simp] theorem num_settleTransfer {s : State} (t : Nat) (h : Numbered s) :
    Numbered (State.settleTransfer s t) := by
  simp +contextual (maxDischargeDepth := 30) [State.settleTransfer, h]
  (repeat' split) <;> simp +contextual (maxDischargeDepth := 30) [h]
@[simp] theorem num_useCopy {s : State} (t : Nat) (bytes : List Byte) (poison : Nat) (a : Ask) (h : Numbered s) :
    Numbered (State.useCopy s t bytes poison a) := by
  unfold State.useCopy
  (repeat' split) <;> simp +contextual (maxDischargeDepth := 30) [h]
@[simp] theorem num_settleCopy {s : State} (t : Nat) (source : Nat) (e : Nat) (h : Numbered s) :
    Numbered (State.settleCopy s t source e) := by
  simp +contextual (maxDischargeDepth := 30) [State.settleCopy, h]
  (repeat' split) <;> simp +contextual (maxDischargeDepth := 30) [h]
@[simp] theorem num_draftNf {s : State} (t : Nat) (h : Numbered s) :
    Numbered (State.draftNf s t) := by
  unfold State.draftNf
  (repeat' split) <;> simp +contextual (maxDischargeDepth := 30) [h]
@[simp] theorem num_takePart {s : State} (t : Nat) (p : DraftPart) (h : Numbered s) :
    Numbered (State.takePart s t p) := by
  unfold State.takePart
  (repeat' split) <;> simp +contextual (maxDischargeDepth := 30) [h]
@[simp] theorem num_deliver {s : State} (t : Nat) (p : Packet) (h : Numbered s) :
    Numbered (State.deliver s t p) := by
  simp (maxDischargeDepth := 30) [State.deliver, h]
@[simp] theorem num_deliverAll {s : State} (t : Nat) (l : List Packet) (h : Numbered s) :
    Numbered (State.deliverAll s t l) := by
  simp +contextual (maxDischargeDepth := 30) [State.deliverAll, h]
@[simp] theorem num_doDraftPacket {s : State} (p : Packet) (h : Numbered s) :
    Numbered (State.doDraftPacket s p) := by
  simp (maxDischargeDepth := 30) [State.doDraftPacket, h]
@[simp] theorem num_doDraftPropose {s : State} (id : Nat) (h : Numbered s) :
    Numbered (State.doDraftPropose s id) := by
  simp +contextual (maxDischargeDepth := 30) [State.doDraftPropose, h]
  (repeat' split) <;> simp +contextual (maxDischargeDepth := 30) [h]
@[simp] theorem num_doDraftMerge {s : State} (id : Nat) (h : Numbered s) :
    Numbered (State.doDraftMerge s id) := by
  unfold State.doDraftMerge
  (repeat' split) <;> simp +contextual (maxDischargeDepth := 30) [h]
@[simp] theorem num_askExpert {s : State} (t : Nat) (e : Nat) (h : Numbered s) :
    Numbered (State.askExpert s t e) := by
  simp +contextual (maxDischargeDepth := 30) [State.askExpert, h]
  (repeat' split) <;> simp +contextual (maxDischargeDepth := 30) [h]
@[simp] theorem num_placeCopy {s : State} (d : Draft) (e : Nat) (i : Nat) (h : Numbered s) :
    Numbered (State.placeCopy s d e i).1 := by
  unfold State.placeCopy
  (repeat' split) <;> simp +contextual (maxDischargeDepth := 30) [h]
@[simp] theorem num_overExperts {α : Type} {s : State} (d : Draft) (l : List (Nat × List Pair)) (f : State → Nat → Nat → List Pair → α) (h : Numbered s) :
    Numbered (State.overExperts s d l f).1 := by
  unfold State.overExperts
  refine foldl_keeps (p := fun (a : State × _) => Numbered a.1) (fun a x ha => ?_) _ h
  simp [ha]
@[simp] theorem num_fwdEffect {s : State} (d : Draft) (c : Cmd) (pairs : List (Nat × List Pair)) (bad : Nat) (h : Numbered s) :
    Numbered (State.fwdEffect s d c pairs bad).1 := by
  unfold State.fwdEffect
  (repeat' split) <;> simp +contextual (maxDischargeDepth := 30) [h]
@[simp] theorem num_doDraftFwd {s : State} (id : Nat) (h : Numbered s) :
    Numbered (State.doDraftFwd s id) := by
  unfold State.doDraftFwd
  (repeat' split) <;> simp +contextual (maxDischargeDepth := 30) [h]
@[simp] theorem num_bwdEffect {s : State} (d : Draft) (c : Cmd) (pairs : List (Nat × List Pair)) (bad : Nat) (h : Numbered s) :
    Numbered (State.bwdEffect s d c pairs bad).1 := by
  unfold State.bwdEffect
  (repeat' split) <;> simp +contextual (maxDischargeDepth := 30) [h]
@[simp] theorem num_performPart {s : State} (c : Cmd) (e : Effect) (h : Numbered s) :
    Numbered (State.performPart s c e).1 := by
  unfold State.performPart
  (repeat' split) <;> simp +contextual (maxDischargeDepth := 30) [h]
@[simp] theorem num_settleBwd {s : State} (t : Nat) (id : Nat) (h : Numbered s) :
    Numbered (State.settleBwd s t id) := by
  unfold State.settleBwd
  (repeat' split) <;> simp +contextual (maxDischargeDepth := 30) [h]
@[simp] theorem num_doDraftBwd {s : State} (id : Nat) (h : Numbered s) :
    Numbered (State.doDraftBwd s id) := by
  unfold State.doDraftBwd
  (repeat' split) <;> simp +contextual (maxDischargeDepth := 30) [h]
@[simp] theorem num_reduceExpert {s : State} (t : Nat) (e : Nat) (h : Numbered s) :
    Numbered (State.reduceExpert s t e) := by
  simp +contextual (maxDischargeDepth := 30) [State.reduceExpert, h]
  (repeat' split) <;> simp +contextual (maxDischargeDepth := 30) [h]
@[simp] theorem num_doDraftTransfer {s : State} (id : Nat) (h : Numbered s) :
    Numbered (State.doDraftTransfer s id) := by
  unfold State.doDraftTransfer
  (repeat' split) <;> simp +contextual (maxDischargeDepth := 30) [h]
@[simp] theorem num_takePlacements {s : State} (ctx : Nat) (h : Numbered s) :
    Numbered (State.takePlacements s ctx) := by
  unfold State.takePlacements
  refine num_foldl (fun t a ht => ?_) _ (by simp (maxDischargeDepth := 30) [h])
  try dsimp only
  (repeat' split) <;> simp (maxDischargeDepth := 30) [ht]
@[simp] theorem num_draftsLose {s : State} (gone : List Nat) (h : Numbered s) :
    Numbered (State.draftsLose s gone) := by
  simp +contextual (maxDischargeDepth := 30) [State.draftsLose, h]

/-! Opt -/

@[simp] theorem num_optOn {s : State} (c : Cmd) (us : List Nat) (h : Numbered s) :
    Numbered (State.optOn s c us) := by
  simp (maxDischargeDepth := 30) [State.optOn, h]
@[simp] theorem num_doOptUpdate {s : State} (id : Nat) (h : Numbered s) :
    Numbered (State.doOptUpdate s id) := by
  unfold State.doOptUpdate
  (repeat' split) <;> simp +contextual (maxDischargeDepth := 30) [h]

/-! FabMgmt -/

@[simp] theorem num_sendMgmt {s : State} (n : Nat) (t : PktType) (m : Mgmt) (h : Numbered s) :
    Numbered (State.sendMgmt s n t m) := by
  simp (maxDischargeDepth := 30) [State.sendMgmt, h]
@[simp] theorem num_flood {s : State} (t : PktType) (m : Mgmt) (skip : Option Nat) (h : Numbered s) :
    Numbered (State.flood s t m skip) := by
  simp +contextual (maxDischargeDepth := 30) [State.flood, h]
@[simp] theorem num_originate {s : State} (t : PktType) (seq : Nat) (target : Nat) (payload : List Byte) (h : Numbered s) :
    Numbered (State.originate s t seq target payload) := by
  simp +contextual (maxDischargeDepth := 30) [State.originate, h]
@[simp] theorem num_sendHello {s : State} (n : Nat) (h : Numbered s) :
    Numbered (State.sendHello s n) := by
  simp (maxDischargeDepth := 30) [State.sendHello, h]
@[simp] theorem num_nextRequest {s : State} (h : Numbered s) :
    Numbered (State.nextRequest s) := by
  simp (maxDischargeDepth := 30) [State.nextRequest, h]
@[simp] theorem num_sendJoin {s : State} (captain : Nat) (nbrs : List (Nat × Nat × Nat × Nat)) (h : Numbered s) :
    Numbered (State.sendJoin s captain nbrs) := by
  simp (maxDischargeDepth := 30) [State.sendJoin, h]
@[simp] theorem num_joinRoster {s : State} (r : Roster) (h : Numbered s) :
    Numbered (State.joinRoster s r) := by
  simp (maxDischargeDepth := 30) [State.joinRoster, h]
@[simp] theorem num_joinHeard {s : State} (captain : Nat) (h : Numbered s) :
    Numbered (State.joinHeard s captain) := by
  simp (maxDischargeDepth := 30) [State.joinHeard, h]
@[simp] theorem num_withSections {s : State} (r : Roster) (h : Numbered s) :
    Numbered (State.withSections s r).2 := by
  simp (maxDischargeDepth := 30) [State.withSections, h]
@[simp] theorem num_settlePair {s : State} (old : Roster) (r : Roster) (mine : Bool) (h : Numbered s) :
    Numbered (State.settlePair s old r mine) := by
  unfold State.settlePair
  extract_lets k0 k
  split
  · simp [h]
  split
  · exact h
  split
  · simp [h]
  extract_lets shown b parted f t
  have hb : Numbered b.2 := by simp only [b]; split <;> simp [h]
  have hf : Numbered t := by simp only [t, f]; split <;> simp [hb]
  (repeat' split) <;> first | exact hf | simp (maxDischargeDepth := 30) [hf] | (dsimp only; simp (maxDischargeDepth := 30) [hf])
@[simp] theorem num_remotesLose {s : State} (gone : List Nat) (h : Numbered s) :
    Numbered (State.remotesLose s gone) := by
  simp +contextual (maxDischargeDepth := 30) [State.remotesLose, h]
@[simp] theorem num_holdLost {s : State} (gone : List Nat) (h : Numbered s) :
    Numbered (State.holdLost s gone) := by
  simp +contextual (maxDischargeDepth := 30) [State.holdLost, h]
@[simp] theorem num_enact {s : State} (r : Roster) (h : Numbered s) :
    Numbered (State.enact s r) := by
  simp (maxDischargeDepth := 30) [State.enact, h]
@[simp] theorem num_installRoster {s : State} (r : Roster) (h : Numbered s) :
    Numbered (State.installRoster s r) := by
  simp (maxDischargeDepth := 30) [State.installRoster, h]
@[simp] theorem num_publish {s : State} (r : Roster) (h : Numbered s) :
    Numbered (State.publish s r) := by
  simp (maxDischargeDepth := 30) [State.publish, h]
@[simp] theorem num_fabOff {s : State} (h : Numbered s) :
    Numbered (State.fabOff s) := by
  simp (maxDischargeDepth := 30) [State.fabOff, h]
@[simp] theorem num_enterHold {s : State} (h : Numbered s) :
    Numbered (State.enterHold s) := by
  simp (maxDischargeDepth := 30) [State.enterHold, h]
@[simp] theorem num_leaveHold {s : State} (h : Numbered s) :
    Numbered (State.leaveHold s) := by
  simp (maxDischargeDepth := 30) [State.leaveHold, h]
@[simp] theorem num_settleReorient {s : State} (h : Numbered s) :
    Numbered (State.settleReorient s) := by
  unfold State.settleReorient
  (repeat' split) <;> simp +contextual (maxDischargeDepth := 30) [h]
@[simp] theorem num_startReorient {s : State} (h : Numbered s) :
    Numbered (State.startReorient s) := by
  simp (maxDischargeDepth := 30) [State.startReorient, h]
@[simp] theorem num_afterPublish {s : State} (merge : Bool) (h : Numbered s) :
    Numbered (State.afterPublish s merge) := by
  simp (maxDischargeDepth := 30) [State.afterPublish, h]
@[simp] theorem num_doInstallPhase {s : State} (h : Numbered s) :
    Numbered (State.doInstallPhase s) := by
  simp (maxDischargeDepth := 30) [State.doInstallPhase, h]
@[simp] theorem num_mgmtArrives {s : State} (n : Nat) (m : Mgmt) (f : State → State) (h : Numbered s) (hf : ∀ t, Numbered t → Numbered (f t)) :
    Numbered (State.mgmtArrives s n m f) := by
  simp (maxDischargeDepth := 30) [State.mgmtArrives, h, hf]
@[simp] theorem num_collectPart {s : State} (t : PktType) (m : Mgmt) (h : Numbered s) :
    Numbered (State.collectPart s t m).1 := by
  simp +contextual (maxDischargeDepth := 30) [State.collectPart, h]
  (repeat' split) <;> simp +contextual (maxDischargeDepth := 30) [h]
@[simp] theorem num_mgmtIn {s : State} (n : Nat) (t : PktType) (m : Mgmt) (f : State → List Byte → State) (h : Numbered s) (hf : ∀ t b, Numbered t → Numbered (f t b)) :
    Numbered (State.mgmtIn s n t m f) := by
  unfold State.mgmtIn
  refine num_mgmtArrives _ _ _ h (fun t ht => ?_)
  dsimp only; split
  · exact ht
  · split
    · refine hf _ _ ?_
      split <;> simp (maxDischargeDepth := 30) [ht]
    · split <;> simp (maxDischargeDepth := 30) [ht]
@[simp] theorem num_actOnLinks {s : State} (h : Numbered s) :
    Numbered (State.actOnLinks s) := by
  simp (maxDischargeDepth := 30) [State.actOnLinks, h]
@[simp] theorem num_unhear {s : State} (origin : Nat) (port : Nat) (h : Numbered s) :
    Numbered (State.unhear s origin port) := by
  simp (maxDischargeDepth := 30) [State.unhear, h]
@[simp] theorem num_takeLink {s : State} (origin : Nat) (w : Nat) (h : Numbered s) :
    Numbered (State.takeLink s origin w) := by
  simp (maxDischargeDepth := 30) [State.takeLink, h]
@[simp] theorem num_takeLinks {s : State} (origin : Nat) (b : List Byte) (h : Numbered s) :
    Numbered (State.takeLinks s origin b) := by
  simp +contextual (maxDischargeDepth := 30) [State.takeLinks, h]
@[simp] theorem num_reportLink {s : State} (n : Nat) (working : Bool) (h : Numbered s) :
    Numbered (State.reportLink s n working) := by
  simp (maxDischargeDepth := 30) [State.reportLink, h]
@[simp] theorem num_reportUnlisted {s : State} (h : Numbered s) :
    Numbered (State.reportUnlisted s) := by
  simp +contextual (maxDischargeDepth := 30) [State.reportUnlisted, h]
@[simp] theorem num_trainPort {s : State} (n : Nat) (h : Numbered s) :
    Numbered (State.trainPort s n) := by
  simp (maxDischargeDepth := 30) [State.trainPort, h]
@[simp] theorem num_trainPorts {s : State} (h : Numbered s) :
    Numbered (State.trainPorts s) := by
  simp +contextual (maxDischargeDepth := 30) [State.trainPorts, h]
@[simp] theorem num_doFabEnSet {s : State} (id : Nat) (h : Numbered s) :
    Numbered (State.doFabEnSet s id) := by
  simp (maxDischargeDepth := 30) [State.doFabEnSet, h]
@[simp] theorem num_resign {s : State} (h : Numbered s) :
    Numbered (State.resign s) := by
  simp (maxDischargeDepth := 30) [State.resign, h]
@[simp] theorem num_doFabEnClear {s : State} (id : Nat) (h : Numbered s) :
    Numbered (State.doFabEnClear s id) := by
  simp (maxDischargeDepth := 30) [State.doFabEnClear, h]
@[simp] theorem num_doPassSwap {s : State} (h : Numbered s) :
    Numbered (State.doPassSwap s) := by
  simp (maxDischargeDepth := 30) [State.doPassSwap, h]
@[simp] theorem num_doPortUp {s : State} (n : Nat) (lanes4 : Bool) (h : Numbered s) :
    Numbered (State.doPortUp s n lanes4) := by
  unfold State.doPortUp
  (repeat' split) <;> simp +contextual (maxDischargeDepth := 30) [h]
@[simp] theorem num_doPortDown {s : State} (n : Nat) (h : Numbered s) :
    Numbered (State.doPortDown s n) := by
  unfold State.doPortDown
  (repeat' split) <;> simp +contextual (maxDischargeDepth := 30) [h]
@[simp] theorem num_doPortRetry {s : State} (n : Nat) (h : Numbered s) :
    Numbered (State.doPortRetry s n) := by
  unfold State.doPortRetry
  (repeat' split) <;> simp +contextual (maxDischargeDepth := 30) [h]
@[simp] theorem num_doFlitError {s : State} (n : Nat) (intact : Bool) (h : Numbered s) :
    Numbered (State.doFlitError s n intact) := by
  simp (maxDischargeDepth := 30) [State.doFlitError, h]
@[simp] theorem num_portCable {s : State} (n : Nat) (connected : Bool) (h : Numbered s) :
    Numbered (State.portCable s n connected) := by
  simp (maxDischargeDepth := 30) [State.portCable, h]
@[simp] theorem num_mergeInto {s : State} (h : Numbered s) :
    Numbered (State.mergeInto s) := by
  simp (maxDischargeDepth := 30) [State.mergeInto, h]
@[simp] theorem num_doHello {s : State} (n : Nat) (m : Mgmt) (h : Numbered s) :
    Numbered (State.doHello s n m) := by
  unfold State.doHello
  refine num_mgmtArrives _ _ _ h (fun t ht => ?_)
  try dsimp only
  (repeat' split) <;> simp (maxDischargeDepth := 30) [ht]
@[simp] theorem num_doHeartbeat {s : State} (n : Nat) (m : Mgmt) (h : Numbered s) :
    Numbered (State.doHeartbeat s n m) := by
  simp (maxDischargeDepth := 30) [State.doHeartbeat, h]
@[simp] theorem num_takeFabCfg {s : State} (h : Numbered s) :
    Numbered (State.takeFabCfg s) := by
  simp (maxDischargeDepth := 30) [State.takeFabCfg, h]
@[simp] theorem num_doBeat {s : State} (h : Numbered s) :
    Numbered (State.doBeat s) := by
  simp +contextual (maxDischargeDepth := 30) [State.doBeat, h]
@[simp] theorem num_doBeatMiss {s : State} (n : Nat) (h : Numbered s) :
    Numbered (State.doBeatMiss s n) := by
  simp (maxDischargeDepth := 30) [State.doBeatMiss, h]
@[simp] theorem num_doFound {s : State} (h : Numbered s) :
    Numbered (State.doFound s) := by
  simp (maxDischargeDepth := 30) [State.doFound, h]
@[simp] theorem num_admitJoin {s : State} (origin : Nat) (entries : List Nat) (h : Numbered s) :
    Numbered (State.admitJoin s origin entries) := by
  simp +contextual (maxDischargeDepth := 30) [State.admitJoin, h]
  (repeat' split) <;> simp +contextual (maxDischargeDepth := 30) [h]
@[simp] theorem num_doJoin {s : State} (n : Nat) (m : Mgmt) (h : Numbered s) :
    Numbered (State.doJoin s n m) := by
  simp +contextual (maxDischargeDepth := 30) [State.doJoin, h]
@[simp] theorem num_doLeave {s : State} (n : Nat) (m : Mgmt) (h : Numbered s) :
    Numbered (State.doLeave s n m) := by
  simp +contextual (maxDischargeDepth := 30) [State.doLeave, h]
@[simp] theorem num_takeRoster {s : State} (r : Roster) (h : Numbered s) :
    Numbered (State.takeRoster s r) := by
  unfold State.takeRoster
  (repeat' split) <;> simp +contextual (maxDischargeDepth := 30) [h]
@[simp] theorem num_doMgmtResend {s : State} (n : Nat) (h : Numbered s) :
    Numbered (State.doMgmtResend s n) := by
  simp +contextual (maxDischargeDepth := 30) [State.doMgmtResend, h]

/-! Trust -/

@[simp] theorem num_identitySign {s : State} (body : List Byte) (h : Numbered s) :
    Numbered (State.identitySign s body).2 := by
  unfold State.identitySign
  split <;> exact num_of rfl rfl h
@[simp] theorem num_newNonce {s : State} (h : Numbered s) :
    Numbered (State.newNonce s) := by
  simp (maxDischargeDepth := 30) [State.newNonce, h]

/-! Keep -/

@[simp] theorem num_republish {s : State} (h : Numbered s) :
    Numbered (State.republish s) := by
  simp (maxDischargeDepth := 30) [State.republish, h]
@[simp] theorem num_doKeepPair {s : State} (id : Nat) (h : Numbered s) :
    Numbered (State.doKeepPair s id) := by
  simp +contextual (maxDischargeDepth := 30) [State.doKeepPair, h]
@[simp] theorem num_doKeepUnpair {s : State} (id : Nat) (h : Numbered s) :
    Numbered (State.doKeepUnpair s id) := by
  simp +contextual (maxDischargeDepth := 30) [State.doKeepUnpair, h]
@[simp] theorem num_doDistRegister {s : State} (id : Nat) (h : Numbered s) :
    Numbered (State.doDistRegister s id) := by
  unfold State.doDistRegister
  (repeat' split) <;> simp +contextual (maxDischargeDepth := 30) [h]
@[simp] theorem num_doKeepCheck {s : State} (id : Nat) (peer : List (BitVec 256)) (h : Numbered s) :
    Numbered (State.doKeepCheck s id peer) := by
  unfold State.doKeepCheck
  refine num_runChecked _ _ _ _ h (fun t c ht => ?_)
  try dsimp only
  (repeat' split) <;> simp (maxDischargeDepth := 30) [ht]
@[simp] theorem num_doKeepRestore {s : State} (id : Nat) (peer : List PeerPiece) (h : Numbered s) :
    Numbered (State.doKeepRestore s id peer) := by
  unfold State.doKeepRestore
  (repeat' split) <;> simp +contextual (maxDischargeDepth := 30) [h]

/-! Save -/

@[simp] theorem num_askParts {s : State} (id : Nat) (first : Nat) (addr : Nat) (total : Nat) (h : Numbered s) :
    Numbered (State.askParts s id first addr total) := by
  simp +contextual (maxDischargeDepth := 30) [State.askParts, h]
@[simp] theorem num_saveActs {s : State} (c : Cmd) (h : Numbered s) :
    Numbered (State.saveActs s c) := by
  simp (maxDischargeDepth := 30) [State.saveActs, h]
@[simp] theorem num_saveStepNo {s : State} (c : Cmd) (h : Numbered s) :
    Numbered (State.saveStepNo s c).2 := by
  unfold State.saveStepNo
  (repeat' split) <;> simp +contextual (maxDischargeDepth := 30) [h]
@[simp] theorem num_saveSend {s : State} (c : Cmd) (bufs : List (Nat × Nat)) (h : Numbered s) :
    Numbered (State.saveSend s c bufs) := by
  simp +contextual (maxDischargeDepth := 30) [State.saveSend, h]
  (repeat' split) <;> simp +contextual (maxDischargeDepth := 30) [h]
@[simp] theorem num_saveBegin {s : State} (c : Cmd) (h : Numbered s) :
    Numbered (State.saveBegin s c) := by
  simp (maxDischargeDepth := 30) [State.saveBegin, h]
@[simp] theorem num_saveOn {s : State} (c : Cmd) (h : Numbered s) :
    Numbered (State.saveOn s c) := by
  simp +contextual (maxDischargeDepth := 30) [State.saveOn, h]
  (repeat' split) <;> simp +contextual (maxDischargeDepth := 30) [h]
@[simp] theorem num_doSaveShard {s : State} (id : Nat) (h : Numbered s) :
    Numbered (State.doSaveShard s id) := by
  unfold State.doSaveShard
  (repeat' split) <;> simp +contextual (maxDischargeDepth := 30) [h]
@[simp] theorem num_saveAcked {s : State} (c : Cmd) (part : Nat) (h : Numbered s) :
    Numbered (State.saveAcked s c part) := by
  simp (maxDischargeDepth := 30) [State.saveAcked, h]
@[simp] theorem num_restoreBlocks {s : State} (ps : List (Nat × Nat)) (data : List Byte) (marks : Nat → Bool) (h : Numbered s) :
    Numbered (State.restoreBlocks s ps data marks) := by
  simp (maxDischargeDepth := 30) [State.restoreBlocks, h]
@[simp] theorem num_scramble {s : State} (ps : List (Nat × Nat)) (total : Nat) (h : Numbered s) :
    Numbered (State.scramble s ps total) := by
  simp (maxDischargeDepth := 30) [State.scramble, h]
@[simp] theorem num_restoreOn {s : State} (c : Cmd) (h : Numbered s) :
    Numbered (State.restoreOn s c) := by
  have hp : Numbered ((s.askParts c.id manifestPart c.saveManifest 2676).askParts c.id 0 c.saveBuflist (16 * c.saveBufs)) := by
    simp [h]
  unfold State.restoreOn
  dsimp only
  split
  · split
    · exact num_finish _ _ hp
    split
    · exact num_finish _ _ hp
    split
    · exact num_finish _ _ hp
    split
    · refine num_foldl (fun u k hu => ?_) _ hp
      split <;> simp [hu]
    split
    · refine num_finish _ _ (num_scramble _ _ (num_foldl (fun u k hu => ?_) _ hp))
      split <;> simp [hu]
    · refine num_perform _ _ (num_foldl (fun u k hu => ?_) _ hp)
      split <;> simp [hu]
  · exact hp
@[simp] theorem num_doSaveRestore {s : State} (id : Nat) (h : Numbered s) :
    Numbered (State.doSaveRestore s id) := by
  unfold State.doSaveRestore
  (repeat' split) <;> simp +contextual (maxDischargeDepth := 30) [h]
@[simp] theorem num_saveBroken {s : State} (c : Cmd) (flt : Nat) (h : Numbered s) :
    Numbered (State.saveBroken s c flt) := by
  simp (maxDischargeDepth := 30) [State.saveBroken, h]

/-! Queue -/

@[simp] theorem num_detachFetches {s : State} (n : Nat) (h : Numbered s) :
    Numbered (State.detachFetches s n) := by
  simp (maxDischargeDepth := 30) [State.detachFetches, h]
@[simp] theorem num_doSqCfgWrite {s : State} (n : Nat) (off : Nat) (len : Nat) (data : Word64) (h : Numbered s) :
    Numbered (State.doSqCfgWrite s n off len data) := by
  simp (maxDischargeDepth := 30) [State.doSqCfgWrite, h]
@[simp] theorem num_doCqCfgWrite {s : State} (n : Nat) (off : Nat) (len : Nat) (data : Word64) (h : Numbered s) :
    Numbered (State.doCqCfgWrite s n off len data) := by
  simp (maxDischargeDepth := 30) [State.doCqCfgWrite, h]
@[simp] theorem num_doCqHeadWrite {s : State} (n : Nat) (off : Nat) (len : Nat) (data : Word64) (h : Numbered s) :
    Numbered (State.doCqHeadWrite s n off len data) := by
  simp (maxDischargeDepth := 30) [State.doCqHeadWrite, h]
@[simp] theorem num_doDoorbell {s : State} (n : Nat) (data : Word64) (h : Numbered s) :
    Numbered (State.doDoorbell s n data) := by
  simp (maxDischargeDepth := 30) [State.doDoorbell, h]
@[simp] theorem num_doSqFetch {s : State} (n : Nat) (h : Numbered s) :
    Numbered (State.doSqFetch s n) := by
  simp (maxDischargeDepth := 30) [State.doSqFetch, h]
@[simp] theorem num_fetched {s : State} (n : Nat) (count : Nat) (data : List Byte) (h : Numbered s) :
    Numbered (State.fetched s n count data) := by
  simp (maxDischargeDepth := 30) [State.fetched, h]
@[simp] theorem num_fetchRefused {s : State} (n : Nat) (h : Numbered s) :
    Numbered (State.fetchRefused s n) := by
  simp (maxDischargeDepth := 30) [State.fetchRefused, h]
@[simp] theorem num_admitHost {s : State} (n : Nat) (p : List Byte) (h : Numbered s) :
    Numbered (State.admitHost s n p) := by
  unfold State.admitHost
  refine num_numberColl _ ?_
  exact numb_snoc (l := s.cmds) (n := s.nextId) h rfl
@[simp] theorem num_rejectHost {s : State} (n : Nat) (p : List Byte) (r : Rej) (h : Numbered s) :
    Numbered (State.rejectHost s n p r) := by
  unfold State.rejectHost
  refine num_endHost _ _ ?_
  exact numb_snoc (l := s.cmds) (n := s.nextId) h rfl
@[simp] theorem num_doCommandAdmission {s : State} (n : Nat) (h : Numbered s) :
    Numbered (State.doCommandAdmission s n) := by
  unfold State.doCommandAdmission
  (repeat' split) <;> simp +contextual (maxDischargeDepth := 30) [h]
@[simp] theorem num_writeCompletion {s : State} (n : Nat) (id : Nat) (h : Numbered s) :
    Numbered (State.writeCompletion s n id) := by
  unfold State.writeCompletion
  (repeat' split) <;> simp +contextual (maxDischargeDepth := 30) [h]
@[simp] theorem num_doCompletionWrite {s : State} (id : Nat) (h : Numbered s) :
    Numbered (State.doCompletionWrite s id) := by
  unfold State.doCompletionWrite
  (repeat' split) <;> simp +contextual (maxDischargeDepth := 30) [h]
@[simp] theorem num_flushHeld {s : State} (n : Nat) (x2 : Nat) (h : Numbered s) :
    Numbered (State.flushHeld s n x2) := by
  induction x2 generalizing s with
  | zero => exact h
  | succ k ih =>
    unfold State.flushHeld; split
    · exact h
    · split
      · exact ih (num_writeCompletion _ _ h)
      · exact h
@[simp] theorem num_completionAcked {s : State} (id : Nat) (h : Numbered s) :
    Numbered (State.completionAcked s id) := by
  unfold State.completionAcked
  (repeat' split) <;> simp +contextual (maxDischargeDepth := 30) [h]
@[simp] theorem num_completionLost {s : State} (id : Nat) (h : Numbered s) :
    Numbered (State.completionLost s id) := by
  unfold State.completionLost
  (repeat' split) <;> simp +contextual (maxDischargeDepth := 30) [h]

/-! Power -/

@[simp] theorem num_cutOff {s : State} (h : Numbered s) :
    Numbered (State.cutOff s) := by
  simp +contextual (maxDischargeDepth := 30) [State.cutOff, h]
@[simp] theorem num_resetTo {s : State} (mem : Mem) (p : Power) (h : Numbered s) :
    Numbered (State.resetTo s mem p) := by
  exact numb_nil _
@[simp] theorem num_noteMargin {s : State} (h : Numbered s) :
    Numbered (State.noteMargin s) := by
  simp (maxDischargeDepth := 30) [State.noteMargin, h]
@[simp] theorem num_checkMargin {s : State} (h : Numbered s) :
    Numbered (State.checkMargin s) := by
  simp (maxDischargeDepth := 30) [State.checkMargin, h]
@[simp] theorem num_moduleReset {s : State} (x : Straps) (h : Numbered s) :
    Numbered (State.moduleReset s x) := by
  simp (maxDischargeDepth := 30) [State.moduleReset, h]
@[simp] theorem num_goDown {s : State} (cause : OffCause) (domain : Nat) (on : Bool) (h : Numbered s) :
    Numbered (State.goDown s cause domain on) := by
  simp (maxDischargeDepth := 30) [State.goDown, h]
@[simp] theorem num_powerFail {s : State} (cause : OffCause) (domain : Nat) (h : Numbered s) :
    Numbered (State.powerFail s cause domain) := by
  simp (maxDischargeDepth := 30) [State.powerFail, h]
@[simp] theorem num_aoDown {s : State} (h : Numbered s) :
    Numbered (State.aoDown s) := by
  simp (maxDischargeDepth := 30) [State.aoDown, h]
@[simp] theorem num_doVinChange {s : State} (mv : Nat) (us : Nat) (h : Numbered s) :
    Numbered (State.doVinChange s mv us) := by
  simp (maxDischargeDepth := 30) [State.doVinChange, h]
@[simp] theorem num_refPresent {s : State} (h : Numbered s) :
    Numbered (State.refPresent s).2 := by
  unfold State.refPresent
  (repeat' split) <;> simp +contextual (maxDischargeDepth := 30) [h]
@[simp] theorem num_doPowerUp {s : State} (x : Straps) (seated : Bool) (mv : Nat) (h : Numbered s) :
    Numbered (State.doPowerUp s x seated mv) := by
  simp (maxDischargeDepth := 30) [State.doPowerUp, h]
@[simp] theorem num_doResetN {s : State} (ns : Nat) (x : Straps) (h : Numbered s) :
    Numbered (State.doResetN s ns x) := by
  unfold State.doResetN
  (repeat' split) <;> simp +contextual (maxDischargeDepth := 30) [h]
@[simp] theorem num_trip {s : State} (h : Numbered s) :
    Numbered (State.trip s) := by
  simp (maxDischargeDepth := 30) [State.trip, h]
@[simp] theorem num_chooseStep {s : State} (h : Numbered s) :
    Numbered (State.chooseStep s) := by
  simp (maxDischargeDepth := 30) [State.chooseStep, h]
@[simp] theorem num_settleCaps {s : State} (h : Numbered s) :
    Numbered (State.settleCaps s) := by
  simp +contextual (maxDischargeDepth := 30) [State.settleCaps, h]
@[simp] theorem num_doInterval {s : State} (pm : Nat) (h : Numbered s) :
    Numbered (State.doInterval s pm) := by
  simp (maxDischargeDepth := 30) [State.doInterval, h]
@[simp] theorem num_report {s : State} (n : Nat) (core : Nat) (cls : Nat) (h : Numbered s) :
    Numbered (State.report s n core cls) := by
  simp (maxDischargeDepth := 30) [State.report, h]
@[simp] theorem num_reportCores {s : State} (c : Cmd) (h : Numbered s) :
    Numbered (State.reportCores s c) := by
  simp +contextual (maxDischargeDepth := 30) [State.reportCores, h]
@[simp] theorem num_doClass {s : State} (n : Nat) (core : Nat) (cls : Nat) (h : Numbered s) :
    Numbered (State.doClass s n core cls) := by
  simp (maxDischargeDepth := 30) [State.doClass, h]
@[simp] theorem num_doFastClamp {s : State} (mw : Nat) (ma : Nat) (mv : Nat) (h : Numbered s) :
    Numbered (State.doFastClamp s mw ma mv) := by
  simp (maxDischargeDepth := 30) [State.doFastClamp, h]
@[simp] theorem num_writePwrCfg {s : State} (w : Word64) (h : Numbered s) :
    Numbered (State.writePwrCfg s w) := by
  simp (maxDischargeDepth := 30) [State.writePwrCfg, h]
@[simp] theorem num_doPowerCapSet {s : State} (id : Nat) (h : Numbered s) :
    Numbered (State.doPowerCapSet s id) := by
  unfold State.doPowerCapSet
  (repeat' split) <;> simp +contextual (maxDischargeDepth := 30) [h]
@[simp] theorem num_settleVotes {s : State} (h : Numbered s) :
    Numbered (State.settleVotes s) := by
  unfold State.settleVotes
  refine num_foldl (fun t a ht => ?_) _ (by simp (maxDischargeDepth := 30) [h])
  try dsimp only
  (repeat' split) <;> simp (maxDischargeDepth := 30) [ht]
@[simp] theorem num_clusterLoses {s : State} (n : Nat) (h : Numbered s) :
    Numbered (State.clusterLoses s n) := by
  simp (maxDischargeDepth := 30) [State.clusterLoses, h]
@[simp] theorem num_groupDown {s : State} (g : Nat) (h : Numbered s) :
    Numbered (State.groupDown s g) := by
  simp +contextual (maxDischargeDepth := 30) [State.groupDown, h]
@[simp] theorem num_powerDown {s : State} (c : Nat) (st : DomSt) (h : Numbered s) :
    Numbered (State.powerDown s c st) := by
  simp (maxDischargeDepth := 30) [State.powerDown, h]
@[simp] theorem num_settleDomain {s : State} (c : Nat) (h : Numbered s) :
    Numbered (State.settleDomain s c) := by
  simp +contextual (maxDischargeDepth := 30) [State.settleDomain, h]
  (repeat' split) <;> simp +contextual (maxDischargeDepth := 30) [h]
@[simp] theorem num_startWake {s : State} (c : Nat) (h : Numbered s) :
    Numbered (State.startWake s c) := by
  simp (maxDischargeDepth := 30) [State.startWake, h]
@[simp] theorem num_doPowerVote {s : State} (id : Nat) (h : Numbered s) :
    Numbered (State.doPowerVote s id) := by
  unfold State.doPowerVote
  (repeat' split) <;> simp +contextual (maxDischargeDepth := 30) [h]
@[simp] theorem num_doDomainEntry {s : State} (c : Nat) (h : Numbered s) :
    Numbered (State.doDomainEntry s c) := by
  unfold State.doDomainEntry
  (repeat' split) <;> simp +contextual (maxDischargeDepth := 30) [h]
@[simp] theorem num_broughtUp {s : State} (c : Nat) (was : DomSt) (h : Numbered s) :
    Numbered (State.broughtUp s c was) := by
  simp +contextual (maxDischargeDepth := 30) [State.broughtUp, h]
@[simp] theorem num_doDomainWake {s : State} (c : Nat) (h : Numbered s) :
    Numbered (State.doDomainWake s c) := by
  simp (maxDischargeDepth := 30) [State.doDomainWake, h]
@[simp] theorem num_doPrivilegedWake {s : State} (c : Nat) (timeout : Option WakeStep) (h : Numbered s) :
    Numbered (State.doPrivilegedWake s c timeout) := by
  unfold State.doPrivilegedWake
  (repeat' split) <;> simp +contextual (maxDischargeDepth := 30) [h]
@[simp] theorem num_doParentRelease {s : State} (c : Nat) (h : Numbered s) :
    Numbered (State.doParentRelease s c) := by
  simp (maxDischargeDepth := 30) [State.doParentRelease, h]
@[simp] theorem num_doDimmChange {s : State} (n : Nat) (d : Option Dimm) (h : Numbered s) :
    Numbered (State.doDimmChange s n d) := by
  simp (maxDischargeDepth := 30) [State.doDimmChange, h]

/-! Stop -/

@[simp] theorem num_closeAfter {s : State} (c : Cmd) (h : Numbered s) :
    Numbered (State.closeAfter s c) := by
  simp (maxDischargeDepth := 30) [State.closeAfter, h]
@[simp] theorem num_cutShort {s : State} (c : Cmd) (st : Nat) (h : Numbered s) :
    Numbered (State.cutShort s c st) := by
  simp (maxDischargeDepth := 30) [State.cutShort, h]
@[simp] theorem num_retireDrafts {s : State} (ctx : Nat) (h : Numbered s) :
    Numbered (State.retireDrafts s ctx) := by
  simp +contextual (maxDischargeDepth := 30) [State.retireDrafts, h]
@[simp] theorem num_cancelCmd {s : State} (id : Nat) (h : Numbered s) :
    Numbered (State.cancelCmd s id) := by
  unfold State.cancelCmd
  (repeat' split) <;> simp +contextual (maxDischargeDepth := 30) [h]
@[simp] theorem num_stopPlaybook {s : State} (n : Nat) (byCancel : Bool) (h : Numbered s) :
    Numbered (State.stopPlaybook s n byCancel) := by
  simp +contextual (maxDischargeDepth := 30) [State.stopPlaybook, h]
@[simp] theorem num_doPlaybookStop {s : State} (id : Nat) (h : Numbered s) :
    Numbered (State.doPlaybookStop s id) := by
  simp +contextual (maxDischargeDepth := 30) [State.doPlaybookStop, h]
@[simp] theorem num_cancelAll {s : State} (id : Nat) (p : Cmd → Bool) (h : Numbered s) :
    Numbered (State.cancelAll s id p).1 := by
  simp +contextual (maxDischargeDepth := 30) [State.cancelAll, h]
@[simp] theorem num_awaitAll {s : State} (id : Nat) (ids : List Nat) (count : Nat) (h : Numbered s) :
    Numbered (State.awaitAll s id ids count) := by
  simp (maxDischargeDepth := 30) [State.awaitAll, h]
@[simp] theorem num_doCancel {s : State} (id : Nat) (h : Numbered s) :
    Numbered (State.doCancel s id) := by
  simp +contextual (maxDischargeDepth := 30) [State.doCancel, h]
@[simp] theorem num_clearContext {s : State} (x : Nat) (h : Numbered s) :
    Numbered (State.clearContext s x) := by
  simp (maxDischargeDepth := 30) [State.clearContext, h]
@[simp] theorem num_stopQueues {s : State} (x : Nat) (h : Numbered s) :
    Numbered (State.stopQueues s x) := by
  simp (maxDischargeDepth := 30) [State.stopQueues, h]
@[simp] theorem num_destroyContext {s : State} (id : Nat) (x : Nat) (h : Numbered s) :
    Numbered (State.destroyContext s id x) := by
  simp +contextual (maxDischargeDepth := 30) [State.destroyContext, h]
@[simp] theorem num_doCtxDestroy {s : State} (id : Nat) (h : Numbered s) :
    Numbered (State.doCtxDestroy s id) := by
  unfold State.doCtxDestroy
  (repeat' split) <;> simp +contextual (maxDischargeDepth := 30) [h]
@[simp] theorem num_doDraftCancel {s : State} (id : Nat) (h : Numbered s) :
    Numbered (State.doDraftCancel s id) := by
  simp +contextual (maxDischargeDepth := 30) [State.doDraftCancel, h]
@[simp] theorem num_flushCq {s : State} (n : Nat) (x2 : Nat) (h : Numbered s) :
    Numbered (State.flushCq s n x2) := by
  induction x2 generalizing s with
  | zero => exact h
  | succ k ih =>
    unfold State.flushCq; split
    · exact h
    · split
      · exact ih (num_writeCompletion _ _ h)
      · exact h
@[simp] theorem num_flushAll {s : State} (h : Numbered s) :
    Numbered (State.flushAll s) := by
  simp +contextual (maxDischargeDepth := 30) [State.flushAll, h]

/-! Errors -/

@[simp] theorem num_recordBench {s : State} (e : Repair) (h : Numbered s) :
    Numbered (State.recordBench s e) := by
  simp (maxDischargeDepth := 30) [State.recordBench, h]
@[simp] theorem num_benchCore {s : State} (n : Nat) (i : Nat) (h : Numbered s) :
    Numbered (State.benchCore s n i) := by
  simp (maxDischargeDepth := 30) [State.benchCore, h]
@[simp] theorem num_relocate {s : State} (n : Nat) (i : Nat) (id : Nat) (h : Numbered s) :
    Numbered (State.relocate s n i id) := by
  simp +contextual (maxDischargeDepth := 30) [State.relocate, h]
  (repeat' split) <;> simp +contextual (maxDischargeDepth := 30) [h]
@[simp] theorem num_markFailing {s : State} (n : Nat) (i : Nat) (h : Numbered s) :
    Numbered (State.markFailing s n i) := by
  simp +contextual (maxDischargeDepth := 30) [State.markFailing, h]
@[simp] theorem num_benchAtBoundary {s : State} (n : Nat) (i : Nat) (h : Numbered s) :
    Numbered (State.benchAtBoundary s n i) := by
  simp (maxDischargeDepth := 30) [State.benchAtBoundary, h]
@[simp] theorem num_endHw {s : State} (id : Nat) (h : Numbered s) :
    Numbered (State.endHw s id) := by
  unfold State.endHw
  (repeat' split) <;> simp +contextual (maxDischargeDepth := 30) [h]
@[simp] theorem num_doResidue {s : State} (c : CoreRef) (again : Bool) (h : Numbered s) :
    Numbered (State.doResidue s c again) := by
  simp (maxDischargeDepth := 30) [State.doResidue, h]
@[simp] theorem num_poisonStore {s : State} (n : Nat) (i : Nat) (h : Numbered s) :
    Numbered (State.poisonStore s n i) := by
  simp +contextual (maxDischargeDepth := 30) [State.poisonStore, h]
  (repeat' split) <;> simp +contextual (maxDischargeDepth := 30) [h]
@[simp] theorem num_poisonPool {s : State} (n : Nat) (h : Numbered s) :
    Numbered (State.poisonPool s n) := by
  simp (maxDischargeDepth := 30) [State.poisonPool, h]
@[simp] theorem num_poisonBuffer {s : State} (n : Nat) (off : Nat) (h : Numbered s) :
    Numbered (State.poisonBuffer s n off) := by
  simp (maxDischargeDepth := 30) [State.poisonBuffer, h]
@[simp] theorem num_doSramUe {s : State} (place : SramPlace) (o : SramOutcome) (h : Numbered s) :
    Numbered (State.doSramUe s place o) := by
  unfold State.doSramUe
  (repeat' split) <;> simp +contextual (maxDischargeDepth := 30) [h]
@[simp] theorem num_restartShare (c : CoreRef) {s : State} (id : Nat) (h : Numbered s) :
    Numbered (State.restartShare c s id) := by
  simp (maxDischargeDepth := 30) [State.restartShare, h]
@[simp] theorem num_doCoreFailing {s : State} (c : CoreRef) (ids : List Nat) (h : Numbered s) :
    Numbered (State.doCoreFailing s c ids) := by
  simp +contextual (maxDischargeDepth := 30) [State.doCoreFailing, h]
@[simp] theorem num_doCoreBench {s : State} (c : CoreRef) (h : Numbered s) :
    Numbered (State.doCoreBench s c) := by
  simp (maxDischargeDepth := 30) [State.doCoreBench, h]
@[simp] theorem num_doDlink {s : State} (a : Nat) (b : Nat) (intact : Bool) (retrained : Bool) (ids : List Nat) (h : Numbered s) :
    Numbered (State.doDlink s a b intact retrained ids) := by
  simp +contextual (maxDischargeDepth := 30) [State.doDlink, h]

/-! Regs -/

@[simp] theorem num_clearW1c {s : State} (r : Reg) (m : Nat) (h : Numbered s) :
    Numbered (State.clearW1c s r m) := by
  unfold State.clearW1c
  (repeat' split) <;> simp +contextual (maxDischargeDepth := 30) [h]
@[simp] theorem num_clearAllSticky {s : State} (h : Numbered s) :
    Numbered (State.clearAllSticky s) := by
  simp +contextual (maxDischargeDepth := 30) [State.clearAllSticky, h]
@[simp] theorem num_doClearSticky {s : State} (id : Nat) (h : Numbered s) :
    Numbered (State.doClearSticky s id) := by
  unfold State.doClearSticky
  refine num_runChecked _ _ _ _ h (fun t c ht => ?_)
  try dsimp only
  (repeat' split) <;> simp (maxDischargeDepth := 30) [ht]
@[simp] theorem num_clearCtrs {s : State} (l : List Ctr) (h : Numbered s) :
    Numbered (State.clearCtrs s l) := by
  simp +contextual (maxDischargeDepth := 30) [State.clearCtrs, h]
@[simp] theorem num_clearSeqCtrs {s : State} (h : Numbered s) :
    Numbered (State.clearSeqCtrs s) := by
  simp (maxDischargeDepth := 30) [State.clearSeqCtrs, h]
@[simp] theorem num_clearMemCtrs {s : State} (h : Numbered s) :
    Numbered (State.clearMemCtrs s) := by
  simp (maxDischargeDepth := 30) [State.clearMemCtrs, h]
@[simp] theorem num_clearGroups {s : State} (m : Nat) (h : Numbered s) :
    Numbered (State.clearGroups s m) := by
  simp (maxDischargeDepth := 30) [State.clearGroups, h]
@[simp] theorem num_writeCluster {s : State} (n : Nat) (k : Nat) (w : Word64) (h : Numbered s) :
    Numbered (State.writeCluster s n k w) := by
  simp (maxDischargeDepth := 30) [State.writeCluster, h]
@[simp] theorem num_writePbCfg {s : State} (n : Nat) (w : Word64) (h : Numbered s) :
    Numbered (State.writePbCfg s n w) := by
  simp (maxDischargeDepth := 30) [State.writePbCfg, h]
@[simp] theorem num_writeFabCfg {s : State} (w : Word64) (h : Numbered s) :
    Numbered (State.writeFabCfg s w) := by
  simp (maxDischargeDepth := 30) [State.writeFabCfg, h]
@[simp] theorem num_writeFabCtrl {s : State} (w : Nat) (h : Numbered s) :
    Numbered (State.writeFabCtrl s w) := by
  simp (maxDischargeDepth := 30) [State.writeFabCtrl, h]
@[simp] theorem num_writePass {s : State} (d : Nat) (k : Nat) (w : Nat) (h : Numbered s) :
    Numbered (State.writePass s d k w) := by
  simp (maxDischargeDepth := 30) [State.writePass, h]
@[simp] theorem num_regWrite {s : State} (r : Reg) (m : Nat) (v : Nat) (go : State → Reg → State) (h : Numbered s) (hgo : ∀ t r, Numbered t → Numbered (go t r)) :
    Numbered (State.regWrite s r m v go) := by
  unfold State.regWrite
  (repeat' split) <;> simp +contextual (maxDischargeDepth := 30) [h, hgo]

/-! Referee -/

@[simp] theorem num_replaceRow {s : State} (a : Nat) (h : Numbered s) :
    Numbered (State.replaceRow s a) := by
  simp (maxDischargeDepth := 30) [State.replaceRow, h]
@[simp] theorem num_applyRepair {s : State} (e : Repair) (h : Numbered s) :
    Numbered (State.applyRepair s e) := by
  unfold State.applyRepair
  (repeat' split) <;> simp +contextual (maxDischargeDepth := 30) [h]
@[simp] theorem num_loadRepairs {s : State} (h : Numbered s) :
    Numbered (State.loadRepairs s) := by
  unfold State.loadRepairs
  (repeat' split) <;> simp +contextual (maxDischargeDepth := 30) [h]
@[simp] theorem num_wakeAll {s : State} (h : Numbered s) :
    Numbered (State.wakeAll s) := by
  simp (maxDischargeDepth := 30) [State.wakeAll, h]
@[simp] theorem num_trainLink {s : State} (h : Numbered s) :
    Numbered (State.trainLink s) := by
  simp (maxDischargeDepth := 30) [State.trainLink, h]
@[simp] theorem num_doBoot {s : State} (h : Numbered s) :
    Numbered (State.doBoot s) := by
  simp (maxDischargeDepth := 30) [State.doBoot, h]
@[simp] theorem num_recFail {s : State} (n : Nat) (h : Numbered s) :
    Numbered (State.recFail s n) := by
  simp (maxDischargeDepth := 30) [State.recFail, h]
@[simp] theorem num_recAsk {s : State} (off : Nat) (h : Numbered s) :
    Numbered (State.recAsk s off) := by
  simp (maxDischargeDepth := 30) [State.recAsk, h]
@[simp] theorem num_selfReset {s : State} (h : Numbered s) :
    Numbered (State.selfReset s) := by
  simp (maxDischargeDepth := 30) [State.selfReset, h]
theorem num_flashWrite {s : State} (f : Flash → Flash) (go : State → State)
    (hg : ∀ t, Numbered t → Numbered (go t)) (h : Numbered s) : Numbered (State.flashWrite s f go) := by
  unfold State.flashWrite; dsimp only; split
  · simp (maxDischargeDepth := 30) [h]
  · exact hg _ (by simp (maxDischargeDepth := 30) [h])
@[simp] theorem num_recDone {s : State} (h : Numbered s) :
    Numbered (State.recDone s) := by
  unfold State.recDone; split
  · simp (maxDischargeDepth := 30) [h]
  · exact num_flashWrite _ _ (fun t ht => num_selfReset ht) h
@[simp] theorem num_recNext {s : State} (h : Numbered s) :
    Numbered (State.recNext s) := by
  simp (maxDischargeDepth := 30) [State.recNext, h]
@[simp] theorem num_recData {s : State} (off : Nat) (data : List Byte) (h : Numbered s) :
    Numbered (State.recData s off data) := by
  unfold State.recData
  (repeat' split) <;> first
    | exact num_flashWrite _ _ (fun t ht => by simp (maxDischargeDepth := 30) [ht]) h
    | simp (maxDischargeDepth := 30) [h]
@[simp] theorem num_recRefused {s : State} (h : Numbered s) :
    Numbered (State.recRefused s) := by
  simp (maxDischargeDepth := 30) [State.recRefused, h]
@[simp] theorem num_doRecGo {s : State} (h : Numbered s) :
    Numbered (State.doRecGo s) := by
  simp (maxDischargeDepth := 30) [State.doRecGo, h]
@[simp] theorem num_doPeerLoad {s : State} (h : Numbered s) :
    Numbered (State.doPeerLoad s) := by
  simp (maxDischargeDepth := 30) [State.doPeerLoad, h]
@[simp] theorem num_postCluster {s : State} (rs : List (Nat × CoreTest)) (bad : BitVec 8) (n : Nat) (h : Numbered s) :
    Numbered (State.postCluster s rs bad n) := by
  simp +contextual (maxDischargeDepth := 30) [State.postCluster, h]
@[simp] theorem num_doPost {s : State} (rs : List (Nat × CoreTest)) (bad : BitVec 8) (h : Numbered s) :
    Numbered (State.doPost s rs bad) := by
  simp +contextual (maxDischargeDepth := 30) [State.doPost, h]
@[simp] theorem num_store {s : State} (a : Nat) (b : List Byte) (h : Numbered s) :
    Numbered (State.store s a b) := by
  simp (maxDischargeDepth := 30) [State.store, h]
@[simp] theorem num_checkCore {s : State} (rs : List (Nat × CoreTest)) (result : Nat) (n : Nat) (i : Nat) (h : Numbered s) :
    Numbered (State.checkCore s rs result n i) := by
  simp (maxDischargeDepth := 30) [State.checkCore, h]
@[simp] theorem num_doBenchCheck {s : State} (id : Nat) (rs : List (Nat × CoreTest)) (h : Numbered s) :
    Numbered (State.doBenchCheck s id rs) := by
  simp +contextual (maxDischargeDepth := 30) [State.doBenchCheck, h]
@[simp] theorem num_doSelfTest {s : State} (id : Nat) (t : CoreTest) (h : Numbered s) :
    Numbered (State.doSelfTest s id t) := by
  simp +contextual (maxDischargeDepth := 30) [State.doSelfTest, h]
@[simp] theorem num_unbench {s : State} (e : Repair) (h : Numbered s) :
    Numbered (State.unbench s e) := by
  simp (maxDischargeDepth := 30) [State.unbench, h]
@[simp] theorem num_setRepairs {s : State} (f : List Repair → List Repair) (h : Numbered s) :
    Numbered (State.setRepairs s f) := by
  simp (maxDischargeDepth := 30) [State.setRepairs, h]
@[simp] theorem num_doRepairSoft {s : State} (id : Nat) (spare : Bool) (h : Numbered s) :
    Numbered (State.doRepairSoft s id spare) := by
  simp +contextual (maxDischargeDepth := 30) [State.doRepairSoft, h]
@[simp] theorem num_checkAuth {s : State} (c : Cmd) (off : Nat) (h : Numbered s) :
    Numbered (State.checkAuth s c off).2 := by
  simp (maxDischargeDepth := 30) [State.checkAuth, h]
@[simp] theorem num_doRepairFuse {s : State} (id : Nat) (readBackOk : Bool) (h : Numbered s) :
    Numbered (State.doRepairFuse s id readBackOk) := by
  unfold State.doRepairFuse
  refine num_runChecked _ _ _ _ h (fun t c ht => ?_)
  try dsimp only
  (repeat' split) <;> simp (maxDischargeDepth := 30) [ht]
@[simp] theorem num_doDiagRoster {s : State} (id : Nat) (h : Numbered s) :
    Numbered (State.doDiagRoster s id) := by
  simp +contextual (maxDischargeDepth := 30) [State.doDiagRoster, h]
@[simp] theorem num_attestOutput {s : State} (c : Cmd) (h : Numbered s) :
    Numbered (State.attestOutput s c).2 := by
  unfold State.attestOutput
  (repeat' split) <;> simp +contextual (maxDischargeDepth := 30) [h]
@[simp] theorem num_doAttest {s : State} (id : Nat) (h : Numbered s) :
    Numbered (State.doAttest s id) := by
  unfold State.doAttest
  (repeat' split) <;> simp +contextual (maxDischargeDepth := 30) [h]
@[simp] theorem num_doFwStage {s : State} (id : Nat) (readBackOk : Bool) (h : Numbered s) :
    Numbered (State.doFwStage s id readBackOk) := by
  unfold State.doFwStage
  (repeat' split) <;> simp +contextual (maxDischargeDepth := 30) [h]
@[simp] theorem num_doCommitSvn {s : State} (id : Nat) (h : Numbered s) :
    Numbered (State.doCommitSvn s id) := by
  unfold State.doCommitSvn
  (repeat' split) <;> simp +contextual (maxDischargeDepth := 30) [h]
@[simp] theorem num_endLife {s : State} (id : Nat) (h : Numbered s) :
    Numbered (State.endLife s id) := by
  simp +contextual (maxDischargeDepth := 30) [State.endLife, h]
@[simp] theorem num_startEnd {s : State} (id : Nat) (h : Numbered s) :
    Numbered (State.startEnd s id) := by
  simp +contextual (maxDischargeDepth := 30) [State.startEnd, h]
@[simp] theorem num_advanceLife {s : State} (id : Nat) (h : Numbered s) :
    Numbered (State.advanceLife s id) := by
  unfold State.advanceLife
  refine num_runChecked _ _ _ _ h (fun t c ht => ?_)
  dsimp only
  have ha : Numbered (if advanceSigned c.lifeTarget = true then t.checkAuth c 8 else (true, t)).2 := by split <;> simp [ht]
  (repeat' split) <;> simp_all (maxDischargeDepth := 30)
@[simp] theorem num_doLifecycle {s : State} (id : Nat) (h : Numbered s) :
    Numbered (State.doLifecycle s id) := by
  unfold State.doLifecycle
  (repeat' split) <;> simp +contextual (maxDischargeDepth := 30) [h]
@[simp] theorem num_sample {s : State} (now : Nat) (h : Numbered s) :
    Numbered (State.sample s now) := by
  simp (maxDischargeDepth := 30) [State.sample, h]
@[simp] theorem num_doWindow {s : State} (util : Nat) (now : Nat) (h : Numbered s) :
    Numbered (State.doWindow s util now) := by
  simp (maxDischargeDepth := 30) [State.doWindow, h]

/-! Liust -/

@[simp] theorem num_liustBadLen {s : State} (h : Numbered s) :
    Numbered (State.liustBadLen s) := by
  simp (maxDischargeDepth := 30) [State.liustBadLen, h]
@[simp] theorem num_go {s : State} (r : Reg) (h : Numbered s) :
    Numbered (State.go s r) := by
  unfold State.go
  (repeat' split) <;> simp +contextual (maxDischargeDepth := 30) [h]
@[simp] theorem num_writeReg {s : State} (r : Reg) (addr : Nat) (len : Nat) (data : Word64) (h : Numbered s) :
    Numbered (State.writeReg s r addr len data) := by
  unfold State.writeReg
  (repeat' split) <;> simp +contextual (maxDischargeDepth := 30) [h]
@[simp] theorem num_doCfgWr {s : State} (addr : Nat) (len : Nat) (data : Word64) (h : Numbered s) :
    Numbered (State.doCfgWr s addr len data) := by
  unfold State.doCfgWr
  (repeat' split) <;> simp +contextual (maxDischargeDepth := 30) [h]
@[simp] theorem num_doCfgRd {s : State} (tag : Nat) (addr : Nat) (len : Nat) (h : Numbered s) :
    Numbered (State.doCfgRd s tag addr len) := by
  simp (maxDischargeDepth := 30) [State.doCfgRd, h]
@[simp] theorem num_doHostWr {s : State} (addr : Nat) (hctx : Nat) (data : List Byte) (poison : Word64) (h : Numbered s) :
    Numbered (State.doHostWr s addr hctx data poison) := by
  simp +contextual (maxDischargeDepth := 30) [State.doHostWr, h]
@[simp] theorem num_doHostRd {s : State} (tag : Nat) (addr : Nat) (len : Nat) (hctx : Nat) (h : Numbered s) :
    Numbered (State.doHostRd s tag addr len hctx) := by
  simp +contextual (maxDischargeDepth := 30) [State.doHostRd, h]
@[simp] theorem num_dropDma {s : State} (tag : Nat) (h : Numbered s) :
    Numbered (State.dropDma s tag) := by
  simp (maxDischargeDepth := 30) [State.dropDma, h]
@[simp] theorem num_transferBroken {s : State} (id : Nat) (flt : Nat) (h : Numbered s) :
    Numbered (State.transferBroken s id flt) := by
  unfold State.transferBroken
  (repeat' split) <;> simp +contextual (maxDischargeDepth := 30) [h]
@[simp] theorem num_dmaRefused {s : State} (o : DmaOwner) (flt : Nat) (h : Numbered s) :
    Numbered (State.dmaRefused s o flt) := by
  unfold State.dmaRefused
  (repeat' split) <;> simp +contextual (maxDischargeDepth := 30) [h]
@[simp] theorem num_transferOn {s : State} (id : Nat) (h : Numbered s) :
    Numbered (State.transferOn s id) := by
  unfold State.transferOn
  (repeat' split) <;> simp +contextual (maxDischargeDepth := 30) [h]
@[simp] theorem num_dmaData {s : State} (o : DmaOwner) (data : List Byte) (poison : Word64) (h : Numbered s) :
    Numbered (State.dmaData s o data poison) := by
  unfold State.dmaData
  (repeat' split) <;> simp +contextual (maxDischargeDepth := 30) [h]
@[simp] theorem num_doDmaResp {s : State} (tag : Nat) (status : Nat) (data : List Byte) (poison : Word64) (h : Numbered s) :
    Numbered (State.doDmaResp s tag status data poison) := by
  unfold State.doDmaResp
  (repeat' split) <;> simp +contextual (maxDischargeDepth := 30) [h]
@[simp] theorem num_partAcked {s : State} (id : Nat) (part : Nat) (h : Numbered s) :
    Numbered (State.partAcked s id part) := by
  unfold State.partAcked
  (repeat' split) <;> simp +contextual (maxDischargeDepth := 30) [h]
@[simp] theorem num_doDmaWrAck {s : State} (tag : Nat) (status : Nat) (h : Numbered s) :
    Numbered (State.doDmaWrAck s tag status) := by
  unfold State.doDmaWrAck
  (repeat' split) <;> simp +contextual (maxDischargeDepth := 30) [h]
@[simp] theorem num_doDmaTimeout {s : State} (tag : Nat) (h : Numbered s) :
    Numbered (State.doDmaTimeout s tag) := by
  unfold State.doDmaTimeout
  (repeat' split) <;> simp +contextual (maxDischargeDepth := 30) [h]
@[simp] theorem num_doTransaction {s : State} (header : BitVec 256) (payload : List Byte) (h : Numbered s) :
    Numbered (State.doTransaction s header payload) := by
  simp +contextual (maxDischargeDepth := 30) [State.doTransaction, h]
  (repeat' split) <;> simp +contextual (maxDischargeDepth := 30) [h]
@[simp] theorem num_linkLost {s : State} (h : Numbered s) :
    Numbered (State.linkLost s) := by
  simp +contextual (maxDischargeDepth := 30) [State.linkLost, h]
@[simp] theorem num_doLiustFlit {s : State} (intact : Bool) (h : Numbered s) :
    Numbered (State.doLiustFlit s intact) := by
  simp (maxDischargeDepth := 30) [State.doLiustFlit, h]
@[simp] theorem num_doLinkDown {s : State} (h : Numbered s) :
    Numbered (State.doLinkDown s) := by
  unfold State.doLinkDown
  (repeat' split) <;> simp +contextual (maxDischargeDepth := 30) [h]
@[simp] theorem num_doLinkUp {s : State} (w : LiustWidth) (h : Numbered s) :
    Numbered (State.doLinkUp s w) := by
  simp (maxDischargeDepth := 30) [State.doLinkUp, h]
@[simp] theorem num_liustCable {s : State} (connected : Bool) (h : Numbered s) :
    Numbered (State.liustCable s connected) := by
  simp (maxDischargeDepth := 30) [State.liustCable, h]
@[simp] theorem num_onPort {s : State} (f : State → State) (h : Numbered s) (hf : ∀ t, Numbered t → Numbered (f t)) :
    Numbered (State.onPort s f) := by
  simp (maxDischargeDepth := 30) [State.onPort, h, hf]
@[simp] theorem num_sendByte {s : State} (code : Nat) (b : Byte) (h : Numbered s) :
    Numbered (State.sendByte s code b) := by
  simp (maxDischargeDepth := 30) [State.sendByte, h]
@[simp] theorem num_sendWord {s : State} (code : Nat) (reading : ℤ) (w : BitVec 16) (h : Numbered s) :
    Numbered (State.sendWord s code reading w) := by
  simp (maxDischargeDepth := 30) [State.sendWord, h]
@[simp] theorem num_sendBlock {s : State} (code : Nat) (l : List Byte) (h : Numbered s) :
    Numbered (State.sendBlock s code l) := by
  simp (maxDischargeDepth := 30) [State.sendBlock, h]
@[simp] theorem num_sendReading {s : State} (code : Nat) (milli : Nat) (h : Numbered s) :
    Numbered (State.sendReading s code milli) := by
  simp (maxDischargeDepth := 30) [State.sendReading, h]

/-! Start -/

@[simp] theorem num_chooseModes {s : State} (c : Cmd) (h : Numbered s) :
    Numbered (State.chooseModes s c) := by
  simp (maxDischargeDepth := 30) [State.chooseModes, h]
@[simp] theorem num_boundary {s : State} (c : Cmd) (h : Numbered s) :
    Numbered (State.boundary s c) := by
  simp +contextual (maxDischargeDepth := 30) [State.boundary, h]
@[simp] theorem num_takeScratch {s : State} (c : Cmd) (ops : List (Nat × Operand)) (h : Numbered s) :
    Numbered (State.takeScratch s c ops) := by
  simp (maxDischargeDepth := 30) [State.takeScratch, h]
@[simp] theorem num_run {s : State} (c : Cmd) (k : Started) (h : Numbered s) :
    Numbered (State.run s c k) := by
  simp (maxDischargeDepth := 30) [State.run, h]
@[simp] theorem num_controlDone {s : State} (c : Cmd) (h : Numbered s) :
    Numbered (State.controlDone s c) := by
  simp (maxDischargeDepth := 30) [State.controlDone, h]
@[simp] theorem num_begin {s : State} (c : Cmd) (before : List Cmd) (h : Numbered s) :
    Numbered (State.begin s c before) := by
  simp +contextual (maxDischargeDepth := 30) [State.begin, h]
  (repeat' split) <;> simp +contextual (maxDischargeDepth := 30) [h]
@[simp] theorem num_tryBegin {s : State} (c : Cmd) (h : Numbered s) :
    Numbered (State.tryBegin s c) := by
  simp (maxDischargeDepth := 30) [State.tryBegin, h]
@[simp] theorem num_doCommandStart {s : State} (id : Nat) (h : Numbered s) :
    Numbered (State.doCommandStart s id) := by
  unfold State.doCommandStart
  (repeat' split) <;> simp +contextual (maxDischargeDepth := 30) [h]
@[simp] theorem num_noteRelay {s : State} (n : Nat) (id : Nat) (h : Numbered s) :
    Numbered (State.noteRelay s n id) := by
  simp (maxDischargeDepth := 30) [State.noteRelay, h]
@[simp] theorem num_doRelayAdmission {s : State} (id : Nat) (h : Numbered s) :
    Numbered (State.doRelayAdmission s id) := by
  unfold State.doRelayAdmission
  (repeat' split) <;> simp +contextual (maxDischargeDepth := 30) [h]
@[simp] theorem num_doPlaybookStart {s : State} (id : Nat) (h : Numbered s) :
    Numbered (State.doPlaybookStart s id) := by
  unfold State.doPlaybookStart
  (repeat' split) <;> simp +contextual (maxDischargeDepth := 30) [h]
@[simp] theorem num_endStep {s : State} (n : Nat) (h : Numbered s) :
    Numbered (State.endStep s n) := by
  simp (maxDischargeDepth := 30) [State.endStep, h]

/-! Tick -/

@[simp] theorem num_tickSeq {s : State} (n : Nat) (h : Numbered s) :
    Numbered (State.tickSeq s n) := by
  simp (maxDischargeDepth := 30) [State.tickSeq, h]
@[simp] theorem num_tick {s : State} (h : Numbered s) :
    Numbered (State.tick s) := by
  simp +contextual (maxDischargeDepth := 30) [State.tick, h]

/-! Step -/

@[simp] theorem num_rest {s : State} (q : List Instr) (h : Numbered s) :
    Numbered (State.rest s q) := by
  simp (maxDischargeDepth := 30) [State.rest, h]
theorem num_onBlock {s t : State} {a : Nat} {f : State → State} (h : Numbered s)
    (hf : ∀ u, Numbered u → Numbered (f u)) (e : s.onBlock a f = .next t) : Numbered t := by
  unfold State.onBlock at e
  split at e
  · injection e
  · injection e with e
    rw [← e]
    split
    · exact num_access _ _ _ _ h hf
    · exact h

end Sys2Proof.Machine
end

