-- ==== Sys2Proof/Laws/Ops.lean ====
section
/-! SUPPORT. One lemma for each shared operation over commands in flight: everything that it can do. -/

namespace Sys2Proof.Machine

/-! ## Vectors -/

theorem vget_vmod_same {α : Type} {n : Nat} (v : Vector α n) (i : Nat) (f : α → α) (d : α) (h : i < n) :
    vget (vmod v i f) i d = f (vget v i d) := by
  simp [vget, vmod, h]

theorem vget_vmod_other {α : Type} {n : Nat} (v : Vector α n) (i j : Nat) (f : α → α) (d : α) (h : j ≠ i) :
    vget (vmod v i f) j d = vget v j d := by
  unfold vget vmod
  split
  · split
    · exact Vector.getElem_set_ne _ _ (Ne.symm h)
    · rfl
  · rfl

theorem vmod_outside {α : Type} {n : Nat} (v : Vector α n) (i : Nat) (f : α → α) (h : n ≤ i) : vmod v i f = v := by
  unfold vmod
  split
  · omega
  · rfl

namespace State

/-! ## The commands in flight -/

theorem find_map_id (l : List Cmd) (id : Nat) (f : Cmd → Cmd) (hf : ∀ c, (f c).id = c.id) :
    (l.map f).find? (fun c => c.id == id) = (l.find? (fun c => c.id == id)).map f := by
  induction l with
  | nil => rfl
  | cons c r ih =>
    simp only [List.map_cons, List.find?_cons, hf]
    split
    · rfl
    · exact ih

theorem cmd?_id {s : State} {id : Nat} {c : Cmd} (h : s.cmd? id = some c) : c.id = id := by
  have := List.find?_some h
  simpa using this

theorem running?_some {s : State} {id op : Nat} {c : Cmd} (h : s.running? id op = some c) :
    s.cmd? id = some c ∧ c.isRunning = true ∧ c.opcode = op := by
  unfold running? at h
  split at h
  · next d hd =>
    split at h
    · next hc => cases h; simp_all
    · cases h
  · cases h

theorem cmd?_modCmd {s : State} {id : Nat} {f : Cmd → Cmd} (hf : ∀ c, (f c).id = c.id) (j : Nat) :
    (s.modCmd id f).cmd? j = (s.cmd? j).map (fun c => if c.id == id then f c else c) :=
  find_map_id s.cmds j _ (fun c => by split <;> simp [hf])

/-! ## Ends of commands -/

theorem endHost_host {s : State} {id q : Nat} {k : Compl} {c : Cmd} (h : s.cmd? id = some c) (hc : c.src = .host q) :
    s.endHost id k = (s.modCmd id (fun x => { x with st := .done { k with cycles := s.cycles.toNat }, stage := .go })).modCq
      c.cq (fun q => { q with done := q.done ++ [id] }) := by
  simp [endHost, h, hc]

/-- `endHost` changes the commands and completion queues alone. -/
theorem endHost_frame (s : State) (id : Nat) (k : Compl) :
    s.endHost id k = { s with cmds := (s.endHost id k).cmds, cqs := (s.endHost id k).cqs } := by
  unfold endHost
  split
  · rfl
  · dsimp only
    split <;> rfl

theorem endHost_ids (s : State) (id : Nat) (k : Compl) : (s.endHost id k).cmds.map (·.id) = s.cmds.map (·.id) := by
  unfold endHost
  split
  · rfl
  · dsimp only
    split <;> simp only [modCq, modCmd, List.map_map] <;> congr 1 <;> funext x <;> simp only [Function.comp] <;> split <;> rfl

/-- `settleAwaits` changes the commands and completion queues alone, and no command goes. -/
theorem settleAwaits_frame (s : State) :
    s.settleAwaits = { s with cmds := s.settleAwaits.cmds, cqs := s.settleAwaits.cqs }
      ∧ s.settleAwaits.cmds.map (·.id) = s.cmds.map (·.id) := by
  unfold settleAwaits
  refine foldl_keeps (p := fun (t : State) => t = { s with cmds := t.cmds, cqs := t.cqs } ∧ t.cmds.map (·.id) = s.cmds.map (·.id))
    (fun t c ht => ?_) _ ⟨rfl, rfl⟩
  split
  · split
    · exact ht
    · refine ⟨?_, (endHost_ids ..).trans ht.2⟩
      rw [endHost_frame, ht.1]
  · exact ht

/-- `retire` frees the place of a command, and else changes the commands and completion queues alone. -/
theorem retire_frame (s : State) (id st : Nat) (b : Option (Nat × Word32)) :
    s.retire id st b = { s with cmds := (s.retire id st b).cmds, cqs := (s.retire id st b).cqs }
      ∧ (s.retire id st b).cmds.map (·.id) = (s.cmds.filter (fun c => c.id != id)).map (·.id) := by
  have h := settleAwaits_frame
    { s with cmds := (s.cmds.filter (fun (c : Cmd) => c.id != id)).map (Cmd.release id st b) }
  refine ⟨h.1, h.2.trans ?_⟩
  simp [List.map_map, Function.comp_def, Cmd.release]

theorem find_none_of_ids {l m : List Cmd} {id : Nat} (h : l.map (·.id) = (m.filter (fun c => c.id != id)).map (·.id)) :
    l.find? (fun c => c.id == id) = none := by
  rw [List.find?_eq_none]
  intro c hc
  have : c.id ∈ (m.filter (fun c => c.id != id)).map (·.id) := h ▸ List.mem_map_of_mem hc
  simp only [List.mem_map, List.mem_filter] at this
  obtain ⟨d, ⟨_, hd⟩, e⟩ := this
  simp_all

/-- `settleSeq` ends a playbook whose last command has gone: it changes the commands and completion queues as the end of its
PLAYBOOK_START does, that sequencer, and the domains. -/
theorem settleSeq_frame (s : State) (n : Nat) :
    s.settleSeq n = { s with
        cmds := (s.settleSeq n).cmds, cqs := (s.settleSeq n).cqs, seqs := (s.settleSeq n).seqs
        power := { s.power with domains := (s.settleSeq n).power.domains } }
      ∧ (s.settleSeq n).cmds.map (·.id) = s.cmds.map (·.id) ∧ ∀ m, m ≠ n → (s.settleSeq n).seq m = s.seq m := by
  unfold settleSeq
  dsimp only
  split
  · refine ⟨?_, ?_, fun m hm => ?_⟩
    · rw [endHost_frame]; rfl
    · exact endHost_ids ..
    · simp only [modPower, modSeq, seq]
      rw [vget_vmod_other _ _ _ _ _ hm, endHost_frame]
  · exact ⟨rfl, rfl, fun _ _ => rfl⟩

/-- `endEntry` changes the commands and completion queues, its sequencer, and the domains of power. -/
theorem endEntry_frame (s : State) (c : Cmd) (n entry : Nat) (step : Word32) (k : Compl) :
    s.endEntry c n entry step k = { s with
        cmds := (s.endEntry c n entry step k).cmds, cqs := (s.endEntry c n entry step k).cqs
        seqs := (s.endEntry c n entry step k).seqs
        power := { s.power with domains := (s.endEntry c n entry step k).power.domains } }
      ∧ (s.endEntry c n entry step k).cmd? c.id = none
      ∧ ∀ m, m ≠ n → (s.endEntry c n entry step k).seq m = s.seq m := by
  unfold endEntry
  dsimp only
  generalize hu : s.modSeq n _ = u
  have hs := settleSeq_frame (u.retire c.id k.status (some (entry, step))) n
  have hr := retire_frame u c.id k.status (some (entry, step))
  refine ⟨?_, find_none_of_ids (hs.2.1.trans hr.2), fun m hm => ?_⟩
  · rw [hs.1]
    generalize (u.retire c.id k.status (some (entry, step))).settleSeq n = v
    rw [hr.1, ← hu]
    rfl
  · rw [hs.2.2 m hm]
    unfold seq
    rw [hr.1, ← hu]
    exact vget_vmod_other _ _ _ _ _ hm

/-- The slots of a command that does not fail stay as they are. -/
theorem poisonSlots_ok {s : State} {c : Cmd} {st : Nat} (h : Status.isFlt st = false) : s.poisonSlots c st = s := by
  simp [poisonSlots, h]

theorem poisonSlots_frame (s : State) (c : Cmd) (st : Nat) :
    s.poisonSlots c st = { s with slots := (s.poisonSlots c st).slots } := by
  unfold poisonSlots
  split <;> rfl

/-! ## What a command held on the cores -/

/-- A core that a command leaves differs at most in who holds its places and what lies there. -/
theorem core_release_same (word : Word64) (free id : Nat) (k : Core) : SameCore k (k.release word free id) := by
  unfold Core.release
  split <;> exact ⟨rfl, .inl rfl⟩

theorem core_release_idle {word : Word64} {free id : Nat} {k : Core} (h : k.runs id = false) : k.release word free id = k := by
  simp [Core.release, h]

theorem vget_ofFn {α : Type} {n : Nat} (f : Fin n → α) (i : Nat) (d : α) :
    vget (Vector.ofFn f) i d = if h : i < n then f ⟨i, h⟩ else d := by
  unfold vget
  split <;> simp

theorem SameCore.refl (x : Core) : SameCore x x := ⟨rfl, .inl rfl⟩

theorem vget_outside {α : Type} {n : Nat} {v : Vector α n} {i : Nat} {d : α} (h : ¬i < n) : vget v i d = d := dif_neg h

theorem SameCluster.refl (a : Cluster) : SameCluster a a := ⟨rfl, fun _ => SameCore.refl _⟩

/-- `fillRows` makes bench cores active, and changes nothing else of a cluster. -/
theorem fillRows_frame (c : Cluster) :
    { c.fillRows with cores := c.cores } = c
      ∧ ∀ i, vget c.fillRows.cores i {} = vget c.cores i {}
        ∨ ((vget c.cores i {}).mode = .bench ∧ vget c.fillRows.cores i {} = { vget c.cores i {} with mode := .active }) := by
  unfold Cluster.fillRows
  refine foldl_keeps (p := fun (d : Cluster) => { d with cores := c.cores } = c ∧ ∀ i, vget d.cores i {} = vget c.cores i {}
    ∨ ((vget c.cores i {}).mode = .bench ∧ vget d.cores i {} = { vget c.cores i {} with mode := .active }))
    (fun d row hd => ?_) _ ⟨rfl, fun _ => .inl rfl⟩
  split
  · next j r hj =>
    split
    · refine ⟨hd.1, fun i => ?_⟩
      by_cases hi : i = j
      · subst hi
        have hm : (vget d.cores i {}).mode = .bench := by
          have : i ∈ d.rowCores row .bench := by rw [hj]; exact List.mem_cons_self
          unfold Cluster.rowCores at this
          simpa using (List.mem_filter.mp this).2
        by_cases hlt : i < 28
        · rcases hd.2 i with e | ⟨_, e⟩
          · right
            dsimp only
            rw [vget_vmod_same _ _ _ _ hlt, e]
            exact ⟨e ▸ hm, rfl⟩
          · rw [e] at hm
            cases hm
        · dsimp only
          rw [vmod_outside _ _ _ (Nat.le_of_not_lt hlt)]
          exact hd.2 i
      · dsimp only
        rw [vget_vmod_other _ _ _ _ _ hi]
        exact hd.2 i
    · exact hd
  · exact hd

theorem fillRows_words {c d : Cluster} (h : { d with cores := c.cores } = c) : { d.fillRows with cores := c.cores } = c := by
  have f := (fillRows_frame d).1
  generalize d.fillRows = e at f ⊢
  rw [← f] at h
  exact h

/-- Core i of a cluster that a command leaves: the core itself, left, or a bench core made active. -/
theorem cluster_release_core (free id : Nat) (c : Cluster) (i : Nat) :
    ∃ w f, vget (c.release free id).cores i {} = (if i < 28 then (vget c.cores i {}).release w f id else {})
      ∨ ((vget c.cores i {}).mode = .bench
        ∧ vget (c.release free id).cores i {} = { (vget c.cores i {}).release w f id with mode := .active }) := by
  refine ⟨c.array.shadow, free + 8 * threadDraws * i, ?_⟩
  have hv : vget (Vector.ofFn (fun i : Fin 28 => c.cores[i.val].release c.array.shadow (free + 8 * threadDraws * i.val) id)) i {}
      = if i < 28 then (vget c.cores i {}).release c.array.shadow (free + 8 * threadDraws * i) id else {} := by
    rw [vget_ofFn]
    by_cases h : i < 28
    · simp [h, vget]
    · simp [h]
  unfold Cluster.release
  dsimp only
  split
  · rcases (fillRows_frame { c with cores := Vector.ofFn (fun i : Fin 28 =>
      c.cores[i.val].release c.array.shadow (free + 8 * threadDraws * i.val) id) }).2 i with e | ⟨m, e⟩
    · exact .inl (e.trans hv)
    · dsimp only at m e
      rw [hv] at m e
      by_cases h : i < 28
      · rw [if_pos h] at m e
        refine .inr ⟨?_, e⟩
        rw [← m]
        exact ((core_release_same c.array.shadow (free + 8 * threadDraws * i) id (vget c.cores i {})).2.elim Eq.symm
          (fun x => by rw [m] at x; cases x.2))
      · rw [if_neg h] at m
        cases m
  · exact .inl hv

theorem cluster_release_same (free id : Nat) (c : Cluster) : SameCluster c (c.release free id) := by
  refine ⟨?_, fun i => ?_⟩
  · unfold Cluster.release
    dsimp only
    split
    · exact fillRows_words rfl
    · rfl
  · obtain ⟨w, f, e | ⟨m, e⟩⟩ := cluster_release_core free id c i
    · rw [e]
      split
      · exact core_release_same ..
      · next h => rw [vget_outside h]; exact SameCore.refl _
    · rw [e]
      refine ⟨?_, .inr ⟨m, rfl⟩⟩
      have h := (core_release_same w f id (vget c.cores i {})).1
      exact h

theorem cluster_release_idle {free id : Nat} {c : Cluster} {i : Nat} (h : (vget c.cores i {}).runs id = false)
    (hm : (vget c.cores i {}).mode ≠ .bench) : vget (c.release free id).cores i {} = vget c.cores i {} := by
  obtain ⟨w, f, e | ⟨m, _⟩⟩ := cluster_release_core free id c i
  · rw [e]
    split
    · exact core_release_idle h
    · next hi => rw [vget_outside hi]
  · exact absurd m hm

/-- `leaveCores` changes what the cores hold of the command, and draws free values. -/
theorem leaveCores_frame (s : State) (id : Nat) :
    s.leaveCores id = { s with clusters := (s.leaveCores id).clusters, free := (s.leaveCores id).free }
      ∧ s.free ≤ (s.leaveCores id).free
      ∧ (∀ n, SameCluster (s.cluster n) ((s.leaveCores id).cluster n))
      ∧ ∀ n i, (vget (s.cluster n).cores i {}).runs id = false → (vget (s.cluster n).cores i {}).mode ≠ .bench →
          vget ((s.leaveCores id).cluster n).cores i {} = vget (s.cluster n).cores i {} := by
  have hc : ∀ n, (s.leaveCores id).cluster n
      = if n < 8 then (s.cluster n).release (s.free + 224 * threadDraws * n) id else s.cluster n := fun n => by
    unfold leaveCores cluster
    rw [vget_ofFn]
    by_cases h : n < 8
    · simp [h, vget]
    · simp [h, vget]
  refine ⟨rfl, Nat.le_add_right _ _, fun n => ?_, fun n i h hm => ?_⟩
  · rw [hc]
    split
    · exact cluster_release_same ..
    · exact SameCluster.refl _
  · rw [hc]
    split
    · exact cluster_release_idle h hm
    · rfl

/-- What `finish` settles before the command ends: slots, core scratch, what its cores ran, and what fabric, link and save
engine hold for it. -/
theorem finish_settles {s : State} {id : Nat} {c : Cmd} (h : s.cmd? id = some c) (k : Compl) :
    ∃ u : State, Kept id s u ∧ u.cmds = s.cmds ∧ u.cqs = s.cqs ∧ u.seqs = s.seqs ∧ u.power = s.power
      ∧ (Status.isFlt k.status = false → u.slots = s.slots)
      ∧ s.finish id k = match c.src with
        | .host _ => u.endHost id { k with cycles := s.cycles.toNat }
        | .seq n entry step _ => u.endEntry c n entry step { k with cycles := s.cycles.toNat } := by
  unfold finish
  rw [h]
  dsimp only
  have hp := poisonSlots_frame s c k.status
  have hslots : Status.isFlt k.status = false → (s.poisonSlots c k.status).slots = s.slots := fun hk => by
    rw [poisonSlots_ok hk]
  generalize s.poisonSlots c k.status = p at hp hslots
  have hq : ∃ sc cl fr, (if c.isRunning then (p.releaseScratch c).leaveCores id else p)
        = { p with scratch := sc, clusters := cl, free := fr }
      ∧ p.free ≤ fr ∧ (∀ n, SameCluster (p.cluster n) (vget cl n Cluster.reset))
      ∧ ∀ n i, (vget (p.cluster n).cores i {}).runs id = false → (vget (p.cluster n).cores i {}).mode ≠ .bench →
          vget (vget cl n Cluster.reset).cores i {} = vget (p.cluster n).cores i {} := by
    split
    · have l := leaveCores_frame (p.releaseScratch c) id
      refine ⟨_, _, _, l.1, l.2.1, l.2.2.1, l.2.2.2⟩
    · exact ⟨p.scratch, p.clusters, p.free, rfl, Nat.le_refl _, fun n => SameCluster.refl _, fun n i _ _ => rfl⟩
  obtain ⟨sc, cl, fr, hq, hfr, hcl, hco⟩ := hq
  rw [hq]
  clear hq
  rw [hp] at hcl hco hfr ⊢
  generalize p.slots = sl at hslots hcl hco hfr ⊢
  refine ⟨_, ?_, ?_, ?_, ?_, ?_, ?_, rfl⟩
  · constructor <;> first | rfl | exact hfr | exact hcl | exact hco | (dsimp only; split <;> rfl)
  · rfl
  · rfl
  · rfl
  · rfl
  · exact hslots

/-- The end of a command that stands in the state: it completes, and nothing else changes. -/
theorem finish_completes {s : State} {id : Nat} {c : Cmd} (h : s.cmd? id = some c) (k : Compl) :
    Completes s (s.finish id k) id k := by
  have hid := cmd?_id h
  obtain ⟨u, hk, h1, h2, h3, h4, h5, hf⟩ := finish_settles h k
  have hcmd : u.cmd? id = some c := by unfold cmd?; rw [h1]; exact h
  rw [hf]
  clear hf
  cases hc : c.src with
  | host qn =>
    dsimp only
    rw [endHost_host hcmd hc]
    refine ⟨?_, ?_, h5⟩
    · unfold Ends
      rw [h]
      dsimp only
      rw [hc]
      refine ⟨?_, ?_, h3, h4⟩
      · simp only [modCq, modCmd, h1, hk.cycles]
      · simp only [modCq, modCmd, h2]
    · exact { hk with }
  | seq n entry step ph =>
    dsimp only
    have he := endEntry_frame u c n entry step { k with cycles := s.cycles.toNat }
    generalize u.endEntry c n entry step { k with cycles := s.cycles.toNat } = t at he
    obtain ⟨e1, e2, e3⟩ := he
    refine ⟨?_, ?_, fun hs => ?_⟩
    · unfold Ends
      rw [h]
      dsimp only
      rw [hc]
      exact ⟨hid ▸ e2, fun m hm => (e3 m hm).trans (by simp only [seq, h3])⟩
    · rw [e1]
      exact { hk with power := by rw [← hk.power] }
    · rw [e1]
      exact h5 hs

/-! ## Block writes and counters -/

/-- A block write lands or is held. -/
theorem writeBlock_cases (s : State) (w : BlockWr) :
    s.writeBlock w = s.land w ∨ s.writeBlock w = { s with memside := { s.memside with held := s.memside.held ++ [w] } } := by
  unfold writeBlock
  split
  · exact .inr rfl
  · exact .inl rfl

/-- Block writes change memory, the free values drawn, and which blocks hold an error or wait for a retry. -/
theorem writeBlocks_frame (s : State) (ws : List BlockWr) :
    s.writeBlocks ws = { s with
      mem := (s.writeBlocks ws).mem, free := (s.writeBlocks ws).free
      memside := { s.memside with uncured := (s.writeBlocks ws).memside.uncured, held := (s.writeBlocks ws).memside.held } } := by
  induction ws generalizing s with
  | nil => rfl
  | cons w r ih =>
    have h := ih (s.writeBlock w)
    change (s.writeBlock w).writeBlocks r = _
    rw [show s.writeBlocks (w :: r) = (s.writeBlock w).writeBlocks r from rfl]
    generalize (s.writeBlock w).writeBlocks r = t at h ⊢
    refine h.trans ?_
    rcases writeBlock_cases s w with e | e
    · rw [e]; rfl
    · rw [e]

theorem writeBlock_byte_outside {s : State} {w : BlockWr} {x : Nat} (h : x < w.loc ∨ w.loc + 64 ≤ x) :
    (s.writeBlock w).mem.byte x = s.mem.byte x := by
  unfold writeBlock
  split
  · rfl
  · exact Mem.writeBlock_byte_outside h

theorem writeBlock_poisoned_other {s : State} {w : BlockWr} {x : Nat} (h : blockOf x ≠ blockOf w.loc) :
    (s.writeBlock w).mem.poisoned x = s.mem.poisoned x := by
  unfold writeBlock
  split
  · rfl
  · exact Mem.writeBlock_poisoned_other h

/-- A byte outside every block written reads as before. -/
theorem writeBlocks_byte_outside {s : State} {ws : List BlockWr} {x : Nat}
    (h : ∀ w ∈ ws, x < w.loc ∨ w.loc + 64 ≤ x) : (s.writeBlocks ws).mem.byte x = s.mem.byte x := by
  induction ws generalizing s with
  | nil => rfl
  | cons w r ih =>
    show ((s.writeBlock w).writeBlocks r).mem.byte x = _
    rw [ih (fun v hv => h v (List.mem_cons_of_mem _ hv))]
    exact writeBlock_byte_outside (h w List.mem_cons_self)

/-- The mark of a block that none of the writes names stays. -/
theorem writeBlocks_poisoned_other {s : State} {ws : List BlockWr} {x : Nat}
    (h : ∀ w ∈ ws, blockOf x ≠ blockOf w.loc) : (s.writeBlocks ws).mem.poisoned x = s.mem.poisoned x := by
  induction ws generalizing s with
  | nil => rfl
  | cons w r ih =>
    show ((s.writeBlock w).writeBlocks r).mem.poisoned x = _
    rw [ih (fun v hv => h v (List.mem_cons_of_mem _ hv))]
    exact writeBlock_poisoned_other (h w List.mem_cons_self)

theorem bumps_frame (s : State) (l : List (Ctr × Nat)) :
    s.bumps l = { s with ctrs := (s.bumps l).ctrs, seqs := (s.bumps l).seqs } := by
  induction l generalizing s with
  | nil => rfl
  | cons a r ih =>
    obtain ⟨c, n⟩ := a
    show (s.bump c n).bumps r = _
    rw [ih]; rfl

theorem addSlots_frame (s : State) (ctx : Nat) (l : List SlotAdd) :
    s.addSlots ctx l = { s with slots := (s.addSlots ctx l).slots } := by
  unfold addSlots
  refine foldl_keeps (p := fun (t : State) => t = { s with slots := t.slots }) (fun t a ht => ?_) _ rfl
  rw [ht]

theorem setNf_frame (s : State) (src : Src) : s.setNf src = { s with seqs := (s.setNf src).seqs } := by
  unfold setNf
  split <;> rfl

/-- `landEffect` leaves the commands and completion queues alone. -/
theorem landEffect_cmds (s : State) (c : Cmd) (e : Effect) : (s.landEffect c e).cmds = s.cmds := by
  have hf : ∀ u : State, (u.fillTiles c e).cmds = u.cmds := fun u => by
    unfold fillTiles
    split
    · rfl
    · refine foldl_keeps (p := fun (t : State) => t.cmds = u.cmds) (fun t l ht => ?_) _ rfl
      exact ht
  have hs : ∀ (u : State) (x : List SlotAdd) (y : List Nat), ((u.addSlots c.ctx x).closeSlots c.ctx y).cmds = u.cmds := fun u x y => by
    show (u.addSlots c.ctx x).cmds = u.cmds
    rw [addSlots_frame]
  have hg : ∀ (u : State) (n : Nat), (u.noteGrad c n).cmds = u.cmds := fun u n => by
    unfold noteGrad
    split
    · rw [setNf_frame]; rfl
    · rfl
  unfold landEffect
  dsimp only
  rw [hg, hs]
  show (State.fillTiles _ c e).cmds = _
  rw [hf, bumps_frame, writeBlocks_frame, writeBlocks_frame s]

/-- A command whose effect stays within its POISON_LIMIT, once no retry holds a block it writes: its writes, counts, tiles and
slots, then its end. -/
theorem perform_completes {s : State} {c : Cmd} {e : Effect} (h : s.cmd? c.id = some c) (hr : s.retryBlocks e = false)
    (ho : e.overLimit c = false) : Completes (s.landEffect c e) (s.perform c e) c.id (e.compl c) := by
  unfold perform
  rw [hr, ho]
  refine finish_completes (c := c) ?_ (e.compl c)
  unfold cmd?
  rw [landEffect_cmds]
  exact h

/-! ## Accesses that no command makes -/

/-- `touch` wakes power domains, and changes nothing else. -/
theorem touch_frame (s : State) (c : Nat) :
    s.touch c = { s with power := { s.power with domains := (s.touch c).power.domains } } := by
  unfold touch
  dsimp only
  split <;> rfl

theorem touchAll_frame (s : State) (l : List Nat) :
    s.touchAll l = { s with power := { s.power with domains := (s.touchAll l).power.domains } } := by
  unfold touchAll
  refine foldl_keeps (p := fun (t : State) => t = { s with power := { s.power with domains := t.power.domains } })
    (fun t c ht => ?_) _ rfl
  rw [touch_frame, ht]

/-- What `access` can do: wake the domains in its way, and act where all of them answer. -/
theorem access_acts (s : State) (dies : List Nat) (a n : Nat) (f : State → State) :
    ∃ t : State, t = { s with power := { s.power with domains := t.power.domains } }
      ∧ (s.access dies a n f = f t ∨ s.access dies a n f = t) := by
  refine ⟨_, touchAll_frame s (dedup ((rangePages a n).flatMap (s.memDomains dies))), ?_⟩
  unfold access
  dsimp only
  split
  · exact .inl rfl
  · exact .inr rfl

/-! ## Guards of meanings -/

/-- What `runOp` can do: its command runs and it is its turn, and then it performs; else nothing. -/
theorem runOp_runs {s : State} {id op : Nat} {f : State → Cmd → Effect} {c : Cmd} (h : s.running? id op = some c)
    (ht : s.slotTurn c = true) (hm : s.mayStream id = true) : s.runOp id op f = s.perform c (f s c) := by
  simp [runOp, h, ht, hm]

theorem runOp_idle {s : State} {id op : Nat} {f : State → Cmd → Effect}
    (h : ∀ c, s.running? id op = some c → s.slotTurn c = false ∨ s.mayStream id = false) : s.runOp id op f = s := by
  unfold runOp
  split
  · next c hc => rcases h c hc with e | e <;> simp [e]
  · rfl

/-- What `runChecked` can do: nothing where the command does not run, its end with the first failed check, or its act. -/
theorem runChecked_acts {s : State} {id op : Nat} {start : State → Cmd → Started} {act : State → Cmd → State} {c : Cmd}
    (h : s.running? id op = some c) (hr : worst (start s c).rejs = none) : s.runChecked id op start act = act s c := by
  simp [runChecked, h, hr]

theorem runChecked_rejects {s : State} {id op : Nat} {start : State → Cmd → Started} {act : State → Cmd → State} {c : Cmd}
    {r : Rej} (h : s.running? id op = some c) (hr : worst (start s c).rejs = some r) :
    s.runChecked id op start act = s.finish id (rejCompl r.1 r.2) := by
  simp [runChecked, h, hr]

theorem runChecked_idle {s : State} {id op : Nat} {start : State → Cmd → Started} {act : State → Cmd → State}
    (h : s.running? id op = none) : s.runChecked id op start act = s := by
  simp [runChecked, h]

theorem atHost_up {s : State} {f : State → State} (h : s.hostUp = true) : s.atHost f = f s := by
  simp [hostUp] at h
  simp [atHost, h]

/-- What `issueControl` can do: a control entry without dependencies acts at once. -/
theorem issueControl_at {s : State} {n op : Nat} {f : State → State} (h : s.seqAt n op = true)
    (hd : s.nextDeps (s.seq n) = []) :
    s.issueControl n op f
      = f (s.modSeq n (fun q => { q.openWindow with issues := q.issues.filter (fun p => p.1 != q.entry) })) := by
  simp [issueControl, h, hd]

/-- One with dependencies takes a place in flight, acts, and waits there. -/
theorem issueControl_joins {s : State} {n op : Nat} {f : State → State} (h : s.seqAt n op = true)
    (hd : s.nextDeps (s.seq n) ≠ []) (hw : s.seqWantsPlace n = true) (ht : s.hasTurn (64 + n) = true) :
    s.issueControl n op f = f (s.joinEntry n) := by
  simp [issueControl, h, hd, hw, ht]

end State

/-- The image delivered in the flash passes the checks of R445, so the module boots from it (R543). -/
theorem delivered_image_boots :
    State.reset.imageFault State.reset.referee.flash.manifest State.reset.referee.flash.body = 0 := by
  have hs : imageSvnOf Config.deliveredManifest = fieldAt Config.deliveredManifest 8 1 := rfl
  have hm : State.reset.referee.flash.manifest = Config.deliveredManifest := rfl
  have hb : State.reset.referee.flash.body = Config.deliveredBody := rfl
  have hf : State.reset.referee.fuses.svn = min Config.deliveredFuseSvn.toNat (fieldAt Config.deliveredManifest 8 1) := rfl
  simp [State.imageFault, manifestShape, manifestSigned, bodyMatches, hm, hb, hf, hs]

end Sys2Proof.Machine
end

