-- ==== Sys2Proof/WellFormed.lean ====
section
/-! DEFINITION. Well-formed commands: every operand lies in the range that the layout of its transaction, packet or
event gives it. A command that the manual answers for any value (a bad length, an unknown queue of a packet) is well
formed. -/

namespace Sys2Proof

/-- An access of 4 or 8 bytes, aligned to its length, within n bytes (R364). -/
def cfgSpan (off len n : Nat) : Bool := (len == 4 || len == 8) && off % len == 0 && off + len ≤ n

/-- 64 to 4,096 bytes, a multiple of 64 (R363). -/
def blocks (len : Nat) : Bool := 64 ≤ len && len ≤ 4096 && len % 64 == 0

/-- A die-to-die link of R16. C0 to C3 are 0 to 3, H0 and H1 are 4 and 5, and the lower number comes first. -/
def dieLink (a b : Nat) : Bool :=
  (a < 4 && (b == 4 || b == 5)) || (a == 0 && b == 1) || (a == 1 && b == 3) || (a == 2 && b == 3) || (a == 0 && b == 2)

/-- A domain code of R474 other than AO. -/
def domainCode (c : Nat) : Bool :=
  c < 8 || (0x10 ≤ c && c < 0x20) || (0x20 ≤ c && c < 0x2C) || (0x30 ≤ c && c < 0x3C) || c == 0x40
    || (0x50 ≤ c && c ≤ 0x55)

/-- A physical core of R19. -/
def CoreRef.wf (c : CoreRef) : Bool := c.cluster < 8 && c.row < 4 && c.pos < 7

/-- A cable of R532. -/
def Cable.wf : Cable → Bool
  | .liust => true
  | .fabric p => p < 48

/-- A block of a cluster buffer, or a core's store. -/
def SramPlace.wf : SramPlace → Bool
  | .coreStore c => c.wf
  | .clusterBuffer n o => n < 8 && o < 48 * 2 ^ 20

/-- Operations act on whole 64-byte blocks (R205). -/
def SsuOp.wf : SsuOp → Bool
  | .read a _ _ => a % 64 == 0
  | .write a _ d _ _ => a % 64 == 0 && d.length == 64
  | .sum a bf c _ _ => a % 64 == 0 && c.length == (if bf then 32 else 16)

/-- Header fields within their widths (R295). -/
def Packet.wf (p : Packet) : Bool :=
  p.hdr.seq < 2 ^ 32 && p.hdr.group < 2 ^ 16 && p.hdr.tag < 2 ^ 16 && p.hdr.age < 2 ^ 16 && p.hdr.tctx < 16
    && p.hdr.fmt < 16 && p.hdr.rank < 4096 && p.hdr.addr < 2 ^ 52 && p.hdr.dst < 4096 && p.hdr.src < 4096
    && p.hdr.vc < 4 && p.hdr.len < 8192

/-- Management header fields within their widths (R309). -/
def Mgmt.wf (m : Mgmt) : Bool :=
  m.part < 2 ^ 32 && m.seq < 2 ^ 32 && m.target < 4096 && m.origin < 4096 && m.payload.length ≤ 4080

/-- A transaction within the widths of its header (R362). -/
def HostTrans.wf (addr len : Nat) : HostTrans → Bool
  | .write _ => cfgSpan addr len (2 ^ 52)
  | .read tag => tag < 2 ^ 16 && cfgSpan addr len (2 ^ 52)
  | .raw header payload => payload.length ≤ 4096 && header.extractLsb' 128 52 == BitVec.ofNat 52 addr
      && header.extractLsb' 83 13 == BitVec.ofNat 13 len && addr < 2 ^ 52 && len < 2 ^ 13

/-- A well-formed command. -/
def Instr.wf : Instr → Bool
  | .pbPhase s => s < 4
  | .pbLoop s => s < 4
  | .pbEndloop s => s < 4
  | .pbIfClean s => s < 4
  | .pbEndif s => s < 4
  | .pbStepEnd s => s < 4
  | .pbEnd s => s < 4
  | .pbSeed s => s < 4
  | .benchCheck _ rs => rs.all (fun r => r.1 < 224)
  | .sqFetch q => q < 64
  | .commandAdmission q => q < 64
  | .heldCompletionFlush q => q < 64
  | .playbookIssue s => s < 4
  | .playbookEntryFailed s => s < 4
  | .playbookEnterHeld s => s < 4
  | .stepWindowClose s => s < 4
  | .cfgWr addr len t => t.wf addr len
  | .hostWr addr hctx d _ => addr < 2 ^ 52 && hctx < 16 && blocks d.length
  | .hostRd tag addr len hctx => tag < 2 ^ 16 && addr < 2 ^ 52 && blocks len && hctx < 16
  | .doorbell q _ => q < 64
  | .dmaResp tag _ d _ => tag < 2 ^ 16 && d.length ≤ 4096
  | .dmaWrAck tag _ => tag < 2 ^ 16
  | .dmaTimeout tag => tag < 2 ^ 16
  | .sqCfgWrite n off len _ => n < 64 && cfgSpan off len 16
  | .cqCfgWrite n off len _ => n < 64 && cfgSpan off len 16
  | .cqHeadWrite n off len _ => n < 64 && cfgSpan off len 8
  | .feedTailWrite s _ => s < 4
  | .resultHeadWrite s _ => s < 4
  | .fabFlitError port _ => port < 48
  | .fabPortDown port => port < 48
  | .fabPortTrainingRetry port => port < 48
  | .cableChange c _ => c.wf
  | .packetForward port p _ credits => port < 48 && p.wf && credits.length == 48
  | .remoteRdReq p => p.wf
  | .remoteWr p => p.wf
  | .remoteWrBulk p => p.wf
  | .collReady p => p.wf
  | .barrierFlag p => p.wf
  | .collData p => p.wf
  | .draftPacket p => p.wf
  | .remoteRdResp p => p.wf
  | .remoteWrAck p => p.wf
  | .collAck p => p.wf
  | .barrierResult p => p.wf
  | .errResp p => p.wf
  | .fabRemoteTimeout tag => tag < 2 ^ 16
  | .hello port m => port < 48 && m.wf
  | .heartbeat port m => port < 48 && m.wf
  | .heartbeatMiss port => port < 48
  | .join port m => port < 48 && m.wf
  | .leave port m => port < 48 && m.wf
  | .linkReport port m => port < 48 && m.wf
  | .roster port m => port < 48 && m.wf
  | .fabHold port m => port < 48 && m.wf
  | .holdAck port m => port < 48 && m.wf
  | .install port m => port < 48 && m.wf
  | .installAck port m => port < 48 && m.wf
  | .fabRelease port m => port < 48 && m.wf
  | .ssuOperation op => op.wf
  | .scatterAddBatch addr bf batch => addr % 64 == 0 && batch.contribs.all (fun c => c.1.length == (if bf then 32 else 16))
  | .memReadRetry addr _ => addr % 64 == 0 && addr < 2 ^ 52
  | .scrubRead addr _ _ => addr % 64 == 0 && addr < 2 ^ 52
  | .residueFailure c _ _ => c.wf
  | .sramUe pl _ => pl.wf
  | .coreFailing c _ => c.wf
  | .coreBench c => c.wf
  | .dlinkFlitError a b _ _ _ => dieLink a b
  | .powerUp _ _ mv => mv < 2 ^ 20
  | .post rs _ => rs.all (fun r => r.1 < 224)
  | .vinChange mv _ => mv < 2 ^ 20
  | .regulatorFault dom _ => domainCode dom
  | .classRiseHold cl core cls => cl < 8 && core < 28 && cls < 4
  | .fastClamp _ _ mv => mv < 2 ^ 20
  | .thermalSample r => r.length == 96 && r.all (fun t => t < 256)
  | .thermalTrip r => r.length == 96 && r.all (fun t => t < 256)
  | .domainEntry dom => domainCode dom
  | .domainWake dom => domainCode dom
  | .privilegedWake dom _ => 0x50 ≤ dom && dom ≤ 0x55
  | .parentVoteRelease dom => 0x50 ≤ dom && dom ≤ 0x55
  | .telemetryWindowEnd util _ => util ≤ 100
  | .dimmChange ch _ => ch < 12
  | .managementPacketResend port => port < 48
  | .fabPortUp port _ => port < 48
  | .ctxCreate _ | .ctxDestroy _ | .regionSet _ | .cancel _ | .clearSticky _ | .moveCopy _ | .moveFill _
  | .movePermute _ | .moveGatherBlocks _ | .moveScatterBlocks _ | .denseMm _ | .scrumSpmm _ | .scrumSpsp _
  | .scrumIntersect _ | .scrumGather _ | .scrumScatter _ | .scrumScatterAdd _ | .scrumEmbedBag _ | .scrumTopc _
  | .scrumPredictFfn _ | .vecEltwise _ | .vecActivate _ | .vecActivateBwd _ | .vecTableLoad _ | .fusedSoftmaxFwd _
  | .fusedSoftmaxBwd _ | .fusedLayernormFwd _ | .fusedLayernormBwd _ | .fusedRmsnormFwd _ | .fusedRmsnormBwd _
  | .collAllReduce _ | .collReduceScatter _ | .collAllGather _ | .collAllToAll _ | .collBroadcast _
  | .collBarrierOr _ | .fabGroupDefine _ | .fabGroupReadmit _ | .fabGroupRelease _ | .fabPut _ | .fabGet _
  | .playbookStart _ | .playbookStop _ | .playbookHold _ | .playbookResume _ | .optUpdate _ | .pbFeed _ | .pbPost _
  | .pbLoss _ | .pbVerdict _ | .draftOpen _ | .draftPropose _ | .draftMerge _ | .draftRunFwd _ | .draftRunBwd _
  | .draftCancel _ | .draftTransfer _ | .keepPair _ | .keepUnpair _ | .keepRestore _ _ | .keepCheck _ _
  | .distRegister _ | .saveShard _ | .saveRestore _ | .powerVote _ | .powerCapSet _ | .selfTest _ _
  | .repairSoft _ _ | .repairFuse _ _ | .diagRosterRead _ | .attest _ | .fwStage _ _ | .fwStageCommitSvn _
  | .lifecycleAdvance _ | .commandStart _ | .completionWrite _ | .relayAdmission _ | .cntClearSeq | .cntClearLiust
  | .cntClearFabric | .cntClearMemory | .cntClearDraft | .cntClearFoul | .cntClearScrum | .cntClearResidue
  | .fabEnSet _ | .fabEnClear _ | .passSwap | .recCtrlGo | .peerLoadGo | .capability | .statusWord | .readVin
  | .readIin _ | .readTemperature | .readPout | .pmbusRevision | .mfrId | .mfrModel | .mfrFeedId _ | .mfrScout
  | .mfrCool | .liustFlitError _ | .liustTrainingRetry | .liustLinkDown | .collTimeout _ | .heartbeatInterval
  | .foundingTimeout | .leaveTimeout | .reorientLifetimeWait | .rankOrderReduction _ | .boot | .resetN _ _
  | .seatedNRelease | .clockLoss | .limiterIntervalEnd _ _ | .tripHoldEnd | .liustLinkUp _ => true

end Sys2Proof
end

