-- ==== Sys2Proof/Tests/Slice0.lean ====
section
/-! SUPPORT. Tests of the model: ill-formed terms that the checks refuse, and witnesses for the hypotheses of statements. -/

namespace Sys2Proof.Tests

open Sys2Proof Sys2Proof.Machine

/-- Operands out of range, for the checks of well-formed commands. -/
def outside : CoreRef := CoreRef.mk 8 0 0
def wide : Packet := { hdr := { dst := 4096 } }
def far : Mgmt := { target := 4096 }
def good : CoreTest := CoreTest.mk 0#64 false 0#130 0#130

/-- The checks of well-formed commands refuse these, one ill-formed term for each check, part 1. -/
theorem test_illFormed_1 : ([
      .pbPhase 4,
      .pbLoop 4,
      .pbEndloop 4,
      .pbIfClean 4,
      .pbEndif 4,
      .pbStepEnd 4,
      .pbEnd 4,
      .pbSeed 4,
      .benchCheck 0 [(224, good)],
      .sqFetch 64,
      .commandAdmission 64,
      .heldCompletionFlush 64,
      .playbookIssue 4,
      .playbookEntryFailed 4,
      .playbookEnterHeld 4,
      .stepWindowClose 4,
      .cfgWr 4 8 (.write 0#64),
      .cfgWr 0 4 (.read 65536),
      .cfgWr 64 4 (.raw 0#256 []),
      .hostWr (2 ^ 52) 0 [] 0#64,
      .hostRd 0 0 96 0,
      .doorbell 64 0#64,
      .dmaResp 65536 0 [] 0#64,
      .dmaWrAck 65536 0,
      .dmaTimeout 65536,
      .sqCfgWrite 64 0 8 0#64,
      .cqCfgWrite 0 12 8 0#64,
      .cqHeadWrite 0 8 8 0#64,
      .feedTailWrite 4 0#32,
      .resultHeadWrite 4 0#32,
      .fabFlitError 48 true,
      .fabPortDown 48] : List Instr).all (fun i => !i.wf) = true := by decide

/-- The checks of well-formed commands refuse these, one ill-formed term for each check, part 2. -/
theorem test_illFormed_2 : ([
      .fabPortTrainingRetry 48,
      .cableChange (.fabric 48) true,
      .packetForward 0 {} 0 [],
      .remoteRdReq wide,
      .remoteWr wide,
      .remoteWrBulk wide,
      .collReady wide,
      .barrierFlag wide,
      .collData wide,
      .draftPacket wide,
      .remoteRdResp wide,
      .remoteWrAck wide,
      .collAck wide,
      .barrierResult wide,
      .errResp wide,
      .fabRemoteTimeout 65536,
      .hello 0 far,
      .heartbeat 0 far,
      .join 0 far,
      .leave 0 far,
      .linkReport 0 far,
      .roster 0 far,
      .fabHold 0 far,
      .holdAck 0 far,
      .install 0 far,
      .installAck 0 far,
      .fabRelease 0 far,
      .heartbeatMiss 48,
      .ssuOperation (.read 8 .clean 0),
      .scatterAddBatch 8 false { contribs := [], outcome := .clean }] : List Instr).all (fun i => !i.wf) = true := by decide

/-- The checks of well-formed commands refuse these, one ill-formed term for each check, part 3. -/
theorem test_illFormed_3 : ([
      .memReadRetry 8 .clean,
      .scrubRead 8 .clean .clean,
      .residueFailure outside true true,
      .sramUe (.coreStore outside) .failed,
      .coreFailing outside [],
      .coreBench outside,
      .dlinkFlitError 0 0 true true [],
      .powerUp (Straps.mk none none) true (2 ^ 20),
      .post [(224, good)] 0#8,
      .vinChange (2 ^ 20) 0,
      .regulatorFault 0x41 true,
      .classRiseHold 8 0 0,
      .fastClamp 0 0 (2 ^ 20),
      .thermalSample [],
      .thermalTrip [],
      .domainEntry 0x60,
      .domainWake 0x60,
      .privilegedWake 0x40 none,
      .parentVoteRelease 0x40,
      .telemetryWindowEnd 101 0,
      .dimmChange 12 none,
      .managementPacketResend 48,
      .fabPortUp 48 true] : List Instr).all (fun i => !i.wf) = true := by decide

section

/-! ## Witnesses: for each statement with hypotheses, values that meet them, one conjunct for each clause -/

set_option Elab.async false

/-- A packet with this opcode, target and parameter length, and parameters. -/
def pkt (op target : Nat) (params : List Byte) : List Byte :=
  natLe 64 (op + target * 2 ^ 76 + params.length * 2 ^ 80) ++ params

/-- A region with every permission over the first 4 GiB. -/
def all : Region :=
  { valid := true, place := false, remote := true, host := true, write := true, read := true, base := 0, limit := 2 ^ 32 - 1 }

/-- Memory that holds these bytes from this address on. -/
def memAt (a : Nat) (l : List Byte) : Mem := { cells := (enumFrom a l).filter (fun x => x.2 != 0#8) }

/-- The machine with the host's link up, every domain ACTIVE, the Referee running, POST done, and a region of context 0 over the
first 4 GiB of memory. -/
def up : State :=
  { State.reset with
    liust := { state := .up }
    referee := { State.reset.referee with state := .running }
    contexts := vset State.reset.contexts 0 { live := true, regions := vset (Vector.replicate 64 {}) 0 all }
    errors := { postDone := 0xFF#8 }
    power := { State.reset.power with domains := domainCodes.map (fun c => (c, Domain.mk .active 0 3 (Vector.replicate 4 0) true)) } }

/-- A running host command 0 with this opcode and these parameters, and that machine with it. -/
def host (op : Nat) (params : List Byte) : Cmd :=
  { id := 0, src := .host 0, ctx := 0, packet := pkt op (if clusterOpcode op then 1 else 0) params, st := .running }
def runs (c : Cmd) : State := { up with cmds := [c], nextId := 1 }
/-- The same with no limit of poisoned blocks. -/
def unlimited (c : Cmd) : Cmd :=
  { c with packet := natLe 64 (leNat (c.packet.take 64) + 0xFFFF * 2 ^ 112) ++ c.packet.drop 64 }

/-- With fabric ID 1, a member of a fabric. -/
def onFabric : State := { up with fabric := { up.fabric with en := true, moduleId := 1, state := .member } }

/-- An FP32 vector of 16 elements at address 0 as an operand. -/
def vec : Operand := { d := { base := 0, fmt := .fp32, ndim := 1, ext := [16] } }


theorem test_hyp_step : ({ State.reset with pending := [.clockLoss] } : State).pending = .clockLoss :: [] := rfl

theorem test_hyp_empty_queue : State.reset.pending = [] ∧ State.reset.alive = true
    ∧ (∀ n < 64, (State.reset.draft n).fetches = []) ∧ State.reset.fabric.backlog = []
    ∧ (∀ c ∈ State.reset.cmds, c.isRunning = true → c.opcode = 0x520 → ∃ r ∈ State.reset.fabric.remotes, r.id = c.id)
    ∧ (let s : State := { State.reset with power := { State.reset.power with on := false } }
      s.pending = [] ∧ s.alive = false) := by decide

theorem test_hyp_invariants : Canonical State.reset ∧ Numbered State.reset ∧ step State.reset = .next State.reset.tick := by
  refine ⟨(by decide : State.reset.mem.wf), (by decide : ∀ c ∈ State.reset.cmds, c.id < State.reset.nextId), rfl⟩

theorem test_hyp_stops : blockOfInstr (.scrubRead 0 .clean .clean) = some 0 ∧ State.reset.present 0 = true
    ∧ blockOfInstr (.scrubRead (2 ^ 49) .clean .clean) = some (2 ^ 49) ∧ State.reset.present (2 ^ 49) = false := by decide

/-- An enabled queue 63 with its completion queue 63. -/
def queued : State :=
  { up with
    sqs := vset up.sqs 63 { en := true, size := 4096, cq := 63, ctx := 0, tail := 4095 }
    cqs := vset up.cqs 63 { en := true, size := 2, wphase := true } }

theorem test_hyp_queues : up.hostUp = true ∧ queued.hostUp = true ∧ (queued.sq 63).en = true ∧ (queued.cq 63).en = true
    ∧ (up.sq 63).en = false ∧ State.reset.hostUp = false ∧ (63 : Nat) < 64 ∧ (8 : Nat) ≤ 8 := by decide

theorem test_hyp_indices : queued.hostUp = true ∧ (queued.sq 63).en = true ∧ (4095#64).toNat < (queued.sq 63).size
    ∧ (queued.sq 63).size ≤ 4096 ∧ (queued.sq 63).size ≤ (4096#64).toNat ∧ (up.sq 63).en = false
    ∧ State.reset.linkUp = false ∧ queued.linkUp = true ∧ up.linkUp = true
    ∧ bits (0#64).toNat 11 0 = (queued.cq 63).head
    ∧ bits (2#64).toNat 11 0 ≠ (queued.cq 63).head ∧ (queued.cq 63).size ≤ bits (2#64).toNat 11 0
    ∧ (queued.sq 63).stopped = false ∧ (queued.sq 63).waiting = [] ∧ queued.fetching 63 = false
    ∧ (queued.sq 63).head < (queued.sq 63).size ∧ (queued.sq 63).tail < (queued.sq 63).size
    ∧ (queued.sq 63).head ≠ (queued.sq 63).tail ∧ queued.dmaRoom true = true := by decide

/-- Queue 0 with a CLEAR_STICKY packet and one of an unknown opcode. -/
def waiting (op : Nat) : State :=
  { up with
    sqs := vset up.sqs 0 { en := true, size := 2, waiting := [pkt op 0 (natLe 16 0)] }
    cqs := vset up.cqs 0 { en := true, size := 2, wphase := true } }

theorem test_hyp_admission :
    (∀ c ∈ (waiting 0x030).cmds, c.id < (waiting 0x030).nextId)
    ∧ ((waiting 0x030).sq 0).waiting = pkt 0x030 0 (natLe 16 0) :: []
    ∧ (waiting 0x030).canReserve 0 = true ∧ (waiting 0x030).headerRej 0 (pkt 0x030 0 (natLe 16 0)) = none
    ∧ (waiting 0x030).hasTurn 0 = true
    ∧ (waiting 0x7FF).headerRej 0 (pkt 0x7FF 0 (natLe 16 0)) = some (Status.rejOpcode, 0) := by decide

/-- A waiting command, and one whose dependency failed. -/
def waits (c : Cmd) : Cmd := { c with st := .waiting }
def orphan : Cmd := { waits (host 0x030 (natLe 16 0)) with depFailed := true }

/-- Sequencer 0 runs a playbook that relays sequencer 1, which is held or runs; a MOVE_FILL on cluster 0 waits in it. -/
def relaying (st : SeqSt) (more : List Cmd) : State :=
  { up with
    cmds := [{ waits (host 0x101 (natLe 40 0)) with src := .seq 0 0 0#32 0 }] ++ more
    seqs := vset (vset up.seqs 0 { Seq.reset with st := .running, relay := true, relaySeq := 1, relayOf := 7 })
      1 { Seq.reset with st := st, starter := 7 } }
def relayed : Cmd := { waits (host 0x101 (natLe 40 0)) with src := .seq 0 0 0#32 0 }
def other : Cmd := { waits (host 0x101 (natLe 40 0)) with id := 1, src := .seq 1 0 0#32 0 }
/-- A PB_PHASE of sequencer 0 that waits for its dependencies. -/
def phasing : Cmd := { waits (host 0x640 []) with src := .seq 0 0 0#32 0 }

theorem test_hyp_start_1 :
    let s := runs orphan
    let t := runs (waits (host 0x030 (natLe 16 0)))
    s.cmd? 0 = some orphan ∧ orphan.st = .waiting ∧ orphan.depOutcome = some (rejCompl Status.rejDep) ∧ orphan.deps = []
    ∧ t.cmd? 0 = some (waits (host 0x030 (natLe 16 0))) ∧ (waits (host 0x030 (natLe 16 0))).depOutcome = none
    ∧ t.ready (waits (host 0x030 (natLe 16 0))) = true ∧ t.relayInWay (waits (host 0x030 (natLe 16 0))) = false
    ∧ t.isRelay (waits (host 0x030 (natLe 16 0))) = false ∧ immediateOp (waits (host 0x030 (natLe 16 0))).opcode = false
    ∧ (let p : State := { runs phasing with seqs := vset up.seqs 0 { Seq.reset with st := .running } }
      p.cmd? 0 = some phasing ∧ phasing.depOutcome = none ∧ p.ready phasing = true ∧ p.relayInWay phasing = false
      ∧ p.isRelay phasing = false ∧ immediateOp phasing.opcode = true) := by decide +kernel

theorem test_hyp_start_2 :
    let s := relaying .held []
    let t := relaying .running [other]
    s.cmd? 0 = some relayed ∧ relayed.depOutcome = none ∧ s.ready relayed = true ∧ s.relayInWay relayed = false
    ∧ s.isRelay relayed = true ∧ s.boundTo relayed = some 1 ∧ (s.seq 1).st = .held
    ∧ t.boundTo relayed = some 1 ∧ (t.seq 1).st ≠ .held ∧ t.boundReady relayed 1 = true ∧ t.ready relayed = true
    ∧ (relaying .idle []).boundTo relayed = none ∧ (relaying .idle []).ready relayed = true := by decide

/-- Cluster 1 with every core benched, and a VEC_ACTIVATE that waits for one of its threads. -/
def crowded : State :=
  { runs (waits (host 0x401 (natLe 24 0))) with
    clusters := vmod up.clusters 1 (fun k => { k with cores := Vector.replicate 28 { mode := .benched } }) }

/-- Starts: a check that fails, one where none does, and no place for a share. -/
theorem test_hyp_starts :
    (let c := waits (host 0x000 (natLe 8 0))
      let m := (runs c).chooseModes c
      let u := (c.clusters.foldl State.settleDomain m).boundary c
      m.placeable c ((runs c).before c) = true ∧ u.startRej c (u.startOf c) = some (Status.rejContext, 64))
    ∧ (let c := waits (host 0x000 (natLe 8 1))
      let m := (runs c).chooseModes c
      let u := (c.clusters.foldl State.settleDomain m).boundary c
      m.placeable c ((runs c).before c) = true ∧ u.startRej c (u.startOf c) = none ∧ u.errors.dlinkDown = [])
    ∧ (let c := waits (host 0x401 (natLe 24 0))
      (crowded.chooseModes c).placeable c (crowded.before c) = false) := by decide +kernel

/-- With no die link lost, no command needs one that is. -/
theorem test_no_link_lost (s : State) (x : Cmd) (h : s.errors.dlinkDown = []) : s.needsDownLink x = false := by
  simp [State.needsDownLink, h]

/-- A command that has ended, the first in completion queue 0. -/
def ended : Cmd := { host 0x030 (natLe 16 0) with st := .done {} }
def completing (held : Nat) : State :=
  { runs ended with
    liust := { state := .up }
    referee := { State.reset.referee with state := .running }
    cqs := vset State.reset.cqs 0 { en := true, size := 2, wphase := true, done := [0], held := held } }

theorem test_hyp_completion : (completing 0).cmd? 0 = some ended ∧ ended.src = .host 0 ∧ ended.st = .done {} ∧ ended.cq < 64
    ∧ ((completing 0).cq ended.cq).done.head? = some 0 ∧ ((completing 0).cq ended.cq).held = 0
    ∧ (completing 0).canWrite ended.cq 0 = true ∧ ((completing 1).cq 0).done = [0] ∧ ((completing 1).cq 0).held = 1
    ∧ (completing 1).canWrite 0 0 = true := by decide


/-- Context 1 is live. -/
def live1 (c : Cmd) : State := { runs c with contexts := vset up.contexts 1 { live := true } }
def destroy : Cmd := host 0x001 (natLe 8 1)
def bound1 : State := { live1 destroy with sqs := vset up.sqs 0 { ctx := 1 } }
/-- REGION_SET of entry 63 of context 1 to the first 4 GiB. -/
def regionSet : Cmd := host 0x002 (natLe 16 (1 + 63 * 2 ^ 8) ++ natLe 16 all.toNat)

theorem test_hyp_contexts :
    (runs (host 0x000 (natLe 8 1))).running? 0 0x000 = some (host 0x000 (natLe 8 1))
    ∧ worst ((runs (host 0x000 (natLe 8 1))).ctxCreateStart (host 0x000 (natLe 8 1))).rejs = none
    ∧ (live1 destroy).running? 0 0x001 = some destroy ∧ destroy.stage = .go
    ∧ worst ((live1 destroy).ctxDestroyStart destroy).rejs = none ∧ destroy.ctxParam = 1
    ∧ (live1 regionSet).running? 0 0x002 = some regionSet
    ∧ worst ((live1 regionSet).regionSetStart regionSet).rejs = none
    ∧ (live1 regionSet).ctxRunning regionSet.ctxParam 0 = false := by decide +kernel

theorem test_hyp_bound_queues : (bound1.sq 0).ctx = destroy.ctxParam ∧ (bound1.sq 63).ctx ≠ destroy.ctxParam := by decide +kernel

def cancel : Cmd := host 0x020 (natLe 8 0)
/-- A running MOVE_FILL. -/
def filling : Cmd := host 0x101 (natLe 40 0)
/-- Command 0 and a CANCEL of it as command 1. -/
def cancel1 : Cmd := { cancel with id := 1 }
def cancelling (x : Cmd) : State := { up with cmds := [x, cancel1], nextId := 2 }
/-- A PLAYBOOK_START that was accepted on sequencer 3. -/
def accepted : Cmd := { host 0x600 (natLe 88 0) with stage := .begun }

theorem test_hyp_cancel_none :
    (∀ x ∈ [ended, host 0xB00 [], { host 0x020 (natLe 8 0) with placed := false }, host 0x020 (natLe 8 0)],
      (cancelling x).running? 1 0x020 = some cancel1 ∧ worst ((cancelling x).cancelStart cancel1).rejs = none
      ∧ cancel1.stage = .go
      ∧ (∀ k ∈ (cancelling x).cmds, k.id ≠ 1 → cancel1.cancels k = true → k.placed = false ∨ k.opcode = 0x020 ∨ k.isDone = true
          ∨ (k.st = .running ∧ k.opcode ≠ 0x600 ∧ runsToEnd k.opcode = true))
      ∧ cancel1.cancels x = true ∧ (∀ k ∈ (cancelling x).cmds, k.stage = .go)
      ∧ (cancelling x).cmds.filter (fun k => k.id == 1) = [cancel1] ∧ cancel1.isHost = true) := by decide +kernel

theorem test_hyp_cancel_one :
    (∀ x ∈ [waits filling, filling, accepted],
      (cancelling x).running? 1 0x020 = some cancel1 ∧ worst ((cancelling x).cancelStart cancel1).rejs = none
      ∧ (cancelling x).cmds.filter (fun k => k.id != 1 && k.cancellable && cancel1.cancels k) = [x]
      ∧ (cancelling x).cmd? x.id = some x)
    ∧ (waits filling).st = .waiting ∧ filling.st = .running ∧ filling.opcode ≠ 0x600
    ∧ (let s : State := { cancelling accepted with seqs := vset up.seqs 3 { Seq.reset with st := .running, starter := 0 } }
      s.running? 1 0x020 = some cancel1 ∧ accepted.st = .running ∧ accepted.opcode = 0x600 ∧ accepted.stage ≠ .go
      ∧ accepted.isHost = true ∧ (s.seq 3).st ≠ .idle ∧ (s.seq 3).starter = accepted.id
      ∧ (∀ m < 4, m ≠ 3 → (s.seq m).st = .idle ∨ (s.seq m).starter ≠ accepted.id)
      ∧ (∀ k ∈ s.cmds, k.ofSeq 3 = false) ∧ s.openTables (s.seq 3).ctx = []) := by decide +kernel

def clearAll : Cmd := host 0x030 (natLe 16 0)
def clearOne : Cmd := host 0x030 (natLe 16 (csb + 0x700000))

theorem test_hyp_sticky :
    (runs clearAll).running? 0 0x030 = some clearAll ∧ worst ((runs clearAll).clearStickyStart clearAll).rejs = none
    ∧ clearAll.param 0 8 = 0
    ∧ (runs clearOne).running? 0 0x030 = some clearOne ∧ worst ((runs clearOne).clearStickyStart clearOne).rejs = none
    ∧ clearOne.param 0 8 ≠ 0 ∧ regAt (clearOne.param 0 8 - csb) = some .liustStatus := by decide

theorem test_hyp_sticky_widths :
    WidthsFit up ∧ up.memside.ddrUndef = 0#12 ∧ (Reg.liustStatus ≠ .scoutStatus)
    ∧ (∀ m ∈ [0, 0xFF00], let c := host 0x030 (natLe 8 (csb + 0x600000) ++ natLe 8 m)
      (runs c).running? 0 0x030 = some c ∧ (regAt (c.param 0 8 - csb)).isSome = true) := by
  refine ⟨⟨by decide +kernel, by decide +kernel, by decide⟩, by decide, by decide, by decide +kernel⟩

/-- PLAYBOOK_START of an image of the one entry PB_END. -/
def play : Cmd :=
  host 0x600 (natLe 8 4096 ++ natLe 8 0x10000 ++ natLe 8 0x20000 ++ natLe 4 4096 ++ natLe 4 4096 ++ natLe 2 1 ++ natLe 2 1
    ++ natLe 4 5 ++ natLe 8 0x3000 ++ natLe 4 0x3F800000 ++ natLe 4 0 ++ natLe 8 9 ++ natLe 4 1 ++ natLe 4 0)
def image (op : Nat) (params : List Byte) : List Byte :=
  natLe 64 (0x42504C47 + 2 ^ 32 + 2 ^ 64 + (128 + params.length) * 2 ^ 96) ++ pkt op 0 params
def played : State := { runs play with mem := memAt 4096 (image 0x64A []) }

theorem test_hyp_playbook_start :
    (let s : State := { played with cmds := [waits play] }
      let u := ((waits play).clusters.foldl State.settleDomain s).boundary (waits play)
      s.cmd? 0 = some (waits play) ∧ (waits play).st = .waiting ∧ (waits play).isHost = true ∧ (waits play).opcode = 0x600
      ∧ (waits play).depOutcome = none ∧ s.ready (waits play) = true ∧ u.startRej (waits play) (u.startOf (waits play)) = none
      ∧ u.errors.dlinkDown = [] ∧ (s.seq 0).st = .idle ∧ (∀ k ∈ s.cmds, k.pbPending = false)
      ∧ ∀ m < 0, (s.seq m).st ≠ .idle)
    ∧ played.running? 0 0x600 = some play ∧ play.stage = .go ∧ play.pbSeq < 4 ∧ played.mem.wf ∧ played.mem.undef = []
    ∧ play.param 40 8 % 64 = 0 ∧ played.retryPending (play.param 40 8) = false
    ∧ played.retryPending (play.param 40 8 + 64) = false := by decide +kernel

/-- Sequencer 3 in this state, at an entry of this opcode and parameters, in step 5. -/
def playing (st : SeqSt) (op : Nat) (params : List Byte) : State :=
  { up with
    mem := memAt 4096 (image op params)
    seqs := vset up.seqs 3 { Seq.reset with
      st := st, image := 4096, entries := 1, imageBytes := 128, step := 5#32, loops := [{ entry := 0, count := 2, passes := 1 }],
      windows := [{ step := 5#32, verdict := true }] } }
def control (op : Nat) : Cmd := host op (natLe 8 3)

theorem test_hyp_playbook_control :
    let s := fun (st : SeqSt) (op : Nat) => { playing st 0x640 [] with cmds := [control op], nextId := 1 }
    (s .running 0x601).running? 0 0x601 = some (control 0x601)
    ∧ worst ((s .running 0x601).playbookCtlStart (control 0x601)).rejs = none
    ∧ bit ((control 0x601).param 0 4) 8 = false ∧ (control 0x601).isHost = true ∧ ((s .running 0x601).seq 3).st = .running
    ∧ (s .running 0x602).running? 0 0x602 = some (control 0x602)
    ∧ worst ((s .running 0x602).playbookCtlStart (control 0x602)).rejs = none
    ∧ (s .held 0x603).running? 0 0x603 = some (control 0x603)
    ∧ worst ((s .held 0x603).playbookCtlStart (control 0x603)).rejs = none ∧ ((s .held 0x603).seq 3).st = .held
    ∧ (control 0x603).seqParam = 3 := by decide

/-- PLAYBOOK_STOP in mode 1, and an entry of the playbook in flight. -/
def stopNow : Cmd := { host 0x601 (natLe 8 (3 + 2 ^ 8)) with id := 1 }
def inFlight3 (st : CmdSt) : Cmd := { filling with src := .seq 3 0 5#32 0, st := st }

theorem test_hyp_playbook_stop_now :
    (∀ l ∈ [[], [inFlight3 .waiting], [inFlight3 .running]],
      let s : State := { playing .running 0x640 [] with cmds := l ++ [stopNow], nextId := 2 }
      s.running? 1 0x601 = some stopNow ∧ worst (s.playbookCtlStart stopNow).rejs = none
      ∧ bit (stopNow.param 0 4) 8 = true ∧ stopNow.isHost = true ∧ stopNow.seqParam = 3 ∧ s.openTables (s.seq 3).ctx = []
      ∧ s.cmds.filter (fun k => k.ofSeq 3) = l ∧ ∀ k ∈ l, s.cmd? k.id = some k)
    ∧ (inFlight3 .waiting).st = .waiting ∧ (inFlight3 .running).st = .running
    ∧ runsToEnd (inFlight3 .running).opcode = false ∧ (inFlight3 .running).opcode ≠ 0x600 := by decide +kernel

theorem test_hyp_issue :
    let s := playing .running 0x101 (natLe 40 0)
    (∀ c ∈ s.cmds, c.id < s.nextId) ∧ (s.seq 3).entry < (s.seq 3).entries ∧ s.seqWantsPlace 3 = true
    ∧ s.hasTurn 67 = true := by decide

theorem test_hyp_control_entries :
    (∀ op ∈ [0x640, 0x641, 0x642, 0x647, 0x648, 0x64B], let s := playing .running op (natLe 16 0)
      s.seqAt 3 op = true ∧ (∀ c ∈ s.cmds, c.id < s.nextId) ∧ s.nextDeps (s.seq 3) = [])
    ∧ ((playing .running 0x642 []).seq 3).loops = { entry := 0, count := 2, passes := 1 } :: []
    ∧ ((playing .running 0x647 []).seq 3).window? ((playing .running 0x647 []).seq 3).step
        = some { step := 5#32, verdict := true }
    ∧ (playing .running 0x64B []).rngBusy = false
    ∧ (let s : State := { playing .running 0x64B [] with cmds := [host 0x401 (natLe 24 (2 ^ 132))], nextId := 1 }
      s.seqAt 3 0x64B = true ∧ s.rngBusy = true ∧ s.nextDeps (s.seq 3) = []) := by decide +kernel

/-- Sequencer 3 at a PB_PHASE that depends on its entry 0, which is in flight. -/
def depends : State :=
  { playing .running 0 [] with
    mem := memAt 4096 (image 0x640 [] ++ natLe 64 (0x640 + 2 ^ 96)), nextId := 1
    cmds := [{ waits (host 0x101 (natLe 40 0)) with src := .seq 3 0 5#32 0 }]
    seqs := vset up.seqs 3 { Seq.reset with
      st := .running, image := 4096, entries := 2, entry := 1, offset := 128, imageBytes := 192, issues := [(0, 0)] } }

theorem test_hyp_control_dependencies :
    depends.seqAt 3 0x640 = true ∧ (∀ c ∈ depends.cmds, c.id < depends.nextId) ∧ depends.nextDeps (depends.seq 3) ≠ []
    ∧ depends.seqWantsPlace 3 = true ∧ depends.hasTurn 67 = true := by decide +kernel

/-- The same sequencer, held: its next entry cannot be issued. -/
def dependsHeld : State := { depends with seqs := vmod depends.seqs 3 (fun q => { q with st := .held }) }

theorem test_hyp_cannot_issue : ¬CanIssue 3 dependsHeld ∧ Numbered dependsHeld := by
  refine ⟨fun h => ?_, (by decide +kernel : ∀ c ∈ dependsHeld.cmds, c.id < dependsHeld.nextId)⟩
  rcases h with h | h
  · exact absurd h (by decide +kernel)
  · exact absurd h.1 (by decide +kernel)

theorem test_hyp_can_issue : CanIssue 3 depends ∧ CanIssue 3 (playing .running 0x640 []) :=
  ⟨.inr ⟨by decide +kernel, by decide +kernel⟩, .inl (by decide +kernel)⟩

/-- A command of sequencer 3 that waits. -/
def inflight : Cmd := { waits filling with src := .seq 3 0 5#32 0 }

theorem test_hyp_step_ends :
    (∀ op ∈ [0x649, 0x64A], (playing .running op []).seqAt 3 op = true
      ∧ (playing .running op []).nextDeps ((playing .running op []).seq 3) = [])
    ∧ ({ playing .running 0x64A [] with cmds := [inflight] } : State).cmds.any (fun c => c.ofSeq 3) = true
    ∧ ((playing .running 0x64A []).modSeq 3 (fun q => { q with failed := some (0, 5#32, 0x202) })).seq 3
        = { (playing .running 0x64A []).seq 3 with failed := some (0, 5#32, 0x202) }
    ∧ ((playing .running 0x64A []).seq 3).st ≠ .idle
    ∧ ((playing .holding 0x64A []).seq 3).st = .holding ∧ ((playing .holding 0x64A []).seq 3).holdAtBoundary = false
    ∧ ((playing .holding 0x64A []).seq 3).failed = none ∧ (playing .holding 0x64A []).inStep 3 4#32 = []
    ∧ ((playing .running 0x64A []).modSeq 3 (fun q => { q with windows := [{ step := 5#32, closed := true }] })).inStep 3 5#32
        = []
    ∧ ((playing .running 0x64A []).seq 3).cancelled = false ∧ ((playing .running 0x64A []).seq 3).failed.isSome = false
    ∧ (playing .running 0x64A []).cmds.any (fun c => c.ofSeq 3) = false
    ∧ (∀ b, ((playing .running 0x649 []).modSeq 3 (fun q => { q with stopAtBoundary := b })).seqAt 3 0x649 = true
      ∧ (((playing .running 0x649 []).modSeq 3 (fun q => { q with stopAtBoundary := b })).seq 3).stopAtBoundary = b) := by decide

/-- PB_FEED or PB_POST of a vector, with its operand resolved, of sequencer 3. -/
def ring (op : Nat) (o : Operand) : Cmd := { host op (natLe 16 0) with src := .seq 3 0 5#32 0, ops := [(0, o)] }
def ringing (c : Cmd) : State :=
  { runs c with
    seqs := vset up.seqs 3 { Seq.reset with st := .running, inBase := 0x10000, inSlot := 4096, inSlots := 1
                                            resBase := 0x20000, resSlot := 4096, resSlots := 1, feedTail := 1#32 } }

theorem test_hyp_rings :
    (∀ op ∈ [0x643, 0x644], (ringing (ring op vec)).running? 0 op = some (ring op vec)
      ∧ (ring op vec).op? 0 = some vec ∧ (ringing (ring op vec)).earlierSame (ring op vec) = false ∧ (ring op vec).seqNum = 3)
    ∧ ((ringing (ring 0x643 vec)).ringCopy (vec.inSlot 0x10000) vec).overLimit (ring 0x643 vec) = false
    ∧ ((ringing (ring 0x644 vec)).ringCopy vec (vec.inSlot 0x20000)).overLimit (ring 0x644 vec) = false
    ∧ (ringing (ring 0x643 vec)).retryBlocks ((ringing (ring 0x643 vec)).ringCopy (vec.inSlot 0x10000) vec) = false
    ∧ (ringing (ring 0x644 vec)).retryBlocks ((ringing (ring 0x644 vec)).ringCopy vec (vec.inSlot 0x20000)) = false
    ∧ (let s : State := { ringing (ring 0x643 vec) with memside := { up.memside with pendingUe := [0] } }
      s.running? 0 0x643 = some (ring 0x643 vec) ∧ s.retryBlocks (s.ringCopy (vec.inSlot 0x10000) vec) = true)
    ∧ (let s : State := { ringing (ring 0x644 vec) with memside := { up.memside with pendingUe := [0x20000] } }
      s.running? 0 0x644 = some (ring 0x644 vec) ∧ s.retryBlocks (s.ringCopy vec (vec.inSlot 0x20000)) = true)
    ∧ (ringing (ring 0x643 vec)).hostUp = true ∧ ((ringing (ring 0x643 vec)).seq 3).st ≠ .idle := by decide

/-- PB_LOSS: a loss of 4, or a NaN, against an average of 1, or none. -/
def losing (loss ewma : Word32) : State :=
  { runs (ring 0x645 vec) with
    mem := memAt 0 (natLe 4 loss.toNat)
    seqs := vset up.seqs 3 { Seq.reset with st := .running, ewma := ewma } }

theorem test_hyp_loss :
    (losing 0x40800000#32 0x3F800000#32).running? 0 0x645 = some (ring 0x645 vec) ∧ (ring 0x645 vec).op? 0 = some vec
    ∧ (vec.lin (losing 0x40800000#32 0x3F800000#32).mem 0 0).f32 = 0x40800000#32
    ∧ (ofF32 0x40800000#32).nonFinite = false ∧ (ofF32 0x7FC00000#32).nonFinite = true ∧ (ofF32 0x7FC00000#32).isNan = true
    ∧ bit (leNat (natLe 8 4)) 2 = true
    ∧ (ofF32 (fmul 0x3F800000#32 (fadd 0x3F800000#32 (spikeThr 4)))).lt (ofF32 0x40800000#32) = true := by decide


/-- A packet of this type from module 2 to module 1, of this many bytes, at this address. -/
def from2 (type : PktType) (addr n : Nat) : Packet :=
  { type := type, hdr := { dst := 1, src := 2, addr := addr, len := n, tag := 7 }, payload := List.replicate n 1#8 }
abbrev Comes (s : State) (p : Packet) (t : PktType) : Prop :=
  p.type = t ∧ p.hdr.dst = s.moduleId ∧ s.fabOn = true ∧ p.hdr.age < s.lifetime ∧ p.bad = false ∧ lenOk p = true

theorem arrives_of_comes {s : State} {p : Packet} {t : PktType} (h : Comes s p t) : Arrives s p t := h

theorem test_hyp_bad_arrivals :
    arrivalOf (.remoteWr (from2 .wr 0 64)) = some (from2 .wr 0 64, .wr) ∧ (from2 .wr 0 64).type = .wr ∧ onFabric.fabOn = true
    ∧ ({ from2 .wr 0 64 with hdr := { dst := 2 } } : Packet).hdr.dst ≠ onFabric.moduleId
    ∧ (from2 .wr 0 64).hdr.dst = onFabric.moduleId
    ∧ onFabric.lifetime ≤ ({ from2 .wr 0 64 with hdr := { dst := 1, age := onFabric.lifetime } } : Packet).hdr.age
    ∧ (from2 .wr 0 32).hdr.age < onFabric.lifetime ∧ lenOk (from2 .wr 0 32) = false
    ∧ (let p : Packet := { from2 .wr 0 64 with bad := true }
      p.type = .wr ∧ p.hdr.dst = onFabric.moduleId ∧ p.hdr.age < onFabric.lifetime ∧ p.bad = true) := by decide

theorem test_hyp_remote_accesses :
    (Comes onFabric (from2 .wr 0 256) .wr ∧ onFabric.remoteRej (from2 .wr 0 256) 256 true = 0)
    ∧ (Comes onFabric (from2 .wr (2 ^ 32) 64) .wr ∧ onFabric.remoteRej (from2 .wr (2 ^ 32) 64) 64 true = 2)
    ∧ (Comes onFabric (from2 .wrBulk 0 320) .wrBulk ∧ onFabric.remoteRej (from2 .wrBulk 0 320) 320 true = 0)
    ∧ (Comes onFabric (from2 .wrBulk (2 ^ 32) 320) .wrBulk ∧ onFabric.remoteRej (from2 .wrBulk (2 ^ 32) 320) 320 true = 2)
    ∧ (∀ a ∈ [0, 2 ^ 32], Comes onFabric { type := .rdReq, hdr := { dst := 1, addr := a, len := 64 } } .rdReq)
    ∧ onFabric.remoteRej { type := .rdReq, hdr := { dst := 1, addr := 0, len := 64 } } 64 false = 0
    ∧ onFabric.remoteRej { type := .rdReq, hdr := { dst := 1, addr := 2 ^ 32, len := 64 } } 64 false ≠ 0 := by decide +kernel

/-- The machine after stack 0 failed to wake. -/
def stackFailed : State := onFabric.modDomain 0x10 (fun d => { d with st := .failed })

theorem test_hyp_reached : Reached onFabric 0 256 ∧ ¬Reached stackFailed 0 64 ∧ stackFailed.remoteRej (from2 .wr 0 64) 64 true = 0 := by
  refine ⟨(by decide +kernel : ∀ c ∈ domainsAt onFabric 0 256 [], (woken onFabric 0 256 []).reaches c = true), fun h => ?_,
    by decide +kernel⟩
  exact absurd (h 0x10 (by decide +kernel)) (by decide +kernel)

/-- FAB_PUT or FAB_GET of a vector, to or from module 2, and its request outstanding. -/
def remote (op : Nat) : Cmd := { host op (natLe 32 (2 * 2 ^ 224)) with ops := [(0, vec), (8, vec)] }
def requests (c : Cmd) (write : Bool) : State :=
  { onFabric with cmds := [c], nextId := 1, fabric := { onFabric.fabric with remotes := [Remote.mk 7 0 2 0 64 write 0] } }

theorem test_hyp_responses :
    (requests (remote 0x520) true).cmd? 0 = some (remote 0x520) ∧ (remote 0x520).opcode ≠ 0x802 ∧ (remote 0x521).opcode ≠ 0x802
    ∧ (requests (remote 0x521) false).cmd? 0 = some (remote 0x521)
    ∧ (∀ w, (requests (remote 0x520) w).fabric.backlog = [])
    ∧ Comes (requests (remote 0x520) true) (from2 .wrAck 0 0) .wrAck
    ∧ (requests (remote 0x520) true).remote? (from2 .wrAck 0 0) = some (Remote.mk 7 0 2 0 64 true 0)
    ∧ (∀ x ∈ (requests (remote 0x520) true).fabric.remotes, x.id = 0 → x.tag = 7)
    ∧ Comes (requests (remote 0x520) true) (from2 .errResp 0 0) .errResp
    ∧ (requests (remote 0x520) true).fabric.remotes.find? (fun x => x.tag == 7) = some (Remote.mk 7 0 2 0 64 true 0)
    ∧ Comes (requests (remote 0x521) false) (from2 .rdResp 0 64) .rdResp
    ∧ (requests (remote 0x521) false).remote? (from2 .rdResp 0 64) = some (Remote.mk 7 0 2 0 64 false 0)
    ∧ ((remote 0x521).op? 0).isSome = true ∧ (requests (remote 0x520) true).memside.held = []
    ∧ (let s : State := { requests (remote 0x520) true with memside := { up.memside with held := [{ loc := 0, mask := 1, val := 1 }] } }
      Comes s (from2 .wrAck 0 0) .wrAck ∧ s.memside.held ≠ []) := by decide +kernel

/-- Module 1 with ports 3 and 4, in these states, and a way to module 2 over port 4. -/
def routed (st : PortState) : State :=
  { onFabric with fabric := { onFabric.fabric with
      ports := vset (vset onFabric.fabric.ports 3 { state := .up }) 4 { state := st }
      inForce := [(2, { ports := 0x10#48, hops := 1, valid := true })] } }
def passing (dst : Nat) : Packet := { type := .rdReq, hdr := { dst := dst, len := 64, age := 1 } }

/-- The same with the time spent here, 5 µs, added. -/
def aged (dst : Nat) : Packet :=
  { passing dst with hdr := { (passing dst).hdr with age := min ((passing dst).hdr.age + 5 + 1) 65535 } }

theorem test_hyp_forwarding :
    ((routed .up).port 3).state = .up ∧ (passing 2).hdr.dst ≠ (routed .up).moduleId ∧ (routed .up).fabOn = true
    ∧ (routed .up).fabric.state ≠ .refused ∧ (passing 2).hdr.age < (routed .up).lifetime ∧ lenOk (passing 2) = true
    ∧ (passing 2).bad = false ∧ typeKnown (passing 2).type = true ∧ typeKnown (.unknown 12) = false
    ∧ lenOk (passing 3) = true ∧ (routed .up).route (aged 2) (some 3) [] = .port 4
    ∧ (routed .up).route (aged 3) (some 3) [] = .none ∧ (routed .down).route (aged 2) (some 3) [] = .wait
    ∧ (let p : Packet := { passing 2 with hdr := { (passing 2).hdr with len := 100 } }
      p.bad = false ∧ lenOk p = false ∧ p.hdr.dst ≠ (routed .up).moduleId ∧ p.hdr.age < (routed .up).lifetime)
    ∧ (let p : Packet := { passing 2 with hdr := { (passing 2).hdr with age := 65535 } }
      p.hdr.dst ≠ (routed .up).moduleId ∧ (routed .up).lifetime ≤ p.hdr.age)
    ∧ (let p : Packet := { passing 2 with type := .unknown 12 }
      typeKnown p.type = false ∧ p.hdr.age < (routed .up).lifetime)
    ∧ (let p : Packet := { passing 2 with bad := true }
      p.bad = true ∧ typeKnown p.type = true ∧ p.hdr.age < (routed .up).lifetime)
    ∧ ((routed .up).port 5).state ≠ .up
    ∧ (let s : State := { routed .up with fabric := { (routed .up).fabric with state := .refused } }
      s.fabOn = true ∧ (s.port 3).state = .up ∧ s.fabric.state = .refused) := by decide

/-- An empty FP32 vector. -/
def none16 : Operand := { d := { base := 0, fmt := .fp32, ndim := 1, ext := [0] } }

theorem test_hyp_put_and_get :
    (∀ op ∈ [0x520, 0x521], ({ onFabric with cmds := [remote op] } : State).running? 0 op = some (remote op)
      ∧ (remote op).stage = .go ∧ (remote op).op? 0 = some vec ∧ (remote op).op? 8 = some vec ∧ (remote op).grad = false
      ∧ (remote op).remoteId = 2)
    ∧ (∀ op ∈ [0x520, 0x521], let c : Cmd := unlimited { host op (natLe 32 (2 ^ 224)) with ops := [(0, vec), (8, vec)] }
      ({ onFabric with cmds := [c] } : State).running? 0 op = some c ∧ c.stage = .go ∧ c.op? 0 = some vec ∧ c.op? 8 = some vec
      ∧ c.remoteId = onFabric.moduleId ∧ c.poisonLimit = 0xFFFF)
    ∧ (∀ op ∈ [0x520, 0x521], let c : Cmd := { remote op with ops := [(0, none16), (8, none16)] }
      ({ onFabric with cmds := [c] } : State).running? 0 op = some c ∧ c.stage = .go ∧ c.op? 0 = some none16
      ∧ c.op? 8 = some none16 ∧ c.remoteId ≠ onFabric.moduleId)
    ∧ none16.d.pieces = [] ∧ onFabric.fabric.backlog = [] ∧ onFabric.fabric.remotes = []
    ∧ onFabric.memside.held = [] ∧ onFabric.memside.pendingUe = []
    ∧ onFabric.declaredAbsent 2 = false ∧ vec.d.pieces = [(0, 0, 1)] ∧ (2 : Nat) ≠ onFabric.moduleId
    ∧ ({ onFabric with fabric := { onFabric.fabric with roster := { members := [Member.mk 2 1 true] } } } : State).declaredAbsent 2
      = true := by decide +kernel

/-! Groups, collectives and barriers. -/

/-- The list of the one member 1 at address 4096, and FAB_GROUP_DEFINE of group 5 with it. -/
def list1 : Operand := { d := { base := 4096, fmt := .int32, ndim := 1, ext := [1] } }
def define : Cmd :=
  { host 0x510 (natLe 8 (2 ^ 63 + 64) ++ natLe 16 0 ++ natLe 4 5 ++ natLe 4 9 ++ natLe 32 0
      ++ natLe 16 4096 ++ natLe 8 (0x109) ++ natLe 104 1) with ops := [(0, list1)] }
/-- Group 5 of modules 1 and 2. -/
def pair5 : Group := { num := 5, members := [1, 2], seq := 9 }
def grouped (cmds : List Cmd) (colls : List Coll) (absent : List Nat) : State :=
  { onFabric with
    mem := memAt 4096 [1#8], cmds := cmds, nextId := 1
    fabric := { onFabric.fabric with groups := [{ pair5 with absent := absent }], colls := colls } }
def release : Cmd := host 0x512 (natLe 32 (5 * 2 ^ 192))
def readmit : Cmd := host 0x511 (natLe 32 (5 * 2 ^ 192 + 2 * 2 ^ 224))

theorem test_hyp_groups :
    (let s : State := { grouped [define] [] [] with fabric := onFabric.fabric }
     s.running? 0 0x510 = some define ∧ s.group? define.groupParam = none ∧ s.fabric.groups.length < 64
      ∧ s.groupCmds define.groupParam = [])
    ∧ (grouped [define] [] []).running? 0 0x510 = some define
    ∧ ((grouped [define] [] []).group? define.groupParam).isSome = true
    ∧ (let s : State := { runs define with fabric := { up.fabric with groups := List.replicate 64 { pair5 with num := 6 } } }
      s.running? 0 0x510 = some define ∧ 64 ≤ s.fabric.groups.length)
    ∧ (grouped [release] [] []).running? 0 0x512 = some release
    ∧ worst ((grouped [release] [] []).groupReleaseStart release).rejs = none
    ∧ (grouped [readmit] [] [2]).running? 0 0x511 = some readmit
    ∧ worst ((grouped [readmit] [] [2]).groupReadmitStart readmit).rejs = none
    ∧ (grouped [readmit] [] [2]).group? readmit.groupParam = some { pair5 with absent := [2] } := by decide +kernel


/-- A collective of group 5 whose number is 9, running, on a vector. -/
def coll (op : Nat) : Cmd := { host op (natLe 32 (5 * 2 ^ 192)) with ops := [(0, vec), (8, vec)], seqNo := some 9 }
def collK (kind : Nat) (absent : List Nat) : Coll :=
  { id := 0, kind := kind, group := 5, seq := 9, members := [1, 2], src := some vec, dst := some vec, absent := absent }
def collS (op kind : Nat) (absent : List Nat) : State := grouped [coll op] [collK kind absent] absent

theorem test_hyp_collectives :
    (∀ i ∈ [(Instr.collAllReduce 0, 0x500, 0), (.collReduceScatter 0, 0x501, 1), (.collAllGather 0, 0x502, 2),
        (.collAllToAll 0, 0x503, 3), (.collBroadcast 0, 0x504, 4)],
      collectiveOf i.1 = some (0, i.2.1, i.2.2) ∧ (coll i.2.1).stage = .go
      ∧ (grouped [coll i.2.1] [] []).running? 0 i.2.1 = some (coll i.2.1)
      ∧ (grouped [coll i.2.1] [] []).group? (coll i.2.1).groupParam = some pair5
      ∧ ({ onFabric with cmds := [coll i.2.1] } : State).group? (coll i.2.1).groupParam = none) := by decide +kernel

/-- Group 5 is this module alone: its other member is absent. -/
abbrev Lone (s : State) (g : Group) : Prop :=
  rankIn g.members s.moduleId < g.members.length
  ∧ ∀ r < g.members.length, (s.absentRanks g).contains r = (r != rankIn g.members s.moduleId)

theorem alone_of_lone {s : State} {g : Group} (h : Lone s g) : AloneIn s g := h

/-- Collective `op` with these block vectors. -/
def loneColl (op n : Nat) : Cmd :=
  unlimited { coll op with ops := [(0, vec), (8, { d := { base := 64, fmt := .fp32, ndim := 1, ext := [16 * n] } })] }

theorem test_hyp_lone_collectives :
    ∀ i ∈ [(0x500, 0, 1), (0x501, 1, 0), (0x502, 2, 2), (0x503, 3, 1), (0x504, 4, 1)],
      let c := loneColl i.1 i.2.2
      let s := grouped [c] [] [2]
      let o := c.op? 8
      s.running? 0 i.1 = some c ∧ s.group? c.groupParam = some { pair5 with absent := [2] } ∧ c.op? 0 = some vec
      ∧ o.isSome = true ∧ Lone s { pair5 with absent := [2] } ∧ s.fabric.colls = [] ∧ s.fabric.early = []
      ∧ c.poisonLimit = 0xFFFF ∧ bit c.gctrl 28 = false
      ∧ (o.map Operand.blockCount).getD 0 = (if i.2.1 = 1 then shardLen vec.blockCount 2 (rankIn [1, 2] s.moduleId)
          else if i.2.1 = 2 then 2 * vec.blockCount else vec.blockCount) := by decide +kernel

/-- A packet of group 5 with this sequence number and rank. -/
def ofGroup (type : PktType) (seq rank n : Nat) : Packet :=
  { type := type, hdr := { dst := 1, src := 2, group := 5, seq := seq, rank := rank, len := n }, payload := List.replicate n 0#8 }

theorem test_hyp_collective_packets :
    let s := collS 0x500 0 []
    (Comes s (ofGroup .collReady 9 1 0) .collReady ∧ s.collOf (ofGroup .collReady 9 1 0) = some (collK 0 []))
    ∧ (Comes s (ofGroup .collReady 10 1 0) .collReady ∧ s.collOf (ofGroup .collReady 10 1 0) = none
      ∧ s.group? 5 = some pair5 ∧ (10 : Nat) = (s.currentSeq pair5 + 1) % 2 ^ 32)
    ∧ (onFabric.collOf (ofGroup .collReady 9 1 0) = none ∧ onFabric.group? 5 = none)
    ∧ (Comes s (ofGroup .collData 9 1 64) .collData ∧ (collK 0 []).present 1 = true ∧ (1 : Nat) < (collK 0 []).g
      ∧ 0 + 64 ≤ 64 * (collK 0 []).targetBlocks ∧ 64 * (collK 0 []).targetBlocks < 0 + 128
      ∧ Comes s (ofGroup .collData 9 1 128) .collData)
    ∧ ((collS 0x500 0 [1]).collOf (ofGroup .collData 9 1 64) = some (collK 0 [1]) ∧ (collK 0 [1]).present 1 = false)
    ∧ Comes s (ofGroup .collAck 9 1 0) .collAck
    ∧ s.coll? 0 = some (collK 0 []) ∧ s.cmd? 0 = some (coll 0x500)
    ∧ (∃ r < (collK 0 []).g, r ≠ s.collRank (collK 0 []) ∧ (collK 0 []).present r = true) := by decide +kernel

/-- A barrier of group 5 of modules 1 and 2, seen by module 1 as rank 1: its leader is module 0. -/
def barrier (op : Nat) : Cmd :=
  { host op (natLe 4 5 ++ natLe 20 0 ++ natLe 8 5) with
    seqNo := some 9, src := if op == 0x646 then .seq 0 0 5#32 0 else .host 0 }
def group01 : Group := { num := 5, members := [0, 1], seq := 9 }
def barrierS (op : Nat) (colls : List Coll) : State :=
  { onFabric with cmds := [barrier op], nextId := 1
                  fabric := { onFabric.fabric with groups := [group01], colls := colls,
                                                    roster := { members := [Member.mk 0 0 false, Member.mk 1 1 false] } } }
def barrierK : Coll := { id := 0, kind := 5, group := 5, seq := 9, members := [0, 1] }

theorem test_hyp_lone_barriers :
    ∀ op ∈ [0x505, 0x646], let s : State := { barrierS op [] with
          fabric := { (barrierS op []).fabric with groups := [{ group01 with absent := [0] }] } }
      let g : Group := { group01 with absent := [0] }
      s.running? 0 op = some (barrier op) ∧ (barrier op).stage = .go ∧ Lone s g ∧ s.fabric.colls = []
      ∧ s.group? (if op = 0x505 then (barrier op).groupParam else bits ((barrier op).param 0 4) 15 0) = some g
      ∧ (barrier op).seqNum < 4 ∧ s.retryPending ((barrier op).param 8 8) = false := by decide +kernel

theorem test_hyp_barriers :
    (∀ op ∈ [0x505, 0x646],
      (barrierS op []).running? 0 op = some (barrier op) ∧ (barrier op).stage = .go
      ∧ (barrierS op []).group? (if op = 0x505 then (barrier op).groupParam else bits ((barrier op).param 0 4) 15 0)
        = some group01
      ∧ (barrierS op []).fabric.colls = [] ∧ (barrierS op []).fabric.early = []
      ∧ ((barrierS op []).newColl (barrier op) group01 5 false).leader
        ≠ (barrierS op []).collRank ((barrierS op []).newColl (barrier op) group01 5 false)
      ∧ (barrierS op [barrierK]).coll? 0 = some barrierK ∧ (barrierS op [barrierK]).cmd? 0 = some (barrier op)
      ∧ (barrier op).opcode = op ∧ (barrier op).seqNum < 4)
    ∧ (∀ t ∈ [(PktType.barrierFlag, 0), (PktType.barrierFlag, 8), (PktType.barrierResult, 8)],
      Comes (barrierS 0x505 [barrierK]) (ofGroup t.1 9 0 t.2) t.1
      ∧ (barrierS 0x505 [barrierK]).collOf (ofGroup t.1 9 0 t.2) = some barrierK)
    ∧ barrierK.kind = 5 ∧ (barrierS 0x505 [barrierK]).retryPending ((barrier 0x505).param 8 8) = false := by decide +kernel

theorem test_hyp_verdict :
    Comes (barrierS 0x646 [barrierK]) (ofGroup .barrierResult 9 0 8) .barrierResult
    ∧ (barrierS 0x646 [barrierK]).collOf (ofGroup .barrierResult 9 0 8) = some barrierK
    ∧ (Barrier.ofNat 0).or = false ∧ (Barrier.ofNat 1).or = true
    ∧ bits 0x10 15 4 ≠ 0 ∧ (0#32 + 1#32).toNat = bits 0x10 15 4 ∧ (1#32 + 1#32).toNat ≠ bits 0x10 15 4
    ∧ bits 0 15 4 = 0 := by decide +kernel

/-! Expert draft. -/

/-- Draft table 0 bound in context 0 by group 5, its generation 3 open or not, with this placement. -/
def table0 (isOpen : Bool) : Draft :=
  { bound := true, desc := { group := 5 }, gen := 3, genOpen := isOpen, listDone := true, x := some vec, genMembers := [1] }
def drafting (c : Cmd) (d : Draft) : State :=
  { grouped [c] [] [] with drafts := vset onFabric.drafts 0 d }
def draft (op : Nat) (stage : Stage) : Cmd :=
  { host op (natLe 88 0) with stage := stage, ops := [0, 8, 16, 24, 32, 40, 48, 64].map (fun k => (k, vec)) }

theorem test_hyp_draft_tables :
    (drafting (draft 0x700 .go) {}).running? 0 0x700 = some (draft 0x700 .go)
    ∧ (drafting (draft 0x700 .go) (table0 true)).running? 0 0x700 = some (draft 0x700 .go)
    ∧ (∀ d ∈ [{}, table0 true], (drafting (draft 0x700 .go) d).inFlightBefore 0 0 = [])
    ∧ Cmd.draftTableByte (draft 0x700 .go).held < 64
    ∧ (draft 0x701 .go).draftTable < 64 ∧ (draft 0x702 .go).draftTable < 64
    ∧ (drafting (draft 0x701 .go) (table0 false)).running? 0 0x701 = some (draft 0x701 .go)
    ∧ (draft 0x701 .go).op? 0 = some vec
    ∧ (drafting (draft 0x701 .go) (table0 false)).group? ((drafting (draft 0x701 .go) (table0 false)).draft 0).desc.group
      = some pair5
    ∧ (drafting (draft 0x702 .go) (table0 true)).running? 0 0x702 = some (draft 0x702 .go)
    ∧ ((drafting (draft 0x702 .go) (table0 true)).draft 0).genOpen = true
    ∧ (∀ e ∈ ownedBy (table0 true).genPlace 1, ∀ m ∈ (table0 true).present,
        ((table0 true).whole 0 m e).isSome = true)
    ∧ (∀ b, let c := host 0x705 (natLe 8 0)
        (drafting c (table0 b)).running? 0 0x705 = some c ∧ worst ((drafting c (table0 b)).draftCancelStart c).rejs = none
        ∧ (drafting c (table0 b)).ofGeneration 0 0 = [] ∧ ((drafting c (table0 b)).draft 0).genOpen = b) := by decide +kernel

theorem test_hyp_draft_runs :
    (∀ op ∈ [0x703, 0x704], (drafting (draft op .begun) (table0 true)).running? 0 op = some (draft op .begun)
      ∧ (draft op .begun).stage = .begun ∧ (draft op .begun).draftTable = 0)
    ∧ ((drafting (draft 0x703 .begun) (table0 true)).draft 0).genOpen = true
    ∧ ((drafting (draft 0x703 .begun) (table0 true)).draft 0).listDone = true
    ∧ (∀ x ∈ ((drafting (draft 0x703 .begun) (table0 true)).runPairs (table0 true) (draft 0x703 .begun) 1).1,
        (drafting (draft 0x703 .begun) (table0 true)).haveExpert (table0 true) x.1 = true)
    ∧ ((drafting (draft 0x703 .begun) (table0 true)).fwdEffect (table0 true) (draft 0x703 .begun) [] 0).2.overLimit
        (draft 0x703 .begun) = false
    ∧ ((drafting (draft 0x704 .begun) (table0 true)).bwdEffect (table0 true) (draft 0x704 .begun) [] 0).2.1.overLimit
        (draft 0x704 .begun) = false
    ∧ (let s := drafting (draft 0x703 .begun) (table0 true)
      let r := s.fwdEffect (table0 true) (draft 0x703 .begun) [] 0
      s.runWaits r.1 r.2 = false)
    ∧ (let s := drafting (draft 0x704 .begun) (table0 true)
      let r := s.bwdEffect (table0 true) (draft 0x704 .begun) [] 0
      s.runWaits r.1 r.2.1 = false)
    ∧ ownedBy (table0 true).genPlace 1 = [] := by decide +kernel

/-- Expert 0 is owned by module 1, which has its own whole contribution. -/
def owning : Draft :=
  { table0 true with
    genPlace := [{ owner := 1, holders := [] }]
    parts := [{ kind := 3, source := 1, expert := 0, part := 0, last := true, empty := true, nf := false, psn := false,
                rank := 0, bytes := [] }] }

theorem test_hyp_rank_order :
    (grouped [coll 0x500] [{ collK 0 [] with order := true }] []).coll? 0 = some { collK 0 [] with order := true }
    ∧ (drafting (draft 0x704 (.dma 1)) owning).cmds.find?
        (fun c => c.isRunning && c.opcode == 0x704 && c.draftTable == 0 && c.stage == .dma 1) = some (draft 0x704 (.dma 1))
    ∧ (drafting (draft 0x704 (.dma 1)) owning).group? owning.desc.group = some pair5
    ∧ (ownedBy owning.genPlace (drafting (draft 0x704 (.dma 1)) owning).moduleId).contains 0 = true
    ∧ owning.reduced.contains 0 = false
    ∧ (∀ m ∈ owning.present, (owning.whole 3 m 0).isSome = true) := by
  decide +kernel

/-- The same with the 128 bytes of a gradient of D = 16, F = 1. -/
def contributed : Draft :=
  { owning with parts := [{ kind := 3, source := 1, expert := 0, part := 0, last := true, empty := false, nf := false, psn := false,
                            rank := 0, bytes := List.replicate 128 1#8 }] }

theorem test_hyp_expert_gradient :
    let c := draft 0x704 (.dma 1)
    let full := (contributed.present.filterMap (fun m => contributed.whole 3 m 0)).filter (fun ps => !(ps.any (fun p => p.empty)))
    full ≠ [] ∧ (∀ ps ∈ full, (wholeBytes ps).length = c.gradBytes ∧ ∀ p ∈ ps, p.psn = false)
    ∧ (drafting c contributed).mem.wf ∧ (drafting c contributed).mem.undef = []
    ∧ (drafting c contributed).memside.pendingUe = [] ∧ 4 * 31 + 4 ≤ c.gradBytes := by decide +kernel

/-- A rank-order all-reduce of two blocks, the first the shard of rank 0, with both contributions in the staging tensor at 4096. -/
def staged (f : Fmt) : Coll :=
  { collK 0 [] with
    order := true, src := some { vec with d := { vec.d with ext := [32] } }, dst := some { vec with d := { vec.d with fmt := f, ext := [1024 / f.width] } }
    staging := some { d := { base := 4096, fmt := f, ndim := 1, ext := [2048 / f.width] } }
    contribs := [{ rank := 0, offset := 0, len := 64, empty := false }, { rank := 1, offset := 0, len := 64, empty := false }] }

theorem test_hyp_rank_order_sums :
    ∀ f ∈ [Fmt.fp32, .bf16],
      let k := staged f
      let s := grouped [coll 0x500] [k] []
      s.coll? 0 = some k ∧ s.cmd? 0 = some (coll 0x500) ∧ s.formable k = [0] ∧ s.mem.wf ∧ s.mem.undef = []
      ∧ s.memside.pendingUe = [] ∧ k.shardAt 0 = (0, 64)
      ∧ (List.range k.g).filter (fun r => k.whole r (k.shardAt 0) && !((k.landed r (k.shardAt 0)).any (fun c => c.empty))) = [0, 1]
      ∧ (∀ r ∈ [0, 1], s.mem.poisoned (4096 + r * 64 * k.targetBlocks) = false)
      ∧ ((k.dst.map (fun o => !o.foul && o.d.fmt == f && (List.range (f.width)).all (fun x =>
          bit (o.offMask 0) (f.width * (512 / f.width - 1) + x)))) = some true) := by decide +kernel

/-- The transfer window of spec/10_expert_draft.md: expert 0 gets loans on modules 12 and 20, each in slot 0. -/
theorem test_transfer_window :
    (newPlacement { desc := { experts := 8, loanSlots := 2 }, place := ({ owner := 9, holders := [] } : Placement)
        :: List.replicate 7 { owner := 5, holders := [] } } [1200, 300, 300, 300, 300, 300, 300, 500] [5, 9, 12, 20]).map
      (fun p => p.holders) = [(0, 12), (0, 20)] :: List.replicate 7 [] := by decide +kernel

def transfer (step : Nat) : Cmd := { host 0x706 (natLe 8 0) with src := .seq 0 0 (BitVec.ofNat 32 step) 0 }

theorem test_hyp_transfer :
    (∀ n ∈ [201, 400], (drafting (transfer n) (table0 false)).running? 0 0x706 = some (transfer n)
      ∧ (transfer n).stage = .go ∧ (transfer n).draftTable < 64)
    ∧ (table0 false).desc.window = 0 ∧ (201#32).toNat % 200 ≠ 0 ∧ (400#32).toNat % 200 = 0
    ∧ ((drafting (transfer 400) (table0 false)).seq 0).st ≠ .holding ∧ (table0 false).asked = []
    ∧ (let s : State := { grouped [transfer 400] [] [2] with drafts := vset onFabric.drafts 0 (table0 false) }
      s.running? 0 0x706 = some (transfer 400) ∧ (transfer 400).stage = .go
      ∧ s.group? (table0 false).desc.group = some { pair5 with absent := [2] }
      ∧ pair5.members.filter (s.presentFor { pair5 with absent := [2] }) = [s.moduleId]
      ∧ (∀ k ∈ s.cmds, k.isRunning = true → k.opcode = 0x706 → k.draftTable = (transfer 400).draftTable → k.id = 0))
    ∧ (let c := host 0x706 (natLe 8 0)
      (drafting c (table0 false)).running? 0 0x706 = some c ∧ c.stage = .go ∧ c.src = .host 0) := by decide +kernel

/-- A draft packet of this generation for table 0, of kind 0. -/
def draftPkt (gen : Nat) : Packet :=
  { type := .draft, hdr := { dst := 1, len := 16 }, payload := natLe 16 (gen * 2 ^ 48 + 2 ^ 127) }

theorem test_hyp_draft_packets :
    (∀ g ∈ [3, 4, 5], Comes (drafting (draft 0x703 .begun) (table0 true)) (draftPkt g) .draft
      ∧ bits (fieldAt (draftPkt g).payload 0 8) 63 48 = g ∧ bits (fieldAt (draftPkt g).payload 0 8) 47 42 = 0
      ∧ ((partOf (draftPkt g)).kind = 2 → (partOf (draftPkt g)).empty = false) ∧ (partOf (draftPkt g)).kind = 0)
    ∧ (onFabric.draft 0).bound = false ∧ (table0 true).bound = true ∧ (table0 true).ctx = (draftPkt 3).hdr.tctx
    ∧ (5 : Nat) ≠ (table0 true).gen ∧ 5 ≠ ((table0 true).gen + 1) % 65536 ∧ 4 = ((table0 true).gen + 1) % 65536
    ∧ 3 = (table0 true).gen ∧ (table0 true).genOpen = true ∧ (table0 false).genOpen = false ∧ (table0 false).gen = 3
    ∧ (partOf (draftPkt 3)).kind ≠ 2 := by decide +kernel

/-- A request for a working copy of the generation 3. -/
def request3 : Packet :=
  { type := .draft, hdr := { dst := 1, len := 16 }, payload := natLe 16 (3 * 2 ^ 48 + 2 * 2 ^ 40 + 2 ^ 15) }

theorem test_hyp_fetch_requests :
    Comes (drafting (draft 0x703 .begun) (table0 true)) request3 .draft ∧ bits (fieldAt request3.payload 0 8) 63 48 = 3
    ∧ (partOf request3).kind = 2 ∧ (partOf request3).empty = true ∧ (partOf request3).part ≠ 1
    ∧ (table0 true).genOpen = true ∧ (table0 false).genOpen = false
    ∧ (let p : Packet := { request3 with payload := natLe 16 (3 * 2 ^ 48 + 2 * 2 ^ 40 + 2 ^ 15 + 2 ^ 64) }
      (partOf p).kind = 2 ∧ (partOf p).empty = true ∧ (partOf p).part = 1)
    ∧ (let p : Packet := { request3 with payload := natLe 16 (3 * 2 ^ 48 + 2 * 2 ^ 40 + 2 * 2 ^ 28) }
      let d : Draft := { table0 false with asked := [{ expert := 0, step := 0#32, source := 2, use := .refill 0 }] }
      Comes (drafting (draft 0x703 .begun) d) p .draft ∧ (partOf p).kind = 2 ∧ (partOf p).empty = false
      ∧ bits (fieldAt p.payload 0 8) 63 48 = d.gen ∧ ∃ a ∈ d.asked, a.expert = (partOf p).expert ∧ a.source = (partOf p).source) := by
  decide +kernel


/-! Formats and data-path commands. -/

theorem test_hyp_formats :
    (ofF32 0xFF7FFFFF#32).isNan = false ∧ (ofF32 0x80000000#32).isNan = false ∧ (ofBf16 0xFF7F).isNan = false
    ∧ (∀ x ∈ [(Fmt.l4, 15), (.l8, 255), (.e4m3, 254), (.e5m2, 252)], x.1.scalable = true ∧ x.2 < 2 ^ x.1.width
      ∧ (decode x.1 x.2 254).isNan = false ∧ (254 : Nat) < 255)
    ∧ decode .l8 64 127 = .fin false 8388608 (-23) := by decide +kernel

/-- A data-path command whose every operand is a vector of zeros at address 0. -/
def data (op : Nat) : Cmd :=
  { host op (natLe 88 0) with ops := [0, 8, 16, 24, 32, 40, 48, 56, 64].map (fun k => (k, vec)) }
/-- The same, to address 64 from a poisoned vector. -/
def copying : Cmd := { data 0x100 with ops := [(0, vec), (8, { vec with d := { vec.d with base := 64 } })] }
def poisoned : State := { runs copying with mem := { poison := [0] } }

def dataCommands : List Instr :=
  [.moveCopy 0, .moveFill 0, .movePermute 0, .moveGatherBlocks 0, .moveScatterBlocks 0, .denseMm 0, .scrumSpmm 0, .scrumSpsp 0,
   .scrumIntersect 0, .scrumGather 0, .scrumScatter 0, .scrumScatterAdd 0, .scrumEmbedBag 0, .scrumTopc 0, .scrumPredictFfn 0,
   .vecEltwise 0, .vecActivate 0, .vecActivateBwd 0, .fusedSoftmaxFwd 0, .fusedSoftmaxBwd 0, .fusedLayernormFwd 0,
   .fusedLayernormBwd 0, .fusedRmsnormFwd 0, .fusedRmsnormBwd 0]

def meets (i : Instr) : Bool :=
  match dataCommand i with
  | some (id, op, f) => (runs (data op)).running? id op == some (data op) && (runs (data op)).slotTurn (data op)
      && (runs (data op)).mayStream id && !(f (runs (data op)) (data op)).overLimit (data op)
      && !(runs (data op)).retryBlocks (f (runs (data op)) (data op))
  | none => false

theorem test_hyp_data_commands :
    dataCommands.all meets = true
    ∧ poisoned.running? 0 0x100 = some copying ∧ poisoned.slotTurn copying = true ∧ poisoned.mayStream 0 = true
    ∧ copying.poisonLimit ≠ 0xFFFF ∧ copying.poisonLimit < copying.part.poisonOut + (poisoned.moveCopyEffect copying).poisonOut
    ∧ (let s : State := { runs (data 0x200) with clusters := vmod up.clusters 1 (fun k => { k with
          cores := vset k.cores 0 { parts := vset (Vector.replicate 4 {}) 0 { cmd := some 7, next := some 0 } } }) }
      s.running? 0 0x200 = some (data 0x200) ∧ s.mayStream 0 = false)
    ∧ poisoned.retryBlocks (poisoned.moveCopyEffect copying) = false
    ∧ (let s : State := { runs copying with memside := { up.memside with pendingUe := [64] } }
      s.running? 0 0x100 = some copying ∧ s.retryBlocks (s.moveCopyEffect copying) = true)
    ∧ (let c : Cmd := { data 0x312 with id := 1 }
      let s : State := { up with cmds := [data 0x312, c], nextId := 2 }
      s.running? 1 0x312 = some c ∧ (s.slotTurn c = false ∨ s.mayStream 1 = false ∨ c.slots = [])) := by decide +kernel

theorem test_hyp_data_frame :
    ∀ w ∈ ((runs (data 0x101)).moveFillEffect (data 0x101)).writes ++ ((runs (data 0x101)).moveFillEffect (data 0x101)).finals,
      blockOf 64 ≠ blockOf w.loc ∧ ((64 : Nat) < w.loc ∨ w.loc + 64 ≤ 64) := by decide +kernel

/-- OPT_UPDATE of vectors of this many elements, with its STATE record at address 8192 and its verdict record at 4096; it has
read this verdict byte and this byte 12 of the STATE record. -/
def opt (n verdict st : Nat) : Cmd :=
  let v : Operand := { d := { base := 0, fmt := .fp32, ndim := 1, ext := [n] } }
  unlimited { host 0x630 (natLe 40 0 ++ natLe 8 8192 ++ natLe 8 4096 ++ natLe 32 0) with
    ops := [(0, v), (8, v), (24, v)], held := natLe 128 verdict ++ natLe 64 (st * 2 ^ 96) ++ natLe 1 0 }
/-- The same as a refresh. -/
def refresh : Cmd :=
  unlimited { host 0x630 (natLe 80 0 ++ natLe 8 4) with
    ops := [(0, vec), (32, { d := { base := 64, fmt := .bf16, ndim := 1, ext := [16] } })] }
/-- The machine with it, and these ranges that a save holds. -/
def optS (c : Cmd) (unsent : List (Nat × Nat)) : State := { runs c with save := { up.save with unsent := unsent } }

theorem test_hyp_tables_and_optimizers :
    (runs (host 0x408 (natLe 16 0))).running? 0 0x408 = some (host 0x408 (natLe 16 0))
    ∧ (∀ cl ∈ targetClusters (host 0x408 (natLe 16 0)).target, cl < 8)
    ∧ (∀ n ∈ [16, 256], ∀ v ∈ [0, 1, 3], ∀ u ∈ [[], [(8192, 64)], [(0, 64)], [(512, 64)]],
      (optS (opt n v 0) u).running? 0 0x630 = some (opt n v 0)) ∧ (opt 16 1 0).optRefresh = false ∧ (opt 16 1 0).units = []
    ∧ (opt 16 0 0).verdictOk = false
    ∧ ((opt 16 3 0).verdictOk = true ∧ (opt 16 3 0).noBall = true ∧ ({} : Effect).overLimit (opt 16 3 0) = false)
    ∧ ((opt 16 1 0).verdictOk = true ∧ (opt 16 1 0).noBall = false ∧ (opt 16 1 0).optStateOk = true)
    ∧ (optS (opt 16 1 0) [(8192, 64)]).unsent (opt 16 1 0).optState 64 = true
    ∧ (optS (opt 16 1 0) []).unsent (opt 16 1 0).optState 64 = false
    ∧ ((optS (opt 16 1 1) []).running? 0 0x630 = some (opt 16 1 1) ∧ (opt 16 1 1).verdictOk = true
      ∧ (opt 16 1 1).noBall = false ∧ (opt 16 1 1).optStateOk = false)
    ∧ ((optS (opt 16 1 0) [(0, 64)]).optUnits (opt 16 1 0) = [] ∧ (opt 16 1 0).units.length ≠ 1)
    ∧ ((runs refresh).running? 0 0x630 = some refresh ∧ refresh.optRefresh = true
      ∧ ((runs refresh).optEffect refresh []).overLimit refresh = false
      ∧ (runs refresh).retryBlocks ((runs refresh).optEffect refresh []) = false) := by decide +kernel

theorem test_hyp_optimizer_units :
    (let c := opt 16 1 0
      let s := optS c []
      s.optUnits c = [0] ∧ (s.optEffect c [0]).overLimit c = false ∧ s.retryBlocks (s.optEffect c [0]) = false)
    ∧ (let c := opt 256 1 0
      let s := optS c [(512, 64)]
      s.optUnits c = [0] ∧ (s.optEffect c [0]).overLimit c = false ∧ s.retryBlocks (s.optEffect c [0]) = false)
    ∧ (let c := opt 16 1 0
      let s : State := { optS c [] with memside := { up.memside with pendingUe := [0] } }
      s.running? 0 0x630 = some c ∧ s.retryBlocks (s.optEffect c (s.optUnits c)) = true) := by decide +kernel

/-! Keepers and saves. -/

/-- Module 1, its partner 2, a piece of no bytes and one of 1 MiB at address 0 of group 5, tensor 3. -/
def keeping (c : Cmd) (pieces : List Piece) (partner : Option Nat) : State :=
  { onFabric with
    cmds := [c], nextId := 1
    keeper := { pieces := pieces, standing := true, partner := partner }
    fabric := { onFabric.fabric with roster := { members := [Member.mk 1 0 false, Member.mk 2 1 false] } } }
def pair : Cmd := host 0x800 (natLe 8 0x10002)
def unpair : Cmd := host 0x801 []
def empty1 : Operand := { d := { base := 0, fmt := .fp32, ndim := 1, ext := [0, 1, 1, 1, 1, 1], stride := [0, 0, 0, 0, 0] } }
/-- DIST_REGISTER of an empty tensor, with its descriptor in the packet. -/
def distRegister : Cmd :=
  { host 0x804 (natLe 8 (2 ^ 63 + 64) ++ natLe 56 0 ++ natLe 16 0 ++ natLe 112 0x105) with ops := [(0, empty1)] }
def mib1 : Piece := { group := 5, tensor := 3, mirror := false, offset := 0, d := { base := 0, ext := [2 ^ 18] }, len := 2 ^ 20 }
def check (n : Nat) : Cmd := host 0x803 (natLe 4 (5 + 3 * 2 ^ 16) ++ natLe 4 0 ++ natLe 8 n)
def restore : Cmd := host 0x802 (natLe 8 6)

/-- A digest that is not this one. -/
theorem test_other_digest (x : BitVec 256) : x ≠ x + 1#256 := by
  intro h
  have := congrArg (fun y => y - x) h
  simp at this

theorem test_hyp_keepers :
    onFabric.fabric.isCaptain = false
    ∧ (keeping pair [] none).running? 0 0x800 = some pair ∧ worst ((keeping pair [] none).keepPairStart pair).rejs = none
    ∧ pair.pairForce = true
    ∧ (keeping unpair [] none).running? 0 0x801 = some unpair
    ∧ worst ((keeping unpair [] none).keepUnpairStart unpair).rejs = none
    ∧ (keeping distRegister [] none).running? 0 0x804 = some distRegister
    ∧ distRegister.op? 0 = some empty1
    ∧ (keeping (check 1) [mib1] (some 2)).running? 0 0x803 = some (check 1)
    ∧ worst ((keeping (check 1) [mib1] (some 2)).keepCheckStart (check 1)).rejs = none
    ∧ (keeping (check 1) [mib1] (some 2)).checkBlocks (check 1) = [0]
    ∧ (keeping restore [mib1] (some 2)).running? 0 0x802 = some restore ∧ restore.stage = .go
    ∧ worst ((keeping restore [mib1] (some 2)).keepRestoreStart restore).rejs = none
    ∧ (keeping restore [mib1] (some 2)).keeper.partner = some 2
    ∧ (keeping restore [mib1] (some 2)).restorePieces restore.restoreGroup 2 = [] := by decide +kernel

/-- The same with a piece of group 6, whose block 0 module 2 owns, and where module 2 keeps it. -/
def losing2 (st : FabState) : State :=
  let s := keeping restore [{ mib1 with group := 6 }] (some 2)
  { s with fabric := { s.fabric with
      state := st
      roster := { s.fabric.roster with tensors := [{ group := 6, tensor := 3, blocks := [{ valid := true, owner := 2 }] }] } } }
def peer6 : PeerPiece := PeerPiece.mk 6 3 true 0 0x40000000

theorem test_hyp_restore_block :
    ∀ st ∈ [FabState.member, .hold], let s := losing2 st
      s.running? 0 0x802 = some restore ∧ restore.stage = .go ∧ worst (s.keepRestoreStart restore).rejs = none
      ∧ s.keeper.partner = some 2 ∧ s.fabric.backlog = [] ∧ s.fabric.remotes.length + 256 ≤ 65536 ∧ s.fabric.state = st
      ∧ (s.restorePieces restore.restoreGroup 2).flatMap (fun p =>
          p.blocks.filterMap (fun b => (peerAddr [peer6] p b).map (fun a => (p.addr b, a)))) = [(0, 0x40000000)] := by decide +kernel

/-- SAVE_SHARD or SAVE_RESTORE of one range of 64 bytes for group 5, with one buffer, at this stage. -/
def saving (op : Nat) (stage : Stage) : Cmd :=
  { unlimited (host op (natLe 16 0 ++ natLe 4 1 ++ natLe 4 0 ++ natLe 2 5 ++ natLe 2 1 ++ natLe 12 0 ++ natLe 8 64 ++ natLe 112 0)) with
    stage := stage }
/-- The save with this first word of its buffer list read, and these further parts. -/
def saveS (c : Cmd) (addr : Nat) (parts : List (Nat × List Byte)) : State :=
  { runs c with liust := { state := .up, data := (0, 0, natLe 8 addr ++ natLe 8 4096, 0) :: parts.map (fun p => (0, p.1, p.2, 0)) } }
/-- A manifest of that range, and one of another length. -/
def manifest (len : Nat) (digest : Nat) : List Byte :=
  natLe 6 0 ++ natLe 2 1 ++ natLe 4 0 ++ natLe 2 3 ++ natLe 10 0 ++ natLe 32 digest ++ natLe 8 0 ++ natLe 8 len
    ++ List.replicate 2604 0#8

theorem test_hyp_playbook_saves :
    let c : Cmd := { saving 0x810 .go with src := .seq 0 0 5#32 0 }
    let s := grouped [c] [] [2]
    s.running? 0 0x810 = some c ∧ c.stage = .go ∧ c.isHost = false ∧ s.group? c.saveGroup = some { pair5 with absent := [2] }
    ∧ Lone s { pair5 with absent := [2] } ∧ s.fabric.colls = [] ∧ s.save.due = false := by decide +kernel

theorem test_hyp_buffer_lists :
    let c := saving 0x810 (.dma 0)
    (saveS c 4096 []).running? 0 0x810 = some c ∧ c.stage = .dma 0
    ∧ (saveS c 4096 []).partsData 0 0 (16 * c.saveBufs) = some (natLe 8 4096 ++ natLe 8 4096)
    ∧ (saveS c 1 []).partsData 0 0 (16 * c.saveBufs) = some (natLe 8 1 ++ natLe 8 4096)
    ∧ bufferRej (bufferList (natLe 8 4096 ++ natLe 8 4096)) c.saveTotal = none
    ∧ bufferRej (bufferList (natLe 8 1 ++ natLe 8 4096)) c.saveTotal = some (Status.rejAlign, 72)
    ∧ (saveS c 4096 []).partData 0 stepPart = none := by decide +kernel

/-- The keys and signatures of R455 are not computed in the model, so that no manifest is shown to verify. -/
theorem test_hyp_restores :
    let c := saving 0x811 (.dma 0)
    let m := manifest 64 0
    let s := saveS c 4096 [(manifestPart, m), (dataPart, List.replicate 64 7#8)]
    s.running? 0 0x811 = some c ∧ c.poisonLimit = 0xFFFF ∧ s.partsData 0 manifestPart 2676 = some m
    ∧ s.partsData 0 0 (16 * c.saveBufs) = some (natLe 8 4096 ++ natLe 8 4096) ∧ s.sentData c = some (List.replicate 64 7#8)
    ∧ bufferRej (bufferList (natLe 8 4096 ++ natLe 8 4096)) c.saveTotal = none
    ∧ lengthsMatch (manifest 65 0) c = false ∧ lengthsMatch m c = true ∧ s.manifestOk m = false
    ∧ (sha3 (List.replicate 64 7#8)).toNat ≠ fieldAt m 24 32 := by decide +kernel

theorem test_hyp_saves :
    ∀ op ∈ [0x810, 0x811], let c := host op (natLe 88 (2 ^ 704 - 1))
      (runs c).running? 0 op = some c ∧ c.stage = .go ∧ c.isHost = true ∧ 1 ≤ c.saveBufs ∧ (runs c).liust.data = [] := by
  decide +kernel

/-! Memory and errors. -/

/-- Block 0 waits for its second read, and these writes wait for it. -/
def pendingAt0 (held : List BlockWr) : State := { up with memside := { up.memside with pendingUe := [0], held := held } }

theorem test_hyp_memory :
    up.present 0 = true ∧ up.present (2 ^ 52 - 64) = false ∧ up.retryPending 0 = false ∧ up.mem.poisoned 0 = false
    ∧ up.mem.isUndef 0 = false ∧ up.memside.logNext < 16 ∧ (List.replicate 64 0#8).length = 64
    ∧ bits up.memCfg 23 16 ≠ 0
    ∧ 0 ∉ up.memside.uncured ∧ ({ contribs := [(List.replicate 16 1#32, true)], outcome := .clean } : AddBatch).outcome = .clean
    ∧ (pendingAt0 []).present 0 = true ∧ (pendingAt0 []).retryPending 0 = true
    ∧ (∀ w ∈ (pendingAt0 []).memside.held, w.loc ≠ 0)
    ∧ (pendingAt0 [{ loc := 0, mask := 1, val := 1 }]).memside.held = [{ loc := 0, mask := 1, val := 1 }]
    ∧ (pendingAt0 [{ loc := 0, mask := 1, val := 1 }]).retryPending 0 = true := by decide +kernel

theorem test_hyp_memory_ways :
    (let s : State := { pendingAt0 [] with power := { up.power with on := false } }
     s.present 0 = true ∧ s.alive = false)
    ∧ up.alive = true ∧ (up.unitOf 0).1 = false ∧ (up.unitOf (ddrBase 0)).1 = true
    ∧ (∀ a ∈ [0, ddrBase 0], (up.mem.poisoned a = false ∧ up.mem.isUndef a = false))
    ∧ (let s : State := { pendingAt0 [] with memside := { (pendingAt0 []).memside with
          pendingUe := [ddrBase 0], logNext := 15, ddr := Vector.replicate 12 { gib := 64 } } }
      s.present (ddrBase 0) = true ∧ s.retryPending (ddrBase 0) = true ∧ s.memside.logNext < 16) := by decide +kernel

theorem test_hyp_memory_reached : Reached up 0 1 ∧ Reached (pendingAt0 []) 0 1 ∧ Reached up 0 64 [4] ∧ ¬Reached stackFailed 0 64 [4] := by
  refine ⟨(by decide +kernel : ∀ c ∈ domainsAt up 0 1 [], (woken up 0 1 []).reaches c = true),
    (by decide +kernel : ∀ c ∈ domainsAt (pendingAt0 []) 0 1 [], (woken (pendingAt0 []) 0 1 []).reaches c = true),
    (by decide +kernel : ∀ c ∈ domainsAt up 0 64 [4], (woken up 0 64 [4]).reaches c = true), fun h => ?_⟩
  exact absurd (h 0x10 (by decide +kernel)) (by decide +kernel)

theorem test_hyp_block_write :
    ({} : Mem).wf ∧ (0 : Nat) % 64 = 0 ∧ 2 ^ 512 - 1 < 2 ^ 512 ∧ (∀ x, ({} : Mem).isUndef x = false)
    ∧ (2 ^ 512 - 1).testBit (8 * 63) = true ∧ (255 : Nat).testBit (8 * 63) = false
    ∧ (∀ j < 8, (2 ^ 512 - 1).testBit (8 * 63 + j) = true) ∧ ∀ j < 8, (255 : Nat).testBit (8 * 63 + j) = false := by
  refine ⟨by decide, by decide, by decide +kernel, fun _ => rfl, by decide +kernel, by decide +kernel, by decide +kernel,
    by decide +kernel⟩

/-- Core 6 of row 3 of cluster 7, the bench core, and core 0, which is failing or not, and runs this command in partition 0. -/
def failing (f : Bool) (cmd : Option Nat) : State :=
  { up with clusters := vmod up.clusters 7 (fun k => { k with
      cores := vset k.cores 21 { mode := .active, failing := f, parts := vset (Vector.replicate 4 {}) 0 { cmd := cmd } } }) }

theorem test_hyp_errors :
    (failing false none).coreRuns (CoreRef.mk 7 3 0) = true ∧ (failing true none).alive = true
    ∧ (∀ k ∈ [none, some 4], (vget ((failing true k).cluster 7).cores 21 {}).failing = true
      ∧ (vget ((failing true k).cluster 7).cores 21 {}).atBoundary = k.isNone)
    ∧ (vget ((failing true none).cluster 7).cores 21 {}).mode = .active ∧ ((failing true none).cluster 7).benchOf 3 = some 27
    ∧ (∀ c ∈ (failing false none).cmds, (vget ((failing false none).cluster 7).cores 21 {}).runs c.id = false)
    ∧ up.mem.isUndef (bufLoc 7 0) = false ∧ up.cmds = [] := by decide +kernel


/-! The host's link, registers and the management port. -/

def busySr : State := runs (host 0x401 (natLe 24 (2 ^ 132)))

/-- A CFG_WR transaction as its header: TYPE 01h, ADDR 18h of the register space, LEN 8; and one of TYPE 03h. -/
def rawWr : BitVec 256 := BitVec.ofNat 256 ((csb + 0x18) * 2 ^ 128 + 8 * 2 ^ 83 + 0x01 * 2 ^ 64)

theorem test_hyp_host :
    up.linkUp = true ∧ up.inService = true ∧ (5 : Nat) ≠ 4 ∧ up.regOf 0 4 = none ∧ up.rngBusy = false
    ∧ (up.regOf (csb + 0x18) 8).isSome = true ∧ (up.regOf (csb + 0x1C) 4).isSome = true
    ∧ bits rawWr.toNat 71 64 = 0x01 ∧ bits rawWr.toNat 179 128 = csb + 0x18 ∧ bits rawWr.toNat 95 83 = 8
    ∧ (natLe 8 5).length = 8 ∧ bits (BitVec.ofNat 256 (0x03 * 2 ^ 64)).toNat 71 64 ∉ [0x01, 0x02, 0x04, 0x05, 0x07, 0x11, 0x13]
    ∧ busySr.linkUp = true ∧ busySr.rngBusy = true
    ∧ hostLen 32 = false ∧ hostLen (List.replicate 64 1#8).length = true
    ∧ up.hostStatus 0 64 0 true = 0 ∧ up.hostStatus (2 ^ 32) 64 0 true ≠ 0 ∧ up.hostStatus 0 64 0 false = 0
    ∧ up.hostStatus (2 ^ 32) 64 0 false ≠ 0 := by decide +kernel

/-- A fetch of one entry of queue 63, and the write of the completion of the command above. -/
def fetch1 : Dma := { tag := 5, read := true, addr := 0, len := 512, owner := .fetch 63 1 }
def write1 : Dma := { tag := 5, read := false, addr := 0, len := 32, owner := .completion 0 }
def asking (d : Dma) : State := { completing 0 with liust := { state := .up, dmas := [d] }, sqs := queued.sqs }

theorem test_hyp_dma :
    (asking fetch1).linkUp = true
    ∧ (asking fetch1).liust.dmas.find? (fun x => x.tag == 6 && x.read) = none
    ∧ (asking fetch1).liust.dmas.find? (fun x => x.tag == 6 && !x.read) = none
    ∧ (asking fetch1).liust.dmas.find? (fun x => x.tag == 5 && x.read) = some fetch1
    ∧ (asking fetch1).liust.dmas.find? (fun x => x.tag == 5) = some fetch1
    ∧ fetch1.owner = .fetch 63 1 ∧ (List.replicate 512 0#8).length = fetch1.len ∧ ((asking fetch1).sq 63).size ≠ 0
    ∧ (asking write1).liust.dmas.find? (fun x => x.tag == 5 && !x.read) = some write1 ∧ write1.owner = .completion 0
    ∧ (asking write1).liust.dmas.find? (fun x => x.tag == 5) = some write1
    ∧ (asking write1).cmd? 0 = some ended ∧ ended.st = .done {} ∧ ended.cq < 64 := by decide +kernel

/-- The report of an ATTEST, or the manifest of a SAVE_SHARD of the playbook, on its way. -/
def sent (c : Cmd) (part : Nat) : State :=
  { runs c with liust := { state := .up, dmas := [{ tag := 5, read := false, addr := 0, len := 64, owner := .command 0 part }]
                           data := [(0, stepPart, [], 7)] } }

theorem test_hyp_last_acks :
    (sent (host 0xB00 []) 0).linkUp = true ∧ (sent (host 0xB00 []) 0).running? 0 0xB00 = some (host 0xB00 [])
    ∧ (sent (host 0xB00 []) 0).liust.dmas.find? (fun x => x.tag == 5 && !x.read)
      = some { tag := 5, read := false, addr := 0, len := 64, owner := .command 0 0 }
    ∧ (sent (saving 0x810 .begun) manifestPart).running? 0 0x810 = some (saving 0x810 .begun)
    ∧ (sent (saving 0x810 .begun) manifestPart).liust.dmas.find? (fun x => x.tag == 5 && !x.read)
      = some { tag := 5, read := false, addr := 0, len := 64, owner := .command 0 manifestPart }
    ∧ (sent (saving 0x810 .begun) manifestPart).partData 0 stepPart = some ([], 7) := by decide +kernel

theorem test_hyp_registers :
    up.linkUp = true ∧ up.inService = true ∧ clearedBy .cntClearFoul ≠ none ∧ up.passSrc = false
    ∧ ({ up with fabric := { up.fabric with cfg := Rs.init (BitVec.ofNat 64 (2 ^ 32)) } } : State).passSrc = true
    ∧ up.fabric.queued = [] ∧ up.referee.state = .running
    ∧ (let s : State := { up with referee := { up.referee with state := .recovery } }
      s.linkUp = true ∧ s.inService = false ∧ s.referee.state = .recovery ∧ s.referee.recState ≠ 1)
    ∧ up.referee.state ≠ .recovery := by decide +kernel

theorem test_hyp_port :
    up.alive = true ∧ up.referee.state = .running ∧ State.reset.referee.state ≠ .running
    ∧ portAnswer up .pmbusRevision = some (.byte 0x44#8 (up.readPec 0x98 [0x44#8])) ∧ up.power.slot.isSome = true
    ∧ ({ up with power := { up.power with slot := none } } : State).power.slot.isSome = false
    ∧ (up.writePec 3#16 + 1#8) ≠ up.writePec 3#16 :=
  ⟨rfl, rfl, by decide, rfl, rfl, rfl, by decide +kernel⟩

/-! Links and the fabric. -/

def linked (st : LinkState) : State := { up with liust := { state := st } }
/-- Module 1 with port 47 in this state, to module 2. -/
def port47 (st : PortState) : State :=
  { onFabric with fabric := { onFabric.fabric with
      ports := vset onFabric.fabric.ports 47 { state := st, nbrId := 2, heard := true, missed := 3 } } }

theorem test_hyp_links :
    (linked .up).linkUp = true ∧ (linked .retraining).liust.state = .retraining ∧ (linked .retraining).liust.dmas = []
    ∧ (linked .retraining).save.holder = none ∧ (linked .training).liust.state = .training
    ∧ (linked .down).alive = true ∧ ((linked .down).domain 0x40).st = .active ∧ (linked .down).liust.cable = true
    ∧ (linked .down).liust.state = .down ∧ (∀ n < 64, ((linked .training).cq n).done = [])
    ∧ (∀ st ∈ [PortState.up, .retraining, .training, .down, .disabled], ((port47 st).port 47).state = st
      ∧ (port47 st).fabOn = true ∧ ((port47 st).port 47).cable = true ∧ (port47 st).portPowered 47 = true
      ∧ (port47 st).linksOpen (mgmtLinks 47) = true
      ∧ (port47 st).fabric.queued = []) := by decide +kernel

/-- A module outside every fabric, and one that discovers. -/
def discovering : State := { port47 .up with fabric := { (port47 .up).fabric with state := .discovering } }
/-- The captain, module 1, of modules 1 and 2 and their link. -/
def captain : State :=
  { port47 .up with fabric := { (port47 .up).fabric with
      isCaptain := true, captain := 1, highest := 3
      roster := { epoch := 3, members := [Member.mk 1 0 false, Member.mk 2 1 false] } } }

theorem test_hyp_discovery :
    up.hostUp = true ∧ up.fabric.en = false ∧ up.fabric.leaving = false ∧ onFabric.hostUp = true ∧ onFabric.fabric.en = true
    ∧ discovering.fabric.en = true ∧ discovering.isMember = false ∧ onFabric.isMember = true
    ∧ onFabric.fabric.isCaptain = false ∧ (captain.hostUp = true ∧ captain.fabric.en = true ∧ captain.isMember = true
      ∧ captain.fabric.isCaptain = true ∧ (captain.fabric.roster.drop captain.fabric.moduleId).members ≠ [])
    ∧ (discovering.port 47).state = .up ∧ discovering.hbMiss ≤ (discovering.port 47).missed
    ∧ (onFabric.port 47).state ≠ .up ∧ (port47 .up).isMember = true ∧ (port47 .up).fabric.queued = [] ∧ ((port47 .up).port 47).state = .up
    ∧ ({ onFabric with fabric := { onFabric.fabric with leaving := true } } : State).fabric.leaving = true
    ∧ discovering.fabric.state = .discovering ∧ discovering.fabric.highest = 0 ∧ discovering.fabric.roster.members = []
    ∧ captain.fabric.highest ≠ 0 ∧ discovering.fabOn = true ∧ ((natLe 8 0).length ≤ 4080)
    ∧ bit (fieldAt (natLe 8 0) 0 8) 42 = false ∧ bit (fieldAt (natLe 8 (2 ^ 42)) 0 8) 42 = true
    ∧ discovering.fabric.queued = [] ∧ (onFabric.port 47).missed < onFabric.hbMiss
    ∧ ((port47 .up).port 47).heard = true ∧ (port47 .up).hbMiss ≤ ((port47 .up).port 47).missed
    ∧ (port47 .up).fabric.roster.links = [] ∧ discovering.fabric.groups = []
    ∧ (∀ n < 48, discovering.linksOpen (mgmtLinks n) = true) := by decide +kernel

/-- The captain's port 47, whose neighbour 2 has been heard, with the link in its roster or not. -/
def shows (links : List Link) : State :=
  { captain with fabric := { captain.fabric with roster := { captain.fabric.roster with links := links } } }
def beat (seq : Nat) : Mgmt := { seq := seq, target := 1, origin := 2 }

theorem test_hyp_heartbeats :
    (let p := (captain.port 47)
     p.heard = true ∧ p.shown = false ∧ p.clash = false ∧ (beat 3).seq ≠ 0 ∧ (beat 3).origin = p.nbrId ∧ (beat 0).seq = 0
     ∧ captain.fabric.roster.isPresent p.nbrId = true)
    ∧ mkLink 1 47 2 0 ∈ (shows [mkLink 1 47 2 0]).fabric.roster.links
    ∧ (port47 .up).fabric.roster.isPresent 2 = false
    ∧ (let s := { shows [mkLink 1 47 2 0] with fabric := { (shows [mkLink 1 47 2 0]).fabric with
          ports := vset (shows []).fabric.ports 47 { state := .down, missed := 3 } } }
      s.isMember = true ∧ (∃ l ∈ s.fabric.roster.links, l.hasEnd s.fabric.moduleId 47 = true) ∧ s.hbMiss ≤ (s.port 47).missed)
    ∧ (let s : State := { port47 .up with fabric := { (port47 .up).fabric with ports := vset (port47 .up).fabric.ports 3 { state := .up } } }
      (3 : Nat) ≠ 47 ∧ (s.port 3).state = .up ∧ s.linksOpen (mgmtLinks 3) = true) := by decide +kernel

def heard (s : State) (n : Nat) (t : PktType) (m : Mgmt) : Bool :=
  decide (s.fabOn = true ∧ (s.port n).state = .up ∧ m.payload.length ≤ 4080 ∧ s.fabric.state ≠ .refused ∧ m.part = 0
    ∧ m.last = true ∧ (t, m.origin, m.seq, 0) ∉ s.fabric.forwarded ∧ s.fabric.incoming = []
    ∧ ((t = .roster ∨ t = .install) → s.fabric.highest ≤ m.seq))

theorem mgmt_comes_of_heard {s : State} {n : Nat} {t : PktType} {m : Mgmt} (h : heard s n t m = true) : MgmtComes s n t m :=
  of_decide_eq_true (p := _ ∧ _) h

/-- A management message to module 1 of the roster of modules 1 and 2 as epoch 4, or of this payload. -/
def roster4 : Roster := { members := [Member.mk 1 0 false, Member.mk 2 1 false] }
def message (origin : Nat) (payload : List Byte) : Mgmt := { seq := 4, target := 1, origin := origin, payload := payload }

theorem test_hyp_roster :
    captain.isMember = true ∧ captain.fabric.isCaptain = true
    ∧ (heard captain 47 .join (message 2 []) = true ∧ captain.fabric.roster.isPresent 2 = true)
    ∧ (heard captain 47 .join (message 3 (natLe 8 1)) = true ∧ captain.fabric.roster.isPresent 3 = false
      ∧ (message 3 (natLe 8 1)).payload.length = 8 ∧ captain.fabric.roster.isPresent (bits (fieldAt (natLe 8 1) 0 8) 11 0) = true)
    ∧ heard captain 47 .leave (message 2 []) = true ∧ captain.leftBy captain.fabric.roster = [] ∧ captain.passSrc = false
    ∧ (heard captain 47 .linkReport (message 2 (natLe 8 0)) = true ∧ bit (fieldAt (natLe 8 0) 0 8) 24 = false)
    ∧ (heard captain 47 .roster (message 2 roster4.bytes) = true ∧ captain.fabric.roster.epoch < 4
      ∧ (Roster.ofBytes 4 roster4.bytes).isPresent captain.fabric.moduleId = true) := by decide +kernel

def phase (r : Reorient) (st : FabState) : State := { captain with fabric := { captain.fabric with reorient := r, state := st } }

theorem test_hyp_reorientation :
    (heard (phase .none .member) 47 .hold (message 2 []) = true ∧ (phase .none .member).isMember = true)
    ∧ (heard (phase (.holding [1]) .hold) 47 .holdAck (message 2 []) = true
      ∧ (phase (.holding [1]) .hold).fabric.reorient = .holding [1])
    ∧ (phase .none .member).fabric.reorient ≠ .waiting ∧ (phase .waiting .hold).fabric.reorient = .waiting
    ∧ (heard (phase .none .hold) 47 .install (message 2 roster4.bytes) = true ∧ (phase .none .hold).fabric.roster.epoch < 4
      ∧ (Roster.ofBytes 4 roster4.bytes).isPresent (phase .none .hold).fabric.moduleId = true)
    ∧ (heard (phase (.installing [1]) .hold) 47 .installAck (message 2 []) = true
      ∧ (phase (.installing [1]) .hold).fabric.reorient = .installing [1])
    ∧ (heard (phase .none .hold) 47 .release (message 2 []) = true ∧ (phase .none .hold).fabric.state = .hold)
    ∧ ((phase .none .hold).port 47).state = .up ∧ (phase .none .member).linksOpen (mgmtLinks 47) = true
    ∧ (phase .waiting .hold).leftBy (phase .waiting .hold).fabric.roster.relevel = [] := by decide +kernel

/-! Power. -/

theorem test_hyp_restart :
    up.mayRestart = true ∧ up.power.refGone = false
    ∧ (let s : State := { up with power := { up.power with refGone := true } }
      s.mayRestart = true ∧ s.power.refGone = true)
    ∧ up.mem.undef = [] ∧ (∀ g < 256, up.placed g = false)
    ∧ ({ up with power := { up.power with tripHold := true } } : State).mayRestart = false
    ∧ (let s : State := { up with power := { up.power with ao := false } }
      s.power.ao = false ∧ s.power.refGone = false) ∧ up.power.ao = true ∧ up.alive = true
    ∧ (∃ x ∈ [(115 : Nat)], 115 ≤ x) ∧ ∀ x ∈ [(114 : Nat)], x < 115 := by decide +kernel

theorem test_hyp_supply :
    (∀ c ∈ (runs (waits filling)).cmds, c.isWaiting = true) ∧ (runs (waits filling)).mayRestart = true
    ∧ up.power.on = true ∧ 20 ≤ ({ up with power := { up.power with vinLowMicros := 15 } } : State).power.vinLowMicros + 5
    ∧ 1000 ≤ ({ up with power := { up.power with vinHighMicros := 999 } } : State).power.vinHighMicros + 1
    ∧ (let c := host 0xB01 (natLe 32 0)
      c ∈ (runs c).cmds ∧ c.isRunning = true ∧ c.opcode = 0xB01 ∧ c.param 16 8 = 0)
    ∧ (∀ c ∈ up.cmds, c.opcode ≠ 0xB01) := by decide +kernel

/-- POWER_CAP_SET, before and after its action. -/
def capSet (stage : Stage) : Cmd := { host 0x901 (natLe 8 600) with stage := stage }

theorem test_hyp_limiter :
    up.alive = true ∧ ({ up with power := { up.power with tHot := 105 } } : State).power.tHot = 105
    ∧ up.power.shareTime = 0 ∧ ({ up with power := { up.power with shareTime := 1 } } : State).power.shareTime ≠ 0
    ∧ up.power.tHot < 102 ∧ ({ up with power := { up.power with coolIntervals := 9 } } : State).power.coolIntervals = 9
    ∧ (runs (capSet .begun)).cmds = [capSet .begun] ∧ (capSet .begun).src = .host 0 ∧ (capSet .begun).opcode = 0x901
    ∧ (capSet .begun).isRunning = true ∧ (capSet .begun).stage = .begun
    ∧ (vget (up.cluster 7).cores 27 {}).cls < 3 ∧ up.power.clampStep ≠ 4
    ∧ (up.power.fastLimit 72000 < 2000000 ∨ (54500 : Int) < 54501)
    ∧ ({ up with power := { up.power with clampStep := 4 } } : State).power.clampStep = 4
    ∧ (runs (capSet .go)).running? 0 0x901 = some (capSet .go) ∧ (capSet .go).stage = .go
    ∧ worst ((runs (capSet .go)).powerCapStart (capSet .go)).rejs = none := by decide +kernel

/-- A domain in this state with this vote of the host, and a vote of the host of ACTIVE for cluster 7. -/
def domained (c : Nat) (st : DomSt) (host : Nat) (inService : Bool) : State :=
  up.modDomain c (fun _ => Domain.mk st host 0 (Vector.replicate 4 0) inService)
def vote : Cmd := host 0x900 (natLe 8 (7 + 3 * 2 ^ 8))

theorem test_hyp_domains :
    (∀ b, ∀ st ∈ [DomSt.nap, .idle, .waking], let s : State := { domained 7 st 0 b with cmds := [vote] }
      s.running? 0 0x900 = some vote ∧ vote.src = .host 0 ∧ vote.stage = .go ∧ worst (s.powerVoteStart vote).rejs = none
      ∧ bit (vote.param 0 4) 12 = false ∧ bits (vote.param 0 4) 7 0 = 7 ∧ bits (vote.param 0 4) 9 8 = 3
      ∧ (s.domain 7).inService = b ∧ (s.domain 7).st = st)
    ∧ (∀ x ∈ (domained 7 .nap 0 true).cmds, x.stage = .go)
    ∧ (let c := host 0x900 (natLe 8 (0x20 + 3 * 2 ^ 8))
      let s : State := { domained 0x20 .active 0 false with cmds := [c] }
      s.running? 0 0x900 = some c ∧ worst (s.powerVoteStart c).rejs = none ∧ bits (c.param 0 4) 7 0 = 0x20
      ∧ (s.domain 0x20).inService = false)
    ∧ (∀ v ∈ [0, 1, 2, 3], ((domained 7 .entering v true).domain 7).st = .entering ∧ (domained 7 .entering v true).demand 7 = v)
    ∧ ((domained 0x3B .nap 0 true).domain 0x3B).st = .nap ∧ (domained 0x3B .nap 0 true).demand 0x3B = 0
    ∧ (let s := (domained 7 .waking 0 true).modDomain 0x55 (fun d => { d with st := .failed })
      (s.domain 7).st = .waking ∧ (s.domain (parentOf 7)).st = .failed)
    ∧ up.errors.postDone ≠ 0#8 ∧ up.errors.postRunning = false
    ∧ (∀ v < 4, ((domained 7 .active v true).domain 7).st = .active ∧ (domained 7 .active v true).demand 7 = v
      ∧ ((domained 0x3B .active v true).domain 0x3B).st = .active ∧ (domained 0x3B .active v true).demand 0x3B = v)
    ∧ isPrivileged 7 = false ∧ ((domained 7 .waking 0 true).domain 7).st = .waking ∧ parentOf 7 ≠ 0x60
    ∧ (((domained 7 .waking 0 true).modDomain 0x55 (fun d => { d with st := .nap })).domain (parentOf 7)).st = .nap
    ∧ ((domained 7 .waking 0 true).domain (parentOf 7)).st = .active
    ∧ isPrivileged 0x55 = true ∧ ((domained 0x55 .waking 0 true).domain 0x55).st = .waking
    ∧ (∃ k ∈ childrenOf 0x55, 2 ≤ (up.domain k).st.rank)
    ∧ (∀ k ∈ childrenOf 0x55, (({ up with power := { up.power with domains := [] } } : State).domain k).st.rank ≤ 1) := by
  decide +kernel

/-! The Referee. -/

/-- Fuses of this life cycle with one free entry. -/
def fused (life : LifeCycle) (c : Cmd) : State :=
  { runs c with
    contexts := up.contexts
    referee := { (runs c).referee with
      life := life, fuses := { life := life, svn := 0, repairs := [], free := 1 }, dugout := [6#128] } }

theorem test_hyp_referee :
    State.reset.alive = true ∧ State.reset.referee.state = .rom ∧ (State.reset.domain 0x50).st = .active
    ∧ up.referee.state ≠ .rom ∧ up.referee.state = .running ∧ (up.domain 7).st.running = true
    ∧ (let s : State := { up with errors := { up.errors with postRunning := true } }
      s.errors.postRunning = true ∧ s.postReady = true ∧ s.referee.state = .running)
    ∧ up.scout.sinceMs + 100 < 100 * (8 : Nat) ∧ 100 * up.referee.mult ≤ up.scout.sinceMs + 100 ∧ up.scout.index < 224 := by
  decide +kernel

def bench : Cmd := host 0xA00 (natLe 8 0x1000 ++ natLe 8 0x1FF)
/-- SELF_TEST of core 6, the bench core, of row 3 of cluster 7. -/
def selfTest : Cmd := host 0xA01 (natLe 8 0x1000 ++ natLe 8 (7 + 3 * 2 ^ 3 + 6 * 2 ^ 5 + 3 * 2 ^ 8) ++ natLe 16 1)
/-- REPAIR_SOFT: a KIND 1 entry of a benched core, and the taking out of a KIND 4 entry. -/
def soft (remove : Nat) (e : Nat) : Cmd := host 0xA10 (natLe 16 remove ++ natLe 16 e)
def fuse : Cmd := host 0xA11 (natLe 16 (0x2000 * 2 ^ 64) ++ natLe 16 4)
def diag : Cmd := host 0xA20 (natLe 8 0x1000 ++ natLe 4 5 ++ natLe 4 0)
def benched : Vector Cluster 8 := vmod up.clusters 0 (fun k => { k with cores := vset k.cores 0 { mode := .benched } })

theorem test_hyp_tests_and_repairs :
    (runs bench).running? 0 0xA00 = some bench ∧ worst ((runs bench).benchCheckStart bench).rejs = none
    ∧ bit (bench.param 8 4) 7 = true ∧ bit (bench.param 8 4) 8 = true
    ∧ (runs selfTest).running? 0 0xA01 = some selfTest ∧ worst ((runs selfTest).selfTestStart selfTest).rejs = none
    ∧ bits (selfTest.param 8 4) 9 8 = 3
    ∧ (let s : State := { fused .field (soft 0 1) with clusters := benched }
      s.running? 0 0xA10 = some (soft 0 1) ∧ worst (s.repairSoftStart true (soft 0 1)).rejs = none
      ∧ (soft 0 1).repairEntry.kind = 1 ∧ bit ((soft 0 1).param 0 4) 0 = false)
    ∧ (let s : State := { fused .field (soft 1 4) with referee := { (fused .field (soft 1 4)).referee with dugout := [4#128] } }
      s.running? 0 0xA10 = some (soft 1 4) ∧ worst (s.repairSoftStart true (soft 1 4)).rejs = none
      ∧ (soft 1 4).repairEntry.kind ≠ 3 ∧ bit ((soft 1 4).param 0 4) 0 = true)
    ∧ (let c : Cmd := host 0xA11 (natLe 16 (0x2000 * 2 ^ 64) ++ natLe 16 1)
      (∀ l ∈ [LifeCycle.field, .manufacture], (fused l c).running? 0 0xA11 = some c
        ∧ worst ((fused l c).repairFuseStart c).rejs = none ∧ (fused l c).referee.life = l)
      ∧ (fused .field c).authMatches c 8 (c.held.take 2548) = false)
    ∧ (let s : State := { fused .field (soft 1 1) with
          clusters := benched, referee := { (fused .field (soft 1 1)).referee with dugout := [1#128] } }
      s.running? 0 0xA10 = some (soft 1 1) ∧ worst (s.repairSoftStart true (soft 1 1)).rejs = none
      ∧ (soft 1 1).repairEntry.kind = 1 ∧ (soft 1 1).repairEntry ∉ s.referee.fuses.repairs ∧ bit ((soft 1 1).param 0 4) 0 = true)
    ∧ (let s : State := { fused .field (soft 0 3) with contexts := up.contexts }
      s.running? 0 0xA10 = some (soft 0 3) ∧ worst (s.repairSoftStart true (soft 0 3)).rejs = none
      ∧ (soft 0 3).repairEntry.kind = 3 ∧ bit ((soft 0 3).param 0 4) 0 = false)
    ∧ (let s := grouped [diag] [] []
      s.running? 0 0xA20 = some diag ∧ worst (s.diagRosterStart diag).rejs = none) := by decide +kernel

def attest : Cmd := host 0xB00 (natLe 8 0x1000 ++ natLe 8 1 ++ natLe 32 0)
def stage (mode : Nat) : Cmd := host 0xB01 (natLe 16 0x1000 ++ natLe 8 mode)
def advance (t : Nat) : Cmd := host 0xB02 (natLe 8 t ++ natLe 16 0x2000)

theorem test_hyp_firmware :
    (runs attest).running? 0 0xB00 = some attest ∧ attest.stage = .go ∧ worst ((runs attest).attestStart attest).rejs = none
    ∧ (runs attest).hostUp = true ∧ (runs attest).dmaRoom false = true ∧ attest.param 8 8 = 1
    ∧ (runs (stage 0)).running? 0 0xB01 = some (stage 0) ∧ (stage 0).param 16 8 ≠ 1
    ∧ (runs (stage 1)).running? 0 0xB01 = some (stage 1) ∧ (stage 1).param 16 8 = 1
    ∧ worst ((runs (stage 1)).fwStageStart (stage 1)).rejs = none
    ∧ (∀ t ∈ [3, 4], (fused .field (advance t)).running? 0 0xB02 = some (advance t)
      ∧ (fused .field (advance t)).mayAdvance t = true ∧ (advance t).lifeTarget = t)
    ∧ (fused .field (advance 3)).authMatches (advance 3) 8 ((advance 3).held.take 2548) = false := by decide +kernel

/-- An advance to ENDED, before and after it waits for its own completion, on queues where that can be written. -/
def ending (stage : Stage) : Cmd := { advance 4 with stage := stage }
def lastOf (c : Cmd) (link : LinkState) : State :=
  { fused .field c with
    liust := { state := link }
    cqs := vset State.reset.cqs 0 { en := true, size := 2, wphase := true } }

theorem test_hyp_end_of_life :
    (let s := lastOf (ending .go) .up
     s.running? 0 0xB02 = some (ending .go) ∧ s.mayAdvance (ending .go).lifeTarget = true ∧ (ending .go).lifeTarget = 4
      ∧ s.cmds = [ending .go] ∧ (ending .go).src = .host 0 ∧ s.canWrite (ending .go).cq 0 = true
      ∧ ∀ n < 64, (s.cq n).done = [])
    ∧ (let c := ending (.await [] 0)
      let s := lastOf c .down
      s.running? 0 0xB02 = some c ∧ c.stage = .await [] 0 ∧ c.written = false ∧ s.hostUp = false) := by decide +kernel

theorem test_hyp_failed_core :
    up.testFails 7 0 (CoreTest.mk 0#64 true 0#130 0#130) = true ∧ (vget (up.cluster 7).cores 0 {}).mode = .active :=
  ⟨by simp [State.testFails], by decide +kernel⟩

theorem test_hyp_rejections :
    checkedOf (.ctxCreate 0) = some (0, 0x000, State.ctxCreateStart)
    ∧ (runs (host 0x000 (natLe 8 0))).running? 0 0x000 = some (host 0x000 (natLe 8 0))
    ∧ worst ((runs (host 0x000 (natLe 8 0))).ctxCreateStart (host 0x000 (natLe 8 0))).rejs = some (Status.rejContext, 64)
    ∧ (host 0x000 (natLe 8 0)).stage = .go ∧ up.running? 0 0x000 = none :=
  ⟨rfl, by decide +kernel, by decide +kernel, by decide +kernel, by decide +kernel⟩

end

end Sys2Proof.Tests
end

/-! PROOFS. Number formats (R29 to R51). An IEEE encoding field and the magnitude that it holds determine each other, and
rounding leaves such a magnitude as it is; a scale byte moves exponents alone, so a scaled format is checked at scale 1. -/

namespace Sys2Proof.Machine

/-! ## Encoding fields and their magnitudes -/

/-- The magnitude m * 2^e of an encoding field n with a mantissa of w bits: below 2^w a subnormal, whose last place is
2^emin, else a number with a leading 1 (R36, R37). -/
def fieldMag (w : Nat) (emin : Int) (n : Nat) : Nat × Int :=
  if n < 2 ^ w then (n, emin) else (2 ^ w + n % 2 ^ w, emin + (n / 2 ^ w : Nat) - 1)

theorem fieldMag_fst_lt (w : Nat) (emin : Int) (n : Nat) : (fieldMag w emin n).1 < 2 ^ (w + 1) := by
  have := Nat.mod_lt n (Nat.two_pow_pos w)
  unfold fieldMag
  split <;> simp only [Nat.pow_succ] <;> omega

/-- A field's magnitude is normal or stands at the least exponent. -/
theorem fieldMag_normal_or_least (w : Nat) (emin : Int) (n : Nat) :
    (fieldMag w emin n).2 = emin ∨ emin ≤ (fieldMag w emin n).2 ∧ 2 ^ w ≤ (fieldMag w emin n).1 := by
  unfold fieldMag
  split
  · exact .inl rfl
  · have := Nat.div_pos (b := 2 ^ w) (a := n) (by omega) (Nat.two_pow_pos w)
    exact .inr ⟨by simp only; omega, Nat.le_add_right _ _⟩

theorem packMag_fieldMag (w : Nat) (emin : Int) (n : Nat) : packMag (w + 1) emin (fieldMag w emin n) = n := by
  unfold fieldMag
  split
  · simp +contextual [packMag]
  · have hdiv := Nat.div_pos (b := 2 ^ w) (a := n) (by omega) (Nat.two_pow_pos w)
    have hexp : (emin + (n / 2 ^ w : Nat) - 1 - emin).toNat = n / 2 ^ w - 1 := by omega
    have hsplit := Nat.div_add_mod' n (2 ^ w)
    have hone : (n / 2 ^ w - 1) * 2 ^ w + 2 ^ w = n / 2 ^ w * 2 ^ w := by
      rw [← Nat.succ_mul, Nat.succ_eq_add_one, Nat.sub_add_cancel hdiv]
    simp only [packMag, hexp, Nat.add_sub_cancel, Nat.shiftLeft_eq]
    rw [if_neg (by simp)]
    omega

/-- Zeros below a field become zeros below its magnitude. -/
theorem fieldMag_shiftLeft (w k : Nat) (emin : Int) (n : Nat) :
    fieldMag (w + k) emin (n <<< k) = ((fieldMag w (emin + k) n).1 <<< k, (fieldMag w (emin + k) n).2 - k) := by
  have hk := Nat.two_pow_pos k
  simp only [fieldMag, Nat.shiftLeft_eq, Nat.pow_add, Nat.mul_lt_mul_right hk, Nat.mul_mod_mul_right,
    Nat.mul_div_mul_right _ _ hk]
  split <;> simp only [Prod.mk.injEq, Nat.add_mul, true_and] <;> omega

/-! ## Rounding what the destination can hold -/

/-- A magnitude of at most p bits at an exponent that the destination has, with k zeros below it, is kept with no rest. -/
theorem splitMag_exact {p m k : Nat} {emin e : Int} (hm : m < 2 ^ (p + 1))
    (he : e = emin ∨ emin ≤ e ∧ 2 ^ p ≤ m) : splitMag (p + 1) emin (m <<< k) (e - k) = (m, 0, k, e) := by
  have hq : max (e - k + (if m <<< k == 0 then 0 else (Nat.log2 (m <<< k) + 1 : Nat) : Int) - (p + 1 : Nat)) emin = e := by
    by_cases h0 : m = 0
    · have := Nat.two_pow_pos p
      simp only [h0, Nat.zero_shiftLeft, beq_self_eq_true, if_true]
      omega
    · have hne : m <<< k ≠ 0 := by simp [Nat.shiftLeft_eq, h0]
      have hlt : Nat.log2 (m <<< k) < p + 1 + k := (Nat.log2_lt hne).2 <| by
        rw [Nat.shiftLeft_eq, Nat.pow_add]; exact Nat.mul_lt_mul_of_pos_right hm (Nat.two_pow_pos k)
      have hle : 2 ^ p ≤ m → p + k ≤ Nat.log2 (m <<< k) := fun h => (Nat.le_log2 hne).2 <| by
        rw [Nat.shiftLeft_eq, Nat.pow_add]; exact Nat.mul_le_mul_right _ h
      simp only [beq_iff_eq, hne, if_false]
      omega
  simp only [splitMag, hq]
  split
  · obtain rfl : k = 0 := by omega
    simp
  · have hk : (e - (e - k)).toNat = k := by omega
    rw [hk, Nat.shiftLeft_shiftRight, Nat.shiftLeft_eq, Nat.mul_mod_left]

theorem rndMag_exact (rm : Rnd) {p m k : Nat} {emin e : Int} (hm : m < 2 ^ (p + 1))
    (he : e = emin ∨ emin ≤ e ∧ 2 ^ p ≤ m) : rndMag rm (p + 1) emin (m <<< k) (e - k) = (m, e) := by
  cases rm with
  | near =>
    have := Nat.two_pow_pos (k - 1)
    simp only [rndMag, rndNear, splitMag_exact hm he]
    split
    · rfl
    · rw [if_neg (by simp; omega)]
  | stoch r => simp [rndMag, rndStoch, splitMag_exact hm he]

theorem packMag_rndMag_fieldMag (rm : Rnd) (w k : Nat) (emin : Int) (n : Nat) :
    packMag (w + 1) emin (rndMag rm (w + 1) emin ((fieldMag w emin n).1 <<< k) ((fieldMag w emin n).2 - k)) = n := by
  rw [rndMag_exact rm (fieldMag_fst_lt w emin n) (fieldMag_normal_or_least w emin n), packMag_fieldMag]

/-! ## FP32 and BF16 -/

/-- A magnitude of at most p bits below 2^k by its exponent is below 2^k. -/
theorem magLt_two_pow {p m : Nat} {e k : Int} (hm : m < 2 ^ p) (he : e + p ≤ k) : magLt m e 1 k = true := by
  have hpow : 2 ^ p ≤ 2 ^ (k - e).toNat := Nat.pow_le_pow_right (by omega) (by omega)
  have hmin : min e k = e := by omega
  simp only [magLt, alignMag, hmin, Nat.shiftLeft_eq, Int.sub_self, Int.toNat_zero, Nat.pow_zero, decide_eq_true_eq]
  omega

theorem magLt_fieldMag_fp32 {n : Nat} (hn : n < 0x7F800000) :
    magLt (fieldMag 23 (-149) n).1 (fieldMag 23 (-149) n).2 1 128 = true := by
  refine magLt_two_pow (fieldMag_fst_lt 23 (-149) n) ?_
  unfold fieldMag
  split <;> simp only <;> omega

/-- An FP32 code that is no NaN is a finite field below that of infinity, or infinity (R37). -/
theorem ofF32_cases {w : Word32} (hw : (ofF32 w).isNan = false) :
    let n := w.toNat % 2 ^ 31
    (n < 0x7F800000 ∧ ofF32 w = .fin (bit w.toNat 31) (fieldMag 23 (-149) n).1 (fieldMag 23 (-149) n).2)
      ∨ (n = 0x7F800000 ∧ ofF32 w = .inf (bit w.toNat 31)) := by
  have hx : bits w.toNat 30 23 = w.toNat % 2 ^ 31 / 2 ^ 23 := by simp only [bits, Nat.shiftRight_eq_div_pow]; omega
  have hf : bits w.toNat 22 0 = w.toNat % 2 ^ 31 % 2 ^ 23 := by simp only [bits, Nat.shiftRight_eq_div_pow]; omega
  have hlt : w.toNat % 2 ^ 31 < 2 ^ 31 := Nat.mod_lt _ (Nat.two_pow_pos 31)
  simp only [ofF32, hx, hf, beq_iff_eq] at hw ⊢
  generalize w.toNat % 2 ^ 31 = n at hw hlt ⊢
  by_cases hmax : n / 2 ^ 23 = 255
  · by_cases hinf : n % 2 ^ 23 = 0
    · exact .inr ⟨by omega, by rw [if_pos hmax, if_pos hinf]⟩
    · rw [if_pos hmax, if_neg hinf] at hw
      cases hw
  · refine .inl ⟨by omega, ?_⟩
    rw [if_neg hmax, fieldMag]
    by_cases hsub : n < 2 ^ 23
    · rw [if_pos (by omega), if_pos hsub, Nat.mod_eq_of_lt hsub]
    · rw [if_neg (by omega), if_neg hsub]
      exact congrArg _ (by simp only; omega)

theorem flagAt_eq_mul_toNat (b : Bool) (k : Nat) : flagAt b k = 2 ^ k * b.toNat := by cases b <;> simp [flagAt]

/-- A flag over k bits and those bits make up the number. -/
theorem flagAt_bit_add_mod {n k : Nat} (hn : n < 2 ^ (k + 1)) : flagAt (bit n k) k + n % 2 ^ k = n := by
  rw [flagAt_eq_mul_toNat, bit, Nat.toNat_testBit, Nat.add_comm, ← Nat.mod_pow_succ, Nat.mod_eq_of_lt hn]

theorem toF32R_fieldMag (rm : Rnd) (s : Bool) {n : Nat} (hn : n < 0x7F800000) :
    toF32R rm (.fin s (fieldMag 23 (-149) n).1 (fieldMag 23 (-149) n).2) = BitVec.ofNat 32 (flagAt s 31 + n) := by
  have hround := packMag_rndMag_fieldMag rm 23 0 (-149) n
  simp only [Nat.shiftLeft_zero, Nat.cast_zero, Int.sub_zero] at hround
  simp [toF32R, hround, magLt_fieldMag_fp32 hn, hn.not_ge]

theorem toF32R_inf (rm : Rnd) (s : Bool) : toF32R rm (.inf s) = BitVec.ofNat 32 (flagAt s 31 + 0x7F800000) := by
  cases s <;> rfl

theorem toF32R_ofF32 (rm : Rnd) {w : Word32} (hw : (ofF32 w).isNan = false) : toF32R rm (ofF32 w) = w := by
  have hcode : BitVec.ofNat 32 (flagAt (bit w.toNat 31) 31 + w.toNat % 2 ^ 31) = w := by
    rw [flagAt_bit_add_mod w.isLt, BitVec.ofNat_toNat, BitVec.setWidth_eq]
  rcases ofF32_cases hw with ⟨hn, hval⟩ | ⟨hn, hval⟩
  · rw [hval, toF32R_fieldMag rm _ hn, hcode]
  · rw [hval, toF32R_inf, ← hn, hcode]

/-- A BF16 field is the upper half of an FP32 field (R37). -/
theorem toBf16R_fieldMag (rm : Rnd) (s : Bool) {n : Nat} (hn : n < 0x7F80) :
    toBf16R rm (.fin s (fieldMag 23 (-149) (n <<< 16)).1 (fieldMag 23 (-149) (n <<< 16)).2) = flagAt s 15 + n := by
  have hmag := magLt_fieldMag_fp32 (n := n <<< 16) (by rw [Nat.shiftLeft_eq]; omega)
  have hround := packMag_rndMag_fieldMag rm 7 16 (-133) n
  rw [fieldMag_shiftLeft 7 16 (-149)] at hmag ⊢
  simp only [Nat.reduceAdd, Nat.cast_ofNat, Int.reduceAdd, Int.reduceNeg] at hmag hround ⊢
  simp [toBf16R, hround, hmag, hn.not_ge]

theorem toBf16R_inf (rm : Rnd) (s : Bool) : toBf16R rm (.inf s) = flagAt s 15 + 0x7F80 := by
  cases s <;> rfl

theorem toBf16R_ofBf16 (rm : Rnd) {n : Nat} (hlt : n < 2 ^ 16) (hn : (ofBf16 n).isNan = false) :
    toBf16R rm (ofBf16 n) = n := by
  have hcode : flagAt (bit n 15) 15 + n % 2 ^ 15 = n := flagAt_bit_add_mod hlt
  have hword : (BitVec.ofNat 32 (n <<< 16)).toNat = n <<< 16 := by
    rw [BitVec.toNat_ofNat, Nat.shiftLeft_eq]; omega
  have hfield : n <<< 16 % 2 ^ 31 = (n % 2 ^ 15) <<< 16 := by
    rw [Nat.shiftLeft_eq, Nat.shiftLeft_eq]; omega
  have hbit : bit (n <<< 16) 31 = bit n 15 := by simp [bit, Nat.testBit_shiftLeft]
  have hcases := ofF32_cases hn
  rw [hword, hfield, hbit, Nat.shiftLeft_eq] at hcases
  rcases hcases with ⟨hf, hval⟩ | ⟨hf, hval⟩
  · rw [ofBf16, hval, ← Nat.shiftLeft_eq, toBf16R_fieldMag rm _ (by omega), hcode]
  · have hinf : n % 2 ^ 15 = 0x7F80 := by omega
    rw [ofBf16, hval, toBf16R_inf, ← hinf, hcode]

/-! ## Scale bytes -/

/-- The value times 2^k. -/
def Val.scaled (k : Int) : Val → Val
  | .fin s m e => .fin s m (e + k)
  | v => v

@[simp] theorem Val.isNan_scaled (k : Int) (v : Val) : (v.scaled k).isNan = v.isNan := by cases v <;> rfl

theorem lMag_scale (q : Nat) (d t : Int) : lMag q d t = ((lMag q d 0).1, (lMag q d 0).2 + t) := by
  simp only [lMag, Prod.mk.injEq, true_and]
  omega

theorem decodeL_scaled (f : Fmt) (c : Nat) {b : Nat} (hb : b < 255) :
    (decodeL f c b = .zero ∧ decodeL f c 127 = .zero) ∨ decodeL f c b = (decodeL f c 127).scaled ((b : Int) - 127) := by
  have hne : b ≠ 255 := by omega
  simp only [decodeL, beq_iff_eq, hne, if_false, show (127 : Nat) ≠ 255 by decide]
  rw [lMag_scale _ _ (b - 127)]
  split_ifs <;> simp [Val.scaled]

theorem decodeFp8_scaled (f : Fmt) (c : Nat) {b : Nat} (hb : b < 255) :
    decodeFp8 f c b = (decodeFp8 f c 127).scaled ((b : Int) - 127) := by
  have hne : b ≠ 255 := by omega
  simp only [decodeFp8, beq_iff_eq, hne, if_false, show (127 : Nat) ≠ 255 by decide]
  split_ifs <;> simp [Val.scaled] <;> omega

/-- A scale byte moves the exponent of what an element decodes as. Code 0 of an L format is +0 under every scale byte. -/
theorem decode_scaled {f : Fmt} (hf : f.scalable = true) (c : Nat) {b : Nat} (hb : b < 255) :
    (f.isL = true ∧ decode f c b = .zero ∧ decode f c 127 = .zero)
      ∨ decode f c b = (decode f c 127).scaled ((b : Int) - 127) := by
  cases f with
  | l4 | l8 => exact (decodeL_scaled _ c hb).imp_left (And.intro rfl)
  | e4m3 | e5m2 => exact .inr (decodeFp8_scaled _ c hb)
  | bf16 | fp32 | s8 | int32 | bit => cases hf

theorem decode_nan_scale {f : Fmt} (hf : f.scalable = true) (c : Nat) : decode f c 255 = .nan := by
  cases f with
  | l4 | l8 | e4m3 | e5m2 => rfl
  | bf16 | fp32 | s8 | int32 | bit => cases hf

theorem encode_near_zero {f : Fmt} (hf : f.isL = true) {b : Nat} (hb : b < 255) : encode f .near b .zero = 0 := by
  have hne : b ≠ 255 := by omega
  cases f with
  | l4 | l8 => simp [encode, hne, Val.zero]
  | e4m3 | e5m2 | bf16 | fp32 | s8 | int32 | bit => cases hf

/-- Encoding to nearest takes the scale out again before it rounds (R45, R48). -/
theorem encode_near_scaled {f : Fmt} (hf : f.scalable = true) {b : Nat} (hb : b < 255) (v : Val) :
    encode f .near b (v.scaled ((b : Int) - 127)) = encode f .near 127 v := by
  have hne : b ≠ 255 := by omega
  cases f with
  | l4 | l8 | e4m3 | e5m2 => cases v <;> simp [encode, hne, Val.scaled]
  | bf16 | fp32 | s8 | int32 | bit => cases hf

/-- The code tables of the four formats at scale 1, checked code by code. -/
theorem encode_decode_scale_one {f : Fmt} (hf : f.scalable = true) : ∀ c < 2 ^ f.width,
    (decode f c 127).isNan = false → encode f .near 127 (decode f c 127) = c := by
  cases f with
  | l4 | l8 | e4m3 | e5m2 => decide +kernel
  | bf16 | fp32 | s8 | int32 | bit => cases hf

theorem encode_decode {f : Fmt} (hf : f.scalable = true) {b c : Nat} (hb : b < 255) (hc : c < 2 ^ f.width)
    (hn : (decode f c b).isNan = false) : encode f .near b (decode f c b) = c := by
  have hone := encode_decode_scale_one hf c hc
  rcases decode_scaled hf c hb with ⟨hL, hz, hz'⟩ | hs
  · rw [hz', encode_near_zero hL (by decide)] at hone
    rw [hz, encode_near_zero hL hb, hone rfl]
  · rw [hs, Val.isNan_scaled] at hn
    rw [hs, encode_near_scaled hf hb, hone hn]

end Sys2Proof.Machine

namespace Sys2Proof

open Machine

/-- Settles O38: rounding keeps what a format can hold, and a scale byte moves exponents alone. -/
theorem formatsEncodeAndScale : Obligations.FormatsEncodeAndScale := by
  refine ⟨fun rm w => toF32R_ofF32 rm, fun rm n => toBf16R_ofBf16 rm, fun f b c hf hb hc => encode_decode hf hb hc,
    fun rm => ⟨rfl, rfl, fun b => ?_⟩, fun f c hf => ⟨decode_nan_scale hf c, fun b hb => ?_⟩⟩
  · by_cases hb : b = 255 <;> simp [encode, hb, Fmt.nanCode]
  · rcases decode_scaled hf c hb with ⟨-, hz, hz'⟩ | hs
    · simp [hz, hz', Val.zero]
    · rw [hs]
      exact ⟨fun h => by rw [h]; rfl, fun s h => by rw [h]; rfl, fun s m e h => ⟨_, by rw [h]; rfl, fun _ => rfl⟩⟩

end Sys2Proof

/-! PROOFS. The ends of steps, of playbooks and of step windows (R231 to R233, R253, R254). A control entry acts on the state
in which its issue is noted (`State.entryIssued`), and a playbook that stops is settled there (`State.settleSeq_cases`). -/

namespace Sys2Proof.Machine

/-! ## A sequencer's own changes -/

/-- Two states of a sequencer that differ at most in what the issue of an entry notes: the issue, the window that it opens, and
statuses of lost members that no longer count (R229, R253). -/
def Seq.SameButIssue (q r : Seq) : Prop :=
  r = { q with
    issues := r.issues, lost := r.lost, windows := r.windows, heldCycles := r.heldCycles, heldBefore := r.heldBefore }

theorem Seq.sameButIssue_openWindow (q : Seq) : q.SameButIssue q.openWindow := by
  unfold Seq.SameButIssue Seq.openWindow
  split <;> rfl

theorem Seq.SameButIssue.noted {q r : Seq} (h : q.SameButIssue r) (issues : List (Nat × Nat))
    (lost : List (Nat × Word32 × Nat)) : q.SameButIssue { r with issues := issues, lost := lost } := by
  unfold Seq.SameButIssue at h ⊢
  dsimp only
  rw [h]

/-- The step of a sequencer ends: its windows are closed, and the next step follows. -/
def Seq.closeStep (q : Seq) : Seq :=
  { q.modWindow q.step (fun w => { w with closed := true }) with step := q.step + 1#32 }

theorem Seq.closed_of_mem_closeStep {q : Seq} {w : Window} (hw : w ∈ q.closeStep.windows) (hs : w.step = q.step) :
    w.closed = true := by
  obtain ⟨v, -, rfl⟩ := List.mem_map.1 hw
  by_cases hv : v.step = q.step
  · simp [hv]
  · simp [hv] at hs

@[simp] theorem Seq.afterBoundary_step (q : Seq) : q.afterBoundary.step = q.step := by
  unfold Seq.afterBoundary; (repeat' split) <;> rfl

@[simp] theorem Seq.afterBoundary_windows (q : Seq) : q.afterBoundary.windows = q.windows := by
  unfold Seq.afterBoundary; (repeat' split) <;> rfl

theorem Seq.afterBoundary_stops {q : Seq} (h : q.stopAtBoundary = true) : q.afterBoundary.st = .stopping := by
  simp [Seq.afterBoundary, h]

/-- A playbook that is not to stop keeps its state at a boundary, and one that was to hold there waits to be held. -/
theorem Seq.afterBoundary_goesOn {q : Seq} (h : q.stopAtBoundary = false) :
    q.afterBoundary.st = q.st ∧ q.afterBoundary.holdAtBoundary = false := by
  unfold Seq.afterBoundary
  rw [h]
  cases hq : q.holdAtBoundary with
  | true => exact ⟨rfl, rfl⟩
  | false => exact ⟨rfl, hq⟩

/-- A sequencer that may issue is not stopping, and no entry of it has failed. -/
theorem Seq.issuing_state {q : Seq} (h : q.issuing = true) : q.st ≠ .stopping ∧ q.failed = none := by
  simp only [Seq.issuing, Bool.and_eq_true, Bool.or_eq_true, beq_iff_eq, Option.isNone_iff_eq_none] at h
  obtain ⟨⟨⟨hst, hfailed⟩, -⟩, -⟩ := h
  refine ⟨?_, hfailed⟩
  rcases hst with hst | ⟨hst, -⟩ <;> simp [hst]

/-! ## Sources and packets of entries -/

/-- Does a command from this source belong to sequencer n (`Cmd.ofSeq`)? -/
def Src.isSeq (n : Nat) : Src → Bool
  | .host _ => false
  | .seq i _ _ _ => i == n

theorem Cmd.ofSeq_eq (c : Cmd) (n : Nat) : c.ofSeq n = c.src.isSeq n := by
  unfold Cmd.ofSeq
  cases c.src <;> rfl

theorem Mem.take_bytes (m : Mem) (a : Nat) {k n : Nat} (h : k ≤ n) : (m.bytes a n).take k = m.bytes a k := by
  simp [Mem.bytes, ← List.map_take, List.take_range, h]

/-- The control entries that act at issue take no sequence number of a group. -/
theorem Cmd.collGroup?_of_immediate {c : Cmd} (h : immediateOp c.opcode = true) : c.collGroup? = none := by
  simp only [immediateOp, Bool.or_eq_true, Bool.and_eq_true, beq_iff_eq, decide_eq_true_eq] at h
  have hcoll : ¬(0x500 ≤ c.opcode ∧ c.opcode ≤ 0x505) := by omega
  have hreadmit : c.opcode ≠ 0x511 := by omega
  have hverdict : c.opcode ≠ 0x646 := by omega
  have hsave : c.opcode ≠ 0x810 := by omega
  simp [Cmd.collGroup?, hcoll, hreadmit, hverdict, hsave]

namespace State

/-! ## What a sequencer holds after an update -/

theorem seq_modSeq_same (s : State) {n : Nat} (f : Seq → Seq) (h : n < 4) : (s.modSeq n f).seq n = f (s.seq n) :=
  vget_vmod_same _ _ _ _ h

theorem seq_modSeq_other (s : State) {n m : Nat} (f : Seq → Seq) (h : m ≠ n) : (s.modSeq n f).seq m = s.seq m :=
  vget_vmod_other _ _ _ _ _ h

theorem onlySequencer_modSeq (s : State) (n : Nat) (f : Seq → Seq) : OnlySequencer n s (s.modSeq n f) :=
  ⟨rfl, fun _ h => seq_modSeq_other s f h⟩

/-! ## The issue of a control entry (R233) -/

/-- The opcode of the next entry stands in the 64 bytes of its header. -/
theorem nextCmd_opcode (s : State) (n : Nat) : (s.nextCmd n).opcode = s.nextOp (s.seq n) := by
  have htwo (a k : Nat) : fieldAt (s.mem.bytes a (64 + k)) 0 2 = leNat (s.mem.bytes a 2) :=
    congrArg leNat (Mem.take_bytes s.mem a (by omega))
  exact (htwo _ _).trans (htwo _ 0).symm

theorem numberColl_of_none {s : State} {id : Nat} (h : ∀ c, s.cmd? id = some c → c.collGroup? = none) :
    s.numberColl id = s := by
  unfold numberColl
  split
  · rfl
  · next c hc =>
    rw [h c hc]
    cases c.seqNo <;> rfl

/-- `numberColl` numbers a command and counts on its group; every command keeps its source. -/
theorem numberColl_frame (s : State) (id : Nat) :
    s.numberColl id = { s with cmds := (s.numberColl id).cmds, fabric := (s.numberColl id).fabric }
      ∧ (s.numberColl id).cmds.map (·.src) = s.cmds.map (·.src) := by
  unfold numberColl
  split
  · exact ⟨rfl, rfl⟩
  split
  · split
    · refine ⟨rfl, ?_⟩
      simp only [modGroup, modFabric_cmds, modCmd_cmds, List.map_map]
      refine List.map_congr_left fun c _ => ?_
      simp only [Function.comp_apply]
      split <;> rfl
    · exact ⟨rfl, rfl⟩
  · exact ⟨rfl, rfl⟩

/-- Which sequencers have commands in flight depends on the sources of these alone. -/
theorem any_ofSeq_congr {l m : List Cmd} (h : l.map (·.src) = m.map (·.src)) (n : Nat) :
    l.any (fun c => c.ofSeq n) = m.any (fun c => c.ofSeq n) := by
  have hsrc (k : List Cmd) : k.any (fun c => c.ofSeq n) = (k.map (·.src)).any (Src.isSeq n) := by
    simp only [List.any_map, Function.comp_def, Cmd.ofSeq_eq]
  rw [hsrc, hsrc, h]

/-- An entry joins the commands in flight: its sequencer notes the issue, and else only the commands, their numbers, the turn
and the groups change. -/
theorem joinEntry_frame (s : State) {n : Nat} (hn : n < 4) :
    s.joinEntry n = { s with
        seqs := (s.joinEntry n).seqs, cmds := (s.joinEntry n).cmds, nextId := (s.joinEntry n).nextId
        turn := (s.joinEntry n).turn, fabric := (s.joinEntry n).fabric }
      ∧ (s.seq n).SameButIssue ((s.joinEntry n).seq n)
      ∧ (∀ m, m ≠ n → (s.joinEntry n).seq m = s.seq m)
      ∧ (s.joinEntry n).cmds.any (fun c => c.ofSeq n) = true := by
  unfold joinEntry
  dsimp only
  generalize hv : ({ s.modSeq n _ with cmds := _, nextId := _, turn := _ } : State) = v
  obtain ⟨hframe, hsrc⟩ := numberColl_frame v (s.nextCmd n).id
  have hseq (m : Nat) : (v.numberColl (s.nextCmd n).id).seq m = v.seq m := by unfold seq; rw [hframe]
  refine ⟨?_, ?_, fun m hm => ?_, ?_⟩
  · rw [hframe, ← hv]; rfl
  · rw [hseq, ← hv]
    show Seq.SameButIssue _ ((s.modSeq n _).seq n)
    rw [seq_modSeq_same _ _ hn]
    exact (s.seq n).sameButIssue_openWindow.noted _ _
  · rw [hseq, ← hv]
    exact seq_modSeq_other s _ hm
  · rw [any_ofSeq_congr hsrc, ← hv]
    simp [Cmd.ofSeq, nextCmd]

/-- A control entry that joins the commands in flight waits there as the next command, and takes no sequence number. -/
theorem joinEntry_issues {s : State} {n : Nat} (hs : Numbered s)
    (hop : immediateOp (s.nextOp (s.seq n)) = true) : ∃ c : Cmd,
      s.joinEntry n = { s with
        seqs := (s.joinEntry n).seqs, cmds := s.cmds ++ [c], nextId := s.nextId + 1, turn := 64 + n }
      ∧ c.id = s.nextId ∧ c.src = .seq n (s.seq n).entry (s.seq n).step (s.seq n).phase ∧ c.st = .waiting
      ∧ c.packet = s.packetAt ((s.seq n).image + (s.seq n).offset) := by
  have hcoll : (s.nextCmd n).collGroup? = none := Cmd.collGroup?_of_immediate (by rwa [nextCmd_opcode])
  have hfind : s.cmds.find? (fun c => c.id == s.nextId) = none :=
    List.find?_eq_none.2 fun c hc => by simpa using (hs c hc).ne
  unfold joinEntry
  dsimp only
  rw [numberColl_of_none]
  · exact ⟨_, rfl, rfl, rfl, rfl, rfl⟩
  · intro c hc
    simp only [cmd?, nextCmd, modSeq_cmds, List.find?_append, hfind, Option.none_or, List.find?_singleton, beq_self_eq_true,
      if_true, Option.some.injEq] at hc
    rw [← hc]
    exact hcoll

/-- The state in which a control entry of sequencer n acts: its issue is noted, and where it has dependencies to wait for it
has joined the commands in flight. -/
def entryIssued (s : State) (n : Nat) : State :=
  if s.nextDeps (s.seq n) = [] then
    s.modSeq n (fun q => { q.openWindow with issues := q.issues.filter (fun p => p.1 != q.entry) })
  else s.joinEntry n

/-- A control entry that can be issued acts on the state in which its issue is noted. -/
theorem issueControl_acts {s : State} {n op : Nat} (f : State → State) (h : s.seqAt n op = true) (hc : CanIssue n s) :
    s.issueControl n op f = f (s.entryIssued n) := by
  unfold entryIssued
  split
  · next hd => exact issueControl_at h hd
  · next hd =>
    obtain ⟨hplace, hturn⟩ := hc.resolve_left hd
    exact issueControl_joins h hd hplace hturn

theorem entryIssued_frame (s : State) {n : Nat} (hn : n < 4) :
    s.entryIssued n = { s with
        seqs := (s.entryIssued n).seqs, cmds := (s.entryIssued n).cmds, nextId := (s.entryIssued n).nextId
        turn := (s.entryIssued n).turn, fabric := (s.entryIssued n).fabric }
      ∧ (s.seq n).SameButIssue ((s.entryIssued n).seq n)
      ∧ ∀ m, m ≠ n → (s.entryIssued n).seq m = s.seq m := by
  unfold entryIssued
  split
  · refine ⟨rfl, ?_, fun m hm => seq_modSeq_other s _ hm⟩
    rw [seq_modSeq_same _ _ hn]
    exact (s.seq n).sameButIssue_openWindow.noted _ _
  · obtain ⟨hframe, hsame, hother, -⟩ := joinEntry_frame s hn
    exact ⟨hframe, hsame, hother⟩

theorem entryIssued_inFlight (s : State) {n : Nat} (hn : n < 4) :
    (s.entryIssued n).cmds.any (fun c => c.ofSeq n)
      = (s.cmds.any (fun c => c.ofSeq n) || s.nextDeps (s.seq n) != []) := by
  unfold entryIssued
  split
  · next hd => simp [hd]
  · next hd =>
    obtain ⟨-, -, -, hany⟩ := joinEntry_frame s hn
    simp [hany, hd]

theorem entryIssued_issued {s : State} {n : Nat} (hn : n < 4) (hs : Numbered s)
    (hop : immediateOp (s.nextOp (s.seq n)) = true) : Issued n s (s.entryIssued n) := by
  unfold entryIssued
  split
  · next hd => exact ⟨fun _ => onlySequencer_modSeq s n _, fun h => absurd hd h⟩
  · next hd =>
    obtain ⟨-, -, hother, -⟩ := joinEntry_frame s hn
    obtain ⟨c, hjoin, hid, hsrc, hst, hpacket⟩ := joinEntry_issues hs hop
    exact ⟨fun h => absurd h hd, fun _ => ⟨c, hjoin, hid, hsrc, hst, hpacket, hother⟩⟩

/-! ## The end of a playbook (R231) -/

/-- A command that ends is done with that completion, at the present count of cycles. -/
theorem cmd?_endHost {s : State} {id : Nat} {d : Cmd} (k : Compl) (h : s.cmd? id = some d) :
    ∃ x, (s.endHost id k).cmd? id = some x ∧ x.st = .done { k with cycles := s.cycles.toNat } := by
  have hmod := cmd?_modCmd (s := s) (id := id)
    (f := fun x => { x with st := .done { k with cycles := s.cycles.toNat }, stage := .go }) (fun _ => rfl) id
  rw [h, Option.map_some, if_pos (by simpa using cmd?_id h)] at hmod
  refine ⟨_, Eq.trans ?_ hmod, rfl⟩
  unfold endHost
  rw [h]
  dsimp only
  split <;> rfl

/-- What `settleSeq` can do: the sequencer of a playbook that is stopping is idle once none of its commands is in flight, and
its PLAYBOOK_START ends; else nothing changes. -/
theorem settleSeq_cases (s : State) {n : Nat} (hn : n < 4) :
    ((s.seq n).st = .stopping ∧ s.cmds.any (fun c => c.ofSeq n) = false
      ∧ (s.settleSeq n).seq n = { s.seq n with
          st := .idle, relay := false, loops := [], digest := 0#256
          windows := (s.seq n).windows.map (fun w => { w with closed := true }) }
      ∧ ∀ id, (s.settleSeq n).cmd? id = (s.endHost (s.seq n).starter ((s.seq n).ending n)).cmd? id)
    ∨ (((s.seq n).st ≠ .stopping ∨ s.cmds.any (fun c => c.ofSeq n) = true) ∧ s.settleSeq n = s) := by
  unfold settleSeq
  dsimp only
  split
  · next h =>
    simp only [Bool.and_eq_true, beq_iff_eq, Bool.not_eq_true'] at h
    obtain ⟨hst, hany⟩ := h
    refine .inl ⟨hst, hany, ?_, fun _ => rfl⟩
    show ((State.endHost s _ _).modSeq n _).seq n = _
    rw [seq_modSeq_same _ _ hn, endHost_frame]
    rfl
  · next h =>
    refine .inr ⟨?_, rfl⟩
    simp only [Bool.and_eq_true, beq_iff_eq, Bool.not_eq_true', not_and_or, Bool.not_eq_false] at h
    exact h

theorem settleSeq_of_inFlight {s : State} {n : Nat} (h : s.cmds.any (fun c => c.ofSeq n) = true) :
    s.settleSeq n = s := by
  simp [settleSeq, h]

/-- A playbook that is stopping with none of its commands in flight is idle, and its PLAYBOOK_START ends. -/
theorem settleSeq_ends {s : State} {n : Nat} (hn : n < 4) (hst : (s.seq n).st = .stopping)
    (hany : s.cmds.any (fun c => c.ofSeq n) = false) :
    ((s.settleSeq n).seq n).st = .idle ∧ (∀ m, m ≠ n → (s.settleSeq n).seq m = s.seq m) ∧ (s.settleSeq n).mem = s.mem
      ∧ ∀ d, s.cmd? (s.seq n).starter = some d → ∃ x, (s.settleSeq n).cmd? (s.seq n).starter = some x
        ∧ x.st = .done { (s.seq n).ending n with cycles := s.cycles.toNat } := by
  obtain ⟨hframe, -, hother⟩ := settleSeq_frame s n
  rcases settleSeq_cases s hn with ⟨-, -, hseq, hcmd⟩ | ⟨hne | htrue, -⟩
  · refine ⟨by rw [hseq], hother, by rw [hframe], fun d hd => ?_⟩
    rw [hcmd]
    exact cmd?_endHost _ hd
  · exact absurd hst hne
  · rw [hany] at htrue
    cases htrue

theorem settleSeq_step (s : State) {n : Nat} (hn : n < 4) : ((s.settleSeq n).seq n).step = (s.seq n).step := by
  rcases settleSeq_cases s hn with ⟨-, -, hseq, -⟩ | ⟨-, heq⟩
  · rw [hseq]
  · rw [heq]

/-- A window after `settleSeq` is closed, or it stood there before. -/
theorem settleSeq_windows (s : State) {n : Nat} (hn : n < 4) {w : Window} (hw : w ∈ ((s.settleSeq n).seq n).windows) :
    w.closed = true ∨ w ∈ (s.seq n).windows := by
  rcases settleSeq_cases s hn with ⟨-, -, hseq, -⟩ | ⟨-, heq⟩
  · rw [hseq] at hw
    obtain ⟨v, -, rfl⟩ := List.mem_map.1 hw
    exact .inl rfl
  · rw [heq] at hw
    exact .inr hw

/-! ## The end of a step (R227, R232, R345) -/

/-- New placements come with writes of their tables to memory, and change nothing else but the draft tables. -/
theorem takePlacements_frame (s : State) (ctx : Nat) :
    s.takePlacements ctx = { s with
      mem := (s.takePlacements ctx).mem, free := (s.takePlacements ctx).free
      memside := (s.takePlacements ctx).memside, drafts := (s.takePlacements ctx).drafts } := by
  unfold takePlacements
  refine foldl_keeps (p := fun (t : State) =>
    t = { s with mem := t.mem, free := t.free, memside := t.memside, drafts := t.drafts }) (fun t k ht => ?_) _ rfl
  dsimp only
  split
  · split
    · split
      · rw [ht]; rfl
      · rw [ht, writeBlocks_frame]; rfl
    · exact ht
  · exact ht

/-- The end of a step: the sequencer stands after its boundary, the save engine has counted it, and a playbook that stops there
is settled. -/
theorem endStep_settles (s : State) {n : Nat} (hn : n < 4) : ∃ b : State, s.endStep n = b.settleSeq n
    ∧ b.seq n = ((s.advance n).seq n).closeStep.afterBoundary ∧ b.cmds = s.cmds
    ∧ b.save.since = min (s.save.since + 1) 2047 ∧ ∀ m, m ≠ n → b.seq m = s.seq m := by
  obtain ⟨w, hw⟩ : ∃ w, w = (s.advance n).modSeq n Seq.closeStep := ⟨_, rfl⟩
  have hend : s.endStep n
      = ((w.stepBoundary.takePlacements (w.seq n).ctx).modSeq n Seq.afterBoundary).settleSeq n := by rw [hw]; rfl
  have hplace := takePlacements_frame w.stepBoundary (w.seq n).ctx
  generalize w.stepBoundary.takePlacements (w.seq n).ctx = v at hend hplace
  have hseq (m : Nat) : v.seq m = w.seq m := by rw [hplace]; rfl
  refine ⟨_, hend, ?_, ?_, ?_, fun m hm => ?_⟩
  · rw [seq_modSeq_same _ _ hn, hseq, hw, seq_modSeq_same _ _ hn]
  · rw [modSeq_cmds, hplace, hw]; rfl
  · rw [modSeq_save, hplace, hw]; rfl
  · rw [seq_modSeq_other _ _ hm, hseq, hw, seq_modSeq_other _ _ hm, advance, seq_modSeq_other _ _ hm]

end State

end Sys2Proof.Machine

namespace Sys2Proof

open Machine

/-- What follows the issue of a control entry and changes its sequencer alone keeps to what the issue may change. -/
theorem Issued.of_onlySequencer {n : Nat} {s u t : State} (h : Issued n s u) (ht : OnlySequencer n u t) : Issued n s t := by
  obtain ⟨hframe, hother⟩ := ht
  refine ⟨fun hd => ?_, fun hd => ?_⟩
  · obtain ⟨hu, hsame⟩ := h.1 hd
    exact ⟨by rw [hframe, hu], fun m hm => (hother m hm).trans (hsame m hm)⟩
  · obtain ⟨c, hu, hid, hsrc, hst, hpacket, hsame⟩ := h.2 hd
    exact ⟨c, by rw [hframe, hu], hid, hsrc, hst, hpacket, fun m hm => (hother m hm).trans (hsame m hm)⟩

/-! ## PB_STEP_END and PB_END -/

section
variable {s : State} {n : Nat} (hn : n < 4)
include hn

/-- PB_STEP_END leaves its sequencer after the boundary, settled where the playbook is to stop (R227, R232, R233, R345). -/
theorem pbStepEnd_endsStep (hc : CanIssue n s) (hat : s.seqAt n 0x649 = true) : ∃ t, exec (.pbStepEnd n) s = .next t
    ∧ (t.seq n).step = (s.seq n).step + 1#32 ∧ t.save.since = min (s.save.since + 1) 2047
    ∧ (∀ w ∈ (t.seq n).windows, w.step = (s.seq n).step → w.closed = true)
    ∧ ((s.seq n).stopAtBoundary = true → (t.seq n).st
        = (if s.cmds.any (fun c => c.ofSeq n) || s.nextDeps (s.seq n) != [] then .stopping else .idle))
    ∧ ((s.seq n).stopAtBoundary = false → (t.seq n).st = (s.seq n).st ∧ (t.seq n).holdAtBoundary = false)
    ∧ ∀ m, m ≠ n → t.seq m = s.seq m := by
  obtain ⟨hframe, hissue, hother⟩ := s.entryIssued_frame hn
  obtain ⟨b, hend, hseq, hcmds, hsince, hbother⟩ := (s.entryIssued n).endStep_settles hn
  obtain ⟨hsettle, -, hsother⟩ := b.settleSeq_frame n
  have hflight : b.cmds.any (fun c => c.ofSeq n) = (s.cmds.any (fun c => c.ofSeq n) || s.nextDeps (s.seq n) != []) := by
    rw [hcmds, s.entryIssued_inFlight hn]
  rw [State.advance, State.seq_modSeq_same _ _ hn, hissue] at hseq
  refine ⟨b.settleSeq n, congrArg Host.Outcome.next ((State.issueControl_acts _ hat hc).trans hend), ?_, ?_, ?_, ?_, ?_, ?_⟩
  · rw [b.settleSeq_step hn, hseq, Seq.afterBoundary_step]
    rfl
  · rw [hsettle, hsince, hframe]
  · intro w hw hstep
    rcases b.settleSeq_windows hn hw with hclosed | hmem
    · exact hclosed
    · rw [hseq, Seq.afterBoundary_windows] at hmem
      exact Seq.closed_of_mem_closeStep hmem hstep
  · intro hstop
    have hst : (b.seq n).st = .stopping := by
      rw [hseq]
      exact Seq.afterBoundary_stops hstop
    rw [← hflight]
    cases hany : b.cmds.any (fun c => c.ofSeq n) with
    | true => rw [State.settleSeq_of_inFlight hany]; exact hst
    | false => exact (State.settleSeq_ends hn hst hany).1
  · intro hstop
    have hgo : (b.seq n).st = (s.seq n).st ∧ (b.seq n).holdAtBoundary = false := by
      rw [hseq]
      exact Seq.afterBoundary_goesOn hstop
    obtain ⟨hissuing, -⟩ := Bool.and_eq_true_iff.1 hat
    obtain ⟨hne, -⟩ := Seq.issuing_state hissuing
    rcases b.settleSeq_cases hn with ⟨hst, -⟩ | ⟨-, heq⟩
    · exact absurd (hgo.1.symm.trans hst) hne
    · rw [heq]
      exact hgo
  · intro m hm
    rw [hsother m hm, hbother m hm, hother m hm]

/-- PB_END settles its playbook as one that is stopping, in a state that differs from that of its issue in the sequencer
alone. -/
theorem pbEnd_settles (hc : CanIssue n s) (hat : s.seqAt n 0x64A = true) : ∃ u, exec (.pbEnd n) s = .next (u.settleSeq n)
    ∧ OnlySequencer n (s.entryIssued n) u ∧ (u.seq n).st = .stopping
    ∧ (u.seq n).starter = (s.seq n).starter ∧ (u.seq n).step = (s.seq n).step
    ∧ (u.seq n).failed = none ∧ (u.seq n).cancelled = (s.seq n).cancelled := by
  obtain ⟨-, hissue, -⟩ := s.entryIssued_frame hn
  obtain ⟨hissuing, -⟩ := Bool.and_eq_true_iff.1 hat
  obtain ⟨-, hfailed⟩ := Seq.issuing_state hissuing
  refine ⟨((s.entryIssued n).advance n).modSeq n (fun q => { q with st := .stopping }),
    congrArg Host.Outcome.next (State.issueControl_acts _ hat hc), ⟨rfl, fun m hm => ?_⟩, ?_⟩
  · rw [State.seq_modSeq_other _ _ hm, State.advance, State.seq_modSeq_other _ _ hm]
  · rw [State.seq_modSeq_same _ _ hn, State.advance, State.seq_modSeq_same _ _ hn, hissue]
    exact ⟨rfl, rfl, rfl, hfailed, rfl⟩

/-- PB_END with commands in flight (R231): issue stops. -/
theorem pbEnd_stops (hc : CanIssue n s) (hat : s.seqAt n 0x64A = true) (hany : s.cmds.any (fun c => c.ofSeq n) = true) :
    ∃ t, exec (.pbEnd n) s = .next t ∧ (Numbered s → Issued n s t) ∧ (t.seq n).st = .stopping := by
  obtain ⟨u, hexec, honly, hst, -⟩ := pbEnd_settles hn hc hat
  have hflight : u.cmds.any (fun c => c.ofSeq n) = true := by
    rw [honly.1, s.entryIssued_inFlight hn, hany, Bool.true_or]
  rw [State.settleSeq_of_inFlight hflight] at hexec
  have hop : s.nextOp (s.seq n) = 0x64A := by simpa using (Bool.and_eq_true_iff.1 hat).2
  exact ⟨u, hexec, fun hs => (State.entryIssued_issued hn hs (by rw [hop]; rfl)).of_onlySequencer honly, hst⟩

/-- PB_END with no command in flight (R231): the playbook ends with OK. -/
theorem pbEnd_ends (hat : s.seqAt n 0x64A = true) (hdeps : s.nextDeps (s.seq n) = [])
    (hany : s.cmds.any (fun c => c.ofSeq n) = false) (hcancel : (s.seq n).cancelled = false) :
    ∃ t, exec (.pbEnd n) s = .next t ∧ (t.seq n).st = .idle ∧ (∀ m, m ≠ n → t.seq m = s.seq m) ∧ t.mem = s.mem
      ∧ ∀ d, s.cmd? (s.seq n).starter = some d → ∃ e k, t.cmd? (s.seq n).starter = some e ∧ e.st = .done k
          ∧ k.status = 0x000 ∧ k.count = (s.seq n).step.toNat := by
  obtain ⟨u, hexec, honly, hst, hstarter, hstep, hfailed, hcancelled⟩ := pbEnd_settles hn (.inl hdeps) hat
  have hissued : s.entryIssued n = { s with seqs := (s.entryIssued n).seqs } := by
    rw [State.entryIssued, if_pos hdeps]; rfl
  obtain ⟨-, -, hother⟩ := s.entryIssued_frame hn
  have hu : u = { s with seqs := u.seqs } := by rw [honly.1, hissued]
  have hcmds : u.cmds = s.cmds := by rw [hu]
  obtain ⟨hidle, hsother, hmem, hends⟩ := State.settleSeq_ends hn hst (hcmds ▸ hany)
  refine ⟨u.settleSeq n, hexec, hidle, fun m hm => ?_, by rw [hmem, hu], fun d hd => ?_⟩
  · rw [hsother m hm, honly.2 m hm, hother m hm]
  · rw [hstarter] at hends
    obtain ⟨x, hx, hdone⟩ := hends d (by rw [State.cmd?, hcmds]; exact hd)
    refine ⟨x, _, hx, hdone, ?_, ?_⟩
    · simp [Seq.ending, hfailed, hcancelled, hcancel, Status.ok]
    · simp [Seq.ending, hfailed, hstep]

/-! ## PLAYBOOK_ENTRY_FAILED, PLAYBOOK_ENTER_HELD and STEP_WINDOW_CLOSE -/

/-- A failed entry with no command in flight (R231, R402): the playbook ends with FLT_PLAYBOOK and the failure. -/
theorem entryFailed_ends {e st : Nat} {step : Word32} (hfailed : (s.seq n).failed = some (e, step, st))
    (hidle : (s.seq n).st ≠ .idle) (hany : s.cmds.any (fun c => c.ofSeq n) = false) (hcancel : (s.seq n).cancelled = false) :
    ∃ t, exec (.playbookEntryFailed n) s = .next t ∧ (t.seq n).st = .idle ∧ (∀ m, m ≠ n → t.seq m = s.seq m) ∧ t.mem = s.mem
      ∧ ∀ d, s.cmd? (s.seq n).starter = some d → ∃ x k, t.cmd? (s.seq n).starter = some x ∧ x.st = .done k
          ∧ k.status = 0x205 ∧ k.count = step.toNat ∧ k.aux = e % 2 ^ 16 + at' (st % 4096) 16 + at' n 28 := by
  have hexec : exec (.playbookEntryFailed n) s
      = .next ((s.modSeq n (fun q => { q with st := .stopping })).settleSeq n) :=
    congrArg Host.Outcome.next (by simp [State.doEntryFailed, hfailed, hidle])
  have hseq := s.seq_modSeq_same (fun q => { q with st := .stopping }) hn
  obtain ⟨hend, hother, hmem, hends⟩ := State.settleSeq_ends (s := s.modSeq n (fun q => { q with st := .stopping })) hn
    (by rw [hseq]) hany
  refine ⟨_, hexec, hend, fun m hm => (hother m hm).trans (s.seq_modSeq_other _ hm), hmem, fun d hd => ?_⟩
  rw [hseq] at hends
  obtain ⟨x, hx, hdone⟩ := hends d hd
  refine ⟨x, _, hx, hdone, ?_, ?_, ?_⟩ <;> simp [Seq.ending, hfailed, hcancel, Status.fltPlaybook]

omit hn in
/-- A failed entry with commands in flight (R231): issue stops. -/
theorem entryFailed_stops (hfailed : (s.seq n).failed.isSome = true) (hidle : (s.seq n).st ≠ .idle)
    (hany : s.cmds.any (fun c => c.ofSeq n) = true) :
    exec (.playbookEntryFailed n) s = .next (s.modSeq n (fun q => { q with st := .stopping })) := by
  have hsettle := State.settleSeq_of_inFlight (s := s.modSeq n (fun q => { q with st := .stopping })) hany
  exact congrArg Host.Outcome.next (by simp [State.doEntryFailed, hfailed, hidle, hsettle])

omit hn in
/-- A playbook that holds is held once the commands of the step before have completed (R232). -/
theorem enterHeld_holds (hst : (s.seq n).st = .holding) (hhold : (s.seq n).holdAtBoundary = false)
    (hfailed : (s.seq n).failed = none) (hstep : s.inStep n ((s.seq n).step - 1#32) = []) :
    exec (.playbookEnterHeld n) s = .next (s.modSeq n (fun q => { q with st := .held, heldCycles := 0 })) :=
  congrArg Host.Outcome.next (by simp [State.doEnterHeld, hst, hhold, hfailed, hstep])

/-- The oldest window, once closed and with its step's commands completed, goes, and its record joins the ring (R253, R254). -/
theorem windowClose_records {w : Window} {r : List Window} (hwin : (s.seq n).windows = w :: r) (hclosed : w.closed = true)
    (hstep : s.inStep n w.step = []) : ∃ t, exec (.stepWindowClose n) s = .next t ∧ OnlySequencer n s t
      ∧ (t.seq n).windows = r
      ∧ (t.seq n).records.head? = some (w.step.toNat % 256, recordBytes (s.seq n) w s.scout.index) := by
  have hexec : exec (.stepWindowClose n) s = .next (s.modSeq n (fun q => q.closeOldest s.scout.index)) :=
    congrArg Host.Outcome.next (by simp [State.doWindowClose, hwin, hclosed, hstep])
  refine ⟨_, hexec, s.onlySequencer_modSeq n _, ?_⟩
  rw [s.seq_modSeq_same _ hn, Seq.closeOldest, hwin]
  exact ⟨rfl, rfl⟩

end

/-- Settles O20: an end of a step or playbook acts on the state of its issue, and `settleSeq` ends a playbook that is stopping
once none of its commands is in flight. -/
theorem stepsAndPlaybooksEnd : Obligations.StepsAndPlaybooksEnd := fun _ _ hn =>
  ⟨pbStepEnd_endsStep hn, pbEnd_stops hn, pbEnd_ends hn, fun _ _ _ => entryFailed_ends hn,
    fun hf hi ha => ⟨_, entryFailed_stops hf hi ha, rfl⟩,
    fun hst hh hf hs => ⟨_, enterHeld_holds hst hh hf hs, rfl⟩,
    fun _ _ => windowClose_records hn⟩

end Sys2Proof

/-! PROOFS. The roster that a member takes (R306), and the links that it then reports (R310, log entry 20). A word of
LINK_REPORT holds the far port's number in bits [23:18], below the flag of a working link in bit 24. -/

namespace Sys2Proof.Machine

/-- Modules 1 and 2 and the link from port 5 of module 1 to port 0 of module 2, as epoch 2. -/
def rosterOfTwo : Roster :=
  { epoch := 2, members := [{ id := 1, level := 0, absent := false }, { id := 2, level := 1, absent := false }]
    links := [mkLink 1 5 2 0] }

/-- The captain, module 1, floods that roster. -/
def rosterFromCaptain : Mgmt := { seq := 2, origin := 1, payload := rosterOfTwo.bytes }

/-- Module 2 in epoch 1. Its port 0 is up to module 1, and records the far port as number 64, which a field of 6 bits does not
hold. -/
def farPort64 : State :=
  { State.reset with fabric := { Fabric.reset with
      en := true, moduleId := 2, level := 1, state := .member, captain := 1, highest := 1
      ports := vset Fabric.reset.ports 0 { state := .up, nbrId := 1, nbrPort := 64, heard := true, shown := true }
      roster := { rosterOfTwo with epoch := 1, links := [] } } }

theorem exec_roster (n : Nat) (m : Mgmt) (s : State) : exec (.roster n m) s
    = .next (s.mgmtIn n .roster m (fun s b => (s.takeRoster (Roster.ofBytes m.seq b)).reportUnlisted)) := rfl

theorem rosterFromCaptain_comes : MgmtComes farPort64 0 .roster rosterFromCaptain := by
  refine ⟨rfl, ?_, ?_, ?_, rfl, rfl, ?_, rfl, fun _ => ?_⟩ <;> decide +kernel

/-- The report of port 0 carries 64 into the flag, so that it names a lost link. That link is the captain's only one, and
module 2, the next-lowest present member, publishes an epoch without the captain. -/
theorem farPort64_losesCaptain :
    (farPort64.mgmtIn 0 .roster rosterFromCaptain (fun s b =>
      (s.takeRoster (Roster.ofBytes rosterFromCaptain.seq b)).reportUnlisted)).fabric.roster
    = { epoch := 3, members := [{ id := 1, level := 0, absent := true }, { id := 2, level := 1, absent := false }] } := by
  decide +kernel

end Sys2Proof.Machine

namespace Sys2Proof

open Machine

/-- Refutes O52, by its clause of ROSTER: the statement speaks of every `State`, also of one whose port records a far port
number beyond 6 bits, and there the report that follows the roster ends with another roster in force. A HELLO records 6 bits
(`State.doHello`), so that no command leads to such a port. -/
theorem not_captainKeepsTheRoster : ¬ Obligations.CaptainKeepsTheRoster := by
  intro h
  obtain ⟨-, -, -, hroster⟩ := h farPort64 0 rosterFromCaptain rfl (by decide)
  obtain ⟨t, hexec, htaken, -⟩ := hroster rosterFromCaptain_comes (by decide) (by decide +kernel)
  obtain rfl := Host.Outcome.next.inj ((exec_roster 0 rosterFromCaptain farPort64).symm.trans hexec)
  rw [farPort64_losesCaptain] at htaken
  exact absurd (congrArg Roster.epoch htaken) (by decide)

end Sys2Proof

/-! PROOFS. Answers to the module's DMA requests (R361, R367 to R369). An answer takes its request out of the list
(`State.dropDma`), and what it does then depends on who waits for it: a fetch, a completion write, or a part of a command. -/

namespace Sys2Proof.Machine

theorem exec_dmaResp (tag status : Nat) (data : List Byte) (poison : Word64) (s : State) :
    exec (.dmaResp tag status data poison) s = .next (s.doDmaResp tag status data poison) := rfl

theorem exec_dmaWrAck (tag status : Nat) (s : State) : exec (.dmaWrAck tag status) s = .next (s.doDmaWrAck tag status) := rfl

theorem exec_dmaTimeout (tag : Nat) (s : State) : exec (.dmaTimeout tag) s = .next (s.doDmaTimeout tag) := rfl

namespace State

/-! ## The list of outstanding requests -/

@[simp] theorem dropDma_sq (s : State) (tag n : Nat) : (s.dropDma tag).sq n = s.sq n := rfl

theorem tag_ne_of_mem_dropDma {s : State} {tag : Nat} {x : Dma} (h : x ∈ (s.dropDma tag).liust.dmas) : x.tag ≠ tag := by
  simpa using (List.mem_filter.1 h).2

/-! ## What each answer does with its request -/

section Answers

variable {s : State} {d : Dma}

theorem doDmaResp_unasked {tag : Nat} (status : Nat) (data : List Byte) (poison : Word64)
    (h : s.liust.dmas.find? (fun x => x.tag == tag && x.read) = none) : s.doDmaResp tag status data poison = s := by
  simp [doDmaResp, h]

theorem doDmaResp_refused {status : Nat} (data : List Byte) (poison : Word64) (hup : s.linkUp = true)
    (h : s.liust.dmas.find? (fun x => x.tag == d.tag && x.read) = some d) (hst : status ≠ 0) :
    s.doDmaResp d.tag status data poison = (s.dropDma d.tag).dmaRefused d.owner Status.fltHostDma := by
  simp [doDmaResp, hup, h, hst]

theorem doDmaResp_badLength {data : List Byte} (poison : Word64) (hup : s.linkUp = true)
    (h : s.liust.dmas.find? (fun x => x.tag == d.tag && x.read) = some d) (hlen : data.length ≠ d.len) :
    s.doDmaResp d.tag 0 data poison = s.liustBadLen := by
  simp [doDmaResp, hup, h, hlen]

theorem doDmaResp_data {data : List Byte} (poison : Word64) (hup : s.linkUp = true)
    (h : s.liust.dmas.find? (fun x => x.tag == d.tag && x.read) = some d) (hlen : data.length = d.len) :
    s.doDmaResp d.tag 0 data poison = (s.dropDma d.tag).dmaData d.owner data poison := by
  simp [doDmaResp, hup, h, hlen]

theorem doDmaWrAck_unasked {tag : Nat} (status : Nat)
    (h : s.liust.dmas.find? (fun x => x.tag == tag && !x.read) = none) : s.doDmaWrAck tag status = s := by
  simp [doDmaWrAck, h]

theorem doDmaWrAck_refused {status : Nat} (hup : s.linkUp = true)
    (h : s.liust.dmas.find? (fun x => x.tag == d.tag && !x.read) = some d) (hst : status ≠ 0) :
    s.doDmaWrAck d.tag status = (s.dropDma d.tag).dmaRefused d.owner Status.fltHostDma := by
  simp [doDmaWrAck, hup, h, hst]

theorem doDmaWrAck_completion {id : Nat} (hup : s.linkUp = true)
    (h : s.liust.dmas.find? (fun x => x.tag == d.tag && !x.read) = some d) (ho : d.owner = .completion id) :
    s.doDmaWrAck d.tag 0 = (s.dropDma d.tag).completionAcked id := by
  simp [doDmaWrAck, hup, h, ho]

theorem doDmaWrAck_command {id part : Nat} (hup : s.linkUp = true)
    (h : s.liust.dmas.find? (fun x => x.tag == d.tag && !x.read) = some d) (ho : d.owner = .command id part) :
    s.doDmaWrAck d.tag 0 = (s.dropDma d.tag).partAcked id part := by
  simp [doDmaWrAck, hup, h, ho]

theorem doDmaTimeout_outstanding (h : s.liust.dmas.find? (fun x => x.tag == d.tag) = some d) :
    s.doDmaTimeout d.tag = ((s.bump .liustDmaTimeout).dropDma d.tag).dmaRefused d.owner Status.fltHostDma := by
  simp [doDmaTimeout, h]

end Answers

theorem ctr_bump_liustDmaTimeout (s : State) :
    (s.bump .liustDmaTimeout).ctr .liustDmaTimeout = satAdd (s.ctr .liustDmaTimeout) 1 :=
  vget_vmod_same _ _ _ _ (by decide)

/-! ## Fetches (R367, R379, R382) -/

theorem sq_modSq_same (s : State) {n : Nat} (f : Sq → Sq) (h : n < 64) : (s.modSq n f).sq n = f (s.sq n) :=
  vget_vmod_same _ _ _ _ h

theorem sq_modSq_other (s : State) {n m : Nat} (f : Sq → Sq) (h : m ≠ n) : (s.modSq n f).sq m = s.sq m :=
  vget_vmod_other _ _ _ _ _ h

theorem dmaRefused_fetch (s : State) (q flt : Nat) {n : Nat} (hn : n ≠ 0) :
    s.dmaRefused (.fetch q n) flt = s.fetchRefused q := by
  simp [dmaRefused, hn]

theorem dmaData_fetch (s : State) (q : Nat) {n : Nat} (data : List Byte) (poison : Word64) (hn : n ≠ 0) :
    s.dmaData (.fetch q n) data poison = s.fetched q n data := by
  simp [dmaData, hn]

theorem fetchRefused_stops (s : State) {q : Nat} (hq : q < 64) :
    (s.fetchRefused q).sq q = { s.sq q with stopped := true, reason := .fetch } :=
  sq_modSq_same s _ hq

theorem fetched_queues (s : State) {q : Nat} (n : Nat) (data : List Byte) (hq : q < 64) :
    (s.fetched q n data).sq q = { s.sq q with
      waiting := (s.sq q).waiting ++ chunks 512 data
      head := if (s.sq q).size == 0 then (s.sq q).head else ((s.sq q).head + n) % (s.sq q).size } :=
  sq_modSq_same s _ hq

/-! ## Completions (R368, R369) -/

theorem cq_modCq_same (s : State) {n : Nat} (f : Cq → Cq) (h : n < 64) : (s.modCq n f).cq n = f (s.cq n) :=
  vget_vmod_same _ _ _ _ h

/-- A change that only adds ended commands to one completion queue keeps everything else of each queue. -/
theorem cq_modCq_done (s : State) (m n : Nat) (f : List Nat → List Nat) :
    ∃ l, (s.modCq m (fun q => { q with done := f q.done })).cq n = { s.cq n with done := l } := by
  unfold cq modCq
  by_cases hnm : n = m
  · subst hnm
    by_cases hn : n < 64
    · exact ⟨_, vget_vmod_same _ _ _ _ hn⟩
    · exact ⟨(s.cq n).done, by dsimp only; rw [vmod_outside _ _ _ (Nat.le_of_not_lt hn)]; rfl⟩
  · exact ⟨(s.cq n).done, vget_vmod_other _ _ _ _ _ hnm⟩

theorem endHost_cq (s : State) (id : Nat) (k : Compl) (n : Nat) :
    ∃ l, (s.endHost id k).cq n = { s.cq n with done := l } := by
  unfold endHost
  split
  · exact ⟨_, rfl⟩
  · dsimp only
    split
    · exact cq_modCq_done (s.modCmd id _) _ n (· ++ [id])
    · exact ⟨_, rfl⟩

theorem settleAwaits_cq (s : State) (n : Nat) : ∃ l, s.settleAwaits.cq n = { s.cq n with done := l } := by
  unfold settleAwaits
  refine foldl_keeps (p := fun (t : State) => ∃ l, t.cq n = { s.cq n with done := l }) (fun t c ht => ?_) _ ⟨_, rfl⟩
  split
  · split
    · exact ht
    · obtain ⟨l, hl⟩ := ht
      obtain ⟨l', hl'⟩ := endHost_cq t c.id { status := Status.ok, count := _ } n
      exact ⟨l', by rw [hl', hl]⟩
  · exact ht

theorem retire_cq (s : State) (id st : Nat) (b : Option (Nat × Word32)) (n : Nat) :
    ∃ l, (s.retire id st b).cq n = { s.cq n with done := l } :=
  settleAwaits_cq { s with cmds := _ } n

theorem retire_cmd? (s : State) (id st : Nat) (b : Option (Nat × Word32)) : (s.retire id st b).cmd? id = none :=
  find_none_of_ids (retire_frame s id st b).2

theorem retire_hostTx (s : State) (id st : Nat) (b : Option (Nat × Word32)) : (s.retire id st b).hostTx = s.hostTx := by
  rw [(retire_frame s id st b).1]

theorem retire_mem (s : State) (id st : Nat) (b : Option (Nat × Word32)) : (s.retire id st b).mem = s.mem := by
  rw [(retire_frame s id st b).1]

section Completions

variable {s : State} {id : Nat} {c : Cmd} {k : Compl}

theorem completionAcked_done (h : s.cmd? id = some c) (hk : c.st = .done k) :
    s.completionAcked id = { s.retire id k.status with
      hostTx := s.hostTx ++ (if c.irq then [.msgInt (s.cq c.cq).vector] else []) } := by
  obtain ⟨l, hl⟩ := retire_cq s id k.status none c.cq
  have htx := retire_hostTx s id k.status none
  unfold completionAcked
  rw [h]
  dsimp only
  rw [hk]
  dsimp only
  split
  · rw [hl, sendHost, htx]
  · rw [List.append_nil, ← htx]

theorem completionLost_done (h : s.cmd? id = some c) (hk : c.st = .done k) :
    s.completionLost id = (s.retire id k.status).modCq c.cq (fun q => { q with lost := true }) := by
  unfold completionLost
  rw [h]
  dsimp only
  rw [hk]

/-- An acknowledged completion frees its place, with MSG_INT where the command asked for one. -/
theorem completionAcked_frees (h : s.cmd? id = some c) (hk : c.st = .done k) :
    (s.completionAcked id).cmd? id = none ∧ ((s.completionAcked id).cq c.cq).lost = (s.cq c.cq).lost
      ∧ (s.completionAcked id).hostTx = s.hostTx ++ (if c.irq then [.msgInt (s.cq c.cq).vector] else [])
      ∧ (s.completionAcked id).mem = s.mem := by
  obtain ⟨l, hl⟩ := retire_cq s id k.status none c.cq
  rw [completionAcked_done h hk]
  exact ⟨retire_cmd? s id k.status none, (congrArg Cq.lost hl :), rfl, retire_mem s id k.status none⟩

/-- A lost completion frees its place too, marks its queue, and changes the commands and completion queues alone. -/
theorem completionLost_frees (h : s.cmd? id = some c) (hk : c.st = .done k) (hq : c.cq < 64) :
    (s.completionLost id).cmd? id = none ∧ ((s.completionLost id).cq c.cq).lost = true
      ∧ s.completionLost id = { s with cmds := (s.completionLost id).cmds, cqs := (s.completionLost id).cqs } := by
  have hframe := (retire_frame s id k.status none).1
  have hgone := retire_cmd? s id k.status none
  rw [completionLost_done h hk]
  generalize s.retire id k.status = r at hframe hgone
  exact ⟨hgone, congrArg Cq.lost (cq_modCq_same r _ hq), by rw [hframe]; rfl⟩

end Completions

/-! ## Parts of commands (R339, R341, R413) -/

theorem ended_id (id : Nat) (k : Compl) (x : Cmd) :
    (if x.id == id then { x with st := .done k, stage := .go } else x).id = x.id := by
  split <;> rfl

/-- A command that has ended does not run, whether it keeps its place or not. -/
theorem not_running_of_ends {u t : State} {id : Nat} {k : Compl} (h : Ends u t id k) {x : Cmd} (hx : t.cmd? id = some x) :
    x.isRunning = false := by
  unfold Ends at h
  cases hc : u.cmd? id with
  | none => rw [hc] at h; exact h.elim
  | some c =>
    rw [hc] at h
    dsimp only at h
    cases hsrc : c.src with
    | host q =>
      rw [hsrc] at h
      obtain ⟨hcmds, -⟩ := h
      rw [cmd?, hcmds, find_map_id _ _ _ (ended_id _ _), show u.cmds.find? _ = some c from hc, Option.map_some,
        if_pos (by simpa using cmd?_id hc)] at hx
      cases hx
      rfl
    | seq n entry step ph =>
      rw [hsrc] at h
      rw [h.1] at hx
      cases hx

theorem transferOn_ended {s : State} {id : Nat} (h : ∀ x, s.cmd? id = some x → x.isRunning = false) :
    s.transferOn id = s := by
  unfold transferOn
  split
  · next x hx => simp [h x hx]
  · rfl

/-- What the save engine records of a save when the acknowledgement of its manifest comes (R339, R341). -/
def manifestNoted (s : State) (c : Cmd) : State :=
  s.modSave (fun v => { v with
    lastStep := BitVec.ofNat 32 (((s.partData c.id stepPart).map (fun p => p.2)).getD 0)
    lastMs := wallMs (s.wall - v.startNanos), anySave := true })

/-- The completion of a save whose manifest is acknowledged. -/
def savedCompl (c : Cmd) : Compl :=
  { status := Status.ok, count := ceilDiv c.saveTotal mib, aux := 1, poison := c.part.poison, poisonIn := c.part.poisonIn,
    poisonOut := c.part.poisonOut }

section Parts

variable {s : State} {id : Nat} {c : Cmd}

theorem finishPart_of_cmd? (k : Compl) (h : s.cmd? id = some c) : s.finishPart id k = s.finish id { k with
    poison := c.part.poison, poisonIn := c.part.poisonIn, poisonOut := c.part.poisonOut } := by
  simp [finishPart, h]

theorem saveAcked_manifest (h : s.cmd? id = some c) :
    s.saveAcked c manifestPart = (s.manifestNoted c).finish id (savedCompl c) := by
  obtain rfl := cmd?_id h
  have hc : (s.manifestNoted c).cmd? c.id = some c := h
  exact (if_pos rfl).trans (finishPart_of_cmd? _ hc)

/-- The acknowledgement of its only write ends a command that is no save. -/
theorem partAcked_finishes (part : Nat) (h : s.cmd? id = some c) (hrun : c.isRunning = true) (hop : c.opcode ≠ 0x810) :
    s.partAcked id part = s.finish id (plainCompl Status.ok) := by
  simp [partAcked, h, hrun, hop]

/-- The acknowledgement of its manifest ends a save, and nothing of it goes on. -/
theorem partAcked_manifest (h : s.cmd? id = some c) (hrun : c.isRunning = true) (hop : c.opcode = 0x810) :
    s.partAcked id manifestPart = (s.manifestNoted c).finish id (savedCompl c) := by
  obtain ⟨hends, -⟩ := finish_completes (s := s.manifestNoted c) h (savedCompl c)
  unfold partAcked
  rw [h]
  dsimp only
  rw [hrun, hop, saveAcked_manifest h]
  exact transferOn_ended (fun x hx => not_running_of_ends hends hx)

end Parts

end State

end Sys2Proof.Machine

namespace Sys2Proof

open Machine Machine.State

/-! ## The clauses of DMA_RESP, DMA_WR_ACK and DMA_TIMEOUT -/

section Clauses

variable {s : State} {d : Dma} {q n id : Nat} {c : Cmd} {k : Compl}

theorem dmaResp_fetched (poison : Word64) {data : List Byte} (hup : s.linkUp = true)
    (h : s.liust.dmas.find? (fun x => x.tag == d.tag && x.read) = some d) (ho : d.owner = .fetch q n) (hn : n ≠ 0)
    (hq : q < 64) (hlen : data.length = d.len) :
    ∃ t, exec (.dmaResp d.tag 0 data poison) s = .next t
      ∧ (t.sq q).waiting = (s.sq q).waiting ++ chunks 512 data
      ∧ ((s.sq q).size ≠ 0 → (t.sq q).head = ((s.sq q).head + n) % (s.sq q).size)
      ∧ (t.sq q).tail = (s.sq q).tail ∧ (∀ m, m ≠ q → t.sq m = s.sq m) ∧ (∀ x ∈ t.liust.dmas, x.tag ≠ d.tag)
      ∧ t.mem = s.mem ∧ t.cmds = s.cmds := by
  have hsq := fetched_queues (s.dropDma d.tag) n data hq
  refine ⟨(s.dropDma d.tag).fetched q n data, ?_, ?_, fun hsize => ?_, ?_, fun m hm => sq_modSq_other _ _ hm,
    fun x hx => tag_ne_of_mem_dropDma hx, rfl, rfl⟩
  · rw [exec_dmaResp, doDmaResp_data poison hup h hlen, ho, dmaData_fetch _ _ _ _ hn]
  · rw [hsq]; rfl
  · rw [hsq]; simp [hsize]
  · rw [hsq]; rfl

theorem dmaResp_stopsFetch (data : List Byte) (poison : Word64) {status : Nat} (hup : s.linkUp = true)
    (h : s.liust.dmas.find? (fun x => x.tag == d.tag && x.read) = some d) (ho : d.owner = .fetch q n) (hn : n ≠ 0)
    (hq : q < 64) (hst : status ≠ 0) :
    ∃ t, exec (.dmaResp d.tag status data poison) s = .next t
      ∧ t.sq q = { s.sq q with stopped := true, reason := .fetch } ∧ (∀ m, m ≠ q → t.sq m = s.sq m) ∧ t.mem = s.mem := by
  refine ⟨(s.dropDma d.tag).fetchRefused q, ?_, fetchRefused_stops _ hq, fun m hm => sq_modSq_other _ _ hm, rfl⟩
  rw [exec_dmaResp, doDmaResp_refused data poison hup h hst, ho, dmaRefused_fetch _ _ _ hn]

theorem dmaTimeout_stopsFetch (h : s.liust.dmas.find? (fun x => x.tag == d.tag) = some d) (ho : d.owner = .fetch q n)
    (hn : n ≠ 0) (hq : q < 64) :
    ∃ t, exec (.dmaTimeout d.tag) s = .next t ∧ t.sq q = { s.sq q with stopped := true, reason := .fetch }
      ∧ t.ctr .liustDmaTimeout = satAdd (s.ctr .liustDmaTimeout) 1 ∧ (∀ x ∈ t.liust.dmas, x.tag ≠ d.tag)
      ∧ t.mem = s.mem := by
  refine ⟨((s.bump .liustDmaTimeout).dropDma d.tag).fetchRefused q, ?_, fetchRefused_stops _ hq,
    ctr_bump_liustDmaTimeout s, fun x hx => tag_ne_of_mem_dropDma hx, rfl⟩
  rw [exec_dmaTimeout, doDmaTimeout_outstanding h, ho, dmaRefused_fetch _ _ _ hn]

theorem dmaWrAck_freesCompletion (hup : s.linkUp = true)
    (h : s.liust.dmas.find? (fun x => x.tag == d.tag && !x.read) = some d) (ho : d.owner = .completion id)
    (hc : s.cmd? id = some c) (hk : c.st = .done k) :
    ∃ t, exec (.dmaWrAck d.tag 0) s = .next t ∧ t.cmd? id = none ∧ (t.cq c.cq).lost = (s.cq c.cq).lost
      ∧ t.hostTx = s.hostTx ++ (if c.irq then [.msgInt (s.cq c.cq).vector] else []) ∧ t.mem = s.mem :=
  ⟨_, by rw [exec_dmaWrAck, doDmaWrAck_completion hup h ho], completionAcked_frees (s := s.dropDma d.tag) hc hk⟩

theorem dmaWrAck_losesCompletion {status : Nat} (hup : s.linkUp = true)
    (h : s.liust.dmas.find? (fun x => x.tag == d.tag && !x.read) = some d) (ho : d.owner = .completion id)
    (hc : s.cmd? id = some c) (hk : c.st = .done k) (hq : c.cq < 64) (hst : status ≠ 0) :
    ∃ t, exec (.dmaWrAck d.tag status) s = .next t ∧ t.cmd? id = none
      ∧ (t.cq c.cq).lost = true ∧ t.hostTx = s.hostTx ∧ t.mem = s.mem := by
  obtain ⟨hgone, hlost, hframe⟩ := completionLost_frees (s := s.dropDma d.tag) hc hk hq
  refine ⟨(s.dropDma d.tag).completionLost id, ?_, hgone, hlost, ?_, ?_⟩
  · rw [exec_dmaWrAck, doDmaWrAck_refused hup h hst, ho]
    rfl
  all_goals rw [hframe]; rfl

theorem dmaTimeout_losesCompletion (h : s.liust.dmas.find? (fun x => x.tag == d.tag) = some d)
    (ho : d.owner = .completion id) (hc : s.cmd? id = some c) (hk : c.st = .done k) (hq : c.cq < 64) :
    ∃ t, exec (.dmaTimeout d.tag) s = .next t ∧ t.cmd? id = none ∧ (t.cq c.cq).lost = true ∧ t.hostTx = s.hostTx
      ∧ t.ctr .liustDmaTimeout = satAdd (s.ctr .liustDmaTimeout) 1 ∧ (∀ x ∈ t.liust.dmas, x.tag ≠ d.tag)
      ∧ t.mem = s.mem := by
  obtain ⟨hgone, hlost, hframe⟩ :=
    completionLost_frees (s := (s.bump .liustDmaTimeout).dropDma d.tag) hc hk hq
  refine ⟨((s.bump .liustDmaTimeout).dropDma d.tag).completionLost id, ?_, hgone, hlost, ?_, ?_, ?_, ?_⟩
  · rw [exec_dmaTimeout, doDmaTimeout_outstanding h, ho]
    rfl
  · rw [hframe]; rfl
  · rw [hframe]
    exact ctr_bump_liustDmaTimeout s
  · rw [hframe]
    exact fun x hx => tag_ne_of_mem_dropDma hx
  · rw [hframe]; rfl

theorem dmaWrAck_endsAttest {part : Nat} (hup : s.linkUp = true)
    (h : s.liust.dmas.find? (fun x => x.tag == d.tag && !x.read) = some d) (ho : d.owner = .command id part)
    (hr : s.running? id 0xB00 = some c) :
    ∃ t, exec (.dmaWrAck d.tag 0) s = .next t ∧ Completes (s.dropDma d.tag) t id { status := 0x000 } := by
  obtain ⟨hc, hrun, hop⟩ := running?_some hr
  refine ⟨_, ?_, finish_completes (s := s.dropDma d.tag) hc (plainCompl Status.ok)⟩
  rw [exec_dmaWrAck, doDmaWrAck_command hup h ho, partAcked_finishes (s := s.dropDma d.tag) part hc hrun (by simp [hop])]

theorem dmaWrAck_endsSave (hup : s.linkUp = true)
    (h : s.liust.dmas.find? (fun x => x.tag == d.tag && !x.read) = some d) (ho : d.owner = .command id manifestPart)
    (hr : s.running? id 0x810 = some c) :
    ∃ t u, exec (.dmaWrAck d.tag 0) s = .next t ∧ Completes u t id (savedCompl c)
      ∧ t.save.anySave = true ∧ t.save.lastMs = (s.wall - s.save.startNanos) / (720720 * 10 ^ 6)
      ∧ (∀ x, s.partData id stepPart = some x → t.save.lastStep = BitVec.ofNat 32 x.2)
      ∧ t.mem = s.mem ∧ t.hostTx = s.hostTx := by
  obtain ⟨hc, hrun, hop⟩ := running?_some hr
  obtain ⟨hends, hkept, hslots⟩ := finish_completes (s := (s.dropDma d.tag).manifestNoted c) hc (savedCompl c)
  refine ⟨_, _, ?_, ⟨hends, hkept, hslots⟩, congrArg Save.anySave hkept.save, congrArg Save.lastMs hkept.save,
    fun x hx => ?_, hkept.mem, hkept.hostTx⟩
  · rw [exec_dmaWrAck, doDmaWrAck_command hup h ho, partAcked_manifest (s := s.dropDma d.tag) hc hrun hop]
  · have hstep : (s.dropDma d.tag).partData c.id stepPart = some x := by rw [cmd?_id hc]; exact hx
    refine (congrArg Save.lastStep hkept.save).trans ?_
    simp [manifestNoted, hstep]

end Clauses

/-- Settles O47: each answer drops its request and does what the request's owner waits for. -/
theorem dmaAnswersAct : Obligations.DmaAnswersAct := by
  intro s d hup
  refine ⟨fun tag status data poison h => ?_, fun tag status h => ?_, fun q n h ho hn hq => ⟨?_, ?_, ?_⟩,
    fun q n h ho hn hq => dmaTimeout_stopsFetch h ho hn hq,
    fun id c k h ho hc hk hq => ⟨dmaWrAck_freesCompletion hup h ho hc hk, fun status hst => ?_⟩,
    fun id c k h ho hc hk hq => dmaTimeout_losesCompletion h ho hc hk hq,
    fun id part c h ho => ⟨dmaWrAck_endsAttest hup h ho, fun hr hpart => ?_⟩⟩
  · rw [exec_dmaResp, doDmaResp_unasked status data poison h]
  · rw [exec_dmaWrAck, doDmaWrAck_unasked status h]
  · exact fun data poison hlen => dmaResp_fetched poison hup h ho hn hq hlen
  · exact fun status data poison hst => dmaResp_stopsFetch data poison hup h ho hn hq hst
  · intro data poison hlen
    rw [exec_dmaResp, doDmaResp_badLength poison hup h hlen]
    rfl
  · exact dmaWrAck_losesCompletion hup h ho hc hk hq hst
  · exact dmaWrAck_endsSave hup h (hpart ▸ ho) hr

end Sys2Proof

/-! PROOFS. CNT_CLEAR (R434). Each of its bits has a row, and the row clears a group (`State.clearRow`). A row keeps the link
up and the registers in service, so that the rows of a write act one after the other as they do alone. -/

namespace Sys2Proof.Machine

theorem vget_replicate {α : Type} {n : Nat} (x : α) {i : Nat} (h : i < n) (d : α) : vget (Vector.replicate n x) i d = x := by
  simp [vget, h]

theorem Ctr.idx_injective : Function.Injective Ctr.idx :=
  Function.LeftInverse.injective (g := Ctr.ofNat) fun c => by cases c <;> rfl

theorem Ctr.idx_lt (c : Ctr) : c.idx < 40 := by cases c <;> decide

namespace State

/-! ## What a clear does to the counter file -/

theorem ctr_clearCtr_same (s : State) (c : Ctr) : (s.clearCtr c).ctr c = 0#64 :=
  vget_vmod_same _ _ _ _ c.idx_lt

theorem ctr_clearCtr_other (s : State) {c d : Ctr} (h : d ≠ c) : (s.clearCtr c).ctr d = s.ctr d :=
  vget_vmod_other _ _ _ _ _ (Ctr.idx_injective.ne h)

theorem clearCtrs_cons (s : State) (c : Ctr) (l : List Ctr) : s.clearCtrs (c :: l) = (s.clearCtr c).clearCtrs l := rfl

theorem ctr_clearCtrs_of_notMem {l : List Ctr} {c : Ctr} (h : c ∉ l) (s : State) : (s.clearCtrs l).ctr c = s.ctr c := by
  induction l generalizing s with
  | nil => rfl
  | cons d l ih =>
    obtain ⟨hne, hl⟩ := List.ne_and_not_mem_of_not_mem_cons h
    rw [clearCtrs_cons, ih hl, ctr_clearCtr_other s hne]

theorem ctr_clearCtrs_of_mem {l : List Ctr} {c : Ctr} (h : c ∈ l) (s : State) : (s.clearCtrs l).ctr c = 0#64 := by
  induction l generalizing s with
  | nil => cases h
  | cons d l ih =>
    rw [clearCtrs_cons]
    by_cases hl : c ∈ l
    · exact ih hl _
    · obtain rfl := (List.mem_cons.1 h).resolve_right hl
      rw [ctr_clearCtrs_of_notMem hl, ctr_clearCtr_same]

theorem clearCtrs_frame (l : List Ctr) (s : State) : s.clearCtrs l = { s with ctrs := (s.clearCtrs l).ctrs } := by
  induction l generalizing s with
  | nil => rfl
  | cons d l ih =>
    rw [clearCtrs_cons]
    exact ih _

/-! ## What a clear does to the sequencers -/

theorem seq_clearSeqCtrs (s : State) {n : Nat} (h : n < 4) :
    s.clearSeqCtrs.seq n = { s.seq n with phaseCyc := Vector.replicate 9 0#64, relayDelayCyc := 0#64 } := by
  simp [seq, clearSeqCtrs, vget, h]

/-! ## The rows -/

/-- What the row of a bit does to a state whose registers are in reach. -/
def clearRow (i : Instr) (s : State) : State :=
  match i with
  | .cntClearMemory => s.clearMemCtrs
  | .cntClearSeq => s.clearSeqCtrs
  | _ => s.clearCtrs ((clearedBy i).getD [])

theorem exec_clearRow {x : Nat × Instr} (hx : x ∈ clearRows) (s : State) :
    exec x.2 s = .next (s.atHost (clearRow x.2)) := by
  simp only [clearRows, List.mem_cons, List.not_mem_nil, or_false] at hx
  rcases hx with rfl | rfl | rfl | rfl | rfl | rfl | rfl | rfl <;> rfl

theorem exec_clearedBy {i : Instr} {l : List Ctr} (h : clearedBy i = some l) (s : State) :
    exec i s = .next (s.atHost (fun s => s.clearCtrs l)) := by
  unfold clearedBy at h
  split at h <;> cases h <;> rfl

theorem hostUp_clearRow (i : Instr) (s : State) : (s.clearRow i).hostUp = s.hostUp := by
  unfold clearRow
  split
  · rfl
  · rfl
  · rw [clearCtrs_frame]; rfl

theorem afterRow_clears {x : Nat × Instr} (hx : x ∈ clearRows) {s : State} (h : s.hostUp = true) :
    afterRow x.2 s = s.clearRow x.2 := by
  rw [afterRow, exec_clearRow hx, atHost_up h]

/-- The state after the rows of a list whose bits are 1 in m. -/
theorem foldl_afterRow (m : Nat) {rows : List (Nat × Instr)} (hr : rows ⊆ clearRows) {s : State} (h : s.hostUp = true) :
    rows.foldl (fun t x => if bit m x.1 then afterRow x.2 t else t) s
      = rows.foldl (fun t x => if bit m x.1 then t.clearRow x.2 else t) s := by
  induction rows generalizing s with
  | nil => rfl
  | cons x rows ih =>
    obtain ⟨hx, hrows⟩ := List.cons_subset.1 hr
    simp only [List.foldl_cons, afterRow_clears hx h]
    refine ih hrows ?_
    split
    · rw [hostUp_clearRow, h]
    · exact h

theorem clearGroups_rows (m : Nat) (s : State) :
    s.clearGroups m = clearRows.foldl (fun t x => if bit m x.1 then t.clearRow x.2 else t) s := rfl

/-! ## The register -/

theorem regOf_cntClear {s : State} (h : s.inService = true) : s.regOf (csb + 0x30) 8 = some .cntClear := by
  have hreg : regAt ((csb + 0x30 - csb) / 8 * 8) = some .cntClear := by decide
  have hin : (decide (csb ≤ csb + 0x30) && (csb + 0x30) % 8 == 0) = true := by decide
  simp only [regOf, hreg, hin, h, if_true, Bool.true_or]

theorem writeReg_cntClear (s : State) (addr : Nat) (w : Word64) :
    s.writeReg .cntClear addr 8 w = s.clearGroups w.toNat := by
  have hmask : low 32 + at' (low 32) 32 = 2 ^ 64 - 1 := by decide
  have hw : w.toNat &&& (2 ^ 64 - 1) = w.toNat := Nat.and_two_pow_sub_one_of_lt_two_pow w.isLt
  simp only [writeReg, regWrite, lowHalf, highHalf, wordData, beq_self_eq_true, Bool.true_or, if_true, hmask, hw,
    show (8 == 4) = false from rfl, Bool.false_eq_true, if_false]

theorem exec_cfgWr_write (addr len : Nat) (w : Word64) (s : State) :
    exec (.cfgWr addr len (.write w)) s = .next (s.doCfgWr addr len w) := rfl

theorem exec_cfgWr_cntClear {s : State} (hup : s.linkUp = true) (hin : s.inService = true) (w : Word64) :
    exec (.cfgWr (csb + 0x30) 8 (.write w)) s = .next (s.clearGroups w.toNat) := by
  rw [exec_cfgWr_write]
  simp [doCfgWr, hup, regOf_cntClear hin, writeReg_cntClear]

end State

end Sys2Proof.Machine

namespace Sys2Proof

open Machine State

/-- Settles O48: a write to CNT_CLEAR is the rows of its bits in turn, and each row clears its group. -/
theorem registerWritesAct : Obligations.RegisterWritesAct := by
  intro s hlink hin
  have hup : s.hostUp = true := by simp [hostUp, hlink, hin]
  refine ⟨fun i l hi => ?_, fun w => ?_, ?_, ?_⟩
  · exact ⟨s.clearCtrs l, by rw [exec_clearedBy hi, atHost_up hup], fun c hc => ctr_clearCtrs_of_mem hc s,
      fun c hc => ctr_clearCtrs_of_notMem hc s, clearCtrs_frame l s⟩
  · rw [exec_cfgWr_cntClear hlink hin, clearGroups_rows, foldl_afterRow _ (List.Subset.refl _) hup]
  · refine ⟨s.clearMemCtrs, congrArg Host.Outcome.next (atHost_up hup), ctr_clearCtr_same s .ssuCoalesced,
      ?_, rfl, ?_, ?_, rfl, rfl, rfl, rfl⟩
    · exact fun n hn => vget_replicate _ hn _
    · exact fun n hn => ⟨vget_replicate _ hn _, vget_replicate _ hn _, vget_replicate _ hn _⟩
    · exact fun n hn => ⟨vget_replicate _ hn _, vget_replicate _ hn _, vget_replicate _ hn _⟩
  · exact ⟨s.clearSeqCtrs, congrArg Host.Outcome.next (atHost_up hup), rfl, fun n hn => seq_clearSeqCtrs s hn⟩

end Sys2Proof

/-! PROOFS. Boot, POST and telemetry windows (R344, R441, R445, R476, R498). A benched core stays benched, and its repair map
stays as it is, while POST goes on over the other cores and while the domains settle after it (`Core.Stands`); so what POST
finds in the state that it starts from holds in the state that it leaves. -/

namespace Sys2Proof.Machine

namespace State

theorem exec_boot (s : State) : exec .boot s = .next s.doBoot := rfl

theorem exec_post (rs : List (Nat × CoreTest)) (bad : BitVec 8) (s : State) :
    exec (.post rs bad) s = .next (s.doPost rs bad) := rfl

theorem exec_telemetryWindowEnd (util now : Nat) (s : State) :
    exec (.telemetryWindowEnd util now) s = .next (s.doWindow util now) := rfl

/-! ## Boot (R357, R445, R505) -/

theorem trainLink_state (s : State) : s.trainLink.liust.state
    = if s.liust.state = .down ∧ s.liust.cable = true then .training else s.liust.state := by
  simp [trainLink]

theorem replaceRow_frame (s : State) (a : Nat) : s.replaceRow a = { s with
    mem := (s.replaceRow a).mem, free := (s.replaceRow a).free, memside := (s.replaceRow a).memside } := by
  unfold replaceRow
  dsimp only
  rw [writeBlocks_frame]

theorem applyRepair_frame (s : State) (e : Repair) : s.applyRepair e = { s with
    clusters := (s.applyRepair e).clusters, mem := (s.applyRepair e).mem, free := (s.applyRepair e).free
    memside := (s.applyRepair e).memside } := by
  unfold applyRepair
  split
  · rfl
  · rfl
  · rfl
  · rw [replaceRow_frame]
  · split
    · rw [replaceRow_frame]
    · rfl
  · rfl

theorem foldl_applyRepair_frame (l : List Repair) (s : State) : l.foldl applyRepair s = { s with
    clusters := (l.foldl applyRepair s).clusters, mem := (l.foldl applyRepair s).mem
    free := (l.foldl applyRepair s).free, memside := (l.foldl applyRepair s).memside } := by
  refine foldl_keeps (p := fun (t : State) =>
    t = { s with clusters := t.clusters, mem := t.mem, free := t.free, memside := t.memside }) (fun t e ht => ?_) l rfl
  rw [applyRepair_frame, ht]

/-- Loading the repair maps leaves the commands, the link and the Referee's state alone. -/
theorem loadRepairs_frame (s : State) : s.loadRepairs.cmds = s.cmds ∧ s.loadRepairs.liust = s.liust
    ∧ s.loadRepairs.referee.state = s.referee.state := by
  unfold loadRepairs
  dsimp only
  split
  all_goals
    simp only [modFlash, modReferee_cmds, modReferee_liust, modReferee_referee]
    rw [foldl_applyRepair_frame]
    exact ⟨rfl, rfl, rfl⟩

section Boot

variable {s : State} (halive : s.alive = true) (hrom : s.referee.state = .rom) (hst : (s.domain 0x50).st = .active)

include halive hrom hst

theorem doBoot_ended (hlife : s.referee.life = .ended) :
    s.doBoot = s.trainLink.modReferee (fun r => { r with state := .ended }) := by
  have hlife' : s.trainLink.referee.life = .ended := hlife
  simp [doBoot, halive, hrom, hst, DomSt.running, hlife']

theorem doBoot_recovery (hlife : s.referee.life ≠ .ended)
    (hbad : s.imageFault s.referee.flash.manifest s.referee.flash.body ≠ 0) :
    s.doBoot = s.trainLink.modReferee (fun r => { r with state := .recovery }) := by
  have hlife' : s.trainLink.referee.life ≠ .ended := hlife
  have hbad' : s.trainLink.imageFault s.trainLink.referee.flash.manifest s.trainLink.referee.flash.body ≠ 0 := hbad
  simp [doBoot, halive, hrom, hst, DomSt.running, hlife', hbad']

theorem doBoot_running (hlife : s.referee.life ≠ .ended)
    (hgood : s.imageFault s.referee.flash.manifest s.referee.flash.body = 0) :
    ∃ u : State, u.cmds = s.cmds ∧ u.liust = s.trainLink.liust ∧ u.referee.state = .running
      ∧ s.doBoot = u.loadRepairs.modErrors (fun e => { e with postRunning := true }) := by
  have hlife' : s.trainLink.referee.life ≠ .ended := hlife
  have hgood' : s.trainLink.imageFault s.trainLink.referee.flash.manifest s.trainLink.referee.flash.body = 0 := hgood
  refine ⟨(s.trainLink.modReferee (fun r => { r with
    state := .running, imageDigest := imageDigestOf s.trainLink.referee.flash.manifest
    imageSvn := imageSvnOf s.trainLink.referee.flash.manifest
    compat := imageCompatOf s.trainLink.referee.flash.manifest })).wakeAll, rfl, rfl, rfl, ?_⟩
  simp [doBoot, halive, hrom, hst, DomSt.running, hlife', hgood']

/-- BOOT: the state that life cycle and image call for, POST where the firmware runs, and a link that trains. -/
theorem doBoot_starts : s.doBoot.cmds = s.cmds
    ∧ s.doBoot.referee.state = (if s.referee.life = .ended then .ended
        else if s.imageFault s.referee.flash.manifest s.referee.flash.body ≠ 0 then .recovery else .running)
    ∧ s.doBoot.errors.postRunning = (s.errors.postRunning || s.doBoot.referee.state == .running)
    ∧ s.doBoot.liust.state = (if s.liust.state = .down ∧ s.liust.cable = true then .training else s.liust.state) := by
  rw [← trainLink_state]
  by_cases hlife : s.referee.life = .ended
  · rw [doBoot_ended halive hrom hst hlife, if_pos hlife]
    exact ⟨rfl, rfl, (Bool.or_false _).symm, rfl⟩
  rw [if_neg hlife]
  by_cases hgood : s.imageFault s.referee.flash.manifest s.referee.flash.body = 0
  · obtain ⟨u, hcmds, hliust, hstate, hboot⟩ := doBoot_running halive hrom hst hlife hgood
    obtain ⟨hcmds', hliust', hstate'⟩ := loadRepairs_frame u
    have hrunning : u.loadRepairs.referee.state = .running := hstate'.trans hstate
    rw [if_neg (not_not.2 hgood), hboot]
    simp [hcmds', hcmds, hliust', hliust, hrunning]
  · rw [doBoot_recovery halive hrom hst hlife hgood, if_pos hgood]
    exact ⟨rfl, rfl, (Bool.or_false _).symm, rfl⟩

end Boot

theorem doBoot_idle {s : State} (h : s.referee.state ≠ .rom) : s.doBoot = s := by simp [doBoot, h]

/-! ## Telemetry windows (R344, R441) -/

/-- A window that ends: the sums of the scout go on, and TELEM_MULT follows the Referee's load. -/
def windowEnded (s : State) (util : Nat) : State :=
  (s.modScout (fun v => { v with sinceMs := s.scout.sinceMs + 100, windows := v.windows + 1 })).modReferee (fun r => { r with
    util := util, busy := r.busy || 90 < util
    mult := if 90 < util then min 8 (2 * s.referee.mult) else if util < 70 then max 1 (s.referee.mult / 2) else s.referee.mult })

theorem doWindow_eq {s : State} (halive : s.alive = true) (hrun : s.referee.state = .running) (util now : Nat) :
    s.doWindow util now = if 100 * s.referee.mult ≤ s.scout.sinceMs + 100 then (s.windowEnded util).sample now
      else s.windowEnded util := by
  simp [doWindow, windowEnded, halive, hrun]

theorem scoutIndex_le (s : State) (v : Scout) : s.scoutIndex v ≤ 255 := Nat.min_le_left _ _

/-- A sample changes the scout, and notes in the save engine that the index rose to 224. -/
theorem sample_frame (s : State) (now : Nat) :
    s.sample now = { s with scout := (s.sample now).scout, save := (s.sample now).save } := by
  unfold sample
  dsimp only
  split <;> rfl

theorem sample_scout (s : State) (now : Nat) : (s.sample now).scout.index ≤ 255 ∧ (s.sample now).scout.sinceMs = 0
    ∧ (s.sample now).scout.peak = max s.scout.peak (s.sample now).scout.index := by
  have hscout : (s.sample now).scout = { s.scout.takeIn now with
      index := s.scoutIndex (s.scout.takeIn now)
      peak := max s.scout.peak (s.scoutIndex (s.scout.takeIn now)), sinceMs := 0 } := by
    unfold sample
    dsimp only
    split <;> rfl
  rw [hscout]
  exact ⟨scoutIndex_le _ _, rfl, rfl⟩

theorem sample_rose {s : State} {now : Nat} (hlow : s.scout.index < 224) (hhigh : 224 ≤ (s.sample now).scout.index) :
    (s.sample now).save.rose = true := by
  unfold sample at hhigh ⊢
  dsimp only at hhigh ⊢
  split
  · rfl
  · next h =>
    rw [if_neg h] at hhigh
    simp only [Bool.and_eq_true, decide_eq_true_eq, not_and] at h
    exact absurd hhigh (h hlow)

/-- A telemetry window: the load and what follows from it, and a sample where the scout's is due. -/
theorem doWindow_samples {s : State} (halive : s.alive = true) (hrun : s.referee.state = .running) (util now : Nat) :
    (s.doWindow util now).referee = (s.windowEnded util).referee
    ∧ (s.scout.sinceMs + 100 < 100 * s.referee.mult →
        (s.doWindow util now).scout.index = s.scout.index ∧ (s.doWindow util now).save = s.save)
    ∧ (100 * s.referee.mult ≤ s.scout.sinceMs + 100 →
        (s.doWindow util now).scout.index ≤ 255 ∧ (s.doWindow util now).scout.sinceMs = 0
        ∧ (s.doWindow util now).scout.peak = max s.scout.peak (s.doWindow util now).scout.index
        ∧ (s.scout.index < 224 → 224 ≤ (s.doWindow util now).scout.index → (s.doWindow util now).save.rose = true))
    ∧ (s.doWindow util now).mem = s.mem ∧ (s.doWindow util now).cmds = s.cmds := by
  rw [doWindow_eq halive hrun]
  split
  · next hdue =>
    obtain ⟨hindex, hsince, hpeak⟩ := sample_scout (s.windowEnded util) now
    have hrose := sample_rose (s := s.windowEnded util) (now := now)
    exact ⟨by rw [sample_frame], fun hnot => absurd hdue (Nat.not_le.2 hnot), fun _ => ⟨hindex, hsince, hpeak, hrose⟩,
      by rw [sample_frame]; rfl, by rw [sample_frame]; rfl⟩
  · next hnot => exact ⟨rfl, fun _ => ⟨rfl, rfl⟩, fun hdue => absurd hdue hnot, rfl, rfl⟩

end State

/-! ## What a core keeps while POST goes on -/

/-- A core whose repair map is as before, and that is benched still if it was benched. -/
structure Core.Stands (x y : Core) : Prop where
  rows : y.badRows = x.badRows
  cols : y.badCols = x.badCols
  benched : x.mode = .benched → y.mode = .benched

theorem Core.Stands.refl (x : Core) : x.Stands x := ⟨rfl, rfl, id⟩

theorem Core.Stands.trans {x y z : Core} (h : x.Stands y) (k : y.Stands z) : x.Stands z :=
  ⟨k.rows.trans h.rows, k.cols.trans h.cols, k.benched ∘ h.benched⟩

theorem SameCore.stands {x y : Core} (h : SameCore x y) : x.Stands y := by
  obtain ⟨hsame, hmode⟩ := h
  have hrows := congrArg Core.badRows hsame
  have hcols := congrArg Core.badCols hsame
  exact ⟨hrows, hcols, fun hx => hmode.elim (·.trans hx) fun hbench => by simp [hx] at hbench⟩

theorem SameCluster.out_eq {a b : Cluster} (h : SameCluster a b) : b.out = a.out := by
  have hout := congrArg Cluster.out h.words
  exact hout

theorem Core.stands_wiped (k : Core) : k.Stands k.wiped := ⟨rfl, rfl, id⟩

theorem vget_map {α : Type} {n : Nat} (v : Vector α n) (f : α → α) {i : Nat} (d : α) (h : i < n) :
    vget (v.map f) i d = f (vget v i d) := by
  simp [vget, h]

/-! ## Benching within a cluster (R20, R492) -/

/-- A core that is benched: without work, and out of its row. -/
def Core.retire (k : Core) : Core := { k.emptied with mode := .benched, failing := false, cls := 0 }

theorem Core.stands_retire (k : Core) : k.Stands k.retire := ⟨rfl, rfl, fun _ => rfl⟩

theorem Cluster.modCore_stands (c : Cluster) {i : Nat} {f : Core → Core}
    (hf : (vget c.cores i {}).Stands (f (vget c.cores i {}))) (j : Nat) :
    (vget c.cores j {}).Stands (vget (c.modCore i f).cores j {}) := by
  by_cases hj : j = i
  · subst hj
    by_cases hlt : j < 28
    · rwa [modCore, vget_vmod_same _ _ _ _ hlt]
    · rw [modCore, vmod_outside _ _ _ (Nat.le_of_not_lt hlt)]
      exact Core.Stands.refl _
  · rw [modCore, vget_vmod_other _ _ _ _ _ hj]
    exact Core.Stands.refl _

theorem Cluster.mode_of_benchOf {c : Cluster} {row j : Nat} (h : c.benchOf row = some j) :
    (vget c.cores j {}).mode = .bench := by
  simpa using List.find?_some h

/-- What `Cluster.bench` does: the core is benched, and a bench core may take its place. -/
theorem Cluster.bench_cases (c : Cluster) (i : Nat) :
    let d := c.modCore i Core.retire
    c.bench i = d ∨ ∃ j x, (vget d.cores j {}).mode = .bench
      ∧ c.bench i = d.modCore j (fun k => { k with mode := .active, cls := x }) := by
  unfold bench
  dsimp only
  split
  · next j _ hj => exact .inr ⟨j, _, mode_of_benchOf hj, rfl⟩
  · exact .inl rfl

theorem Core.stands_active {k : Core} (h : k.mode = .bench) (x : Nat) : k.Stands { k with mode := .active, cls := x } :=
  ⟨rfl, rfl, fun hk => by simp [h] at hk⟩

theorem Cluster.bench_out (c : Cluster) (i : Nat) : (c.bench i).out = c.out := by
  rcases c.bench_cases i with h | ⟨j, x, -, h⟩ <;> rw [h] <;> rfl

theorem Cluster.bench_stands (c : Cluster) (i j : Nat) : (vget c.cores j {}).Stands (vget (c.bench i).cores j {}) := by
  have hd := c.modCore_stands (i := i) (Core.stands_retire _) j
  rcases c.bench_cases i with h | ⟨m, x, hm, h⟩
  · rwa [h]
  · rw [h]
    exact hd.trans (modCore_stands _ (Core.stands_active hm x) j)

theorem Cluster.bench_benches (c : Cluster) {i : Nat} (hi : i < 28) : (vget (c.bench i).cores i {}).mode = .benched := by
  have hd : (vget (c.modCore i Core.retire).cores i {}).mode = .benched := by
    rw [modCore, vget_vmod_same _ _ _ _ hi]
    rfl
  rcases c.bench_cases i with h | ⟨m, x, hm, h⟩
  · rwa [h]
  · rw [h]
    exact (modCore_stands _ (Core.stands_active hm x) i).benched hd

namespace State

/-- Every core stands, from one state to another. -/
def CoresStand (s t : State) : Prop := ∀ n i, (vget (s.cluster n).cores i {}).Stands (vget (t.cluster n).cores i {})

theorem CoresStand.of_clusters {s t : State} (h : t.clusters = s.clusters) : CoresStand s t := fun n i => by
  rw [cluster, cluster, h]
  exact Core.Stands.refl _

theorem CoresStand.trans {s t u : State} (h : CoresStand s t) (k : CoresStand t u) : CoresStand s u :=
  fun n i => (h n i).trans (k n i)

/-- A core tests as before where its repair map is as before. -/
theorem CoresStand.testFails {s t : State} (h : CoresStand s t) (n i : Nat) (r : CoreTest) :
    t.testFails n i r = s.testFails n i r := by
  simp only [State.testFails, arrayFail, retired, (h n i).rows, (h n i).cols]

theorem cluster_modCluster_same (s : State) {n : Nat} (f : Cluster → Cluster) (h : n < 8) :
    (s.modCluster n f).cluster n = f (s.cluster n) :=
  vget_vmod_same _ _ _ _ h

theorem cluster_modCluster_other (s : State) {n m : Nat} (f : Cluster → Cluster) (h : m ≠ n) :
    (s.modCluster n f).cluster m = s.cluster m :=
  vget_vmod_other _ _ _ _ _ h

theorem coresStand_modCluster (s : State) (n : Nat) {f : Cluster → Cluster}
    (hf : ∀ i, (vget (s.cluster n).cores i {}).Stands (vget (f (s.cluster n)).cores i {})) :
    CoresStand s (s.modCluster n f) := fun m i => by
  by_cases hm : m = n
  · subst hm
    by_cases hlt : m < 8
    · rw [cluster_modCluster_same s f hlt]
      exact hf i
    · rw [modCluster, vmod_outside _ _ _ (Nat.le_of_not_lt hlt)]
      exact Core.Stands.refl _
  · rw [cluster_modCluster_other s f hm]
    exact Core.Stands.refl _

theorem out_modCluster (s : State) (n : Nat) {f : Cluster → Cluster} (hf : ∀ c, (f c).out = c.out) (m : Nat) :
    ((s.modCluster n f).cluster m).out = (s.cluster m).out := by
  by_cases hm : m = n
  · subst hm
    by_cases hlt : m < 8
    · rw [cluster_modCluster_same s f hlt, hf]
    · rw [modCluster, vmod_outside _ _ _ (Nat.le_of_not_lt hlt)]
  · rw [cluster_modCluster_other s f hm]

/-! ## Power domains -/

/-- A domain whose entry of the list of domains changed: it is as before, or what the change makes of it. -/
theorem domain_map {s t : State} {f : Nat × Domain → Nat × Domain} (ht : t.power.domains = s.power.domains.map f)
    (hf : ∀ d, (f d).1 = d.1) (c : Nat) : t.domain c = s.domain c ∨ t.domain c = (f (c, s.domain c)).2 := by
  have hcode : ((fun p : Nat × Domain => p.1 == c) ∘ f) = fun p => p.1 == c := funext fun p => by simp [hf]
  unfold domain
  rw [ht, List.find?_map, hcode]
  cases h : s.power.domains.find? (fun p => p.1 == c) with
  | none => exact .inl rfl
  | some d =>
    have hd : d.1 = c := by simpa using List.find?_some h
    subst hd
    exact .inr rfl

theorem domain_st_map {s t : State} {f : Nat × Domain → Nat × Domain} (ht : t.power.domains = s.power.domains.map f)
    (hf : ∀ d, (f d).1 = d.1) (hst : ∀ d, (f d).2.st = d.2.st) (c : Nat) : (t.domain c).st = (s.domain c).st := by
  rcases domain_map ht hf c with h | h
  · rw [h]
  · rw [h, hst]

/-- A domain after a change of a domain: as it was, or changed. -/
theorem domain_modDomain (s : State) (c m : Nat) (f : Domain → Domain) :
    (s.modDomain c f).domain m = s.domain m ∨ (s.modDomain c f).domain m = f (s.domain m) := by
  have h := domain_map (s := s) (t := s.modDomain c f) (f := fun d => if d.1 == c then (c, f d.2) else d) rfl
    (fun d => by split <;> simp_all) m
  dsimp only at h
  split at h
  · exact h
  · exact .inl (h.elim id id)

theorem domain_st_modDomain (s : State) (c : Nat) {f : Domain → Domain} (hf : ∀ d, (f d).st = d.st) (m : Nat) :
    ((s.modDomain c f).domain m).st = (s.domain m).st := by
  rcases domain_modDomain s c m f with h | h
  · rw [h]
  · rw [h, hf]

/-! ## POST of a cluster (R493, R498) -/

/-- What POST keeps while it goes from core to core: memory, the states of the domains, and what it found before. -/
structure PostKept (s t : State) : Prop where
  cores : CoresStand s t
  mem : t.mem = s.mem
  domains : ∀ c, (t.domain c).st = (s.domain c).st
  done : ∀ n, s.errors.postDone.getLsbD n = true → t.errors.postDone.getLsbD n = true

theorem PostKept.refl (s : State) : PostKept s s := ⟨.of_clusters rfl, rfl, fun _ => rfl, fun _ => id⟩

theorem PostKept.trans {s t u : State} (h : PostKept s t) (k : PostKept t u) : PostKept s u :=
  ⟨h.cores.trans k.cores, k.mem.trans h.mem, fun c => (k.domains c).trans (h.domains c), fun n => k.done n ∘ h.done n⟩

theorem recordBench_frame (s : State) (e : Repair) :
    s.recordBench e = { s with referee := (s.recordBench e).referee, errors := (s.recordBench e).errors }
      ∧ (s.recordBench e).errors.postDone = s.errors.postDone := by
  unfold recordBench
  dsimp only
  split
  · exact ⟨rfl, rfl⟩
  · split
    · exact ⟨rfl, rfl⟩
    · split <;> exact ⟨rfl, rfl⟩

/-- What `benchCore` does to the clusters, and what it leaves alone. -/
theorem benchCore_frame {s : State} {n i : Nat} (h : (vget (s.cluster n).cores i {}).mode ≠ .benched) :
    (s.benchCore n i).clusters = (s.modCluster n (fun c => c.bench i)).clusters ∧ (s.benchCore n i).mem = s.mem
      ∧ (s.benchCore n i).power = s.power ∧ (s.benchCore n i).errors.postDone = s.errors.postDone := by
  unfold benchCore
  rw [if_neg (by simpa using h)]
  dsimp only
  rw [(recordBench_frame ..).2, (recordBench_frame ..).1]
  exact ⟨rfl, rfl, rfl, rfl⟩

/-- POST of one core: one that fails and is not benched yet is benched, and counts. -/
def postCore (s : State) (rs : List (Nat × CoreTest)) (n i : Nat) : State :=
  if s.testFails n i (testOf rs (28 * n + i)) && (vget (s.cluster n).cores i {}).mode != .benched then
    (s.benchCore n i).modErrors (fun e => { e with postBenched := e.postBenched + 1 })
  else s

/-- POST of the first k cores of a cluster. -/
def postCores (s : State) (rs : List (Nat × CoreTest)) (n k : Nat) : State :=
  (List.range k).foldl (fun s i => s.postCore rs n i) s

theorem postCores_succ (s : State) (rs : List (Nat × CoreTest)) (n k : Nat) :
    s.postCores rs n (k + 1) = (s.postCores rs n k).postCore rs n k := by
  simp [postCores, List.range_succ]

theorem postCore_cases (s : State) (rs : List (Nat × CoreTest)) (n i : Nat) :
    (s.testFails n i (testOf rs (28 * n + i)) = true ∧ (vget (s.cluster n).cores i {}).mode ≠ .benched
      ∧ s.postCore rs n i = (s.benchCore n i).modErrors (fun e => { e with postBenched := e.postBenched + 1 }))
    ∨ ((s.testFails n i (testOf rs (28 * n + i)) = true → (vget (s.cluster n).cores i {}).mode = .benched)
      ∧ s.postCore rs n i = s) := by
  unfold postCore
  split
  · next h => exact .inl ⟨by simp_all, by simp_all, rfl⟩
  · next h => exact .inr ⟨by simpa using h, rfl⟩

theorem postCore_kept (s : State) (rs : List (Nat × CoreTest)) (n i : Nat) : PostKept s (s.postCore rs n i) := by
  rcases postCore_cases s rs n i with ⟨-, hmode, h⟩ | ⟨-, h⟩
  · obtain ⟨hclusters, hmem, hpower, hdone⟩ := benchCore_frame hmode
    rw [h]
    refine ⟨fun m j => ?_, hmem, fun c => by rw [domain, domain, modErrors_power, hpower], fun m hm => ?_⟩
    · have hstand := coresStand_modCluster s n (f := fun c => c.bench i) (fun j => Cluster.bench_stands _ i j) m j
      rw [cluster, cluster] at hstand ⊢
      rwa [modErrors_clusters, hclusters]
    · rwa [modErrors_errors, hdone]
  · rw [h]
    exact .refl s

theorem postCore_out (s : State) (rs : List (Nat × CoreTest)) (n i m : Nat) :
    ((s.postCore rs n i).cluster m).out = (s.cluster m).out := by
  rcases postCore_cases s rs n i with ⟨-, hmode, h⟩ | ⟨-, h⟩
  · have hcluster : (s.postCore rs n i).cluster m = (s.modCluster n (fun c => c.bench i)).cluster m := by
      rw [h, cluster, cluster, modErrors_clusters, (benchCore_frame hmode).1]
    rw [hcluster]
    exact out_modCluster s n (fun c => c.bench_out i) m
  · rw [h]

theorem postCore_benches {s : State} {rs : List (Nat × CoreTest)} {n i : Nat} (hn : n < 8) (hi : i < 28)
    (hfail : s.testFails n i (testOf rs (28 * n + i)) = true) :
    (vget ((s.postCore rs n i).cluster n).cores i {}).mode = .benched := by
  rcases postCore_cases s rs n i with ⟨-, hmode, h⟩ | ⟨hbenched, h⟩
  · have hcluster : (s.postCore rs n i).cluster n = (s.cluster n).bench i := by
      rw [h, cluster, modErrors_clusters, (benchCore_frame hmode).1]
      exact cluster_modCluster_same _ _ hn
    rw [hcluster]
    exact Cluster.bench_benches _ hi
  · rw [h]
    exact hbenched hfail

/-- After the first k cores of a cluster, those of them that failed at the start are benched. -/
theorem postCores_benches (s : State) (rs : List (Nat × CoreTest)) {n k : Nat} (hn : n < 8) (hk : k ≤ 28) :
    PostKept s (s.postCores rs n k) ∧ (∀ m, ((s.postCores rs n k).cluster m).out = (s.cluster m).out)
      ∧ ∀ i < k, s.testFails n i (testOf rs (28 * n + i)) = true →
          (vget ((s.postCores rs n k).cluster n).cores i {}).mode = .benched := by
  induction k with
  | zero => exact ⟨.refl s, fun _ => rfl, fun i hi => absurd hi (Nat.not_lt_zero i)⟩
  | succ k ih =>
    obtain ⟨hkept, hout, hbenched⟩ := ih (by omega)
    rw [postCores_succ]
    have hstep := postCore_kept (s.postCores rs n k) rs n k
    refine ⟨hkept.trans hstep, fun m => (postCore_out ..).trans (hout m), fun i hi hfail => ?_⟩
    rcases Nat.lt_succ_iff_lt_or_eq.1 hi with hlt | rfl
    · exact (hstep.cores n i).benched (hbenched i hlt hfail)
    · exact postCore_benches hn (by omega) ((hkept.cores.testFails n i _).trans hfail)

/-- A cluster whose POST has run. -/
def postNoted (s : State) (n : Nat) : State :=
  s.modErrors (fun e => { e with postDone := e.postDone ||| BitVec.ofNat 8 (2 ^ n) })

/-- A cluster with a buffer that memory self-test cannot repair is out of service (R493). -/
def takenOut (s : State) (n : Nat) : State :=
  ((s.modCluster n (fun c => { c with out := true })).modErrors (fun e => { e with
    clusterOut := true, postOut := e.postOut ||| BitVec.ofNat 8 (2 ^ n) })).modDomain n (fun d => { d with inService := false })

theorem postCluster_running {s : State} {n : Nat} (rs : List (Nat × CoreTest)) (bad : BitVec 8)
    (h : (s.domain n).st.running = true) :
    s.postCluster rs bad n = if bad.getLsbD n then ((s.postCores rs n 28).postNoted n).takenOut n
      else (s.postCores rs n 28).postNoted n := by
  unfold postCluster
  rw [h]
  rfl

theorem postCluster_idle {s : State} {n : Nat} (rs : List (Nat × CoreTest)) (bad : BitVec 8)
    (h : (s.domain n).st.running = false) : s.postCluster rs bad n = s := by
  simp [postCluster, h]

theorem postNoted_done (s : State) {n : Nat} (h : n < 8) : (s.postNoted n).errors.postDone.getLsbD n = true := by
  show (s.errors.postDone ||| BitVec.ofNat 8 (2 ^ n)).getLsbD n = true
  rw [BitVec.getLsbD_or, BitVec.getLsbD_ofNat, Nat.testBit_two_pow_self, decide_eq_true h, Bool.true_and, Bool.or_true]

theorem postNoted_kept (s : State) (n : Nat) : PostKept s (s.postNoted n) :=
  ⟨.of_clusters rfl, rfl, fun _ => rfl, fun m hm => by simp [postNoted, BitVec.getLsbD_or, hm]⟩

theorem takenOut_kept (s : State) (n : Nat) : PostKept s (s.takenOut n) := by
  refine ⟨coresStand_modCluster s n fun _ => .refl _, rfl, fun c => ?_, fun _ => id⟩
  exact domain_st_modDomain (f := fun d => { d with inService := false }) _ n (fun _ => rfl) c

/-- What POST finds for cluster n, whose domain runs in s: it is done, out where its buffer is bad, and each core that fails is
benched. -/
structure Posted (rs : List (Nat × CoreTest)) (bad : BitVec 8) (s t : State) (n : Nat) : Prop where
  done : t.errors.postDone.getLsbD n = true
  out : (t.cluster n).out = ((s.cluster n).out || bad.getLsbD n)
  benched : ∀ i < 28, s.testFails n i (testOf rs (28 * n + i)) = true → (vget (t.cluster n).cores i {}).mode = .benched

section Posted

variable {rs : List (Nat × CoreTest)} {bad : BitVec 8} {s t u : State} {n : Nat}

/-- What POST found for a cluster stays while the cores stand. -/
theorem Posted.mono (h : Posted rs bad s t n) (hcores : CoresStand t u) (hout : (u.cluster n).out = (t.cluster n).out)
    (hdone : t.errors.postDone.getLsbD n = true → u.errors.postDone.getLsbD n = true) : Posted rs bad s u n :=
  ⟨hdone h.done, hout.trans h.out, fun i hi hfail => (hcores n i).benched (h.benched i hi hfail)⟩

/-- What POST finds is the same from any state that has the same cores to test. -/
theorem Posted.of_start (h : Posted rs bad t u n) (hcores : CoresStand s t) (hout : (t.cluster n).out = (s.cluster n).out) :
    Posted rs bad s u n :=
  ⟨h.done, hout ▸ h.out, fun i hi hfail => h.benched i hi ((hcores.testFails n i _).trans hfail)⟩

end Posted

theorem cluster_takenOut_same (s : State) {n : Nat} (h : n < 8) : (s.takenOut n).cluster n = { s.cluster n with out := true } :=
  cluster_modCluster_same s _ h

theorem cluster_takenOut_other (s : State) {n m : Nat} (h : m ≠ n) : (s.takenOut n).cluster m = s.cluster m :=
  cluster_modCluster_other s _ h

theorem postCluster_kept (s : State) (rs : List (Nat × CoreTest)) (bad : BitVec 8) {n : Nat} (hn : n < 8) :
    PostKept s (s.postCluster rs bad n) ∧ ∀ m, m ≠ n → ((s.postCluster rs bad n).cluster m).out = (s.cluster m).out := by
  cases hrun : (s.domain n).st.running with
  | false =>
    rw [postCluster_idle rs bad hrun]
    exact ⟨.refl s, fun _ _ => rfl⟩
  | true =>
    obtain ⟨hkept, hout, -⟩ := postCores_benches s rs hn (Nat.le_refl 28)
    have hnoted := hkept.trans (postNoted_kept _ n)
    rw [postCluster_running rs bad hrun]
    split
    · exact ⟨hnoted.trans (takenOut_kept _ n), fun m hm => by rw [cluster_takenOut_other _ hm]; exact hout m⟩
    · exact ⟨hnoted, fun m _ => hout m⟩

theorem postCluster_posted {s : State} {n : Nat} (rs : List (Nat × CoreTest)) (bad : BitVec 8) (hn : n < 8)
    (hrun : (s.domain n).st.running = true) : Posted rs bad s (s.postCluster rs bad n) n := by
  obtain ⟨-, hout, hbenched⟩ := postCores_benches s rs hn (Nat.le_refl 28)
  have hdone := postNoted_done (s.postCores rs n 28) hn
  rw [postCluster_running rs bad hrun]
  split
  · next hbad =>
    refine ⟨hdone, ?_, ?_⟩
    · rw [cluster_takenOut_same _ hn, hbad, Bool.or_true]
    · rw [cluster_takenOut_same _ hn]
      exact hbenched
  · next hgood =>
    refine ⟨hdone, ?_, hbenched⟩
    rw [Bool.eq_false_of_not_eq_true hgood, Bool.or_false]
    exact hout n

/-- POST of the first k clusters. -/
def postClusters (s : State) (rs : List (Nat × CoreTest)) (bad : BitVec 8) (k : Nat) : State :=
  (List.range k).foldl (fun s n => s.postCluster rs bad n) s

theorem postClusters_succ (s : State) (rs : List (Nat × CoreTest)) (bad : BitVec 8) (k : Nat) :
    s.postClusters rs bad (k + 1) = (s.postClusters rs bad k).postCluster rs bad k := by
  simp [postClusters, List.range_succ]

/-- After the first k clusters, POST has done those of them that run. -/
theorem postClusters_posted (s : State) (rs : List (Nat × CoreTest)) (bad : BitVec 8) {k : Nat} (hk : k ≤ 8) :
    PostKept s (s.postClusters rs bad k)
      ∧ (∀ m, k ≤ m → ((s.postClusters rs bad k).cluster m).out = (s.cluster m).out)
      ∧ ∀ n < k, (s.domain n).st.running = true → Posted rs bad s (s.postClusters rs bad k) n := by
  induction k with
  | zero => exact ⟨.refl s, fun _ _ => rfl, fun n hn => absurd hn (Nat.not_lt_zero n)⟩
  | succ k ih =>
    obtain ⟨hkept, hout, hposted⟩ := ih (by omega)
    rw [postClusters_succ]
    obtain ⟨hstep, hothers⟩ := postCluster_kept (s.postClusters rs bad k) rs bad (n := k) (by omega)
    refine ⟨hkept.trans hstep, fun m hm => (hothers m (by omega)).trans (hout m (by omega)), fun n hn hrun => ?_⟩
    rcases Nat.lt_succ_iff_lt_or_eq.1 hn with hlt | rfl
    · exact (hposted n hlt hrun).mono hstep.cores (hothers n (by omega)) (hstep.done n)
    · rw [← hkept.domains] at hrun
      exact (postCluster_posted rs bad (by omega) hrun).of_start hkept.cores (hout n (Nat.le_refl n))

/-! ## Domains that settle (R231, R475 to R478) -/

/-- The end of a playbook takes its votes, and leaves the state of every domain. -/
theorem settleSeq_domain_st (s : State) (n c : Nat) : ((s.settleSeq n).domain c).st = (s.domain c).st := by
  unfold settleSeq
  dsimp only
  split
  · refine domain_st_map (f := fun d => (d.1, { d.2 with pb := vset d.2.pb n 0 })) ?_ (fun _ => rfl) (fun _ => rfl) c
    rw [endHost_frame]
    rfl
  · rfl

theorem finish_domain_st (s : State) (id : Nat) (k : Compl) (c : Nat) : ((s.finish id k).domain c).st = (s.domain c).st := by
  cases hcmd : s.cmd? id with
  | none => rw [finish, hcmd]
  | some x =>
    obtain ⟨u, -, -, -, -, hpower, -, hfinish⟩ := finish_settles hcmd k
    have hu : (s.domain c).st = (u.domain c).st := by rw [domain, domain, hpower]
    rw [hfinish, hu]
    split
    · rw [endHost_frame]; rfl
    · unfold endEntry
      dsimp only
      rw [settleSeq_domain_st, (retire_frame ..).1]
      rfl

/-- What the domains keep as they settle: the error state, whether a cluster is out, and, where no domain is entering, memory. -/
structure SettleKept (s t : State) : Prop where
  cores : CoresStand s t
  out : ∀ n, (t.cluster n).out = (s.cluster n).out
  errors : t.errors = s.errors
  calm : (∀ c, (s.domain c).st ≠ .entering) → t.mem = s.mem ∧ ∀ c, (t.domain c).st ≠ .entering

theorem SettleKept.refl (s : State) : SettleKept s s := ⟨.of_clusters rfl, fun _ => rfl, rfl, fun h => ⟨rfl, h⟩⟩

theorem SettleKept.trans {s t u : State} (h : SettleKept s t) (k : SettleKept t u) : SettleKept s u :=
  ⟨h.cores.trans k.cores, fun n => (k.out n).trans (h.out n), k.errors.trans h.errors, fun hs =>
    have ⟨hmem, ht⟩ := h.calm hs
    have ⟨hmem', hu⟩ := k.calm ht
    ⟨hmem'.trans hmem, hu⟩⟩

theorem finish_settleKept (s : State) (id : Nat) (k : Compl) : SettleKept s (s.finish id k) := by
  cases hcmd : s.cmd? id with
  | none =>
    rw [finish, hcmd]
    exact .refl s
  | some c =>
    obtain ⟨-, hkept, -⟩ := finish_completes hcmd k
    refine ⟨fun n i => SameCore.stands ((hkept.clusters n).cores i), fun n => SameCluster.out_eq (hkept.clusters n),
      hkept.errors, fun hs => ⟨hkept.mem, fun c => ?_⟩⟩
    rw [finish_domain_st]
    exact hs c

theorem settleVotes_settleKept (s : State) : SettleKept s s.settleVotes := by
  unfold settleVotes
  refine foldl_keeps (p := SettleKept s) (fun t c ht => ?_) s.cmds (.refl s)
  split
  · dsimp only
    split
    · exact ht.trans (finish_settleKept ..)
    · exact ht
  · exact ht

/-- A domain takes a state other than ENTERING. -/
theorem setSt_settleKept (s : State) (c : Nat) {st : DomSt} (h : st ≠ .entering) :
    SettleKept s (s.modDomain c (fun d => { d with st := st })) := by
  refine ⟨.of_clusters rfl, fun _ => rfl, rfl, fun hs => ⟨rfl, fun m => ?_⟩⟩
  rcases domain_modDomain s c m (fun d => { d with st := st }) with hm | hm
  · rw [hm]
    exact hs m
  · rw [hm]
    exact h

theorem clusterLoses_cores (s : State) (n : Nat) : CoresStand s (s.clusterLoses n) := by
  refine coresStand_modCluster (s.setMem _) n fun i => ?_
  by_cases hi : i < 28
  · rw [vget_map _ _ _ hi]
    exact Core.stands_wiped _
  · rw [vget_outside hi, vget_outside hi]
    exact .refl _

theorem clusterLoses_out (s : State) (n m : Nat) : ((s.clusterLoses n).cluster m).out = (s.cluster m).out :=
  out_modCluster (s.setMem _) n (f := fun c => { c with cores := c.cores.map Core.wiped }) (fun _ => rfl) m

theorem groupDown_keeps (s : State) (g : Nat) :
    (s.groupDown g).clusters = s.clusters ∧ (s.groupDown g).errors = s.errors := by
  unfold groupDown
  refine foldl_keeps (p := fun (t : State) => t.clusters = s.clusters ∧ t.errors = s.errors) (fun t k ht => ?_) _ ⟨rfl, rfl⟩
  exact ht

/-- Power-down of a domain leaves the error state, and of the cores what makes them stand. -/
theorem powerDown_keeps (s : State) (c : Nat) (st : DomSt) : CoresStand s (s.powerDown c st)
    ∧ (∀ n, ((s.powerDown c st).cluster n).out = (s.cluster n).out) ∧ (s.powerDown c st).errors = s.errors := by
  unfold powerDown
  dsimp only
  obtain ⟨u, hu⟩ : ∃ u, u = s.modDomain c (fun d => { d with st := st }) := ⟨_, rfl⟩
  have hclusters : u.clusters = s.clusters := by rw [hu, modDomain_clusters]
  have herrors : u.errors = s.errors := by rw [hu, modDomain_errors]
  rw [← hu]
  split
  · have hout (n : Nat) : (u.cluster n).out = (s.cluster n).out := by rw [cluster, cluster, hclusters]
    exact ⟨(CoresStand.of_clusters hclusters).trans (clusterLoses_cores u c),
      fun n => (clusterLoses_out u c n).trans (hout n), herrors⟩
  · split
    · obtain ⟨hdown, hdown'⟩ := groupDown_keeps u (c - 0x30)
      rw [hclusters] at hdown
      exact ⟨.of_clusters hdown, fun n => by rw [cluster, cluster, hdown], hdown'.trans herrors⟩
    · exact ⟨.of_clusters hclusters, fun n => by rw [cluster, cluster, hclusters], herrors⟩

theorem runAs_ne_entering (v : Nat) : runAs v ≠ .entering := by unfold runAs; split <;> decide

theorem floorOf_ne_entering (c : Nat) : floorOf c ≠ .entering := by unfold floorOf; split <;> decide

/-- A domain that is entering, and wakes again: the free choice is whether its entry ends first (R478). -/
theorem leaveEntry_settleKept {s : State} {c : Nat} (v : Nat) (h : (s.domain c).st = .entering) :
    SettleKept s (let b := s.freeBit
      if b.1 then b.2.modDomain c (fun d => { d with st := runAs v })
      else (b.2.powerDown c .nap).modDomain c (fun d => { d with st := .waking })) := by
  dsimp only
  split
  · obtain ⟨hcores, hout, herrors, hcalm⟩ := setSt_settleKept s.freeBit.2 c (runAs_ne_entering v)
    exact ⟨hcores, hout, herrors, hcalm⟩
  · obtain ⟨hcores, hout, herrors⟩ := powerDown_keeps s.freeBit.2 c .nap
    exact ⟨hcores, hout, herrors, fun hs => absurd h (hs c)⟩

theorem settleDomain_settleKept (s : State) (c : Nat) : SettleKept s (s.settleDomain c) := by
  unfold settleDomain
  dsimp only
  refine SettleKept.trans ?_ (settleVotes_settleKept _)
  split
  · exact setSt_settleKept s c (runAs_ne_entering _)
  · exact setSt_settleKept s c (runAs_ne_entering _)
  · split
    · exact setSt_settleKept s c (by decide)
    · split
      · exact setSt_settleKept s c (floorOf_ne_entering c)
      · exact .refl s
  · split
    · exact .refl s
    · split
      · exact setSt_settleKept s c (by decide)
      · split
        · exact setSt_settleKept s c (by decide)
        · exact .refl s
  · next hst =>
    split
    · exact .refl s
    · exact leaveEntry_settleKept _ hst
  · exact .refl s

theorem foldl_settleDomain_settleKept (s : State) (l : List Nat) : SettleKept s (l.foldl settleDomain s) :=
  foldl_keeps (p := SettleKept s) (fun _ c ht => ht.trans (settleDomain_settleKept _ c)) l (.refl s)

/-! ## POST (R476, R498) -/

/-- POST is over: the host's votes stand at IDLE for what is in service. -/
def postEnded (s : State) : State :=
  (s.modErrors (fun e => { e with postRunning := false })).modPower (fun p => { p with
    domains := p.domains.map (fun (d : Nat × Domain) =>
      (d.1, { d.2 with host := if d.2.inService && d.1 < 0x40 then 2 else d.2.host })) })

theorem postEnded_domain_st (s : State) (c : Nat) : (s.postEnded.domain c).st = (s.domain c).st :=
  domain_st_map (f := fun d => (d.1, { d.2 with host := if d.2.inService && d.1 < 0x40 then 2 else d.2.host })) rfl
    (fun _ => rfl) (fun _ => rfl) c

theorem doPost_eq {s : State} (rs : List (Nat × CoreTest)) (bad : BitVec 8) (halive : s.alive = true)
    (hrun : s.referee.state = .running) (hpost : s.errors.postRunning = true) (hready : s.postReady = true) :
    s.doPost rs bad = domainCodes.foldl settleDomain (s.postClusters rs bad 8).postEnded := by
  unfold doPost
  rw [halive, hrun, hpost, hready]
  rfl

/-- POST ends: the clusters that run are tested, and memory changes only where a domain was entering. -/
theorem doPost_posts {s : State} (rs : List (Nat × CoreTest)) (bad : BitVec 8) (halive : s.alive = true)
    (hrun : s.referee.state = .running) (hpost : s.errors.postRunning = true) (hready : s.postReady = true) :
    (s.doPost rs bad).errors.postRunning = false
      ∧ ((∀ c, (s.domain c).st ≠ .entering) → (s.doPost rs bad).mem = s.mem)
      ∧ ∀ n < 8, (s.domain n).st.running = true → Posted rs bad s (s.doPost rs bad) n := by
  rw [doPost_eq rs bad halive hrun hpost hready]
  obtain ⟨hkept, -, hposted⟩ := postClusters_posted s rs bad (Nat.le_refl 8)
  generalize s.postClusters rs bad 8 = t at hkept hposted
  have hsettle := foldl_settleDomain_settleKept t.postEnded domainCodes
  refine ⟨by rw [hsettle.errors]; rfl, fun hs => ?_, fun n hn hrunning => ?_⟩
  · have hcalm (c : Nat) : (t.postEnded.domain c).st ≠ .entering := by
      rw [postEnded_domain_st, hkept.domains]
      exact hs c
    exact (hsettle.calm hcalm).1.trans hkept.mem
  · exact (hposted n hn hrunning).mono (u := domainCodes.foldl settleDomain t.postEnded) hsettle.cores (hsettle.out n)
      fun hdone => by rw [hsettle.errors]; exact hdone

end State

end Sys2Proof.Machine

namespace Sys2Proof

open Machine State

/-- Settles O57: BOOT, POST and telemetry windows by what `doBoot`, `doPost` and `doWindow` do. -/
theorem theRefereeStartsAndSamples : Obligations.TheRefereeStartsAndSamples := by
  intro s halive
  refine ⟨fun hrom hst => ?_, fun hrom => ?_, fun rs bad hrun hpost hready => ?_, fun util now hrun => ?_⟩
  · exact ⟨s.doBoot, exec_boot s, doBoot_starts halive hrom hst⟩
  · rw [exec_boot, doBoot_idle hrom]
  · obtain ⟨hover, hmem, hposted⟩ := doPost_posts rs bad halive hrun hpost hready
    refine ⟨s.doPost rs bad, exec_post rs bad s, hover, hmem, fun n hn hrunning => ?_⟩
    obtain ⟨hdone, hout, hbenched⟩ := hposted n hn hrunning
    exact ⟨hdone, hout, hbenched⟩
  · obtain ⟨href, hnot, hdue, hmem, hcmds⟩ := doWindow_samples halive hrun util now
    refine ⟨s.doWindow util now, exec_telemetryWindowEnd util now s, ?_, ?_, ?_, hnot, hdue, hmem, hcmds⟩
    · rw [href]; rfl
    · rw [href]; rfl
    · rw [href]; rfl

end Sys2Proof

/-! PROOFS. Resets, POWER_UP and the losses of power and clocks (R26, R462, R463, R473, R482, R525, R529). All of them end in
one of two states: `State.moduleReset` lets the module start again, and `State.goDown` leaves it down. Both are
`State.resetTo` with other memory and power. -/

namespace Sys2Proof

open Machine

/-! ## The flash (R448) -/

/-- The flash that `flashAfter` leaves is kept, for a state whose commands and flash are those of s. -/
theorem keptFlash_flashAfter {s u t : State} (hcmds : u.cmds = s.cmds) (hflash : u.referee.flash = s.referee.flash)
    (ht : t.referee.flash = u.flashAfter) : KeptFlash s t := by
  unfold KeptFlash
  rw [ht, State.flashAfter, hcmds, hflash]
  refine ⟨fun hnone => if_neg fun hany => ?_, fun c hc hrun hop hparam => ?_⟩
  · obtain ⟨c, hc, hstage⟩ := List.any_eq_true.1 hany
    simp [hnone c hc] at hstage
  · rw [if_pos (List.any_eq_true.2 ⟨c, hc, by simp [hrun, hop, hparam]⟩)]

/-! ## What a loss leaves (R26, R462) -/

/-- `goDown` loses all that it must, for a state whose commands and Referee are those of s. -/
theorem lost_goDown {s u : State} (hcmds : u.cmds = s.cmds) (href : u.referee = s.referee) (cause : OffCause) (domain : Nat)
    (on : Bool) : Lost s (u.goDown cause domain on) cause domain := by
  have halive : (u.goDown cause domain on).alive = false := Bool.and_false _
  have hfuses : u.referee.fuses = s.referee.fuses := by rw [href]
  have hdugout : u.referee.dugout = s.referee.dugout := by rw [href]
  exact ⟨halive, rfl, rfl, rfl, rfl, rfl, keptFlash_flashAfter hcmds (congrArg Referee.flash href) rfl, hfuses, hdugout⟩

theorem Lost.unseated {s t : State} {cause : OffCause} {domain : Nat} (h : Lost s t cause domain) :
    Lost s (t.modPower (fun p => { p with seated := false })) cause domain := h

theorem Lost.tripHeld {s t : State} {cause : OffCause} {domain : Nat} (h : Lost s t cause domain) :
    Lost s (t.modPower (fun p => { p with tripHold := true })) cause domain := h

end Sys2Proof

namespace Sys2Proof.Machine

/-! ## The memory that a module reset keeps (R516, log entry 10) -/

theorem lookupCell_filter {p : Nat → Bool} {a : Nat} (h : p a = true) (l : List Host.Cell) :
    lookupCell a (l.filter (fun c => p c.1)) = lookupCell a l := by
  induction l with
  | nil => rfl
  | cons c r ih =>
    obtain ⟨x, b⟩ := c
    by_cases hx : x = a
    · subst hx
      simp [lookupCell, h]
    · cases hp : p x <;> simp [lookupCell, hp, hx, ih]

/-- A byte of module memory stays where nothing is undefined. -/
theorem Mem.onlyModule_byte {m : Mem} (hundef : m.undef = []) {a : Nat} (ha : a < 2 ^ 52) :
    m.onlyModule.byte a = m.byte a := by
  have hdefined : m.isUndef a = false := by simp [isUndef, hundef]
  have honly : m.onlyModule.isUndef a = false := rfl
  rw [byte, byte, hdefined, honly]
  exact lookupCell_filter (p := fun x => decide (x < 2 ^ 52)) (decide_eq_true ha) m.cells

namespace State

theorem unplaced_of_none {s : State} (h : ∀ g < 256, s.placed g = false) : s.unplaced = s.mem := by
  have hplaced (g : Nat) : s.placed g = false := by
    by_cases hg : g < 256
    · exact h g hg
    · exact BitVec.getLsbD_of_ge _ _ (Nat.le_of_not_lt hg)
  refine foldl_keeps (p := (· = s.mem)) (fun m g hm => ?_) (List.range 256) rfl
  rw [hplaced]
  exact hm

/-- `cutOff` changes memory and draws free values. -/
theorem cutOff_frame (s : State) : s.cutOff = { s with mem := s.cutOff.mem, free := s.cutOff.free } := by
  unfold cutOff
  refine foldl_keeps (p := fun (t : State) => t = { s with mem := t.mem, free := t.free }) (fun t r ht => ?_) _ rfl
  rw [ht]

/-- Where every command waits, none is cut off. -/
theorem cutOff_waiting {s : State} (h : ∀ c ∈ s.cmds, c.isWaiting = true) : s.cutOff = s := by
  have hnone : s.cmds.filter (fun c => !c.isWaiting) = [] := List.filter_eq_nil_iff.2 fun c hc => by simp [h c hc]
  rw [cutOff, hnone]
  rfl

/-! ## What a module reset leaves (R462, R482, R529) -/

theorem checkMargin_eq (s : State) : s.checkMargin = { s with
    power := { s.power with stVinMargin := s.power.stVinMargin || s.power.vinMargin }
    scout := if s.power.vinMargin then { s.scout with marginAt := some s.scout.windows } else s.scout } := by
  unfold checkMargin
  split
  · next h => rw [h, Bool.or_true]; rfl
  · next h => rw [Bool.eq_false_of_not_eq_true h, Bool.or_false]

/-- What a module reset leaves, before it shows an input outside its margin. -/
def restartOf (s : State) (x : Straps) : State :=
  s.cutOff.resetTo s.cutOff.unplaced.onlyModule { s.cutOff.power.sample x with
    on := true, inReset := false, tripHold := false, refGone := false, domains := domainsWaking }

theorem moduleReset_eq (s : State) (x : Straps) : s.moduleReset x = { s.restartOf x with
    power := { (s.restartOf x).power with stVinMargin := (s.restartOf x).power.vinMargin }
    scout := if (s.restartOf x).power.vinMargin then { marginAt := some 0 } else {} } :=
  checkMargin_eq (s.restartOf x)

/-- A module reset keeps the byte of a location of module memory, where no command is cut off and nothing moves. -/
theorem moduleReset_byte {s : State} (x : Straps) (hwait : ∀ c ∈ s.cmds, c.isWaiting = true) (hundef : s.mem.undef = [])
    (hplaced : ∀ g < 256, s.placed g = false) {a : Nat} (ha : a < 2 ^ 52) : (s.moduleReset x).mem.byte a = s.mem.byte a := by
  have hmem : (s.moduleReset x).mem = s.cutOff.unplaced.onlyModule := by rw [moduleReset_eq]; rfl
  rw [hmem, cutOff_waiting hwait, unplaced_of_none hplaced, Mem.onlyModule_byte hundef ha]

/-- A module reset keeps the dugout, and of power the input and the cause of the last loss; the slot is that of the straps. -/
theorem moduleReset_keeps (s : State) (x : Straps) : (s.moduleReset x).referee.dugout = s.referee.dugout
    ∧ (s.moduleReset x).power.slot = x.slot ∧ (s.moduleReset x).power.vin = s.power.vin
    ∧ (s.moduleReset x).power.vinMargin = s.power.vinMargin ∧ (s.moduleReset x).power.lastOff = s.power.lastOff := by
  rw [moduleReset_eq]
  unfold restartOf
  rw [cutOff_frame]
  exact ⟨rfl, rfl, rfl, rfl, rfl⟩

/-- As a reset is released, H0L wakes and every other domain is OFF. -/
theorem domainsWaking_st {s : State} (h : s.power.domains = domainsWaking) :
    (s.domain 0x50).st = .waking ∧ ∀ c ∈ domainCodes, c ≠ 0x50 → (s.domain c).st = .off := by
  unfold domain
  rw [h]
  decide

end State

end Sys2Proof.Machine

namespace Sys2Proof

open Machine

/-- `moduleReset` restarts the module, for a state whose commands, flash and fuses are those of s. -/
theorem restarted_moduleReset {s u : State} (x : Straps) (hao : u.power.ao = true) (hcmds : u.cmds = s.cmds)
    (hflash : u.referee.flash = s.referee.flash) (hfuses : u.referee.fuses = s.referee.fuses) :
    Restarted s (u.moduleReset x) := by
  rw [State.moduleReset_eq]
  unfold State.restartOf
  rw [State.cutOff_frame]
  have halive : (u.power.ao && true && !false) = true := by rw [hao]; rfl
  refine ⟨halive, rfl, rfl, rfl, rfl, rfl, rfl, fun n hn => ?_, rfl, rfl, rfl, rfl, fun hmargin => ?_, rfl,
    keptFlash_flashAfter hcmds hflash rfl, rfl, rfl, rfl, rfl, rfl, rfl, rfl, rfl, hfuses, congrArg Fuses.life hfuses, rfl,
    State.domainsWaking_st rfl⟩
  · rw [← hfuses]
    exact (State.vget_ofFn _ n _).trans (dif_pos hn)
  · exact if_neg (ne_true_of_eq_false hmargin)

end Sys2Proof

namespace Sys2Proof.Machine

namespace State

/-! ## The rows -/

theorem exec_resetN (ns : Nat) (x : Straps) (s : State) : exec (.resetN ns x) s = .next (s.doResetN ns x) := rfl

theorem exec_powerUp (x : Straps) (seated : Bool) (mv : Nat) (s : State) :
    exec (.powerUp x seated mv) s = .next (s.doPowerUp x seated mv) := rfl

theorem exec_clockLoss (s : State) :
    exec .clockLoss s = .next (if s.power.ao then s.goDown .clockLoss 0 s.power.on else s) := rfl

theorem exec_seatedNRelease (s : State) : exec .seatedNRelease s
    = .next ((if s.power.ao then s.goDown .powerFail 0 false else s).modPower (fun p => { p with seated := false })) := rfl

theorem exec_vinChange (mv us : Nat) (s : State) : exec (.vinChange mv us) s = .next (s.doVinChange mv us) := rfl

theorem exec_regulatorFault (d : Nat) (beyondTen : Bool) (s : State) : exec (.regulatorFault d beyondTen) s
    = .next (if !(s.power.on && s.power.ao) then s else if beyondTen then s.powerFail .regulator d
      else (s.modPower (fun p => { p with stRegMargin := true })).noteMargin) := rfl

theorem exec_thermalSample (l : List Nat) (s : State) : exec (.thermalSample l) s
    = .next (if !s.alive then s else if 115 ≤ maxOf l then s.trip else s.modPower (fun p => { p with tHot := maxOf l })) := rfl

theorem exec_thermalTrip (l : List Nat) (s : State) :
    exec (.thermalTrip l) s = .next (if 115 ≤ maxOf l then s.trip else s) := rfl

theorem exec_tripHoldEnd (s : State) : exec .tripHoldEnd s = .next (s.modPower (fun p => { p with tripHold := false })) := rfl

/-! ## RESET_N (R26, R529) -/

theorem ao_of_mayRestart {s : State} (h : s.mayRestart = true) : s.power.ao = true := by
  simp only [mayRestart, Bool.and_eq_true] at h
  exact h.1.1.1

theorem doResetN_short {s : State} {ns : Nat} (x : Straps) (h : ns < 1000) : s.doResetN ns x = s := if_pos h

/-- A pulse of 10 µs or more resets the module where it may restart and the reference is there. -/
theorem doResetN_long {s : State} {ns : Nat} (x : Straps) (h : 10000 ≤ ns) : s.doResetN ns x
    = if s.mayRestart then (if s.refPresent.1 then s.refPresent.2.moduleReset x else s.refPresent.2) else s := by
  have hpulse : ¬ns < 1000 := by omega
  have hlong : ¬ns < 10000 := by omega
  simp only [doResetN, if_neg hpulse, if_neg hlong, Bool.true_and]

theorem refPresent_there {s : State} (h : s.power.refGone = false) : s.refPresent = (true, s) :=
  if_neg (ne_true_of_eq_false h)

theorem refPresent_gone {s : State} (h : s.power.refGone = true) : s.refPresent = s.freeBit := if_pos h

/-! ## POWER_UP (R482, R524, R525) -/

theorem doPowerUp_seats {s : State} (x : Straps) (seated : Bool) (mv : Nat) (hao : s.power.ao = true) :
    s.doPowerUp x seated mv = s.modPower (fun p => { p with seated := p.seated || seated }) := if_pos hao

/-- The AO domain as it starts at an input: it holds nothing from before. -/
def aoUp (s : State) (mv : Nat) : State :=
  (s.modPower (fun p => { p with
      ao := true, seated := true, vin := mv, vinOkMicros := 0, vinLowMicros := 0, vinHighMicros := 0, vinAoMicros := 0
      vinMargin := !(66000 ≤ mv && mv ≤ 78000), clkLost := false, lastOff := .none, lastOffDomain := 0 })).modReferee
    (fun r => { r with dugout := [] })

theorem doPowerUp_restarts {s : State} (x : Straps) {mv : Nat} (hao : s.power.ao = false) (href : s.power.refGone = false)
    (hmv : 66000 ≤ mv) : s.doPowerUp x true mv = (s.aoUp mv).moduleReset x := by
  have hstarts : ¬(decide (mv < 66000) || !true) = true := by simpa using hmv
  have hup : (s.aoUp mv).refPresent = (true, s.aoUp mv) := refPresent_there href
  unfold doPowerUp
  rw [if_neg (ne_true_of_eq_false hao)]
  refine (if_neg hstarts).trans ?_
  change (if (s.aoUp mv).refPresent.1 then (s.aoUp mv).refPresent.2.moduleReset x else _) = _
  rw [hup, if_pos rfl]

/-! ## Losses of power (R462, R463, R473) -/

theorem powered_of_alive {s : State} (h : s.alive = true) : s.power.on = true ∧ s.power.ao = true := by
  simp only [alive, Bool.and_eq_true] at h
  exact ⟨h.1.2, h.1.1⟩

theorem powerFail_on {s : State} (cause : OffCause) (d : Nat) (hon : s.power.on = true) (hao : s.power.ao = true) :
    s.powerFail cause d = s.goDown cause d false := by
  simp [powerFail, hon, hao]

theorem trip_on {s : State} (hon : s.power.on = true) (hao : s.power.ao = true) :
    s.trip = (s.goDown .thermalTrip 0 false).modPower (fun p => { p with tripHold := true }) := by
  simp [trip, powerFail_on, hon, hao]

end State

/-- Power with an input that has been at a voltage for a further time (R462). -/
def Power.noteVin (p : Power) (mv us : Nat) : Power :=
  let inRange := 66000 ≤ mv && mv ≤ 78000
  { p with
    vin := mv, vinOkMicros := if inRange then p.vinOkMicros + us else 0
    vinLowMicros := if mv < 60000 then p.vinLowMicros + us else 0
    vinHighMicros := if 84000 < mv then p.vinHighMicros + us else 0
    vinAoMicros := if mv < 40000 then p.vinAoMicros + us else 0
    vinMargin := !inRange, stVinMargin := p.stVinMargin || (!inRange && p.on && p.ao) }

namespace State

/-- VIN_CHANGE notes the input, and then acts on the times that it was out of range. -/
theorem doVinChange_notes (s : State) (mv us : Nat) : ∃ u : State,
    u.mem = s.mem ∧ u.cmds = s.cmds ∧ u.referee = s.referee ∧ u.power = s.power.noteVin mv us
      ∧ s.doVinChange mv us =
        let v := if 20 ≤ u.power.vinLowMicros || 1000 ≤ u.power.vinHighMicros then u.powerFail .powerFail 0 else u
        if 20 ≤ v.power.vinAoMicros then v.aoDown else v := by
  refine ⟨(if (66000 ≤ mv && mv ≤ 78000) && !s.power.vinMargin then s else s.noteMargin).modPower (·.noteVin mv us),
    ?_, ?_, ?_, ?_, rfl⟩
  all_goals
    split
    · rfl
    · rfl

/-- An input that stays above what AO needs, and has been out of range for too long, takes the power. -/
theorem doVinChange_fails {s : State} {mv us : Nat} (hon : s.power.on = true) (hao : s.power.ao = true) (hmv : 40000 ≤ mv)
    (hlong : 20 ≤ (s.power.noteVin mv us).vinLowMicros ∨ 1000 ≤ (s.power.noteVin mv us).vinHighMicros) :
    ∃ u : State, u.cmds = s.cmds ∧ u.referee = s.referee ∧ s.doVinChange mv us = u.goDown .powerFail 0 false := by
  obtain ⟨u, -, hcmds, href, hpower, hvin⟩ := s.doVinChange_notes mv us
  have hfail : u.powerFail .powerFail 0 = u.goDown .powerFail 0 false :=
    powerFail_on _ _ (by rw [hpower]; exact hon) (by rw [hpower]; exact hao)
  have hout : (decide (20 ≤ u.power.vinLowMicros) || decide (1000 ≤ u.power.vinHighMicros)) = true := by
    simpa [hpower] using hlong
  have haoMicros : ¬20 ≤ (u.goDown .powerFail 0 false).power.vinAoMicros := by
    have hzero : u.power.vinAoMicros = 0 := by rw [hpower]; exact if_neg (Nat.not_lt.2 hmv)
    change ¬20 ≤ u.power.vinAoMicros
    omega
  refine ⟨u, hcmds, href, ?_⟩
  rw [hvin, if_pos hout, hfail]
  exact if_neg haoMicros

/-- An input from 60 V to 84 V is noted alone. -/
theorem doVinChange_stays {s : State} {mv : Nat} (us : Nat) (hlow : 60000 ≤ mv) (hhigh : mv ≤ 84000) :
    (s.doVinChange mv us).mem = s.mem ∧ (s.doVinChange mv us).cmds = s.cmds
      ∧ (s.doVinChange mv us).power = s.power.noteVin mv us := by
  obtain ⟨u, hmem, hcmds, -, hpower, hvin⟩ := s.doVinChange_notes mv us
  have hlowMicros : u.power.vinLowMicros = 0 := by rw [hpower]; exact if_neg (Nat.not_lt.2 hlow)
  have hhighMicros : u.power.vinHighMicros = 0 := by rw [hpower]; exact if_neg (Nat.not_lt.2 hhigh)
  have haoMicros : u.power.vinAoMicros = 0 := by rw [hpower]; exact if_neg (by omega)
  have hu : s.doVinChange mv us = u := by simp [hvin, hlowMicros, hhighMicros, haoMicros]
  rw [hu]
  exact ⟨hmem, hcmds, hpower⟩

end State

/-! ## The hottest reading (R472, R473) -/

theorem maxOf_greatest (l : List Nat) : maxOf l ∈ 0 :: l ∧ ∀ x ∈ 0 :: l, x ≤ maxOf l :=
  List.max?_eq_some_iff.1 List.max?_cons'

theorem le_maxOf {l : List Nat} {x : Nat} (h : x ∈ l) : x ≤ maxOf l := (maxOf_greatest l).2 x (List.mem_cons_of_mem 0 h)

theorem maxOf_mem {l : List Nat} (h : l ≠ []) : maxOf l ∈ l := by
  obtain ⟨x, hx⟩ := List.exists_mem_of_ne_nil l h
  rcases List.mem_cons.1 (maxOf_greatest l).1 with hzero | hmem
  · have hle := le_maxOf hx
    rwa [hzero, ← Nat.le_zero.1 (hzero ▸ hle)]
  · exact hmem

theorem maxOf_lt {l : List Nat} {k : Nat} (hk : 0 < k) (h : ∀ x ∈ l, x < k) : maxOf l < k := by
  rcases List.mem_cons.1 (maxOf_greatest l).1 with hzero | hmem
  · rwa [hzero]
  · exact h _ hmem

end Sys2Proof.Machine

namespace Sys2Proof

open Machine State

/-! ## The clauses -/

theorem resetN_restarts (s : State) {ns : Nat} (x : Straps) (hns : 10000 ≤ ns) (hmay : s.mayRestart = true)
    (href : s.power.refGone = false) : ∃ t, exec (.resetN ns x) s = .next t ∧ Restarted s t
      ∧ t.referee.dugout = s.referee.dugout ∧ t.power.slot = x.slot
      ∧ ((∀ c ∈ s.cmds, c.isWaiting = true) → s.mem.undef = [] → (∀ g < 256, s.placed g = false) →
        ∀ a < 2 ^ 52, t.mem.byte a = s.mem.byte a) := by
  obtain ⟨hdugout, hslot, -⟩ := s.moduleReset_keeps x
  refine ⟨s.moduleReset x, ?_, restarted_moduleReset x (ao_of_mayRestart hmay) rfl rfl rfl, hdugout, hslot,
    fun hwait hundef hplaced a ha => moduleReset_byte x hwait hundef hplaced ha⟩
  rw [exec_resetN, doResetN_long x hns, if_pos hmay, refPresent_there href, if_pos rfl]

/-- After a loss of the reference, a reset restarts the module or draws the free value that says that it waits. -/
theorem resetN_waits (s : State) {ns : Nat} (x : Straps) (hns : 10000 ≤ ns) (hmay : s.mayRestart = true)
    (href : s.power.refGone = true) : ∃ t, exec (.resetN ns x) s = .next t ∧ (Restarted s t ∨ t = { s with free := t.free }) := by
  have hrestarted : Restarted s (s.freeBit.2.moduleReset x) :=
    restarted_moduleReset x (ao_of_mayRestart hmay) rfl rfl rfl
  rw [exec_resetN, doResetN_long x hns, if_pos hmay, refPresent_gone href]
  refine ⟨_, rfl, ?_⟩
  split
  · exact .inl hrestarted
  · exact .inr rfl

theorem resetN_ignored (s : State) {ns : Nat} (x : Straps) (h : ns < 1000 ∨ (10000 ≤ ns ∧ s.mayRestart = false)) :
    exec (.resetN ns x) s = .next s := by
  rw [exec_resetN]
  rcases h with hshort | ⟨hns, hmay⟩
  · rw [doResetN_short x hshort]
  · rw [doResetN_long x hns, if_neg (ne_true_of_eq_false hmay)]

theorem powerUp_restarts (s : State) (x : Straps) {mv : Nat} (hao : s.power.ao = false) (href : s.power.refGone = false)
    (hmv : 66000 ≤ mv) : ∃ t, exec (.powerUp x true mv) s = .next t ∧ Restarted s t ∧ t.referee.dugout = []
      ∧ t.power.vin = mv ∧ t.power.vinMargin = decide (78000 < mv) ∧ t.power.lastOff = .none := by
  obtain ⟨hdugout, -, hvin, hmargin, hlast⟩ := (s.aoUp mv).moduleReset_keeps x
  have hrange : (!(decide (66000 ≤ mv) && decide (mv ≤ 78000))) = decide (78000 < mv) := by grind
  refine ⟨(s.aoUp mv).moduleReset x, ?_, restarted_moduleReset x rfl rfl rfl rfl, hdugout, hvin, hmargin.trans hrange, hlast⟩
  rw [exec_powerUp, doPowerUp_restarts x hao href hmv]

theorem clockLoss_loses (s : State) (hao : s.power.ao = true) : ∃ t, exec .clockLoss s = .next t ∧ Lost s t .clockLoss 0
    ∧ t.power.clkLost = true ∧ t.power.refGone = true ∧ t.power.on = s.power.on := by
  rw [exec_clockLoss, if_pos hao]
  exact ⟨_, rfl, lost_goDown rfl rfl .., Bool.or_true _, Bool.or_true _, rfl⟩

theorem seatedNRelease_loses (s : State) (hao : s.power.ao = true) : ∃ t, exec .seatedNRelease s = .next t
    ∧ Lost s t .powerFail 0 ∧ t.power.on = false ∧ t.power.seated = false := by
  rw [exec_seatedNRelease, if_pos hao]
  exact ⟨_, rfl, (lost_goDown rfl rfl ..).unseated, rfl, rfl⟩

section Supply

variable {s : State} (hao : s.power.ao = true) (hon : s.power.on = true)

include hao hon

theorem vinChange_loses {mv us : Nat} (h : (40000 ≤ mv ∧ mv < 60000 ∧ 20 ≤ s.power.vinLowMicros + us)
      ∨ (84000 < mv ∧ 1000 ≤ s.power.vinHighMicros + us)) :
    ∃ t, exec (.vinChange mv us) s = .next t ∧ Lost s t .powerFail 0 ∧ t.power.on = false := by
  have hmv : 40000 ≤ mv := by omega
  have hlong : 20 ≤ (s.power.noteVin mv us).vinLowMicros ∨ 1000 ≤ (s.power.noteVin mv us).vinHighMicros := by
    rcases h with ⟨-, hlow, htime⟩ | ⟨hhigh, htime⟩
    · exact .inl (htime.trans_eq (if_pos hlow).symm)
    · exact .inr (htime.trans_eq (if_pos hhigh).symm)
  obtain ⟨u, hcmds, href, hvin⟩ := doVinChange_fails hon hao hmv hlong
  rw [exec_vinChange, hvin]
  exact ⟨_, rfl, lost_goDown hcmds href .., rfl⟩

theorem regulatorFault_loses (d : Nat) :
    ∃ t, exec (.regulatorFault d true) s = .next t ∧ Lost s t .regulator d ∧ t.power.on = false := by
  refine ⟨s.goDown .regulator d false, ?_, lost_goDown rfl rfl .., rfl⟩
  simp [exec_regulatorFault, powerFail_on, hon, hao]

theorem regulatorFault_notes (d : Nat) : ∃ t, exec (.regulatorFault d false) s = .next t
    ∧ t.power = { s.power with stRegMargin := true } ∧ t.mem = s.mem ∧ t.cmds = s.cmds := by
  refine ⟨(s.modPower (fun p => { p with stRegMargin := true })).noteMargin, ?_, rfl, rfl, rfl⟩
  simp [exec_regulatorFault, hon, hao]

end Supply

section Alive

variable {s : State} (halive : s.alive = true)

include halive

theorem vinChange_notes {mv : Nat} (us : Nat) (hlow : 60000 ≤ mv) (hhigh : mv ≤ 84000) :
    ∃ t, exec (.vinChange mv us) s = .next t ∧ t.alive = true
      ∧ t.power.vin = mv ∧ t.power.vinMargin = (mv < 66000 || 78000 < mv) ∧ t.mem = s.mem ∧ t.cmds = s.cmds := by
  obtain ⟨hmem, hcmds, hpower⟩ := doVinChange_stays (s := s) us hlow hhigh
  have hrange : (!(decide (66000 ≤ mv) && decide (mv ≤ 78000))) = (decide (mv < 66000) || decide (78000 < mv)) := by grind
  refine ⟨s.doVinChange mv us, exec_vinChange mv us s, ?_, ?_, ?_, hmem, hcmds⟩
  · rw [alive, hpower]
    exact halive
  · rw [hpower]
    rfl
  · rw [hpower]
    exact hrange

/-- A reading of 115 °C trips the module, in either row that reports it. -/
theorem thermal_loses {l : List Nat} (hhot : ∃ x ∈ l, 115 ≤ x) :
    (∃ t, exec (.thermalTrip l) s = .next t ∧ Lost s t .thermalTrip 0 ∧ t.power.tripHold = true)
      ∧ ∃ t, exec (.thermalSample l) s = .next t ∧ Lost s t .thermalTrip 0 ∧ t.power.tripHold = true := by
  obtain ⟨x, hx, hge⟩ := hhot
  obtain ⟨hon, hao⟩ := powered_of_alive halive
  have hmax : 115 ≤ maxOf l := hge.trans (le_maxOf hx)
  have htrip : Lost s s.trip .thermalTrip 0 ∧ s.trip.power.tripHold = true := by
    rw [trip_on hon hao]
    exact ⟨(lost_goDown rfl rfl ..).tripHeld, rfl⟩
  refine ⟨⟨s.trip, ?_, htrip⟩, s.trip, ?_, htrip⟩
  · rw [exec_thermalTrip, if_pos hmax]
  · rw [exec_thermalSample, halive, if_neg (by decide), if_pos hmax]

theorem thermalSample_notes {l : List Nat} (hcool : ∀ x ∈ l, x < 115) : ∃ t, exec (.thermalSample l) s = .next t
    ∧ (∀ x ∈ l, x ≤ t.power.tHot) ∧ (l = [] ∨ t.power.tHot ∈ l) ∧ t.mem = s.mem ∧ t.cmds = s.cmds := by
  have hmax : ¬115 ≤ maxOf l := Nat.not_le.2 (maxOf_lt (by decide) hcool)
  refine ⟨s.modPower (fun p => { p with tHot := maxOf l }), ?_, fun x hx => le_maxOf hx, ?_, rfl, rfl⟩
  · rw [exec_thermalSample, halive, if_neg (by decide), if_neg hmax]
  · exact or_iff_not_imp_left.2 maxOf_mem

end Alive

/-- Settles O54: every restart is a `moduleReset`, every loss a `goDown`, and what is noted alone changes power and scout. -/
theorem theModuleRestartsAndGoesDown : Obligations.TheModuleRestartsAndGoesDown := by
  intro s
  refine ⟨fun ns x => resetN_restarts s x, fun ns x => resetN_waits s x, fun ns x => resetN_ignored s x,
    fun x mv => powerUp_restarts s x, fun x seated mv hao => ?_, clockLoss_loses s, seatedNRelease_loses s,
    fun hao hon => ⟨fun mv us => vinChange_loses hao hon, regulatorFault_loses hao hon, regulatorFault_notes hao hon⟩,
    fun halive => ⟨fun mv us => vinChange_notes halive us, fun l => thermal_loses halive,
      fun l => thermalSample_notes halive⟩, exec_tripHoldEnd s⟩
  rw [exec_powerUp, doPowerUp_seats x seated mv hao]

end Sys2Proof

/-! PROOFS. What every step keeps: an operation keeps each invariant (Laws/Canonical, Laws/Numbers), so a command, which is
made of operations, and a cycle do. -/

namespace Sys2Proof.Machine

/-- What holds of the state that a command answers with holds of any state that it is said to answer with. -/
theorem of_next {p : State → Prop} {i : Instr} {s t u : State} (hu : exec i s = .next u) (ht : exec i s = .next t) (h : p u) :
    p t := Host.Outcome.next.inj (hu.symm.trans ht) ▸ h

/-- An invariant that a cycle, a change of the queue and every command keep is kept by every step. -/
theorem step_keeps {p : State → Prop} (htick : ∀ {s : State}, p s → p s.tick)
    (hrest : ∀ {s : State} (q : List Instr), p s → p (s.rest q))
    (hexec : ∀ {i : Instr} {s t : State}, p s → exec i s = .next t → p t) {s t : State} (h : p s) (ht : step s = .next t) :
    p t := by
  unfold step at ht
  split at ht
  · cases ht; exact htick h
  · exact hexec (hrest _ h) ht

/-- Every command keeps the canonical form of memory: its operations do. -/
theorem canon_exec {i : Instr} {s t : State} (h : Canonical s) (ht : exec i s = .next t) : Canonical t := by
  cases i with
  | scrubRead _ _ _ =>
    refine canon_onBlock h (fun u hu => ?_) ht
    dsimp only
    split
    · exact hu
    · split <;> simp [hu]
  | pbSeed _ =>
    refine of_next rfl ht ?_
    exact canon_issueControl _ _ _ h fun u hu => canon_advance _ (canon_writeSeed _ (canon_modSeq _ _ hu))
  | pbEnd _ =>
    refine of_next rfl ht ?_
    exact canon_issueControl _ _ _ h fun u hu => canon_settleSeq _ (canon_modSeq _ _ (canon_advance _ hu))
  | pbEndloop _ =>
    refine of_next rfl ht (canon_issueControl _ _ _ h fun u hu => ?_)
    split
    · exact canon_advance _ hu
    · exact canon_ite (canon_jump _ _ (canon_modSeq _ _ hu)) (canon_advance _ (canon_modSeq _ _ hu))
  | pbIfClean _ =>
    refine of_next rfl ht ?_
    dsimp only
    split
    · exact h
    · exact canon_ite h (canon_issueControl _ _ _ h fun u hu => by simp [hu])
  | vecTableLoad _ =>
    refine of_next rfl ht ?_
    split
    · exact h
    · exact canon_finish _ _ (canon_foldl (fun u k hu => by simp [hu]) _ h)
  | draftOpen _ =>
    refine of_next rfl ht ?_
    split
    · exact h
    · exact canon_finish _ _ (canon_modDraft _ _ (canon_foldl (fun u k hu => by simp [hu]) _ h))
  | mfrFeedId _ =>
    refine of_next rfl ht (canon_onPort _ h fun u hu => ?_)
    split
    · exact canon_ite (canon_sendSmb _ (canon_modKeeper _ hu)) (canon_sendSmb _ hu)
    · simp [hu]
  | collReady _ =>
    refine of_next rfl ht (canon_receive _ _ _ h fun u hu => ?_)
    split
    · exact canon_ite (canon_earlyOrDrop _ hu) (canon_settleColl _ (canon_takeReady _ _ hu))
    · exact canon_earlyOrDrop _ hu
  | collData _ =>
    refine of_next rfl ht (canon_receive _ _ _ h fun u hu => ?_)
    split
    · exact canon_ite (canon_bump _ _ hu) (canon_ite hu (canon_ite (canon_bump _ _ hu) (canon_takeData _ _ hu)))
    · exact canon_bump _ _ hu
  | collAck _ =>
    refine of_next rfl ht (canon_receive _ _ _ h fun u hu => ?_)
    split
    · exact canon_settleColl _ (canon_trySends _ (canon_modColl _ _ hu))
    · exact canon_bump _ _ hu
  | barrierFlag _ =>
    refine of_next rfl ht (canon_receive _ _ _ h fun u hu => ?_)
    split
    · simp [hu]
    · split <;> simp [hu]
  | barrierResult _ =>
    refine of_next rfl ht (canon_receive _ _ _ h fun u hu => ?_)
    split <;> simp [hu]
  | rankOrderReduction _ =>
    refine of_next rfl ht ?_
    split
    · split
      · exact canon_ite (canon_settleColl _ (canon_foldl (fun u k hu => canon_formShard _ _ hu) _ h)) h
      · exact h
    · simp [h]
  | install _ _ =>
    refine of_next rfl ht ?_
    exact canon_mgmtIn _ _ _ _ h fun u b hu =>
      canon_ite (canon_originate _ _ _ _ (canon_modFabric _ (canon_reportUnlisted (canon_takeRoster _ hu)))) (canon_takeRoster _ hu)
  | regulatorFault _ _ =>
    refine of_next rfl ht ?_
    exact canon_ite h (canon_ite (by simp [h]) (canon_noteMargin (canon_modPower _ h)))
  | thermalSample _ =>
    refine of_next rfl ht ?_
    exact canon_ite h (canon_ite (by simp [h]) (canon_modPower _ h))
  | seatedNRelease =>
    refine of_next rfl ht ?_
    exact canon_modPower _ (canon_ite (by simp [h]) h)
  | remoteRdReq _ | remoteWr _ | remoteWrBulk _ =>
    refine of_next rfl ht ?_
    exact canon_receive _ _ _ h fun u hu => canon_serve _ _ _ _ hu fun v p hv => by simp [hv]
  | draftPacket _ | remoteRdResp _ | remoteWrAck _ | errResp _ =>
    refine of_next rfl ht ?_
    exact canon_receive _ _ _ h fun u hu => by simp [hu]
  | playbookHold _ | playbookResume _ | fabGroupRelease _ | fabGroupReadmit _ =>
    refine of_next rfl ht ?_
    exact canon_runChecked _ _ _ _ h fun u c hu => by simp [hu]
  | pbPhase _ | pbLoop _ | pbEndif _ | pbStepEnd _ =>
    refine of_next rfl ht ?_
    exact canon_issueControl _ _ _ h fun u hu => by simp [hu]
  | fabHold _ _ =>
    refine of_next rfl ht ?_
    exact canon_mgmtIn _ _ _ _ h fun u b hu => canon_ite (canon_originate _ _ _ _ (canon_enterHold hu)) hu
  | roster _ _ | linkReport _ _ | fabRelease _ _ =>
    refine of_next rfl ht ?_
    refine canon_mgmtIn _ _ _ _ h fun u b hu => ?_
    simp [hu]
  | heartbeat _ _ =>
    refine of_next rfl ht ?_
    exact canon_mgmtArrives _ _ _ h fun u hu => by simp [hu]
  | holdAck _ _ | installAck _ _ =>
    refine of_next rfl ht ?_
    refine canon_mgmtIn _ _ _ _ h fun u b hu => ?_
    split
    · exact canon_ite (canon_settleReorient (canon_modFabric _ hu)) hu
    · exact hu
  | ssuOperation _ | scatterAddBatch _ _ _ | memReadRetry _ _ =>
    refine canon_onBlock h (fun u hu => ?_) ht
    simp [hu]
  | pbVerdict _ | collBarrierOr _ | cfgWr _ _ _ | cableChange _ _ | collTimeout _ =>
    refine of_next rfl ht ?_
    split <;> simp [h]
  | fabRemoteTimeout _ =>
    refine of_next rfl ht ?_
    split
    · exact h
    · exact canon_pumpRemotes (canon_failRemote _ _ (canon_bump _ _ h))
  | capability | statusWord | readVin | readIin _ | readTemperature | readPout | pmbusRevision | mfrId | mfrModel | mfrScout
  | mfrCool =>
    refine of_next rfl ht ?_
    exact canon_onPort _ h fun u hu => by simp [hu]
  | sqCfgWrite _ _ _ _ | cqCfgWrite _ _ _ _ | cqHeadWrite _ _ _ _ | feedTailWrite _ _ | resultHeadWrite _ _ | cntClearSeq
  | cntClearLiust | cntClearFabric | cntClearMemory | cntClearDraft | cntClearFoul | cntClearScrum | cntClearResidue
  | fabEnSet _ | fabEnClear _ | passSwap | peerLoadGo =>
    refine of_next rfl ht ?_
    exact canon_atHost _ h fun u hu => by simp [hu]
  | _ =>
    refine of_next rfl ht ?_
    simp [h]

/-- Every command keeps the numbers of commands below the next number: its operations do. -/
theorem num_exec {i : Instr} {s t : State} (h : Numbered s) (ht : exec i s = .next t) : Numbered t := by
  cases i with
  | scrubRead _ _ _ =>
    refine num_onBlock h (fun u hu => ?_) ht
    dsimp only
    split
    · exact hu
    · split <;> simp [hu]
  | pbSeed _ =>
    refine of_next rfl ht ?_
    exact num_issueControl _ _ _ h fun u hu => num_advance _ (num_writeSeed _ (num_modSeq _ _ hu))
  | pbEnd _ =>
    refine of_next rfl ht ?_
    exact num_issueControl _ _ _ h fun u hu => num_settleSeq _ (num_modSeq _ _ (num_advance _ hu))
  | pbEndloop _ =>
    refine of_next rfl ht (num_issueControl _ _ _ h fun u hu => ?_)
    split
    · exact num_advance _ hu
    · exact num_ite (num_jump _ _ (num_modSeq _ _ hu)) (num_advance _ (num_modSeq _ _ hu))
  | pbIfClean _ =>
    refine of_next rfl ht ?_
    dsimp only
    split
    · exact h
    · exact num_ite h (num_issueControl _ _ _ h fun u hu => by simp [hu])
  | vecTableLoad _ =>
    refine of_next rfl ht ?_
    split
    · exact h
    · exact num_finish _ _ (num_foldl (fun u k hu => by simp [hu]) _ h)
  | draftOpen _ =>
    refine of_next rfl ht ?_
    split
    · exact h
    · exact num_finish _ _ (num_modDraft _ _ (num_foldl (fun u k hu => by simp [hu]) _ h))
  | mfrFeedId _ =>
    refine of_next rfl ht (num_onPort _ h fun u hu => ?_)
    split
    · exact num_ite (num_sendSmb _ (num_modKeeper _ hu)) (num_sendSmb _ hu)
    · simp [hu]
  | collReady _ =>
    refine of_next rfl ht (num_receive _ _ _ h fun u hu => ?_)
    split
    · exact num_ite (num_earlyOrDrop _ hu) (num_settleColl _ (num_takeReady _ _ hu))
    · exact num_earlyOrDrop _ hu
  | collData _ =>
    refine of_next rfl ht (num_receive _ _ _ h fun u hu => ?_)
    split
    · exact num_ite (num_bump _ _ hu) (num_ite hu (num_ite (num_bump _ _ hu) (num_takeData _ _ hu)))
    · exact num_bump _ _ hu
  | collAck _ =>
    refine of_next rfl ht (num_receive _ _ _ h fun u hu => ?_)
    split
    · exact num_settleColl _ (num_trySends _ (num_modColl _ _ hu))
    · exact num_bump _ _ hu
  | barrierFlag _ =>
    refine of_next rfl ht (num_receive _ _ _ h fun u hu => ?_)
    split
    · simp [hu]
    · split <;> simp [hu]
  | barrierResult _ =>
    refine of_next rfl ht (num_receive _ _ _ h fun u hu => ?_)
    split <;> simp [hu]
  | rankOrderReduction _ =>
    refine of_next rfl ht ?_
    split
    · split
      · exact num_ite (num_settleColl _ (num_foldl (fun u k hu => num_formShard _ _ hu) _ h)) h
      · exact h
    · simp [h]
  | install _ _ =>
    refine of_next rfl ht ?_
    exact num_mgmtIn _ _ _ _ h fun u b hu =>
      num_ite (num_originate _ _ _ _ (num_modFabric _ (num_reportUnlisted (num_takeRoster _ hu)))) (num_takeRoster _ hu)
  | regulatorFault _ _ =>
    refine of_next rfl ht ?_
    exact num_ite h (num_ite (by simp [h]) (num_noteMargin (num_modPower _ h)))
  | thermalSample _ =>
    refine of_next rfl ht ?_
    exact num_ite h (num_ite (by simp [h]) (num_modPower _ h))
  | seatedNRelease =>
    refine of_next rfl ht ?_
    exact num_modPower _ (num_ite (by simp [h]) h)
  | remoteRdReq _ | remoteWr _ | remoteWrBulk _ =>
    refine of_next rfl ht ?_
    exact num_receive _ _ _ h fun u hu => num_serve _ _ _ _ hu fun v p hv => by simp [hv]
  | draftPacket _ | remoteRdResp _ | remoteWrAck _ | errResp _ =>
    refine of_next rfl ht ?_
    exact num_receive _ _ _ h fun u hu => by simp [hu]
  | playbookHold _ | playbookResume _ | fabGroupRelease _ | fabGroupReadmit _ =>
    refine of_next rfl ht ?_
    exact num_runChecked _ _ _ _ h fun u c hu => by simp [hu]
  | pbPhase _ | pbLoop _ | pbEndif _ | pbStepEnd _ =>
    refine of_next rfl ht ?_
    exact num_issueControl _ _ _ h fun u hu => by simp [hu]
  | fabHold _ _ =>
    refine of_next rfl ht ?_
    exact num_mgmtIn _ _ _ _ h fun u b hu => num_ite (num_originate _ _ _ _ (num_enterHold hu)) hu
  | roster _ _ | linkReport _ _ | fabRelease _ _ =>
    refine of_next rfl ht ?_
    refine num_mgmtIn _ _ _ _ h fun u b hu => ?_
    simp [hu]
  | heartbeat _ _ =>
    refine of_next rfl ht ?_
    exact num_mgmtArrives _ _ _ h fun u hu => by simp [hu]
  | holdAck _ _ | installAck _ _ =>
    refine of_next rfl ht ?_
    refine num_mgmtIn _ _ _ _ h fun u b hu => ?_
    split
    · exact num_ite (num_settleReorient (num_modFabric _ hu)) hu
    · exact hu
  | ssuOperation _ | scatterAddBatch _ _ _ | memReadRetry _ _ =>
    refine num_onBlock h (fun u hu => ?_) ht
    simp [hu]
  | pbVerdict _ | collBarrierOr _ | cfgWr _ _ _ | cableChange _ _ | collTimeout _ =>
    refine of_next rfl ht ?_
    split <;> simp [h]
  | fabRemoteTimeout _ =>
    refine of_next rfl ht ?_
    split
    · exact h
    · exact num_pumpRemotes (num_failRemote _ _ (num_bump _ _ h))
  | capability | statusWord | readVin | readIin _ | readTemperature | readPout | pmbusRevision | mfrId | mfrModel | mfrScout
  | mfrCool =>
    refine of_next rfl ht ?_
    exact num_onPort _ h fun u hu => by simp [hu]
  | sqCfgWrite _ _ _ _ | cqCfgWrite _ _ _ _ | cqHeadWrite _ _ _ _ | feedTailWrite _ _ | resultHeadWrite _ _ | cntClearSeq
  | cntClearLiust | cntClearFabric | cntClearMemory | cntClearDraft | cntClearFoul | cntClearScrum | cntClearResidue
  | fabEnSet _ | fabEnClear _ | passSwap | peerLoadGo =>
    refine of_next rfl ht ?_
    exact num_atHost _ h fun u hu => by simp [hu]
  | _ =>
    refine of_next rfl ht ?_
    simp [h]

end Sys2Proof.Machine

namespace Sys2Proof

open Machine

/-- Settles O1: `step` takes the front command off the queue. -/
theorem stepRunsTheFrontCommand : Obligations.StepRunsTheFrontCommand := by
  intro c q s h
  simp only [step, h]
  rfl

/-- Settles O3: every operation keeps the canonical form, so every command and the passing of a cycle do. -/
theorem everyStepKeepsMemoryCanonical : Obligations.EveryStepKeepsMemoryCanonical :=
  fun _ _ => step_keeps (fun h => canon_tick h) (fun q h => canon_rest q h) canon_exec

/-- Settles O4: only an admission adds a command, and it moves the next number on. -/
theorem everyStepKeepsCommandNumbersBelowTheNext : Obligations.EveryStepKeepsCommandNumbersBelowTheNext :=
  fun _ _ => step_keeps (fun h => num_tick h) (fun q h => num_rest q h) num_exec

/-- Settles O5: memory is empty and no command is in flight after reset. -/
theorem resetMeetsBothInvariants : Obligations.ResetMeetsBothInvariants :=
  ⟨Mem.empty_wf, fun _ h => absurd h List.not_mem_nil⟩

end Sys2Proof

/-! PROOFS. The outcomes of a command (R195): `onBlock` alone can stop one. The state after reset. -/

namespace Sys2Proof.Machine

theorem onBlock_present {s : State} {a : Nat} (f : State → State) (h : s.present a = true) : ∃ t, s.onBlock a f = .next t := by
  simp [State.onBlock, h]

theorem onBlock_absent {s : State} {a : Nat} (f : State → State) (h : s.present a = false) :
    s.onBlock a f = .fault .absentAddress := by
  simp [State.onBlock, h]

theorem onBlock_ne_refused (s : State) (a : Nat) (f : State → State) (r : Refusal) : s.onBlock a f ≠ .refused r := by
  unfold State.onBlock
  split <;> exact nofun

/-- A command that names no block always goes on. -/
theorem goes_on_of_no_block {i : Instr} {s u : State} (hi : blockOfInstr i = none) (hu : exec i s = .next u) :
    (∀ r, exec i s ≠ .refused r)
    ∧ ((∃ a, blockOfInstr i = some a ∧ s.present a = false) → exec i s = .fault .absentAddress)
    ∧ ((∀ a, blockOfInstr i = some a → s.present a = true) → ∃ t, exec i s = .next t) := by
  rw [hu, hi]
  exact ⟨nofun, nofun, fun _ => ⟨u, rfl⟩⟩

/-- A command that acts on a block stops where that block is absent, and only there (R195). -/
theorem stops_iff_absent {i : Instr} {s : State} {a : Nat} {f : State → State} (hi : blockOfInstr i = some a)
    (he : exec i s = s.onBlock a f) :
    (∀ r, exec i s ≠ .refused r)
    ∧ ((∃ a, blockOfInstr i = some a ∧ s.present a = false) → exec i s = .fault .absentAddress)
    ∧ ((∀ a, blockOfInstr i = some a → s.present a = true) → ∃ t, exec i s = .next t) := by
  rw [he, hi]
  refine ⟨onBlock_ne_refused s a f, ?_, fun h => onBlock_present f (h a rfl)⟩
  rintro ⟨_, ⟨⟩, habsent⟩
  exact onBlock_absent f habsent

end Sys2Proof.Machine

namespace Sys2Proof

open Machine

/-- Settles O7: the four rows that `onBlock` guards may stop, and every other answers with a state. -/
theorem onlyAbsentBlocksStopACommand : Obligations.OnlyAbsentBlocksStopACommand := by
  intro i s
  cases i with
  | ssuOperation _ | scatterAddBatch _ _ _ | memReadRetry _ _ | scrubRead _ _ _ => exact stops_iff_absent rfl rfl
  | _ => exact goes_on_of_no_block rfl rfl

/-- Settles O6: the fields of the reset state, read one group at a time. -/
theorem resetLeavesTheStatedValues : Obligations.ResetLeavesTheStatedValues := by
  unfold Obligations.ResetLeavesTheStatedValues
  refine ⟨?_, ?_, ?_, ?_, ?_, rfl, rfl, rfl, rfl, rfl, rfl, rfl, rfl, rfl, ?_, rfl, rfl, rfl, rfl, rfl⟩
  · decide +kernel
  · decide +kernel
  · decide +kernel
  · decide +kernel
  · intro c; cases c <;> rfl
  · decide +kernel

end Sys2Proof

/-! PROOFS. One cycle (log entry 6): sequencers count, waiting packets age, and what waits on the fabric goes on. -/

namespace Sys2Proof.Machine

/-- Two states of a sequencer that differ at most in what a cycle counts (R242, R253). -/
def Seq.SameButCounts (q r : Seq) : Prop :=
  r = { q with
    windows := r.windows, heldCycles := r.heldCycles, relayDelayCyc := r.relayDelayCyc, phaseCyc := r.phaseCyc }

theorem Seq.SameButCounts.trans {p q r : Seq} (h : p.SameButCounts q) (h' : q.SameButCounts r) : p.SameButCounts r := by
  unfold Seq.SameButCounts at h h' ⊢
  rw [h', h]

namespace State

/-- The sequencers of two states differ at most in what a cycle counts. -/
def SeqsCount (s t : State) : Prop := t = { s with seqs := t.seqs } ∧ ∀ n, (s.seq n).SameButCounts (t.seq n)

theorem SeqsCount.refl (s : State) : s.SeqsCount s := ⟨rfl, fun _ => rfl⟩

theorem SeqsCount.trans {s t u : State} (h : s.SeqsCount t) (h' : t.SeqsCount u) : s.SeqsCount u :=
  ⟨by rw [h'.1, h.1], fun n => (h.2 n).trans (h'.2 n)⟩

theorem seqsCount_modSeq (s : State) (n : Nat) {f : Seq → Seq} (hf : (s.seq n).SameButCounts (f (s.seq n))) :
    s.SeqsCount (s.modSeq n f) := by
  refine ⟨rfl, fun m => ?_⟩
  by_cases hm : m = n
  · subst hm
    by_cases hlt : m < 4
    · rw [seq_modSeq_same _ _ hlt]; exact hf
    · rw [modSeq, vmod_outside _ _ _ (Nat.le_of_not_lt hlt)]; rfl
  · rw [seq_modSeq_other _ _ hm]; rfl

theorem seqsCount_tickSeq (s : State) (n : Nat) : s.SeqsCount (s.tickSeq n) := seqsCount_modSeq s n rfl

theorem seqsCount_tickSeqs (s : State) : s.SeqsCount ((List.range 4).foldl tickSeq s) :=
  foldl_keeps (p := s.SeqsCount) (fun t n h => h.trans (t.seqsCount_tickSeq n)) _ (SeqsCount.refl s)

theorem seq_bump (s : State) (c : Ctr) (k n : Nat) : (s.seq n).SameButCounts ((s.bump c k).seq n) := by
  unfold seq bump
  dsimp only
  rw [vget_ofFn]
  by_cases h : n < 4
  · simp only [h, vget, dif_pos]; rfl
  · simp only [h, vget, dif_neg, not_false_eq_true]; rfl

theorem ctr_bump_same (s : State) (c : Ctr) (k : Nat) : (s.bump c k).ctr c = satAdd (s.ctr c) k :=
  vget_vmod_same _ _ _ _ c.idx_lt

theorem ctr_bump_other (s : State) {c d : Ctr} (k : Nat) (h : d ≠ c) : (s.bump c k).ctr d = s.ctr d :=
  vget_vmod_other _ _ _ _ _ (Ctr.idx_injective.ne h)

/-! ## What a cycle has to do on the fabric -/

theorem serveAll_idle {s : State} (h : ∀ n < 64, (s.draft n).fetches = []) : s.serveAll = s := by
  have hall : ∀ l : List Nat, (∀ n ∈ l, n < 64) →
      l.foldl (fun (s : State) t => if (s.draft t).fetches.isEmpty then s else s.serveFetches t) s = s := by
    intro l hl
    induction l with
    | nil => rfl
    | cons n r ih =>
      obtain ⟨hn, hr⟩ := List.forall_mem_cons.1 hl
      rw [List.foldl_cons, h n hn]
      exact ih hr
  exact hall _ fun n hn => List.mem_range.1 hn

theorem pumpRemotes_idle {s : State} (h : s.fabric.backlog = []) : s.pumpRemotes = s := by
  obtain ⟨f, hf⟩ : ∃ f, f = s.fabric := ⟨_, rfl⟩
  simp only [pumpRemotes, modFabric, ← hf] at h ⊢
  simp only [h, List.take_nil, List.drop_nil, List.foldl_nil]
  cases f
  simp only at h
  subst h
  rw [hf]

theorem settleRemote_awaited {s : State} {id : Nat} (h : ∃ r ∈ s.fabric.remotes, r.id = id) : s.settleRemote id = s := by
  have hany : s.fabric.remotes.any (fun r => r.id == id) = true := by simpa using h
  simp [settleRemote, hany]

theorem settleRestores_awaited {s : State} (h : ∀ c ∈ s.cmds, c.isRunning = true →
    (c.opcode = 0x520 ∨ c.opcode = 0x521 ∨ c.opcode = 0x802) → ∃ r ∈ s.fabric.remotes, r.id = c.id) :
    s.settleRestores = s := by
  have hall : ∀ l : List Cmd, (∀ c ∈ l, ∃ r ∈ s.fabric.remotes, r.id = c.id) →
      l.foldl (fun (s : State) c => s.settleRemote c.id) s = s := by
    intro l hl
    induction l with
    | nil => rfl
    | cons c r ih =>
      obtain ⟨hc, hr⟩ := List.forall_mem_cons.1 hl
      rw [List.foldl_cons, settleRemote_awaited hc]
      exact ih hr
  refine hall _ fun c hc => ?_
  simp only [List.mem_filter, Bool.and_eq_true, Bool.or_eq_true, beq_iff_eq] at hc
  obtain ⟨hmem, ⟨hop, hrun⟩, -⟩ := hc
  exact h c hmem hrun (by tauto)

/-- Packets past their lifetime are discarded where they wait, and counted (R297, R312). -/
theorem ageOut_frame (s : State) :
    s.ageOut = { s with fabric := s.ageOut.fabric, ctrs := s.ageOut.ctrs, seqs := s.ageOut.seqs }
    ∧ s.ageOut.fabric = { s.fabric with queued := s.fabric.queued.filter (fun w => w.held || s.ageOf w < s.lifetime) }
    ∧ s.ageOut.ctr .fabDiscardAge = satAdd (s.ctr .fabDiscardAge)
        (s.fabric.queued.filter (fun w => !w.held && s.lifetime ≤ s.ageOf w)).length
    ∧ (∀ c, c ≠ .fabDiscardAge → s.ageOut.ctr c = s.ctr c)
    ∧ ∀ n, (s.seq n).SameButCounts (s.ageOut.seq n) := by
  unfold ageOut
  dsimp only
  split
  next hold =>
    have hnone := List.isEmpty_iff.1 hold
    have hkeep : s.fabric.queued.filter (fun w => w.held || s.ageOf w < s.lifetime) = s.fabric.queued := by
      refine List.filter_eq_self.2 fun w hw => ?_
      have := List.filter_eq_nil_iff.1 hnone w hw
      cases hheld : w.held <;> simp_all
    refine ⟨rfl, by rw [hkeep], ?_, fun _ _ => rfl, fun _ => rfl⟩
    rw [hnone]
    simp [satAdd, (s.ctr .fabDiscardAge).isLt]
  next =>
    exact ⟨rfl, rfl, ctr_bump_same _ _ _, fun c hc => ctr_bump_other _ _ hc, fun n => seq_bump _ _ _ n⟩

end State

end Sys2Proof.Machine

namespace Sys2Proof

open Machine State

/-- Settles O2: with nothing to send, to serve or to complete, a cycle counts and lets waiting packets age. -/
theorem emptyQueuePassesOneCycle : Obligations.EmptyQueuePassesOneCycle := by
  intro s hq
  have hstep : step s = .next s.tick := by rw [step, hq]
  refine ⟨fun hoff => by rw [hstep, tick, hoff]; rfl, fun hon hfetch hback hremote => ?_⟩
  obtain ⟨u, hu⟩ : ∃ u, u = (List.range 4).foldl tickSeq s := ⟨_, rfl⟩
  have hcount := hu ▸ s.seqsCount_tickSeqs
  obtain ⟨hframe, hseq⟩ := hcount
  have hidle : u.serveAll.pumpRemotes.settleRestores = u := by
    rw [serveAll_idle (by rw [hframe]; exact hfetch), pumpRemotes_idle (by rw [hframe]; exact hback),
      settleRestores_awaited (by rw [hframe]; exact hremote)]
  have htick : s.tick = { u.ageOut with
      cycles := satAdd u.ageOut.cycles 1, wall := u.ageOut.wall + u.ageOut.power.cycleTime
      power := { u.ageOut.power with
        shareSum := u.ageOut.power.shareSum + u.ageOut.keptShare * u.ageOut.power.cycleTime
        shareTime := u.ageOut.power.shareTime + u.ageOut.power.cycleTime } } := by
    rw [tick, hon, ← hu]
    simp only [hidle, Bool.not_true]
    rfl
  obtain ⟨hage, hfab, hdisc, hctr, hages⟩ := u.ageOut_frame
  refine ⟨s.tick, hstep, ?_, ?_, ?_, ?_, ?_, ?_, ?_⟩
  · rw [htick, hage, hframe]; rfl
  · intro n
    rw [htick]
    exact (hseq n).trans (hages n)
  · rw [htick, hage, hframe]
    rfl
  · rw [htick, hage, hframe]; rfl
  · rw [htick]
    refine hfab.trans ?_
    rw [hframe]; rfl
  · rw [htick]
    refine hdisc.trans ?_
    rw [hframe]; rfl
  · intro c hc
    rw [htick]
    refine (hctr c hc).trans ?_
    rw [hframe]; rfl

end Sys2Proof

/-! PROOFS. The registers of the queues (R378 to R382): what a write of each word does to its queue, and nothing else. -/

namespace Sys2Proof.Machine

theorem bits_wordData_high (data : Word64) : bits (wordData 4 4 data) 44 32 = bits (data.toNat % 2 ^ 32) 12 0 := by
  simp only [wordData, bits, Nat.shiftRight_eq_div_pow]
  simp

/-- A write of the first word that carries both halves (R378). -/
theorem Sq.write_whole (q : Sq) (w : Nat) : q.write w true true =
    (let set : Sq := { q with size := bits w 44 32, cq := bits w 25 20, ctx := bits w 19 16 }
    if q.en then { q with en := bit w 0 }
    else if bit w 0 && 1 ≤ bits w 44 32 && bits w 44 32 ≤ 4096 then
      { set with en := true, head := 0, tail := 0, stopped := false, reason := .none }
    else set) := rfl

theorem Sq.write_low (q : Sq) (w : Nat) : q.write w true false =
    (let set : Sq := { q with cq := bits w 25 20, ctx := bits w 19 16 }
    if q.en then { q with en := bit w 0 }
    else if bit w 0 && 1 ≤ q.size && q.size ≤ 4096 then
      { set with en := true, head := 0, tail := 0, stopped := false, reason := .none }
    else set) := rfl

theorem Sq.write_high (q : Sq) (w : Nat) :
    q.write w false true = if q.en then q else { q with size := bits w 44 32 } := rfl

/-- A write of the first word of a completion queue that carries both halves (R380). -/
theorem Cq.write_whole (q : Cq) (w : Nat) : q.write w true true =
    (let set : Cq := { q with size := bits w 44 32, vector := bits w 29 24 }
    if q.en then { q with en := bit w 0 }
    else if bit w 0 && 2 ≤ bits w 44 32 && bits w 44 32 ≤ 4096 then
      { set with en := true, head := 0, tail := 0, wphase := true, held := q.done.length }
    else set) := rfl

namespace State

theorem cq_modCq_other (s : State) {n m : Nat} (f : Cq → Cq) (h : m ≠ n) : (s.modCq n f).cq m = s.cq m :=
  vget_vmod_other _ _ _ _ _ h

/-- A write that a register access of the host makes acts while the link is up and the module in service. -/
theorem exec_sqCfgWrite {s : State} (hup : s.hostUp = true) (n off len : Nat) (data : Word64) :
    exec (.sqCfgWrite n off len data) s = .next (s.doSqCfgWrite n off len data) :=
  congrArg Host.Outcome.next (atHost_up hup)

theorem exec_cqCfgWrite {s : State} (hup : s.hostUp = true) (n off len : Nat) (data : Word64) :
    exec (.cqCfgWrite n off len data) s = .next (s.doCqCfgWrite n off len data) :=
  congrArg Host.Outcome.next (atHost_up hup)

section
variable {s : State} {n off len : Nat} {data : Word64}

/-- BASE takes one write of 8 bytes (R378, R424). -/
theorem doSqCfgWrite_base (hup : s.hostUp = true) (hoff : 8 ≤ off) : s.doSqCfgWrite n off len data
    = if len = 8 then s.modSq n (fun q => if q.en then q else { q with base := bits data.toNat 63 12 * 4096 })
      else s.hostReject := by
  simp [doSqCfgWrite, hup, hoff]

/-- The first word goes to its queue, and a queue that it enables forgets the fetches sent before (R378, R382). -/
theorem doSqCfgWrite_first (hup : s.hostUp = true) (hoff : ¬ 8 ≤ off) : ∃ u : State, u = { s with liust := u.liust }
    ∧ s.doSqCfgWrite n off len data
      = u.modSq n (fun _ => (s.sq n).write (wordData off len data) (lowHalf off len) (highHalf off len)) := by
  refine ⟨if ((s.sq n).write (wordData off len data) (lowHalf off len) (highHalf off len)).en && !(s.sq n).en then
    s.detachFetches n else s, ?_, ?_⟩
  · split <;> rfl
  · simp [doSqCfgWrite, hup, hoff]

theorem doCqCfgWrite_base (hup : s.hostUp = true) (hoff : 8 ≤ off) : s.doCqCfgWrite n off len data
    = if len = 8 then s.modCq n (fun q => if q.en then q else { q with base := bits data.toNat 63 12 * 4096 })
      else s.hostReject := by
  simp [doCqCfgWrite, hup, hoff]

theorem doCqCfgWrite_first (hup : s.hostUp = true) (hoff : ¬ 8 ≤ off) : s.doCqCfgWrite n off len data
    = s.modCq n (fun q => q.write (wordData off len data) (lowHalf off len) (highHalf off len)) := by
  simp [doCqCfgWrite, hup, hoff]

end

end State

end Sys2Proof.Machine

namespace Sys2Proof

open Machine State

section
variable {s : State} {n off len : Nat} {data : Word64} (hn : n < 64) (hup : s.hostUp = true)
include hn hup

/-- SQ_CFG_WRITE changes its queue alone, by the word that it writes (R378). -/
theorem sqCfgWrite_configures : ∃ t, exec (.sqCfgWrite n off len data) s = .next t
    ∧ (∀ m, m ≠ n → t.sq m = s.sq m) ∧ t.mem = s.mem ∧ t.cmds = s.cmds ∧ t.cqs = s.cqs
    ∧ (8 ≤ off → len = 8 → t.sq n =
        if (s.sq n).en then s.sq n else { s.sq n with base := (data.toNat >>> 12) % 2 ^ 52 * 4096 })
    ∧ (8 ≤ off → len ≠ 8 → t.sq n = s.sq n ∧ t.ctrs = (s.bump .liustHostReject).ctrs)
    ∧ (¬ 8 ≤ off → t.sq n = (s.sq n).write (wordData off len data) (lowHalf off len) (highHalf off len)) := by
  refine ⟨_, exec_sqCfgWrite hup n off len data, ?_⟩
  by_cases hoff : 8 ≤ off
  · rw [doSqCfgWrite_base hup hoff]
    by_cases hlen : len = 8
    · rw [if_pos hlen]
      refine ⟨fun m hm => sq_modSq_other _ _ hm, rfl, rfl, rfl, fun _ _ => ?_, fun _ h => absurd hlen h,
        fun h => absurd hoff h⟩
      rw [sq_modSq_same _ _ hn]
      rfl
    · rw [if_neg hlen]
      exact ⟨fun _ _ => rfl, rfl, rfl, rfl, fun _ h => absurd h hlen, fun _ _ => ⟨rfl, rfl⟩, fun h => absurd hoff h⟩
  · obtain ⟨u, hu, he⟩ := doSqCfgWrite_first (n := n) (len := len) (data := data) hup hoff
    rw [he]
    refine ⟨fun m hm => ?_, ?_, ?_, ?_, fun h => absurd h hoff, fun h => absurd h hoff, fun _ => sq_modSq_same _ _ hn⟩
    · rw [sq_modSq_other _ _ hm, hu]; rfl
    · rw [modSq_mem, hu]
    · rw [modSq_cmds, hu]
    · rw [modSq_cqs, hu]

/-- CQ_CFG_WRITE changes its queue alone, by the word that it writes (R380). -/
theorem cqCfgWrite_configures : ∃ t, exec (.cqCfgWrite n off len data) s = .next t
    ∧ (∀ m, m ≠ n → t.cq m = s.cq m) ∧ t.mem = s.mem ∧ t.cmds = s.cmds ∧ t.sqs = s.sqs
    ∧ (8 ≤ off → len = 8 → t.cq n =
        if (s.cq n).en then s.cq n else { s.cq n with base := (data.toNat >>> 12) % 2 ^ 52 * 4096 })
    ∧ (8 ≤ off → len ≠ 8 → t.cq n = s.cq n ∧ t.ctrs = (s.bump .liustHostReject).ctrs)
    ∧ (¬ 8 ≤ off → t.cq n = (s.cq n).write (wordData off len data) (lowHalf off len) (highHalf off len)) := by
  refine ⟨_, exec_cqCfgWrite hup n off len data, ?_⟩
  by_cases hoff : 8 ≤ off
  · rw [doCqCfgWrite_base hup hoff]
    by_cases hlen : len = 8
    · rw [if_pos hlen]
      refine ⟨fun m hm => cq_modCq_other _ _ hm, rfl, rfl, rfl, fun _ _ => ?_, fun _ h => absurd hlen h,
        fun h => absurd hoff h⟩
      rw [cq_modCq_same _ _ hn]
      rfl
    · rw [if_neg hlen]
      exact ⟨fun _ _ => rfl, rfl, rfl, rfl, fun _ h => absurd h hlen, fun _ _ => ⟨rfl, rfl⟩, fun h => absurd hoff h⟩
  · rw [doCqCfgWrite_first hup hoff]
    exact ⟨fun m hm => cq_modCq_other _ _ hm, rfl, rfl, rfl, fun h => absurd h hoff, fun h => absurd h hoff,
      fun _ => cq_modCq_same _ _ hn⟩

end

/-- Settles O8: which halves of the first word a write carries decides what the queue takes. -/
theorem queuesTakeTheirConfiguration : Obligations.QueuesTakeTheirConfiguration := by
  refine ⟨fun s n off len data hn hup => ?_, fun s n off len data hn hup => ?_⟩
  · obtain ⟨t, he, hother, hmem, hcmds, hcqs, hbase, hbad, hfirst⟩ :=
      sqCfgWrite_configures (off := off) (len := len) (data := data) hn hup
    refine ⟨t, he, hother, hmem, hcmds, hcqs, hbase, hbad, ?_, ?_, ?_⟩
    · rintro rfl rfl
      exact (hfirst (by decide)).trans (Sq.write_whole ..)
    · rintro rfl rfl
      exact (hfirst (by decide)).trans (Sq.write_low ..)
    · rintro rfl rfl
      rw [← bits_wordData_high]
      exact (hfirst (by decide)).trans (Sq.write_high ..)
  · obtain ⟨t, he, hother, hmem, hcmds, hsqs, hbase, hbad, hfirst⟩ :=
      cqCfgWrite_configures (off := off) (len := len) (data := data) hn hup
    refine ⟨t, he, hother, hmem, hcmds, hsqs, hbase, hbad, ?_⟩
    rintro rfl rfl
    exact (hfirst (by decide)).trans (Cq.write_whole ..)

end Sys2Proof

/-! PROOFS. The indices of the queues (R366, R380, R382), and admission (R393, R394). -/

namespace Sys2Proof.Machine.State

/-! ## Indices -/

theorem exec_doorbell (n : Nat) (data : Word64) (s : State) : exec (.doorbell n data) s = .next (s.doDoorbell n data) := rfl

theorem exec_sqFetch (n : Nat) (s : State) : exec (.sqFetch n) s = .next (s.doSqFetch n) := rfl

theorem bits_of_lt {x k : Nat} (h : x < 2 ^ (k + 1)) : bits x k 0 = x := by
  simp [bits, Nat.mod_eq_of_lt h]

section
variable {s : State} {n : Nat} {data : Word64}

theorem doDoorbell_lost (h : s.linkUp = false) : s.doDoorbell n data = s := by simp [doDoorbell, h]

theorem doDoorbell_taken (hup : s.linkUp = true) (hen : (s.sq n).en = true) (ht : data.toNat < (s.sq n).size)
    (hs : (s.sq n).size ≤ 4096) : s.doDoorbell n data = s.modSq n (fun q => { q with tail := data.toNat }) := by
  have hlt : data.toNat < 4096 := by omega
  simp [doDoorbell, hup, hen, hlt, bits_of_lt (k := 11) hlt, ht]

theorem doDoorbell_bad (hup : s.linkUp = true) (h : (s.sq n).en = false ∨ (s.sq n).size ≤ data.toNat) :
    s.doDoorbell n data = { s with liust := { s.liust with dbBad := true } } := by
  have hno : ((s.sq n).en && data.toNat < 4096 && bits data.toNat 11 0 < (s.sq n).size) = false := by
    rcases h with h | h
    · simp [h]
    · by_cases hlt : data.toNat < 4096
      · simp [bits_of_lt (k := 11) hlt, h]
      · simp [hlt]
  simp only [doDoorbell, hup, hno]
  rfl

end

/-- A HEAD that passes nothing is taken, and any other sets DB_BAD; LOST clears where its bit is written 1 (R380). -/
theorem doCqHeadWrite_whole {s : State} (hup : s.hostUp = true) {n : Nat} (hn : n < 64) (data : Word64) :
    s.doCqHeadWrite n 0 8 data = (let u := s.modCq n (fun q => { q with lost := q.lost && !bit data.toNat 13 })
      if (s.cq n).headOk (bits data.toNat 11 0) then u.modCq n (fun q => { q with head := bits data.toNat 11 0 })
      else u.modLiust (fun l => { l with dbBad := true })) := by
  have hok : ((s.modCq n (fun q => { q with lost := q.lost && !bit data.toNat 13 })).cq n).headOk
      = (s.cq n).headOk := by
    rw [cq_modCq_same _ _ hn]; rfl
  simp [doCqHeadWrite, hup, lowHalf, wordData, hok]

/-- A queue with entries to fetch reads them by one DMA_RD (R382). -/
theorem doSqFetch_reads {s : State} {n : Nat} (hup : s.hostUp = true) (hen : (s.sq n).en = true)
    (hstop : (s.sq n).stopped = false) (hwait : (s.sq n).waiting = []) (hf : s.fetching n = false)
    (hroom : s.dmaRoom true = true) (hcount : (s.sq n).fetchCount ≠ 0) : s.doSqFetch n
    = s.dmaRd ((s.sq n).base + 512 * (s.sq n).head) (512 * (s.sq n).fetchCount) (.fetch n (s.sq n).fetchCount) := by
  simp [doSqFetch, hup, hen, hstop, hwait, hf, hroom, hcount]

theorem fetchCount_of_pending {q : Sq} (hh : q.head < q.size) (ht : q.tail < q.size) (hne : q.head ≠ q.tail) :
    q.fetchCount = min 8 (min ((q.tail + q.size - q.head) % q.size) (q.size - q.head)) ∧ 1 ≤ q.fetchCount := by
  have hpos : 0 < (q.tail + q.size - q.head) % q.size := by
    by_cases h : q.head < q.tail
    · rw [show q.tail + q.size - q.head = q.tail - q.head + q.size by omega, Nat.add_mod_right,
        Nat.mod_eq_of_lt (by omega)]
      omega
    · rw [Nat.mod_eq_of_lt (by omega)]
      omega
  have heq : q.fetchCount = min 8 (min ((q.tail + q.size - q.head) % q.size) (q.size - q.head)) := by
    rw [Sq.fetchCount, if_neg (by simp; omega)]
  exact ⟨heq, by omega⟩

/-! ## Admission -/

theorem exec_commandAdmission (n : Nat) (s : State) : exec (.commandAdmission n) s = .next (s.doCommandAdmission n) := rfl

/-- The command that joins last is found by its number, which no other has. -/
theorem find_snoc_next {l : List Cmd} {k : Nat} (h : ∀ c ∈ l, c.id < k) {c : Cmd} (hc : c.id = k) :
    (l ++ [c]).find? (fun x => x.id == k) = some c := by
  rw [List.find?_append, List.find?_eq_none.2 (fun x hx => by simp [(h x hx).ne])]
  simp [hc]

/-- A change of the command that joined last leaves the others alone. -/
theorem map_snoc_next {l : List Cmd} {k : Nat} (h : ∀ c ∈ l, c.id < k) {c : Cmd} (hc : c.id = k) (f : Cmd → Cmd) :
    (l ++ [c]).map (fun x => if x.id == k then f x else x) = l ++ [f c] := by
  have hl : l.map (fun x => if x.id == k then f x else x) = l := by
    conv_rhs => rw [← List.map_id l]
    exact List.map_congr_left fun x hx => by simp [(h x hx).ne]
  rw [List.map_append, hl]
  simp [hc]

/-- `numberColl` gives the command that joined last at most a sequence number (R321), and changes nothing else but its
group. -/
theorem numberColl_snoc {s : State} {l : List Cmd} {c : Cmd} (hcmds : s.cmds = l ++ [c]) (h : ∀ x ∈ l, x.id < c.id) :
    ∃ k, (s.numberColl c.id).cmds = l ++ [{ c with seqNo := k }]
      ∧ s.numberColl c.id = { s with cmds := (s.numberColl c.id).cmds, fabric := (s.numberColl c.id).fabric } := by
  have hfind : s.cmd? c.id = some c := by rw [cmd?, hcmds]; exact find_snoc_next h rfl
  unfold numberColl
  rw [hfind]
  dsimp only
  split
  · split
    · next gr _ =>
      refine ⟨some gr.seq, ?_, rfl⟩
      simp only [modGroup, modFabric_cmds, modCmd_cmds]
      rw [hcmds, map_snoc_next h rfl]
    · exact ⟨c.seqNo, hcmds, rfl⟩
  · exact ⟨c.seqNo, hcmds, rfl⟩

section
variable {s : State} {n : Nat} {p : List Byte} {rest : List (List Byte)} (hwait : (s.sq n).waiting = p :: rest)
  (hroom : s.canReserve (s.sq n).cq = true)
include hwait hroom

theorem doCommandAdmission_admits (hok : s.headerRej n p = none) (hturn : s.hasTurn n = true) :
    s.doCommandAdmission n = (s.modSq n (fun q => { q with waiting := rest })).admitHost n p := by
  simp [doCommandAdmission, hwait, hroom, hok, hturn]

theorem doCommandAdmission_rejects {r : Rej} (hbad : s.headerRej n p = some r) :
    s.doCommandAdmission n = (s.modSq n (fun q => { q with waiting := rest })).rejectHost n p r := by
  simp [doCommandAdmission, hwait, hroom, hbad]

end

end Sys2Proof.Machine.State

namespace Sys2Proof

open Machine State

/-- A write of the whole CQ_STATUS register (R380). -/
theorem cqHeadWrite_moves {s : State} {n : Nat} (data : Word64) (hn : n < 64) (hup : s.hostUp = true) :
    let q := s.cq n
    let h := bits data.toNat 11 0
    ∃ t, exec (.cqHeadWrite n 0 8 data) s = .next t
      ∧ (t.cq n).lost = (q.lost && !bit data.toNat 13)
      ∧ (h = q.head ∨ (h < q.size ∧ (h + q.size - q.head) % q.size ≤ (q.tail + q.size - q.head) % q.size) →
          (t.cq n).head = h ∧ t.liust = s.liust)
      ∧ (h ≠ q.head → (q.size ≤ h ∨ (q.tail + q.size - q.head) % q.size < (h + q.size - q.head) % q.size) →
          (t.cq n).head = q.head ∧ t.liust = { s.liust with dbBad := true })
      ∧ (∀ m, m ≠ n → t.cq m = s.cq m) ∧ t.mem = s.mem ∧ t.cmds = s.cmds := by
  intro q h
  refine ⟨_, (congrArg Host.Outcome.next (atHost_up hup)).trans
    (congrArg Host.Outcome.next (doCqHeadWrite_whole hup hn data)), ?_⟩
  dsimp only
  by_cases hok : (s.cq n).headOk h = true
  · rw [if_pos hok]
    refine ⟨?_, fun _ => ⟨?_, rfl⟩, fun hne hbad => ?_, fun m hm => ?_, rfl, rfl⟩
    · rw [cq_modCq_same _ _ hn, cq_modCq_same _ _ hn]
    · rw [cq_modCq_same _ _ hn]
    · simp only [Cq.headOk, Bool.or_eq_true, beq_iff_eq, Bool.and_eq_true, decide_eq_true_eq] at hok
      rcases hok with hok | ⟨hlt, hle⟩
      · exact absurd hok hne
      · rcases hbad with hbad | hbad
        · exact absurd hlt (Nat.not_lt.2 hbad)
        · exact absurd hle (Nat.not_le.2 hbad)
    · rw [cq_modCq_other _ _ hm, cq_modCq_other _ _ hm]
  · rw [if_neg hok]
    refine ⟨?_, fun hgood => ?_, fun _ _ => ⟨?_, rfl⟩, fun m hm => ?_, rfl, rfl⟩
    · exact congrArg Cq.lost (cq_modCq_same s (fun q => { q with lost := q.lost && !bit data.toNat 13 }) hn)
    · refine absurd ?_ hok
      simpa [Cq.headOk] using hgood
    · exact (congrArg Cq.head (cq_modCq_same s (fun q => { q with lost := q.lost && !bit data.toNat 13 }) hn) :)
    · exact cq_modCq_other s (fun q => { q with lost := q.lost && !bit data.toNat 13 }) hm

/-- Settles O9: an index moves where its new value passes the check, and a fetch reads what is pending. -/
theorem queueIndicesMove : Obligations.QueueIndicesMove := by
  refine ⟨fun s n data _ => ⟨_, exec_doorbell n data s, doDoorbell_lost, doDoorbell_taken, doDoorbell_bad⟩,
    fun s n data => cqHeadWrite_moves data, fun s n hup hen hstop hwait hf hh ht hne hroom => ?_⟩
  obtain ⟨hcount, hpos⟩ := fetchCount_of_pending hh ht hne
  have hread := doSqFetch_reads hup hen hstop hwait hf hroom (by omega)
  dsimp only
  rw [← hcount]
  exact ⟨_, _, (exec_sqFetch n s).trans (congrArg Host.Outcome.next hread), hpos, rfl, rfl, rfl, rfl, rfl⟩

/-- Settles O10: the new command takes the next number, so that nothing done to it meets another. -/
theorem admissionTakesTheOldestPacket : Obligations.AdmissionTakesTheOldestPacket := by
  intro s n p rest hs hn hwait hroom
  obtain ⟨u, hu⟩ : ∃ u, u = s.modSq n (fun q => { q with waiting := rest }) := ⟨_, rfl⟩
  have hsq : u.sq n = { s.sq n with waiting := rest } := by rw [hu, sq_modSq_same _ _ hn]
  refine ⟨fun hok hturn => ?_, fun r hbad => ?_⟩
  · have hact := (doCommandAdmission_admits hwait hroom hok hturn).trans (congrArg (admitHost · n p) hu.symm)
    obtain ⟨c, hc⟩ : ∃ c : Cmd, c = { id := s.nextId, src := .host n, ctx := (s.sq n).ctx, cq := (s.sq n).cq
                                      packet := p.take (64 + bits (fieldAt p 8 8) 24 16) } := ⟨_, rfl⟩
    obtain ⟨d, hd⟩ : ∃ d, d = { c with deps := s.hostDeps n c.depTags } := ⟨_, rfl⟩
    have hadmit : u.admitHost n p
        = ({ u with cmds := s.cmds ++ [d], nextId := s.nextId + 1, turn := n } : State).numberColl d.id := by
      rw [hd, hc, admitHost, hsq, hu]; rfl
    obtain ⟨k, hcmds, hframe⟩ := numberColl_snoc (c := d) (l := s.cmds)
      (s := { u with cmds := s.cmds ++ [d], nextId := s.nextId + 1, turn := n }) rfl
      (fun x hx => by rw [hd, hc]; exact hs x hx)
    refine ⟨_, _, (exec_commandAdmission n s).trans (congrArg Host.Outcome.next (hact.trans hadmit)), hcmds, ?_⟩
    rw [hframe, hd, hc]
    exact ⟨rfl, rfl, rfl, rfl, rfl, rfl, rfl, rfl, rfl, rfl, congrArg Sq.waiting hsq, by rw [hu]; rfl⟩
  · have hact := (doCommandAdmission_rejects hwait hroom hbad).trans (congrArg (rejectHost · n p r) hu.symm)
    obtain ⟨c, hc⟩ : ∃ c : Cmd, c = { id := s.nextId, src := .host n, ctx := (s.sq n).ctx, packet := p, cq := (s.sq n).cq
                                      placed := false } := ⟨_, rfl⟩
    have hfind : ({ u with cmds := s.cmds ++ [c], nextId := s.nextId + 1 } : State).cmd? s.nextId = some c :=
      find_snoc_next hs (by rw [hc])
    have hreject : u.rejectHost n p r
        = ({ u with cmds := s.cmds ++ [c], nextId := s.nextId + 1 } : State).endHost s.nextId (rejCompl r.1 r.2) := by
      rw [hc, rejectHost, hsq, hu]; rfl
    rw [endHost_host hfind (by rw [hc])] at hreject
    refine ⟨_, { c with st := .done { rejCompl r.1 r.2 with cycles := s.cycles.toNat }, stage := .go },
      (exec_commandAdmission n s).trans (congrArg Host.Outcome.next (hact.trans hreject)), ?_, ?_, ?_, rfl,
      congrArg Sq.waiting hsq, fun hcq => ?_, by rw [hu]; rfl⟩
    · rw [modCq_cmds, modCmd_cmds, map_snoc_next hs (by rw [hc]), hu]
      rfl
    · rw [hc]
    · rw [hc]
    · have hq : c.cq = (s.sq n).cq := by rw [hc]
      rw [hq, cq_modCq_same _ _ hcq, hu]
      rfl

end Sys2Proof

/-! PROOFS. The start of a command (R395), where two commands in flight have one number. -/

namespace Sys2Proof.Machine

/-- A MOVE_FILL of sequencer 0 on cluster 1, without operands, that waits. -/
def waitingFill : Cmd :=
  { id := 0, src := .seq 0 0 0#32 0, ctx := 0, packet := natLe 64 (0x101 + 2 ^ 76 + 40 * 2 ^ 80) ++ natLe 40 0, st := .waiting }

/-- A POWER_VOTE under the same number, whose domain has reached what it waits for. -/
def voteOfSameNumber : Cmd :=
  { id := 0, src := .host 0, ctx := 0, packet := natLe 64 (0xA00 + 8 * 2 ^ 80) ++ natLe 8 0, st := .running
    stage := .domain 0x50 0 }

/-- Both are in flight, sequencer 0 runs, and so does cluster 1, whose POST is done. -/
def twoOfOneNumber : State :=
  { State.reset.modDomain 1 (fun d => { d with st := .active }) with
    cmds := [waitingFill, voteOfSameNumber], nextId := 1, errors := { postDone := 0xFF#8 }
    seqs := vset State.reset.seqs 0 { Seq.reset with st := .running } }

/-- The state in which the start of `waitingFill` is checked: its cluster's domain is settled, and with it the POWER_VOTE. -/
def twoOfOneNumberSettled : State :=
  (waitingFill.clusters.foldl State.settleDomain (twoOfOneNumber.chooseModes waitingFill)).boundary waitingFill

/-- The end of the POWER_VOTE takes out every command of its number. -/
theorem twoOfOneNumberSettled_lost : twoOfOneNumberSettled.cmd? 0 = none := by decide +kernel

theorem twoOfOneNumberSettled_rejects : twoOfOneNumberSettled.startRej waitingFill
    (twoOfOneNumberSettled.startOf waitingFill) = some (Status.rejLayout, 72) := by decide +kernel

end Sys2Proof.Machine

namespace Sys2Proof

open Machine

/-- Refutes O11, by its clause of COMMAND_START: the statement speaks of every `State`, also of one with two commands of one
number, where the end of a POWER_VOTE that the start brings about takes out the command that starts. Every number is given once
(`EveryStepKeepsCommandNumbersBelowTheNext`), so that no command leads there. -/
theorem not_commandsStartOrAreRejected : ¬ Obligations.CommandsStartOrAreRejected := by
  intro h
  obtain ⟨-, hready⟩ := h twoOfOneNumber 0 waitingFill rfl rfl
  obtain ⟨-, hstart, -⟩ := hready rfl (by decide +kernel) (by decide +kernel)
  obtain ⟨t, -, -, hplaced⟩ := hstart (by decide +kernel) (by decide +kernel)
  obtain ⟨hrejected, -⟩ := hplaced (by decide +kernel)
  obtain ⟨hends, -⟩ := hrejected _ twoOfOneNumberSettled_rejects
  have hnone : Ends twoOfOneNumberSettled t 0 (rejCompl Status.rejLayout 72) := hends
  rw [Ends, twoOfOneNumberSettled_lost] at hnone
  exact hnone

end Sys2Proof

/-! PROOFS. Completions (R368, R380, R381), and the contexts and regions of the host (R383 to R387). -/

namespace Sys2Proof.Machine

/-! ## Checks -/

theorem worst_eq_none {l : List Rej} : worst l = none ↔ l = [] := by
  cases l with
  | nil => simp [worst]
  | cons r rs =>
    simp only [worst, reduceCtorEq, iff_false]
    split
    · simp
    · split <;> simp

theorem need_eq_nil {b : Bool} {st aux : Nat} : need b st aux = [] ↔ b = true := by
  cases b <;> simp [need]

theorem bits_lt (x hi lo : Nat) : bits x hi lo < 2 ^ (hi + 1 - lo) := Nat.mod_lt _ (Nat.two_pow_pos _)

namespace State

/-! ## Completions -/

theorem exec_completionWrite (id : Nat) (s : State) : exec (.completionWrite id) s = .next (s.doCompletionWrite id) := rfl

theorem exec_heldCompletionFlush (n : Nat) (s : State) :
    exec (.heldCompletionFlush n) s = .next (s.flushHeld n (s.cq n).held) := rfl

section
variable {s : State} {id n q : Nat} {c : Cmd} {k : Compl}

/-- A completion goes to the entry at TAIL, and its queue moves on (R380, R398). -/
theorem writeCompletion_writes (hc : s.cmd? id = some c) (hsrc : c.src = .host q) (hst : c.st = .done k) (hn : n < 64) :
    let x := s.cq n
    ∃ tag, (s.writeCompletion n id).hostTx
        = s.hostTx ++ [.dmaWr tag (x.base + 32 * x.tail) (complBytes c.hostTag k x.wphase q (s.sq q).head) 0#64]
      ∧ (s.writeCompletion n id).cq n = { x with
          tail := (x.tail + 1) % x.size, wphase := if (x.tail + 1) % x.size = 0 then !x.wphase else x.wphase
          done := x.done.filter (fun d => d != id), held := x.held - 1 }
      ∧ (s.writeCompletion n id).mem = s.mem ∧ (s.writeCompletion n id).sqs = s.sqs := by
  intro x
  simp only [writeCompletion, hc, hst, hsrc]
  refine ⟨_, rfl, ?_, rfl, rfl⟩
  rw [cq_modCq_same _ _ hn]
  simp only [beq_iff_eq]
  rfl

theorem doCompletionWrite_writes (hc : s.cmd? id = some c) (hhead : (s.cq c.cq).done.head? = some id)
    (hheld : (s.cq c.cq).held = 0) (hcan : s.canWrite c.cq id = true) :
    s.doCompletionWrite id = s.writeCompletion c.cq id := by
  simp [doCompletionWrite, hc, hhead, hheld, hcan]

theorem flushHeld_one (hdone : (s.cq n).done = [id]) (hheld : (s.cq n).held = 1) (hcan : s.canWrite n id = true) :
    s.flushHeld n (s.cq n).held = s.writeCompletion n id := by
  simp [hheld, flushHeld, hdone, hcan]

end

/-! ## Contexts -/

theorem context_modContext_same (s : State) {n : Nat} (f : Context → Context) (h : n < 16) :
    (s.modContext n f).context n = f (s.context n) := vget_vmod_same _ _ _ _ h

theorem context_modContext_other (s : State) {n m : Nat} (f : Context → Context) (h : m ≠ n) :
    (s.modContext n f).context m = s.context m := vget_vmod_other _ _ _ _ _ h

/-- The regions of a context that was just made are not valid. -/
theorem regions_default (n : Nat) (live : Bool) : (vget ({ live := live } : Context).regions n {}).valid = false := by
  by_cases h : n < 64
  · rw [vget_replicate _ h]
  · rw [vget_outside h]

theorem ctxParam_lt (c : Cmd) : c.ctxParam < 16 := bits_lt _ 3 0

theorem regionIndex_lt (c : Cmd) : c.regionIndex < 64 := bits_lt _ 13 8

/-- A context is made other than context 0 (R383). -/
theorem ctxCreateStart_ok {s : State} {c : Cmd} (h : worst (s.ctxCreateStart c).rejs = none) : c.ctxParam ≠ 0 := by
  have hneed := (List.append_eq_nil_iff.1 (worst_eq_none.1 h)).2
  have := need_eq_nil.1 hneed
  simp only [Bool.and_eq_true, bne_iff_ne] at this
  exact this.1

/-! ## What cancelling commands leaves alone -/

/-- Two states with the same contexts and submission queues. -/
def SameQueues (s t : State) : Prop := t.contexts = s.contexts ∧ t.sqs = s.sqs

theorem SameQueues.refl (s : State) : s.SameQueues s := ⟨rfl, rfl⟩

theorem SameQueues.trans {s t u : State} (h : s.SameQueues t) (h' : t.SameQueues u) : s.SameQueues u :=
  ⟨h'.1.trans h.1, h'.2.trans h.2⟩

theorem finish_of_none {s : State} {id : Nat} (h : s.cmd? id = none) (k : Compl) : s.finish id k = s := by
  simp [finish, h]

theorem sameQueues_finish (s : State) (id : Nat) (k : Compl) : s.SameQueues (s.finish id k) := by
  cases h : s.cmd? id with
  | none => rw [finish_of_none h]; exact .refl s
  | some c => exact ⟨(finish_completes h k).2.1.contexts, (finish_completes h k).2.1.sqs⟩

/-- A command that is cut short writes, counts and draws free values, and changes nothing else (R185, R221). -/
theorem stopEffect_frame (s : State) (c : Cmd) (e : Effect) (limit : Option Nat) :
    s.stopEffect c e limit = { s with
      mem := (s.stopEffect c e limit).mem, free := (s.stopEffect c e limit).free
      memside := { s.memside with
        uncured := (s.stopEffect c e limit).memside.uncured, held := (s.stopEffect c e limit).memside.held }
      ctrs := (s.stopEffect c e limit).ctrs, seqs := (s.stopEffect c e limit).seqs } := by
  have hgrad (u : State) (n : Nat) : u.noteGrad c n = { u with ctrs := (u.noteGrad c n).ctrs, seqs := (u.noteGrad c n).seqs } := by
    unfold noteGrad
    split
    · rw [setNf_frame]; rfl
    · rfl
  unfold stopEffect
  dsimp only
  rw [hgrad]
  dsimp only [bump]
  rw [bumps_frame, writeBlocks_frame]

theorem closeAfter_frame (s : State) (c : Cmd) : s.closeAfter c = { s with drafts := (s.closeAfter c).drafts } := by
  unfold closeAfter
  split <;> rfl

/-- The state in which a command that is cut short ends: part of its effect has happened. -/
def cutState (s : State) (c : Cmd) : State :=
  ({ s with free := s.free + 5 }.stopEffect c (s.partEffect c) none).closeAfter c

/-- A command that is cut short ends in `cutState`, with its status. -/
theorem cutShort_finishes (s : State) (c : Cmd) (st : Nat) :
    ∃ k : Compl, k.status = st ∧ s.cutShort c st = (s.cutState c).finish c.id k := ⟨_, rfl, rfl⟩

theorem cutState_frame (s : State) (c : Cmd) : s.cutState c = { s with
      mem := (s.cutState c).mem, free := (s.cutState c).free
      memside := { s.memside with uncured := (s.cutState c).memside.uncured, held := (s.cutState c).memside.held }
      ctrs := (s.cutState c).ctrs, seqs := (s.cutState c).seqs, drafts := (s.cutState c).drafts } := by
  unfold cutState
  rw [closeAfter_frame, stopEffect_frame]

theorem sameQueues_cutShort (s : State) (c : Cmd) (st : Nat) : s.SameQueues (s.cutShort c st) := by
  obtain ⟨k, -, hk⟩ := s.cutShort_finishes c st
  rw [hk]
  refine .trans ?_ (sameQueues_finish _ _ k)
  rw [cutState_frame]
  exact .refl s

theorem sameQueues_cancelCmd (s : State) (id : Nat) : s.SameQueues (s.cancelCmd id) := by
  unfold cancelCmd
  split
  · exact .refl s
  · split
    · exact sameQueues_finish ..
    · split
      · exact .refl s
      · exact sameQueues_cutShort ..
    · exact .refl s

theorem sameQueues_foldl {α : Type} {f : State → α → State} (hf : ∀ (t : State) a, t.SameQueues (f t a)) (s : State) (l : List α) :
    s.SameQueues (l.foldl f s) :=
  foldl_keeps (p := s.SameQueues) (fun t a ht => ht.trans (hf t a)) l (.refl s)

theorem sameQueues_settleSeq (s : State) (n : Nat) : s.SameQueues (s.settleSeq n) := by
  rw [(settleSeq_frame s n).1]
  exact .refl s

theorem sameQueues_modSeq (s : State) (n : Nat) (f : Seq → Seq) : s.SameQueues (s.modSeq n f) := ⟨rfl, rfl⟩

theorem sameQueues_modDraft (s : State) (n : Nat) (f : Draft → Draft) : s.SameQueues (s.modDraft n f) := ⟨rfl, rfl⟩

theorem sameQueues_retireDrafts (s : State) (ctx : Nat) : s.SameQueues (s.retireDrafts ctx) :=
  sameQueues_foldl (fun t n => t.sameQueues_modDraft n Draft.retire) s _

theorem sameQueues_stopPlaybook (s : State) (n : Nat) (b : Bool) : s.SameQueues (s.stopPlaybook n b) := by
  unfold stopPlaybook
  split
  · exact .refl s
  · refine (sameQueues_modSeq s n (fun q => { q with
      st := .stopping, stopNow := true, cancelled := q.cancelled || b })).trans ?_
    refine .trans ?_ (sameQueues_settleSeq _ n)
    exact (sameQueues_retireDrafts _ _).trans (sameQueues_foldl sameQueues_cancelCmd _ _)

theorem sameQueues_cancelAll (s : State) (id : Nat) (p : Cmd → Bool) : s.SameQueues (s.cancelAll id p).1 := by
  unfold cancelAll
  dsimp only
  refine .trans ?_ (sameQueues_foldl (fun t n => sameQueues_stopPlaybook t n true) _ _)
  refine .trans ?_ (sameQueues_foldl sameQueues_cancelCmd _ _)
  exact sameQueues_foldl (fun t n => t.sameQueues_modSeq n _) s _

/-- A command that waits for others changes the commands and completion queues alone. -/
theorem awaitAll_frame (s : State) (id : Nat) (ids : List Nat) (n : Nat) : s.awaitAll id ids n
    = { s with cmds := (s.awaitAll id ids n).cmds, cqs := (s.awaitAll id ids n).cqs } := by
  unfold awaitAll
  rw [(settleAwaits_frame _).1]
  rfl

/-! ## CTX_DESTROY -/

/-- Before what a context holds is cleared, its queues are stopped and its commands and playbooks ended (R387). -/
theorem destroyContext_clears (s : State) (id x : Nat) :
    ∃ u : State, s.destroyContext id x = u.clearContext x ∧ u.contexts = s.contexts ∧ u.sqs = (s.stopQueues x).sqs := by
  refine ⟨_, rfl, ?_⟩
  have h := ((s.stopQueues x).sameQueues_cancelAll id (fun c => c.ctx == x)).trans
    (sameQueues_foldl (f := fun (s : State) n => if (s.seq n).st != .idle && (s.seq n).ctx == x then s.stopPlaybook n false else s)
      (fun t n => by
        split
        · exact sameQueues_stopPlaybook ..
        · exact .refl t) _ (List.range 4))
  exact h

/-- What a cleared context leaves (R387). -/
theorem clearContext_leaves (s : State) {x : Nat} (hx : x < 16) :
    (s.clearContext x).context x = {} ∧ (∀ n, n ≠ x → (s.clearContext x).context n = s.context n)
    ∧ (s.clearContext x).sqs = s.sqs
    ∧ (∀ n < 64, ((s.clearContext x).draft n).bound = true → ((s.clearContext x).draft n).ctx ≠ x)
    ∧ ∀ k ∈ (s.clearContext x).slots, k.ctx ≠ x := by
  obtain ⟨hctx, hsqs⟩ := s.sameQueues_retireDrafts x
  refine ⟨context_modContext_same _ _ hx, fun n hn => ?_, hsqs, fun n hn => ?_, fun k hk => ?_⟩
  · refine (context_modContext_other _ _ hn).trans ?_
    exact congrArg (fun v => vget v n {}) hctx
  · simp only [clearContext, draft, modContext]
    rw [vget_map _ _ _ hn]
    split
    · exact nofun
    · next h => intro hb hc; simp [hb, hc] at h
  · have := (List.mem_filter.1 hk).2
    simpa using this

theorem stopQueues_sq (s : State) (x : Nat) {n : Nat} (hn : n < 64) : (s.stopQueues x).sq n
    = if (s.sq n).ctx == x then { s.sq n with en := false, stopped := true, reason := .context } else s.sq n :=
  vget_map _ _ _ hn

/-! ## REGION_SET -/

/-- A group takes the placement given, the others keep theirs, and nothing else of the state but memory changes (R197). -/
theorem setPlace_places (s : State) (b : Bool) {g : Nat} (hg : g < 256) :
    (s.setPlace b g).placed g = b ∧ (∀ h, h ≠ g → (s.setPlace b g).placed h = s.placed h)
    ∧ s.setPlace b g = { s with mem := (s.setPlace b g).mem, memside := (s.setPlace b g).memside } := by
  unfold setPlace
  split
  · next h => exact ⟨by simpa using h, fun _ _ => rfl, rfl⟩
  · refine ⟨?_, fun h hne => ?_, rfl⟩
    · cases b <;> simp [placed, hg]
    · have hbit : (1#256 <<< g).getLsbD h = false := by
        rw [BitVec.getLsbD_shiftLeft]
        by_cases hlt : h < g
        · simp [hlt]
        · simp [show h - g ≠ 0 by omega]
      cases b
      · by_cases hh : h < 256
        · simp only [placed, Bool.false_eq_true, if_false, BitVec.getLsbD_and, BitVec.getLsbD_not, hbit, hh, decide_true,
            Bool.not_false, Bool.and_true]
        · simp [placed, BitVec.getLsbD_of_ge _ h (Nat.le_of_not_lt hh)]
      · simp only [placed, if_true, BitVec.getLsbD_or, hbit, Bool.or_false]

theorem setPlaces_place (b : Bool) (l : List Nat) (hl : ∀ g ∈ l, g < 256) (s : State) :
    (∀ g ∈ l, (l.foldl (fun s g => s.setPlace b g) s).placed g = b)
    ∧ (∀ h, h ∉ l → (l.foldl (fun s g => s.setPlace b g) s).placed h = s.placed h)
    ∧ l.foldl (fun s g => s.setPlace b g) s = { s with
        mem := (l.foldl (fun s g => s.setPlace b g) s).mem, memside := (l.foldl (fun s g => s.setPlace b g) s).memside } := by
  induction l generalizing s with
  | nil => exact ⟨nofun, fun _ _ => rfl, rfl⟩
  | cons g r ih =>
    obtain ⟨hg, hr⟩ := List.forall_mem_cons.1 hl
    obtain ⟨hset, hother, hframe⟩ := s.setPlace_places b hg
    obtain ⟨hsets, hothers, hframes⟩ := ih hr (s.setPlace b g)
    rw [List.foldl_cons]
    refine ⟨fun h hh => ?_, fun h hh => ?_, ?_⟩
    · by_cases hmem : h ∈ r
      · exact hsets h hmem
      · obtain rfl : h = g := (List.mem_cons.1 hh).resolve_right hmem
        rw [hothers h hmem, hset]
    · rw [List.mem_cons, not_or] at hh
      rw [hothers h hh.2, hother h hh.1]
    · rw [hframes, hframe]

theorem groups_lt {r : Region} {g : Nat} (h : g ∈ r.groups) : g < 256 := by
  unfold Region.groups at h
  split at h
  · exact List.mem_range.1 (List.mem_filter.1 h).1
  · exact absurd h List.not_mem_nil

/-- An entry stands as written, and the groups that it covers take its PLACE (R197, R386). -/
theorem setRegion_stands (s : State) {ctx n : Nat} (hctx : ctx < 16) (hn : n < 64) (r : Region) :
    vget ((s.setRegion ctx n r).context ctx).regions n {} = r
    ∧ (∀ m, m ≠ n → vget ((s.setRegion ctx n r).context ctx).regions m {} = vget (s.context ctx).regions m {})
    ∧ (∀ m, m ≠ ctx → (s.setRegion ctx n r).context m = s.context m)
    ∧ (∀ g ∈ r.groups, (s.setRegion ctx n r).placed g = r.place)
    ∧ s.setRegion ctx n r = { s with
        mem := (s.setRegion ctx n r).mem, memside := (s.setRegion ctx n r).memside
        contexts := (s.setRegion ctx n r).contexts } := by
  obtain ⟨hplaced, -, hframe⟩ := setPlaces_place r.place r.groups (fun _ => groups_lt) s
  obtain ⟨u, hu⟩ : ∃ u, u = r.groups.foldl (fun s g => s.setPlace r.place g) s := ⟨_, rfl⟩
  rw [← hu] at hplaced hframe
  have hset : s.setRegion ctx n r = u.modContext ctx (fun x => { x with regions := vset x.regions n r }) := by rw [hu]; rfl
  have hcontext (m : Nat) : u.context m = s.context m := by rw [hframe]; rfl
  rw [hset, context_modContext_same _ _ hctx, hcontext]
  refine ⟨vget_vmod_same _ n (fun _ => r) _ hn, fun m hm => vget_vmod_other _ n m (fun _ => r) _ hm, fun m hm => ?_, hplaced, ?_⟩
  · rw [context_modContext_other _ _ hm, hcontext]
  · rw [modContext_mem, modContext_memside]
    unfold modContext
    rw [hframe]

end State

end Sys2Proof.Machine

namespace Sys2Proof

open Machine State

/-- Settles O12: `writeCompletion` writes at TAIL, and both rows come to it. -/
theorem completionsAreWrittenAtTail : Obligations.CompletionsAreWrittenAtTail := by
  refine ⟨fun s id c k q hc hsrc hst hcq hhead hheld hcan => ?_, fun s n id c k q hc hsrc hst hn hdone hheld hcan => ?_⟩
  · obtain ⟨tag, htx, hq, hmem, hsqs⟩ := writeCompletion_writes hc hsrc hst hcq
    refine ⟨_, tag, (exec_completionWrite id s).trans
      (congrArg Host.Outcome.next (doCompletionWrite_writes hc hhead hheld hcan)), htx, ?_, ?_, ?_, hmem, hsqs⟩ <;> rw [hq]
  · obtain ⟨tag, htx, hq, hmem, hsqs⟩ := writeCompletion_writes hc hsrc hst hn
    refine ⟨_, tag, (exec_heldCompletionFlush n s).trans (congrArg Host.Outcome.next (flushHeld_one hdone hheld hcan)),
      htx, ?_, ?_, ?_, hmem⟩ <;> rw [hq]
    · simp [hdone]
    · simp [hheld]

/-- CTX_DESTROY clears the context once its commands are ended, and waits for their completions (R387). -/
theorem ctxDestroy_clears {s : State} {id : Nat} {c : Cmd} (hrun : s.running? id 0x001 = some c) (hgo : c.stage = .go)
    (hok : worst (s.ctxDestroyStart c).rejs = none) :
    ∃ t, exec (.ctxDestroy id) s = .next t ∧ (t.context c.ctxParam).live = false
      ∧ (∀ n, (vget (t.context c.ctxParam).regions n {}).valid = false)
      ∧ (∀ n, n ≠ c.ctxParam → t.context n = s.context n)
      ∧ (∀ n < 64, (s.sq n).ctx = c.ctxParam →
          (t.sq n).en = false ∧ (t.sq n).stopped = true ∧ (t.sq n).reason = .context ∧ (t.sq n).waiting = (s.sq n).waiting)
      ∧ (∀ n < 64, (s.sq n).ctx ≠ c.ctxParam → t.sq n = s.sq n)
      ∧ (∀ n < 64, (t.draft n).bound = true → (t.draft n).ctx ≠ c.ctxParam)
      ∧ ∀ k ∈ t.slots, k.ctx ≠ c.ctxParam := by
  obtain ⟨u, hu, huctx, husqs⟩ := s.destroyContext_clears id c.ctxParam
  obtain ⟨hctx, hothers, hsqs, hdrafts, hslots⟩ := u.clearContext_leaves (ctxParam_lt c)
  obtain ⟨ids, hexec⟩ : ∃ ids, exec (.ctxDestroy id) s = .next ((u.clearContext c.ctxParam).awaitAll id ids 0) := by
    refine ⟨((s.destroyContext id c.ctxParam).cmds.filter (fun k => k.id != id && k.ctx == c.ctxParam)).map (fun k => k.id),
      congrArg Host.Outcome.next ?_⟩
    rw [← hu]
    simp only [doCtxDestroy, hrun, Cmd.atGo, hgo, hok]
    rfl
  obtain ⟨t, ht⟩ : ∃ t, t = (u.clearContext c.ctxParam).awaitAll id ids 0 := ⟨_, rfl⟩
  have hframe := ht ▸ (u.clearContext c.ctxParam).awaitAll_frame id ids 0
  have hcontext (n : Nat) : t.context n = (u.clearContext c.ctxParam).context n := by rw [hframe]; rfl
  have hsq (n : Nat) : t.sq n = (s.stopQueues c.ctxParam).sq n := by
    rw [hframe]
    exact congrArg (fun v => vget v n {}) (hsqs.trans husqs)
  refine ⟨t, hexec.trans (congrArg Host.Outcome.next ht.symm), ?_, fun n => ?_, fun n hn => ?_, fun n hn hc => ?_,
    fun n hn hc => ?_, ?_, ?_⟩
  · rw [hcontext, hctx]
  · rw [hcontext, hctx]
    exact regions_default n false
  · rw [hcontext, hothers n hn, context, huctx]
    rfl
  · rw [hsq, stopQueues_sq _ _ hn, if_pos (beq_iff_eq.2 hc)]
    exact ⟨rfl, rfl, rfl, rfl⟩
  · rw [hsq, stopQueues_sq _ _ hn, if_neg (by simpa using hc)]
  · rw [hframe]
    exact hdrafts
  · rw [hframe]
    exact hslots

/-- Settles O13: each command's checks have passed when it acts, and it acts on the contexts before it ends. -/
theorem contextsAndRegionsAreSet : Obligations.ContextsAndRegionsAreSet := by
  refine ⟨fun s id c hrun hok => ?_, fun s id c => ctxDestroy_clears, fun s id c hrun hok hidle => ?_⟩
  · obtain ⟨hc, -⟩ := running?_some hrun
    obtain ⟨u, hu⟩ : ∃ u, u = s.modContext c.ctxParam (fun _ => { live := true }) := ⟨_, rfl⟩
    have hcmd : u.cmd? id = some c := by rw [hu]; exact hc
    have hdone := finish_completes hcmd (plainCompl Status.ok)
    have hcontext {n : Nat} : (u.finish id (plainCompl Status.ok)).context n = u.context n := by
      rw [context, hdone.2.1.contexts]; rfl
    have hnew : (u.finish id (plainCompl Status.ok)).context c.ctxParam = { live := true } := by
      rw [hcontext, hu, context_modContext_same _ _ (ctxParam_lt c)]
    refine ⟨_, congrArg Host.Outcome.next ((runChecked_acts hrun hok).trans (congrArg (State.finish · _ _) hu.symm)), hu ▸ hdone,
      congrArg Context.live hnew, ctxCreateStart_ok hok, fun n hn => ?_, fun n => ?_⟩
    · rw [hcontext, hu, context_modContext_other _ _ hn]
    · rw [hnew]; exact regions_default n true
  · obtain ⟨hc, -⟩ := running?_some hrun
    obtain ⟨hentry, hentries, hothers, hplaced, hframe⟩ :=
      s.setRegion_stands (ctxParam_lt c) (regionIndex_lt c) c.regionEntry
    have hcmd : (s.setRegion c.ctxParam c.regionIndex c.regionEntry).cmd? id = some c := by rw [hframe]; exact hc
    have hdone := finish_completes hcmd (plainCompl Status.ok)
    have hexec : exec (.regionSet id) s = .next
        ((s.setRegion c.ctxParam c.regionIndex c.regionEntry).finish id (plainCompl Status.ok)) :=
      congrArg Host.Outcome.next ((runChecked_acts hrun hok).trans (by rw [hidle]; rfl))
    refine ⟨_, _, hexec, hdone, ?_⟩
    generalize (s.setRegion c.ctxParam c.regionIndex c.regionEntry).finish id (plainCompl Status.ok) = t at hdone
    have hcontext {n : Nat} : t.context n = (s.setRegion c.ctxParam c.regionIndex c.regionEntry).context n := by
      rw [context, hdone.2.1.contexts]; rfl
    simp only [hcontext]
    exact ⟨hentry, hentries, hothers, hplaced, by rw [hframe], by rw [hframe], by rw [hframe]⟩

end Sys2Proof

/-! PROOFS. CANCEL (R400): what its MODE selects ends, one command at a time, and it waits for their completions. -/

namespace Sys2Proof.Machine

theorem mem_of_mem_freeKeep {sure : BlockWr → Option Bool} {w : BlockWr} {l : List BlockWr} {k : Nat}
    (h : w ∈ freeKeep sure k l) : w ∈ l := by
  induction l generalizing k with
  | nil => exact h
  | cons v r ih =>
    unfold freeKeep at h
    split at h
    · rcases List.mem_cons.1 h with rfl | h
      · exact List.mem_cons_self
      · exact List.mem_cons_of_mem _ (ih h)
    · exact List.mem_cons_of_mem _ (ih h)

theorem isHost_src {c : Cmd} (h : c.isHost = true) : ∃ q, c.src = .host q := by
  unfold Cmd.isHost at h
  split at h
  · exact ⟨_, by assumption⟩
  · cases h

namespace State

/-- A command that is cut short leaves every byte outside the blocks of its effect (R185). -/
theorem cutState_byte {s : State} {c : Cmd} {a : Nat} (h : ∀ w ∈ (s.partEffect c).writes, a < w.loc ∨ w.loc + 64 ≤ a) :
    (s.cutState c).mem.byte a = s.mem.byte a := by
  have hgrad (u : State) (n : Nat) : (u.noteGrad c n).mem = u.mem := by
    unfold noteGrad
    split
    · rw [setNf_frame]; rfl
    · rfl
  unfold cutState
  rw [closeAfter_frame]
  simp only [stopEffect, hgrad, bump_mem]
  rw [bumps_frame]
  exact writeBlocks_byte_outside fun w hw => h w (mem_of_mem_freeKeep hw)

/-! ## One command -/

theorem cancelCmd_waiting {s : State} {id : Nat} {c : Cmd} (h : s.cmd? id = some c) (hst : c.st = .waiting) :
    s.cancelCmd id = s.finish id (rejCompl Status.rejCancelled) := by
  simp [cancelCmd, h, hst]

theorem cancelCmd_running {s : State} {id : Nat} {c : Cmd} (h : s.cmd? id = some c) (hst : c.st = .running)
    (hend : runsToEnd c.opcode = false) (hop : c.opcode ≠ 0x600 ∨ c.stage = .go) :
    s.cancelCmd id = s.cutShort c Status.fltCancelled := by
  have : (runsToEnd c.opcode || (c.opcode == 0x600 && c.stage != .go)) = false := by
    rcases hop with hop | hop <;> simp [hend, hop]
  simp [cancelCmd, h, hst, this]

/-- A PLAYBOOK_START is left to its playbook once that is accepted. -/
theorem cancelCmd_accepted {s : State} {id : Nat} {c : Cmd} (h : s.cmd? id = some c) (hst : c.st = .running)
    (hop : c.opcode = 0x600) (hstage : c.stage ≠ .go) : s.cancelCmd id = s := by
  simp [cancelCmd, h, hst, hop, hstage]

/-! ## Waiting for others -/

theorem cmd?_endHost_other (s : State) (k : Compl) {id j : Nat} (h : j ≠ id) : (s.endHost id k).cmd? j = s.cmd? j := by
  unfold endHost
  split
  · rfl
  · have hmod : (s.modCmd id (fun x => { x with st := .done { k with cycles := s.cycles.toNat }, stage := .go })).cmd? j
        = s.cmd? j := by
      refine (cmd?_modCmd (id := id)
        (f := fun x => { x with st := .done { k with cycles := s.cycles.toNat }, stage := .go }) (fun _ => rfl) j).trans ?_
      cases hj : s.cmd? j with
      | none => rfl
      | some d => simp [cmd?_id hj, h]
    dsimp only
    split <;> exact hmod

/-- A command that waits for no other any longer completes (R387, R400). -/
def settleAwait (s : State) (c : Cmd) : State :=
  match c.stage with
  | .await [] n => if c.opcode == 0xB02 then s else s.endHost c.id { status := Status.ok, count := n }
  | _ => s

theorem settleAwaits_eq (s : State) : s.settleAwaits = s.cmds.foldl settleAwait s := rfl

theorem settleAwait_go {c : Cmd} (h : c.stage = .go) (s : State) : s.settleAwait c = s := by
  simp [settleAwait, h]

theorem settleAwait_await {c : Cmd} {n : Nat} (h : c.stage = .await [] n) (hop : c.opcode ≠ 0xB02) (s : State) :
    s.settleAwait c = s.endHost c.id { status := Status.ok, count := n } := by
  simp [settleAwait, h, hop]

/-- `settleAwaits` leaves a command alone that waits for no others. -/
theorem settleAwaits_cmd? {s : State} {j : Nat} (h : ∀ c ∈ s.cmds, c.id = j → c.stage = .go) :
    s.settleAwaits.cmd? j = s.cmd? j := by
  have hall : ∀ (l : List Cmd) (t : State), (∀ c ∈ l, c.id = j → c.stage = .go) →
      (l.foldl settleAwait t).cmd? j = t.cmd? j := by
    intro l
    induction l with
    | nil => exact fun _ _ => rfl
    | cons c r ih =>
      intro t hl
      obtain ⟨hc, hr⟩ := List.forall_mem_cons.1 hl
      rw [List.foldl_cons, ih _ hr]
      by_cases hj : c.id = j
      · rw [settleAwait_go (hc hj)]
      · unfold settleAwait
        split
        · split
          · rfl
          · exact cmd?_endHost_other _ _ (Ne.symm hj)
        · rfl
  exact hall _ _ h

theorem setStage_cmd?_other (s : State) (g : Stage) {id j : Nat} (h : j ≠ id) : (s.setStage id g).cmd? j = s.cmd? j := by
  refine (cmd?_modCmd (f := fun c => { c with stage := g }) (fun _ => rfl) j).trans ?_
  cases hj : s.cmd? j with
  | none => rfl
  | some d => simp [cmd?_id hj, h]

theorem awaitAll_cmd? {s : State} {id j : Nat} (ids : List Nat) (n : Nat) (hj : j ≠ id)
    (h : ∀ c ∈ s.cmds, c.id = j → c.stage = .go) : (s.awaitAll id ids n).cmd? j = s.cmd? j := by
  unfold awaitAll
  refine (settleAwaits_cmd? fun c hc hid => ?_).trans (setStage_cmd?_other s _ hj)
  obtain ⟨d, hd, rfl⟩ := List.mem_map.1 hc
  by_cases hdi : d.id = id
  · simp only [hdi, beq_self_eq_true, if_true] at hid
    exact absurd hid.symm hj
  · simp only [beq_iff_eq, hdi, if_false] at hid ⊢
    exact h d hd hid

/-- `settleAwaits` ends the one command that waits for no other any longer. -/
theorem settleAwaits_one {s : State} {id n : Nat} {c : Cmd} (hgo : ∀ k ∈ s.cmds, k.id ≠ id → k.stage = .go)
    (hone : s.cmds.filter (fun k => k.id == id) = [c]) (hstage : c.stage = .await [] n) (hop : c.opcode ≠ 0xB02) :
    s.settleAwaits = s.endHost id { status := Status.ok, count := n } := by
  have hskip : ∀ (l : List Cmd) (t : State), (∀ k ∈ l, k.stage = .go) →
      l.foldl settleAwait t = t := by
    intro l
    induction l with
    | nil => exact fun _ _ => rfl
    | cons k r ih =>
      intro t hl
      obtain ⟨hk, hr⟩ := List.forall_mem_cons.1 hl
      rw [List.foldl_cons, settleAwait_go hk]
      exact ih t hr
  have hmem : c ∈ s.cmds.filter (fun k => k.id == id) := hone ▸ List.mem_singleton_self c
  obtain ⟨hin, hid⟩ := List.mem_filter.1 hmem
  have hid : c.id = id := by simpa using hid
  obtain ⟨l, r, hsplit⟩ := List.append_of_mem hin
  have hothers : ∀ k ∈ l ++ r, k.stage = .go := by
    intro k hk
    refine hgo k (by rw [hsplit]; simp at hk ⊢; tauto) fun hkid => ?_
    rw [hsplit, List.filter_append, List.filter_cons, if_pos (by simp [hid])] at hone
    have hlen := congrArg List.length hone
    simp only [List.length_append, List.length_cons, List.length_nil] at hlen
    have hnil : l.filter (fun k => k.id == id) ++ r.filter (fun k => k.id == id) = [] :=
      List.eq_nil_of_length_eq_zero (by rw [List.length_append]; omega)
    rw [← List.filter_append] at hnil
    exact absurd hkid (by simpa using List.filter_eq_nil_iff.1 hnil k hk)
  rw [settleAwaits_eq, hsplit, List.foldl_append, List.foldl_cons, hskip l s fun k hk => hothers k (List.mem_append_left _ hk),
    hskip r _ fun k hk => hothers k (List.mem_append_right _ hk), settleAwait_await hstage hop, hid]

/-- A CANCEL, or another command that waits for none, completes at once (R400). -/
theorem awaitAll_none {s : State} {id n : Nat} {c : Cmd} (hc : s.cmd? id = some c) (hgo : ∀ k ∈ s.cmds, k.stage = .go)
    (hone : s.cmds.filter (fun k => k.id == id) = [c]) (hop : c.opcode ≠ 0xB02) (hhost : c.isHost = true) :
    Completes s (s.awaitAll id [] n) id { status := Status.ok, count := n } := by
  obtain ⟨q, hsrc⟩ := isHost_src hhost
  have hfind : (s.setStage id (.await [] n)).cmd? id = some { c with stage := .await [] n } := by
    refine (cmd?_modCmd (f := fun c => { c with stage := .await [] n }) (fun _ => rfl) id).trans ?_
    rw [hc, Option.map_some, if_pos (by simpa using cmd?_id hc)]
  have hend : s.awaitAll id [] n = (s.setStage id (.await [] n)).endHost id { status := Status.ok, count := n } := by
    refine settleAwaits_one (c := { c with stage := .await [] n }) (fun k hk hid => ?_) ?_ rfl hop
    · obtain ⟨d, hd, rfl⟩ := List.mem_map.1 hk
      by_cases hdi : d.id = id
      · simp [hdi] at hid
      · simpa [hdi] using hgo d hd
    · have hmap : (s.setStage id (.await [] n)).cmds.filter (fun k => k.id == id)
          = (s.cmds.filter (fun k => k.id == id)).map (fun d => { d with stage := .await [] n }) := by
        simp only [setStage, modCmd_cmds, List.filter_map]
        have hpred : ((fun k : Cmd => k.id == id) ∘ fun d : Cmd => if d.id == id then { d with stage := .await [] n } else d)
            = fun k => k.id == id := by
          funext d
          simp only [Function.comp]
          split <;> rfl
        rw [hpred]
        exact List.map_congr_left fun d hd => if_pos (List.mem_filter.1 hd).2
      exact hmap.trans (by rw [hone]; rfl)
  rw [hend, endHost_host hfind hsrc]
  refine ⟨?_, ?_, fun _ => rfl⟩
  · unfold Ends
    rw [hc]
    simp only [hsrc]
    refine ⟨?_, rfl, rfl, rfl⟩
    simp only [modCq_cmds, modCmd_cmds, setStage, List.map_map]
    refine List.map_congr_left fun d _ => ?_
    by_cases hd : d.id = id <;> simp [hd]
  · exact { pending := rfl, free := le_refl _, mem := rfl, contexts := rfl, clusters := fun _ => SameCluster.refl _
            cores := fun _ _ _ _ => rfl, tiles := rfl, sqs := rfl, nextId := rfl, turn := rfl, drafts := rfl, keeper := rfl
            scout := rfl, ctrs := rfl, memside := rfl, referee := rfl, errors := rfl, cfgLate := rfl, rngSeed := rfl
            cycles := rfl, wall := rfl, hostTx := rfl, fabTx := rfl, smbTx := rfl, fabric := rfl, liust := rfl, save := rfl
            power := rfl }

/-! ## All that MODE selects -/

theorem startedBy_nil (s : State) : s.startedBy [] = [] := by simp [startedBy]

/-- With nothing to cancel nothing happens. -/
theorem cancelAll_none {s : State} {id : Nat} {p : Cmd → Bool}
    (h : s.cmds.filter (fun c => c.id != id && c.cancellable && p c) = []) : s.cancelAll id p = (s, []) := by
  simp [cancelAll, h, startedBy_nil]

/-- The only command to cancel, no PLAYBOOK_START that runs, is cancelled. -/
theorem cancelAll_one {s : State} {id : Nat} {p : Cmd → Bool} {x : Cmd}
    (h : s.cmds.filter (fun c => c.id != id && c.cancellable && p c) = [x]) (hx : x.st = .waiting ∨ x.opcode ≠ 0x600) :
    s.cancelAll id p = (s.cancelCmd x.id, [x.id]) := by
  have hno : (x.isRunning && x.opcode == 0x600) = false := by
    rcases hx with hx | hx
    · simp [Cmd.isRunning, hx]
    · simp [hx]
  simp [cancelAll, h, hno, startedBy_nil]

/-- The only command to cancel is a PLAYBOOK_START whose playbook is accepted: its playbook stops (R227, R400). -/
theorem cancelAll_accepted {s : State} {id : Nat} {p : Cmd → Bool} {x : Cmd} {n : Nat}
    (h : s.cmds.filter (fun c => c.id != id && c.cancellable && p c) = [x]) (hx : s.cmd? x.id = some x) (hst : x.st = .running)
    (hop : x.opcode = 0x600) (hstage : x.stage ≠ .go) (hn : n < 4) (hidle : (s.seq n).st ≠ .idle)
    (hstart : (s.seq n).starter = x.id) (hothers : ∀ m < 4, m ≠ n → (s.seq m).st = .idle ∨ (s.seq m).starter ≠ x.id) :
    s.cancelAll id p = ((s.modSeq n (fun q => { q with cancelled := true })).stopPlaybook n true, [x.id]) := by
  have hstops : s.startedBy [x.id] = [n] := by
    have hmatch : ∀ m ∈ List.range 4,
        ((s.seq m).st != .idle && [x.id].contains (s.seq m).starter) = decide (m = n) := by
      intro m hm
      by_cases hmn : m = n
      · subst hmn
        simp [hidle, hstart]
      · rcases hothers m (List.mem_range.1 hm) hmn with hm | hm <;> simp [hm, hmn]
    rw [startedBy, List.filter_congr hmatch]
    interval_cases n <;> rfl
  have hrun : (x.isRunning && x.opcode == 0x600) = true := by simp [Cmd.isRunning, hst, hop]
  have hleft : (s.modSeq n (fun q => { q with cancelled := true })).cancelCmd x.id
      = s.modSeq n (fun q => { q with cancelled := true }) := cancelCmd_accepted (c := x) hx hst hop hstage
  simp [cancelAll, h, hrun, hstops, hleft]

/-- A playbook with nothing in flight ends as it is stopped (R227). -/
theorem stopPlaybook_idle {s : State} {n : Nat} (hidle : (s.seq n).st ≠ .idle) (hn : n < 4) (b : Bool)
    (hflight : ∀ k ∈ s.cmds, k.ofSeq n = false) (hopen : s.openTables (s.seq n).ctx = []) : s.stopPlaybook n b
    = (s.modSeq n (fun q => { q with st := .stopping, stopNow := true, cancelled := q.cancelled || b })).settleSeq n := by
  obtain ⟨u, hu⟩ : ∃ u, u = s.modSeq n (fun q => { q with st := .stopping, stopNow := true, cancelled := q.cancelled || b }) :=
    ⟨_, rfl⟩
  have hctx : (u.seq n).ctx = (s.seq n).ctx := by rw [hu, seq_modSeq_same _ _ hn]
  have hopen' : u.openTables (u.seq n).ctx = [] := by rw [hctx, hu]; exact hopen
  have hids : u.cmds.filter (fun c => c.ofSeq n || ([] : List Nat).contains c.id) = [] := by
    rw [List.filter_eq_nil_iff]
    intro k hk
    rw [hu] at hk
    simp [hflight k hk]
  unfold stopPlaybook
  rw [if_neg (by simpa using hidle), ← hu]
  simp only [hopen', List.flatMap_nil, hids, retireDrafts]
  rfl

/-- Once its playbook has ended, every command of the number of its PLAYBOOK_START is done, and waits for no other. -/
theorem settleSeq_starter_go {s : State} {n : Nat} (hst : (s.seq n).st = .stopping)
    (hany : s.cmds.any (fun c => c.ofSeq n) = false) {d : Cmd} (hd : s.cmd? (s.seq n).starter = some d) :
    ∀ c ∈ (s.settleSeq n).cmds, c.id = (s.seq n).starter → c.stage = .go := by
  have hcmds : (s.settleSeq n).cmds = (s.endHost (s.seq n).starter ((s.seq n).ending n)).cmds := by
    unfold settleSeq
    dsimp only
    rw [if_pos (by simp [hst, hany])]
    rfl
  intro c hc hid
  rw [hcmds] at hc
  have hmap : (s.endHost (s.seq n).starter ((s.seq n).ending n)).cmds
      = (s.modCmd (s.seq n).starter (fun x => { x with
          st := .done { (s.seq n).ending n with cycles := s.cycles.toNat }, stage := .go })).cmds := by
    unfold endHost
    rw [hd]
    dsimp only
    split <;> rfl
  rw [hmap, modCmd_cmds] at hc
  obtain ⟨x, -, rfl⟩ := List.mem_map.1 hc
  by_cases hx : x.id = (s.seq n).starter
  · simp [hx]
  · simp [hx] at hid

end State

end Sys2Proof.Machine

namespace Sys2Proof

open Machine State

section
variable {s : State} {id : Nat} {c x : Cmd} (hrun : s.running? id 0x020 = some c)
  (hok : worst (s.cancelStart c).rejs = none) (hgo : c.stage = .go)
include hrun hok hgo

theorem exec_cancel : exec (.cancel id) s = .next
    ((s.cancelAll id c.cancels).1.awaitAll id (s.cancelAll id c.cancels).2 (s.cancelAll id c.cancels).2.length) :=
  congrArg Host.Outcome.next ((runChecked_acts hrun hok).trans (by simp [Cmd.atGo, hgo]))

theorem cancel_nothing (hnone : ∀ k ∈ s.cmds, k.id ≠ id → c.cancels k = true → k.placed = false ∨ k.opcode = 0x020
      ∨ (∃ x, k.st = .done x) ∨ (k.st = .running ∧ k.opcode ≠ 0x600 ∧ runsToEnd k.opcode = true))
    (hall : ∀ k ∈ s.cmds, k.stage = .go) (hone : s.cmds.filter (fun k => k.id == id) = [c]) (hhost : c.isHost = true) :
    ∃ t, exec (.cancel id) s = .next t ∧ Completes s t id { status := 0x000 } := by
  obtain ⟨hc, -, hop⟩ := running?_some hrun
  have hhit : s.cmds.filter (fun k => k.id != id && k.cancellable && c.cancels k) = [] := by
    rw [List.filter_eq_nil_iff]
    intro k hk h
    simp only [Bool.and_eq_true, bne_iff_ne, ne_eq] at h
    obtain ⟨⟨hid, hcan⟩, hsel⟩ := h
    rcases hnone k hk hid hsel with h | h | ⟨d, h⟩ | ⟨h, hne, hend⟩ <;>
      simp_all [Cmd.cancellable, Cmd.isWaiting, Cmd.isRunning]
  have hexec := exec_cancel hrun hok hgo
  rw [cancelAll_none hhit] at hexec
  exact ⟨_, hexec, awaitAll_none hc hall hone (by rw [hop]; decide) hhost⟩

variable (hhit : s.cmds.filter (fun k => k.id != id && k.cancellable && c.cancels k) = [x]) (hx : s.cmd? x.id = some x)
include hhit hx

theorem cancel_waiting (hst : x.st = .waiting) : ∃ t u, exec (.cancel id) s = .next t
    ∧ Completes s u x.id { status := 0x108, aux := 0xFFFF } ∧ t = u.awaitAll id [x.id] 1 ∧ t.mem = s.mem := by
  have hexec := exec_cancel hrun hok hgo
  rw [cancelAll_one hhit (.inl hst), cancelCmd_waiting hx hst] at hexec
  have hdone := finish_completes hx (rejCompl Status.rejCancelled)
  refine ⟨_, _, hexec, hdone, rfl, ?_⟩
  rw [awaitAll_frame]
  exact hdone.2.1.mem

theorem cancel_running (hst : x.st = .running) (hop : x.opcode ≠ 0x600) :
    ∃ t u v k, exec (.cancel id) s = .next t ∧ Completes v u x.id k
      ∧ k.status = 0x201 ∧ t = u.awaitAll id [x.id] 1 ∧ v.cmds = s.cmds ∧ v.contexts = s.contexts ∧ v.sqs = s.sqs
      ∧ v.clusters = s.clusters
      ∧ ∀ a, (∀ w ∈ (s.partEffect x).writes, blockOf a ≠ blockOf w.loc ∧ (a < w.loc ∨ w.loc + 64 ≤ a)) →
          t.mem.byte a = s.mem.byte a := by
  have hmem : x ∈ s.cmds.filter (fun k => k.id != id && k.cancellable && c.cancels k) := hhit ▸ List.mem_singleton_self x
  have hend : runsToEnd x.opcode = false := by
    have := (List.mem_filter.1 hmem).2
    simp only [Bool.and_eq_true, Cmd.cancellable, Cmd.isWaiting, Cmd.isRunning, hst] at this
    simpa [hop] using this.1.2.2
  have hexec := exec_cancel hrun hok hgo
  obtain ⟨k, hk, hcut⟩ := s.cutShort_finishes x Status.fltCancelled
  rw [cancelAll_one hhit (.inr hop), cancelCmd_running hx hst hend (.inl hop), hcut] at hexec
  have hframe := s.cutState_frame x
  have hxv : (s.cutState x).cmd? x.id = some x := by rw [hframe]; exact hx
  have hdone := finish_completes hxv k
  refine ⟨_, _, s.cutState x, k, hexec, hdone, hk, rfl, by rw [hframe], by rw [hframe], by rw [hframe], by rw [hframe],
    fun a ha => ?_⟩
  rw [awaitAll_frame]
  exact (congrArg (Mem.byte · a) hdone.2.1.mem).trans (cutState_byte fun w hw => (ha w hw).2)

theorem cancel_accepted {n : Nat} (hst : x.st = .running) (hop : x.opcode = 0x600) (hstage : x.stage ≠ .go) (hn : n < 4)
    (hidle : (s.seq n).st ≠ .idle) (hstart : (s.seq n).starter = x.id)
    (hothers : ∀ m < 4, m ≠ n → (s.seq m).st = .idle ∨ (s.seq m).starter ≠ x.id) :
    exec (.cancel id) s = .next
        (((s.modSeq n (fun q => { q with cancelled := true })).stopPlaybook n true).awaitAll id [x.id] 1)
    ∧ ((∀ k ∈ s.cmds, k.ofSeq n = false) → s.openTables (s.seq n).ctx = [] →
      ∃ t d k, exec (.cancel id) s = .next t ∧ t.cmd? x.id = some d ∧ d.st = .done k ∧ k.status = 0x201
        ∧ (t.seq n).st = .idle ∧ (∀ m, m ≠ n → t.seq m = s.seq m) ∧ t.mem = s.mem) := by
  have hexec := exec_cancel hrun hok hgo
  rw [cancelAll_accepted hhit hx hst hop hstage hn hidle hstart hothers] at hexec
  refine ⟨hexec, fun hflight hopen => ?_⟩
  obtain ⟨w, hw⟩ : ∃ w, w = s.modSeq n (fun q => { q with cancelled := true }) := ⟨_, rfl⟩
  have hwseq : w.seq n = { s.seq n with cancelled := true } := by rw [hw, seq_modSeq_same _ _ hn]
  have hstop : w.stopPlaybook n true = _ :=
    stopPlaybook_idle (by rw [hwseq]; exact hidle) hn true (by rw [hw]; exact hflight) (by rw [hwseq, hw]; exact hopen)
  obtain ⟨u, hu⟩ : ∃ u, u = w.modSeq n (fun q => { q with st := .stopping, stopNow := true, cancelled := q.cancelled || true }) :=
    ⟨_, rfl⟩
  have hseq : u.seq n = { w.seq n with st := .stopping, stopNow := true, cancelled := true } := by
    rw [hu, seq_modSeq_same _ _ hn, Bool.or_true]
  have hany : u.cmds.any (fun k => k.ofSeq n) = false := by
    rw [List.any_eq_false, hu, hw]
    simpa using hflight
  have hstarter : (u.seq n).starter = x.id := by rw [hseq, hwseq]; exact hstart
  have hxu : u.cmd? (u.seq n).starter = some x := by rw [hstarter, hu, hw]; exact hx
  obtain ⟨hended, hsame, hmem, hdone⟩ := settleSeq_ends (s := u) hn (by rw [hseq]) hany
  obtain ⟨d, hd, hdst⟩ := hdone x hxu
  have hgo' := settleSeq_starter_go (by rw [hseq]) hany hxu
  have hne : x.id ≠ id := by
    have hmem : x ∈ s.cmds.filter (fun k => k.id != id && k.cancellable && c.cancels k) := hhit ▸ List.mem_singleton_self x
    have := (List.mem_filter.1 hmem).2
    simp only [Bool.and_eq_true, bne_iff_ne] at this
    exact this.1.1
  rw [hstarter] at hd hgo'
  rw [← hw, hstop, ← hu] at hexec
  refine ⟨_, d, _, hexec, (awaitAll_cmd? _ _ hne hgo').trans hd, hdst, ?_, ?_, fun m hm => ?_, ?_⟩
  · rw [hseq, hwseq]
    simp only [Seq.ending]
    split <;> rfl
  · rw [awaitAll_frame]
    exact hended
  · rw [awaitAll_frame]
    refine (hsame m hm).trans ?_
    rw [hu, seq_modSeq_other _ _ hm, hw, seq_modSeq_other _ _ hm]
  · rw [awaitAll_frame]
    exact hmem.trans (by rw [hu, hw]; rfl)

end

/-- Settles O14: `cancelAll` finds what can be cancelled, and `awaitAll` waits for it. -/
theorem cancelEndsWhatItSelects : Obligations.CancelEndsWhatItSelects := fun _ _ _ hrun hok hgo =>
  ⟨exec_cancel hrun hok hgo, cancel_nothing hrun hok hgo, fun _ hhit hx =>
    ⟨cancel_waiting hrun hok hgo hhit hx, cancel_running hrun hok hgo hhit hx,
      fun _ hst hop hstage _ => cancel_accepted hrun hok hgo hhit hx hst hop hstage⟩⟩

end Sys2Proof

/-! PROOFS. A block write and what reads back (R173, R202), the management port (R374 to R376), and packets that are not taken
(R296, R297). -/

namespace Sys2Proof.Machine

/-! ## Little-endian numbers by bits -/

/-- Bit j of byte i of a list is bit 8 i + j of its number. -/
theorem testBit_leNat (l : List Byte) {i j : Nat} (hj : j < 8) :
    (leNat l).testBit (8 * i + j) = (l.getD i 0#8).getLsbD j := by
  induction l generalizing i with
  | nil => simp [leNat]
  | cons b r ih =>
    have hsplit : leNat (b :: r) = 2 ^ 8 * leNat r + b.toNat := by
      rw [leNat]
      omega
    rw [hsplit, Nat.testBit_two_pow_mul_add _ b.isLt]
    cases i with
    | zero => simp [hj, BitVec.getLsbD]
    | succ i =>
      rw [if_neg (by omega), show 8 * (i + 1) + j - 8 = 8 * i + j by omega, ih]
      simp

theorem getElem_natLe {n i : Nat} (v : Nat) (h : i < (natLe n v).length) : (natLe n v)[i] = BitVec.ofNat 8 (v / 256 ^ i) := by
  induction n generalizing v i with
  | zero => simp [natLe] at h
  | succ n ih =>
    cases i with
    | zero => simp [natLe]
    | succ i =>
      simp only [natLe, List.getElem_cons_succ]
      rw [ih, Nat.div_div_eq_div_mul, Nat.pow_succ']

theorem getLsbD_byteOf (v i : Nat) {j : Nat} (hj : j < 8) : (BitVec.ofNat 8 (v / 256 ^ i)).getLsbD j = v.testBit (8 * i + j) := by
  have hpow : 256 ^ i = 2 ^ (8 * i) := by
    rw [Nat.pow_mul]
  rw [BitVec.getLsbD_ofNat, hpow, Nat.testBit_div_two_pow]
  simp [hj, Nat.add_comm]

theorem testBit_fullMask (k : Nat) : fullMask.testBit k = decide (k < 512) := by
  rw [fullMask, Nat.testBit_two_pow_sub_one]

/-! ## Block writes -/

/-- The 64 bytes that a merge of w leaves: those of w where its mask is set, and else those that stood there. -/
def Mem.merged (m : Mem) (w : BlockWr) : Nat :=
  (leNat (m.bytes w.loc 64) &&& (fullMask ^^^ w.mask)) ||| (w.val &&& w.mask)

theorem Mem.writeBlock_eq {m : Mem} {k : Nat} {w : BlockWr} (h : m.spoils w = false ∨ w.carry = true) :
    m.writeBlock k w
      = (m.setBytes w.loc (natLe 64 (m.merged w))).setPoison w.loc (m.spoils w || (m.poisoned w.loc && !(w.mask == fullMask))) := by
  have : (m.spoils w && !w.carry) = false := by rcases h with h | h <;> simp [h]
  simp only [Mem.writeBlock, this]
  rfl

theorem Mem.writeBlock_poisoned_same {m : Mem} {k : Nat} {w : BlockWr} (h : m.isUndef w.loc = false) :
    (m.writeBlock k w).poisoned w.loc = (m.spoils w || (m.poisoned w.loc && !(w.mask == fullMask))) := by
  unfold Mem.writeBlock
  rw [Mem.setPoison_poisoned_same (by simpa using h)]

theorem Mem.writeBlock_byte_inside {m : Mem} {k i : Nat} {w : BlockWr} (hm : m.wf) (h : m.spoils w = false ∨ w.carry = true)
    (hi : i < 64) (hu : m.isUndef (w.loc + i) = false) :
    (m.writeBlock k w).byte (w.loc + i) = BitVec.ofNat 8 (m.merged w / 256 ^ i) := by
  rw [Mem.writeBlock_eq h, Mem.setPoison_byte, Mem.setBytes_byte_inside hm (by rwa [natLe_length]) hu, getElem_natLe]

theorem Mem.testBit_merged (m : Mem) (w : BlockWr) {i j : Nat} (hi : i < 64) (hj : j < 8) : (m.merged w).testBit (8 * i + j)
    = if w.mask.testBit (8 * i + j) then w.val.testBit (8 * i + j) else (m.byte (w.loc + i)).getLsbD j := by
  have hold : (m.bytes w.loc 64).getD i 0#8 = m.byte (w.loc + i) := by simp [Mem.bytes, hi]
  rw [Mem.merged, Nat.testBit_or, Nat.testBit_and, Nat.testBit_and, Nat.testBit_xor, testBit_leNat _ hj, testBit_fullMask, hold]
  split
  · next h => simp [h, show 8 * i + j < 512 by omega]
  · next h => simp [h, show 8 * i + j < 512 by omega]

/-! ## The management port -/

namespace State

/-- The Referee runs and an address was sampled: the management port is at work (R374). -/
def portOn (s : State) : Prop := s.alive = true ∧ s.referee.state = .running ∧ s.power.slot.isSome = true

theorem onPort_on {s : State} (h : s.portOn) (f : State → State) : s.onPort f = f s := by
  obtain ⟨halive, hrun, hslot⟩ := h
  simp [onPort, halive, hrun, hslot]

theorem onPort_off {s : State} (h : ¬s.portOn) (f : State → State) : s.onPort f = s.sendSmb .nack := by
  refine if_neg fun hall => h ?_
  simp only [Bool.and_eq_true, beq_iff_eq] at hall
  exact ⟨hall.1.1, hall.1.2, hall.2⟩

end State

end Sys2Proof.Machine

namespace Sys2Proof

open Machine State

/-- Settles O44: the bytes of the merge, bit by bit. -/
theorem blockWriteReadsBack : Obligations.BlockWriteReadsBack := by
  intro m free w hm hloc hmask hdef
  have hspoils : m.spoils w = (w.poison || (w.merge && m.poisoned w.loc)) := rfl
  have hblock (x : Nat) : blockOf x = x / 64 * 64 := rfl
  refine ⟨?_, fun x hx => ⟨Mem.writeBlock_byte_outside hx, Mem.writeBlock_poisoned_other ?_⟩, fun hdata i hi => ?_⟩
  · rw [Mem.writeBlock_poisoned_same (hdef _ (by omega)), hspoils]
    have hfull : (w.mask != 2 ^ 512 - 1) = !(w.mask == fullMask) := rfl
    rw [hfull]
    cases w.poison <;> cases w.merge <;> cases m.poisoned w.loc <;> simp
  · rw [hblock, hblock]
    omega
  · have hstores : m.spoils w = false ∨ w.carry = true := by
      rcases hdata with hcarry | ⟨hpoison, hmerge⟩
      · exact .inr hcarry
      · refine .inl ?_
        rw [hspoils, hpoison]
        cases hw : w.merge
        · rfl
        · simp [hmerge hw]
    have hread := Mem.writeBlock_byte_inside (k := free) hm hstores hi (hdef (w.loc + i) (by omega))
    rw [hread]
    refine ⟨fun hset => BitVec.eq_of_getLsbD_eq fun j hj => ?_, fun hclear => BitVec.eq_of_getLsbD_eq fun j hj => ?_⟩
    · rw [getLsbD_byteOf _ _ hj, Mem.testBit_merged _ _ hi hj, if_pos (hset j hj), getLsbD_byteOf _ _ hj]
    · rw [getLsbD_byteOf _ _ hj, Mem.testBit_merged _ _ hi hj, hclear j hj]
      rfl

/-- A row of the management port that only reads does so at the port. -/
theorem portAnswer_exec {s : State} {i : Instr} {a : SmbTx} (h : portAnswer s i = some a) :
    ∃ f : State → State, exec i s = .next (s.onPort f) ∧ f s = s.sendSmb a := by
  unfold portAnswer at h
  split at h <;> cases h
  all_goals exact ⟨_, rfl, rfl⟩

theorem exec_mfrFeedId (s : State) (v : BitVec 16) (pec : Option Byte) : exec (.mfrFeedId (some (v, pec))) s
    = .next (s.onPort fun s => if pec.getD (s.writePec v) == s.writePec v
        then (s.modKeeper (fun k => { k with feedId := v })).sendSmb .ack else s.sendSmb .nack) := rfl

/-- Settles O49: each row is one use of `onPort`. -/
theorem managementPortAnswers : Obligations.ManagementPortAnswers := by
  intro s
  refine ⟨fun i a h => ?_, fun v pec => ?_⟩
  · obtain ⟨f, hexec, hf⟩ := portAnswer_exec h
    rw [hexec]
    exact ⟨fun hon => congrArg Host.Outcome.next ((onPort_on hon f).trans hf),
      fun hoff => congrArg Host.Outcome.next (onPort_off hoff f)⟩
  · rw [exec_mfrFeedId]
    refine ⟨fun hon hpec => ?_, fun hon hbad hsome => ?_, fun hoff => congrArg Host.Outcome.next (onPort_off hoff _)⟩
    · rw [onPort_on hon, if_pos]
      · rfl
      · rcases hpec with rfl | rfl <;> simp
    · rw [onPort_on hon, if_neg]
      · rfl
      · obtain ⟨b, rfl⟩ := Option.ne_none_iff_exists'.1 hsome
        simpa using hbad b rfl

/-- The row of an arrival receives its packet. -/
theorem arrivalOf_exec {i : Instr} {p : Packet} {ty : PktType} (h : arrivalOf i = some (p, ty)) (s : State) :
    ∃ f : State → State, exec i s = .next (s.receive p ty f) := by
  unfold arrivalOf at h
  split at h <;> cases h
  all_goals exact ⟨_, rfl⟩

/-- Settles O23: the tests of `receive`, in their order. -/
theorem badArrivalsAreDiscarded : Obligations.BadArrivalsAreDiscarded := by
  intro i s p ty h hty hon
  obtain ⟨f, hexec⟩ := arrivalOf_exec h s
  rw [hexec]
  have htaken : p.hdr.dst = s.moduleId → (p.type != ty || p.hdr.dst != s.moduleId || !s.fabOn) = false := by
    intro hdst
    simp [hty, hdst, hon]
  refine ⟨fun hdst => ?_, fun hdst hage => ?_, fun hdst hage hbad => ?_⟩ <;> refine congrArg Host.Outcome.next ?_ <;>
    unfold receive
  · rw [if_pos (by simp [hdst])]
  · rw [htaken hdst, if_neg Bool.false_ne_true, if_pos hage]
  · have hwrong : (p.bad || !lenOk p) = true := by rcases hbad with h | h <;> simp [h]
    rw [htaken hdst, if_neg Bool.false_ne_true, if_neg (by omega), if_pos hwrong]

end Sys2Proof

/-! PROOFS. What the end of a command leaves of its sequencer, what a sent packet changes, the loss average (R252), barriers and
the verdicts that they form (R244, R245, R325, R326). -/

namespace Sys2Proof.Machine

/-! ## Shared facts -/

/-- Two states of a sequencer that differ at most in what the end of one of its commands changes. -/
def Seq.EndsAlike (a b : Seq) : Prop :=
  { b with st := a.st, relay := a.relay, loops := a.loops, issues := a.issues, windows := a.windows, failed := a.failed
           lost := a.lost, digest := a.digest } = a

theorem Seq.EndsAlike.trans {a b c : Seq} (h : a.EndsAlike b) (h' : b.EndsAlike c) : a.EndsAlike c := by
  unfold Seq.EndsAlike at h h' ⊢
  rw [← h'] at h
  exact h

theorem Seq.EndsAlike.ewma_eq {a b : Seq} (h : a.EndsAlike b) : b.ewma = a.ewma := by
  unfold Seq.EndsAlike at h
  exact (congrArg Seq.ewma h :)

theorem Seq.EndsAlike.scale_eq {a b : Seq} (h : a.EndsAlike b) : b.scale = a.scale := by
  unfold Seq.EndsAlike at h
  exact (congrArg Seq.scale h :)

theorem Seq.EndsAlike.cleanRun_eq {a b : Seq} (h : a.EndsAlike b) : b.cleanRun = a.cleanRun := by
  unfold Seq.EndsAlike at h
  exact (congrArg Seq.cleanRun h :)


namespace State

theorem settleSeq_endsAlike (s : State) {n : Nat} (hn : n < 4) : (s.seq n).EndsAlike ((s.settleSeq n).seq n) := by
  rcases settleSeq_cases s hn with ⟨-, -, hseq, -⟩ | ⟨-, heq⟩
  · rw [hseq]
    rfl
  · rw [heq]
    rfl

theorem endEntry_endsAlike (s : State) (c : Cmd) {n : Nat} (entry : Nat) (step : Word32) (k : Compl) (hn : n < 4) :
    (s.seq n).EndsAlike ((s.endEntry c n entry step k).seq n) := by
  unfold endEntry
  dsimp only
  refine Seq.EndsAlike.trans ?_ (settleSeq_endsAlike _ hn)
  rw [(retire_frame ..).1]
  show (s.seq n).EndsAlike ((s.modSeq n _).seq n)
  rw [seq_modSeq_same _ _ hn]
  repeat' split
  all_goals rfl

/-- The end of a command leaves the rest of every sequencer: its rings, its loss scale and average, its seed. -/
theorem finish_endsAlike (s : State) (id : Nat) (k : Compl) {n : Nat} (hn : n < 4) :
    (s.seq n).EndsAlike ((s.finish id k).seq n) := by
  cases hc : s.cmd? id with
  | none => rw [finish_of_none hc]; rfl
  | some c =>
    obtain ⟨u, -, -, -, hseqs, -, -, hfin⟩ := finish_settles hc k
    have hu : u.seq n = s.seq n := by unfold seq; rw [hseqs]
    rw [hfin, ← hu]
    cases c.src with
    | host q =>
      dsimp only
      rw [endHost_frame]
      rfl
    | seq m entry step ph =>
      by_cases hm : n = m
      · subst hm
        exact endEntry_endsAlike u c entry step _ hn
      · obtain ⟨-, -, hother⟩ := endEntry_frame u c m entry step { k with cycles := s.cycles.toNat }
        exact (hother n hm) ▸ rfl

theorem finish_mem (s : State) (id : Nat) (k : Compl) : (s.finish id k).mem = s.mem := by
  cases hc : s.cmd? id with
  | none => rw [finish_of_none hc]
  | some c => exact (finish_completes hc k).2.1.mem

theorem finish_ctr (s : State) (id : Nat) (k : Compl) : (s.finish id k).ctrs = s.ctrs := by
  cases hc : s.cmd? id with
  | none => rw [finish_of_none hc]
  | some c => exact (finish_completes hc k).2.1.ctrs

/-- What the fabric holds for a command that ends goes with it. -/
theorem finish_fabric (s : State) {id : Nat} {k : Compl} {c : Cmd} (hc : s.cmd? id = some c) :
    (s.finish id k).fabric = { s.fabric with
      queued := (s.finish id k).fabric.queued
      colls := s.fabric.colls.filter (fun x => x.id != id)
      remotes := s.fabric.remotes.filter (fun r => r.id != id)
      backlog := s.fabric.backlog.filter (fun b => b.1 != id) } := by
  unfold finish
  rw [hc]
  dsimp only
  have hslots := poisonSlots_frame s c k.status
  have hleft : (if c.isRunning then ((s.poisonSlots c k.status).releaseScratch c).leaveCores id
      else s.poisonSlots c k.status).fabric = s.fabric := by
    split
    · rw [(leaveCores_frame _ id).1]
      show (s.poisonSlots c k.status).fabric = s.fabric
      rw [hslots]
    · rw [hslots]
  rw [hleft]
  cases c.src with
  | host q =>
    dsimp only
    rw [endHost_frame]
  | seq n entry step ph =>
    dsimp only
    rw [(endEntry_frame ..).1]

theorem finish_colls (s : State) {id : Nat} {k : Compl} {c : Cmd} (hc : s.cmd? id = some c) :
    (s.finish id k).fabric.colls = s.fabric.colls.filter (fun x => x.id != id) := by
  rw [finish_fabric s hc]

/-- A packet goes out, waits, or is discarded and counted, also by the open windows of the sequencers. -/
theorem inject_frame (s : State) (p : Packet) : s.inject p = { s with
    free := (s.inject p).free, ctrs := (s.inject p).ctrs, seqs := (s.inject p).seqs, fabTx := (s.inject p).fabTx
    fabric := { s.fabric with queued := (s.inject p).fabric.queued } } := by
  unfold inject
  dsimp only
  split
  · rfl
  · unfold transmit chooseRoute
    dsimp only
    generalize State.route _ _ _ _ = r
    cases r <;> rfl

/-- A packet of the right type for this module, in its lifetime and whole, is taken. -/
theorem receive_arrives {s : State} {p : Packet} {ty : PktType} (h : Arrives s p ty) (f : State → State) :
    s.receive p ty f = f s := by
  obtain ⟨hty, hdst, hon, hage, hbad, hlen⟩ := h
  simp [receive, hty, hdst, hon, hage, hbad, hlen]

theorem setStage_cmd? {s : State} {id : Nat} {c : Cmd} (h : s.cmd? id = some c) (g : Stage) :
    (s.setStage id g).cmd? id = some { c with stage := g } := by
  refine (cmd?_modCmd (f := fun c => { c with stage := g }) (fun _ => rfl) id).trans ?_
  rw [h, Option.map_some, if_pos (by simpa using cmd?_id h)]

end State

/-! ## The loss average -/

theorem spikeTest_nonFinite {cfg : Nat} {l e : Word32} (h : (ofF32 l).nonFinite = true) : spikeTest cfg l e = (e, false) :=
  if_pos h

theorem spikeTest_first {cfg : Nat} {l e : Word32} (h : (ofF32 l).nonFinite = false) (he : (ofF32 e).isNan = true) :
    spikeTest cfg l e = (l, false) := by
  simp [spikeTest, h, he]

theorem spikeTest_next {cfg : Nat} {l e : Word32} (h : (ofF32 l).nonFinite = false) (he : (ofF32 e).isNan = false) :
    spikeTest cfg l e = (fadd e (fmul 0x3C800000#32 (fsub l e)),
      bit cfg 2 && (ofF32 (fmul e (fadd f32One (spikeThr cfg)))).lt (ofF32 l)) := by
  simp [spikeTest, h, he]

/-- A run of clean steps that is complete doubles the scale and starts again (R244). -/
theorem afterVerdict_grows {cfg : Nat} {scale clean : Word32} (h : bits cfg 15 4 ≠ 0)
    (hfull : (clean + 1#32).toNat = bits cfg 15 4) :
    afterVerdict cfg false scale clean = (fmin (fmul scale 0x40000000#32) (pow2F32 (scaleMaxExp cfg)), 0#32) := by
  unfold afterVerdict
  rw [if_neg Bool.false_ne_true]
  dsimp only
  rw [if_pos (by simp [h, hfull])]

theorem afterVerdict_counts {cfg : Nat} {scale clean : Word32}
    (h : bits cfg 15 4 = 0 ∨ (clean + 1#32).toNat ≠ bits cfg 15 4) :
    afterVerdict cfg false scale clean = (scale, clean + 1#32) := by
  unfold afterVerdict
  rw [if_neg Bool.false_ne_true]
  dsimp only
  refine if_neg ?_
  rcases h with h | h <;> simp only [h, bne_self_eq_false, Bool.false_and, Bool.false_eq_true, not_false_eq_true,
    Bool.and_eq_true, beq_iff_eq, and_false]

namespace State

theorem noteSpike_ctr (s : State) : s.noteSpike.ctr .lossSpike = satAdd (s.ctr .lossSpike) 1 := s.ctr_bump_same .lossSpike 1

theorem noteSpike_ewma (s : State) (n : Nat) : (s.noteSpike.seq n).ewma = (s.seq n).ewma := by
  have h := s.seq_bump .lossSpike 1 n
  unfold Seq.SameButCounts at h
  exact (congrArg Seq.ewma h :)

/-- What PB_LOSS leaves, by the test of its loss. -/
theorem pbLoss_leaves {s : State} {id : Nat} {c : Cmd} {o : Operand} (hrun : s.running? id 0x645 = some c)
    (hop : c.op? 0 = some o) (hn : c.seqNum < 4) :
    let r := spikeTest (leNat c.held) (o.lin s.mem 0 0).f32 (s.seq c.seqNum).ewma
    ((s.doPbLoss id).seq c.seqNum).ewma = r.1
    ∧ (r.2 = true → (s.doPbLoss id).ctr .lossSpike = satAdd (s.ctr .lossSpike) 1) ∧ (s.doPbLoss id).mem = s.mem := by
  intro r
  obtain ⟨hc, -, -⟩ := running?_some hrun
  have hop' : (s.cmd? id).bind (fun c => c.op? 0) = some o := by rw [hc]; exact hop
  unfold doPbLoss
  rw [hrun, hop']
  dsimp only
  refine ⟨?_, fun hspike => ?_, ?_⟩
  · refine (finish_endsAlike _ _ _ hn).ewma_eq.trans ?_
    split
    · refine (noteSpike_ewma _ _).trans ?_
      rw [seq_modSeq_same _ _ hn]
    · rw [seq_modSeq_same _ _ hn]
  · unfold ctr
    rw [finish_ctr, if_pos hspike]
    exact noteSpike_ctr _
  · rw [finish_mem]
    split <;> rfl

/-! ## The verdict -/

/-- The state before the command that formed a verdict ends: NO_BALL_STEPS, the record, the loss scale and the clean run. -/
def verdictFormed (s : State) (c : Cmd) (localNf : Bool) (r : Barrier) : State :=
  let n := c.seqNum
  let q := s.seq n
  let next := afterVerdict (leNat c.held) r.or q.scale q.cleanRun
  ((if r.or then s.noteNoBall else s).writeVerdict q.verdictAddr (verdictBytes true r.or localNf (r.absent != 0) r.members
    ((c.step?.map (fun (x : Word32) => x.toNat)).getD 0) next.2.toNat next.1 (frecip q.scale))).modSeq n (fun q => { q with
    scale := next.1, cleanRun := next.2
    windows := q.windows.map (fun (w : Window) =>
      if some w.step == c.step? then
        { w with noBall := r.or, degraded := r.absent != 0, members := r.members, scale := q.scale, verdict := true }
      else w) })

theorem formVerdict_eq (s : State) (c : Cmd) (localNf : Bool) (r : Barrier) :
    s.formVerdict c localNf r = (s.verdictFormed c localNf r).finish c.id (plainCompl Status.ok) := rfl

section
variable (s : State) (c : Cmd) (localNf : Bool) (r : Barrier)

theorem verdictFormed_cmds : (s.verdictFormed c localNf r).cmds = s.cmds := by
  unfold verdictFormed writeVerdict
  rw [modSeq_cmds, writeBlocks_frame]
  show (if r.or then s.noteNoBall else s).cmds = s.cmds
  split <;> rfl

theorem verdictFormed_ctr : (s.verdictFormed c localNf r).ctrs = if r.or then (s.bump .noBallSteps).ctrs else s.ctrs := by
  unfold verdictFormed writeVerdict
  rw [modSeq_ctrs, writeBlocks_frame]
  show (if r.or then s.noteNoBall else s).ctrs = _
  split <;> rfl

theorem verdictFormed_seq (hn : c.seqNum < 4) :
    (((s.verdictFormed c localNf r).seq c.seqNum).scale, ((s.verdictFormed c localNf r).seq c.seqNum).cleanRun)
      = afterVerdict (leNat c.held) r.or (s.seq c.seqNum).scale (s.seq c.seqNum).cleanRun := by
  unfold verdictFormed
  dsimp only
  rw [seq_modSeq_same _ _ hn]

end

/-! ## A barrier -/

/-- The group of a barrier keeps its result (R326). -/
def keepResult (s : State) (k : Coll) (r : Barrier) : State := s.modGroup k.group (fun g => { g with held := [(k.seq, k.flag, r)] })

/-- The state before a COLL_BARRIER_OR ends: its result is kept, and stored as a word. -/
def resultStored (s : State) (k : Coll) (c : Cmd) (r : Barrier) : State :=
  (s.keepResult k r).writeBlock { loc := c.param 8 8, mask := low 64, val := r.word }

section
variable {s : State} {id : Nat} {k : Coll} {c : Cmd} (hk : s.coll? id = some k) (hc : s.cmd? id = some c)
include hk hc

theorem takeBarrier_or (hop : c.opcode = 0x505) (r : Barrier) : s.takeBarrier id r
    = (s.resultStored k c r).finish id { status := 0x000, count := r.absent, aux := k.seq, absent := r.absent != 0,
                                         poison := c.part.poison, poisonIn := c.part.poisonIn, poisonOut := c.part.poisonOut } := by
  have hstored : (s.resultStored k c r).cmd? id = some c := by
    unfold cmd? resultStored
    rw [writeBlock_cmds]
    exact hc
  have hdef : s.takeBarrier id r = (s.resultStored k c r).finishPart id (collCompl r.absent k.seq) := by
    unfold takeBarrier
    rw [hk, hc]
    dsimp only
    rw [hop]
    rfl
  rw [hdef, finishPart_of_cmd? _ hstored]
  rfl

theorem takeBarrier_verdict (hop : c.opcode = 0x646) (r : Barrier) :
    s.takeBarrier id r = (s.keepResult k r).formVerdict c k.flag r := by
  unfold takeBarrier
  rw [hk, hc]
  dsimp only
  rw [hop]
  rfl

end

theorem resultStored_mem {s : State} {k : Coll} {c : Cmd} {r : Barrier} (h : s.retryPending (c.param 8 8) = false) :
    (s.resultStored k c r).mem = s.mem.writeBlock s.free { loc := c.param 8 8, mask := 2 ^ 64 - 1, val := r.word } := by
  unfold resultStored
  have hlands := writeBlock_lands (s := s.keepResult k r) { loc := c.param 8 8, mask := low 64, val := r.word } h
  rw [hlands]
  rfl

/-- A member alone in its group leads every barrier there. -/
theorem leader_of_alone {s : State} {g : Group} {k : Coll} (h : AloneIn s g) (hm : k.members = g.members)
    (ha : k.absent = s.absentRanks g) : k.leader = s.collRank k ∧ (List.range k.g).filter k.present = [s.collRank k] := by
  obtain ⟨hme, hothers⟩ := h
  have hrank : s.collRank k = rankIn g.members s.moduleId := by unfold collRank; rw [hm]
  have hg : k.g = g.members.length := by unfold Coll.g; rw [hm]
  have hpresent : ∀ r ∈ List.range k.g, k.present r = (r == s.collRank k) := by
    intro r hr
    unfold Coll.present
    rw [ha, hothers r (by simpa [hg] using hr), hrank, bne, Bool.not_not]
  have hfilter : (List.range k.g).filter k.present = [s.collRank k] := by
    rw [List.filter_congr hpresent, hrank, hg]
    rw [List.filter_beq, List.count_eq_one_of_mem List.nodup_range (List.mem_range.2 hme)]
    rfl
  refine ⟨?_, hfilter⟩
  unfold Coll.leader
  rw [← List.head?_filter, hfilter]
  rfl

theorem coll?_finish {s : State} {id : Nat} {c : Cmd} (hc : s.cmd? id = some c) (k : Compl) : (s.finish id k).coll? id = none := by
  unfold coll?
  rw [finish_colls s hc, List.find?_eq_none]
  intro x hx
  simpa using (List.mem_filter.1 hx).2

/-- The barrier of a command ends with it. -/
theorem coll?_takeBarrier {s : State} {id : Nat} {k : Coll} {c : Cmd} (hk : s.coll? id = some k) (hc : s.cmd? id = some c)
    (hop : c.opcode = 0x505 ∨ c.opcode = 0x646) (r : Barrier) : (s.takeBarrier id r).coll? id = none := by
  rcases hop with hop | hop
  · rw [takeBarrier_or hk hc hop]
    refine coll?_finish (c := c) ?_ _
    unfold cmd? resultStored
    rw [writeBlock_cmds]
    exact hc
  · rw [takeBarrier_verdict hk hc hop, formVerdict_eq, cmd?_id hc]
    refine coll?_finish (c := c) ?_ _
    unfold cmd?
    rw [verdictFormed_cmds]
    exact hc

/-- The barrier of a command that starts. -/
def barrierOf (s : State) (c : Cmd) (g : Group) (flag : Bool) : Coll :=
  { s.newColl c g 5 flag with src := none, dst := none, staging := none, order := false, mean := false }

/-- The state in which the barrier of a command is recorded. -/
def barrierSet (s : State) (c : Cmd) (k : Coll) : State :=
  (s.setStage c.id .barrier).modFabric (fun f => { f with colls := f.colls ++ [k] })

theorem runBarrier_eq {s : State} {c : Cmd} {group : Nat} {g : Group} (hg : s.group? group = some g) (flag : Bool) :
    s.runBarrier c group flag = ((s.barrierSet c (s.barrierOf c g flag)).sendFlag c.id).takeEarly c.id := by
  unfold runBarrier
  rw [hg]
  rfl

theorem coll?_append {s : State} {k : Coll} {id : Nat} (hothers : ∀ x ∈ s.fabric.colls, x.id ≠ id) (hk : k.id = id) {t : State}
    (ht : t.fabric.colls = s.fabric.colls ++ [k]) : t.coll? id = some k := by
  unfold coll?
  rw [ht, List.find?_append, List.find?_eq_none.2 (by simpa using hothers)]
  simp [hk]

/-- A packet that came early finds no collective that has ended. -/
theorem takeEarly_ended {s : State} {id : Nat} (h : s.coll? id = none) : s.takeEarly id = s := by simp [takeEarly, h]

theorem takeEarly_none {s : State} (h : s.fabric.early = []) (id : Nat) : s.takeEarly id = s := by
  have hsame : ∀ k : Coll, s.modFabric (fun f => { f with early := f.early.filter (fun p => !(p.hdr.group == k.group
      && p.hdr.seq == k.seq)) }) = s := by
    intro k
    unfold modFabric
    dsimp only
    rw [h]
    show { s with fabric := { s.fabric with early := [] } } = s
    rw [← h]
  unfold takeEarly
  cases s.coll? id with
  | none => rfl
  | some k =>
    dsimp only
    rw [hsame k, h]
    rfl

theorem coll?_modColl {s : State} {id : Nat} {k : Coll} (hk : s.coll? id = some k) {f : Coll → Coll} (hf : ∀ x, (f x).id = x.id) :
    (s.modColl id f).coll? id = some (f k) := by
  have hkid : k.id = id := by simpa using List.find?_some hk
  have hpred : ((fun x : Coll => x.id == id) ∘ fun x : Coll => if x.id == id then f x else x) = fun x => x.id == id := by
    funext x
    by_cases hx : x.id = id <;> simp [hx, hf]
  unfold coll? modColl
  rw [modFabric_fabric, List.find?_map, hpred]
  unfold coll? at hk
  rw [hk, Option.map_some, if_pos (by simpa using hkid)]

/-- The collective with a member's flag recorded. -/
def withFlag (r : Nat) (flag : Bool) (k : Coll) : Coll :=
  { k with flags := k.flags.filter (fun f => f.1 != r) ++ [(r, flag, none)] }

/-- The state in which a member's flag is recorded. -/
def flagNoted (s : State) (id r : Nat) (flag : Bool) : State := s.modColl id (withFlag r flag)

/-- On the leader whose members are all in, the barrier ends with its own flag. -/
theorem sendFlag_alone {s : State} {id : Nat} {k : Coll} (hk : s.coll? id = some k) (hkind : k.kind = 5)
    (hflags : k.flags = []) (hlead : k.leader = s.collRank k) (hranks : (List.range k.g).filter k.present = [s.collRank k]) :
    (s.flagNoted id (s.collRank k) k.flag).coll? id = some { k with flags := [(s.collRank k, k.flag, none)] }
    ∧ s.sendFlag id = (s.flagNoted id (s.collRank k) k.flag).takeBarrier id { or := k.flag, members := 1, absent := k.g - 1 } := by
  have hnoted : (s.flagNoted id (s.collRank k) k.flag).coll? id = some { k with flags := [(s.collRank k, k.flag, none)] } := by
    unfold flagNoted
    rw [coll?_modColl (f := withFlag _ _) hk (fun _ => rfl), withFlag, hflags]
    rfl
  refine ⟨hnoted, ?_⟩
  have hsend : s.sendFlag id = (s.flagNoted id (s.collRank k) k.flag).settleBarrier id := by
    unfold sendFlag
    rw [hk]
    dsimp only
    rw [if_pos (by simpa using hlead)]
    rfl
  have hrank : (s.flagNoted id (s.collRank k) k.flag).collRank { k with flags := [(s.collRank k, k.flag, none)] }
      = s.collRank k := rfl
  have hlead' : Coll.leader { k with flags := [(s.collRank k, k.flag, none)] } = s.collRank k := hlead
  have hranks' : (List.range (Coll.g { k with flags := [(s.collRank k, k.flag, none)] })).filter
      (Coll.present { k with flags := [(s.collRank k, k.flag, none)] }) = [s.collRank k] := hranks
  rw [hsend]
  unfold settleBarrier
  rw [hnoted]
  dsimp only
  rw [hrank, hlead', hranks', if_neg (by simp [hkind])]
  simp [Coll.g]

end State

end Sys2Proof.Machine

namespace Sys2Proof

open Machine State

/-- Settles O22: the three cases of `spikeTest`. -/
theorem lossMovesItsAverage : Obligations.LossMovesItsAverage := by
  intro s id c o hrun hop hn n l e cfg
  obtain ⟨hewma, hspike, hmem⟩ := pbLoss_leaves hrun hop hn
  refine ⟨s.doPbLoss id, rfl, fun hnf => ?_, fun hnf he => ?_, fun hnf he => ?_, fun hnf he hen hlt => hspike ?_, hmem⟩
  · exact hewma.trans (congrArg Prod.fst (spikeTest_nonFinite hnf))
  · exact hewma.trans (congrArg Prod.fst (spikeTest_first hnf he))
  · exact hewma.trans (congrArg Prod.fst (spikeTest_next hnf he))
  · rw [spikeTest_next hnf he]
    exact Bool.and_eq_true_iff.2 ⟨hen, hlt⟩

section
variable {s : State} {p : Packet} {k : Coll} {c : Cmd} (harr : Arrives s p .barrierResult) (hof : s.collOf p = some k)
  (hkind : k.kind = 5) (hk : s.coll? k.id = some k) (hc : s.cmd? k.id = some c)
include harr hof hkind hk hc

omit hk hc in
theorem exec_barrierResult : exec (.barrierResult p) s = .next (s.takeBarrier k.id (Barrier.ofNat (leNat p.payload))) := by
  refine congrArg Host.Outcome.next ((receive_arrives harr _).trans ?_)
  rw [hof]
  simp [hkind]

theorem barrierResult_verdict (hop : c.opcode = 0x646) : exec (.barrierResult p) s
    = .next (((s.keepResult k (Barrier.ofNat (leNat p.payload))).verdictFormed c k.flag
        (Barrier.ofNat (leNat p.payload))).finish c.id (plainCompl Status.ok)) := by
  rw [exec_barrierResult harr hof hkind, takeBarrier_verdict hk hc hop, formVerdict_eq]

end

/-- Settles O32: `afterVerdict` by its cases. -/
theorem verdictMovesTheLossScale : Obligations.VerdictMovesTheLossScale := by
  intro s p k c harr hof hkind hk hc hop hn n q r cfg
  have hend := finish_endsAlike ((s.keepResult k r).verdictFormed c k.flag r) c.id (plainCompl Status.ok) hn
  obtain ⟨hscale, hclean⟩ := Prod.mk.inj (verdictFormed_seq (s.keepResult k r) c k.flag r hn)
  replace hscale := hend.scale_eq.trans hscale
  replace hclean := hend.cleanRun_eq.trans hclean
  have hctrs : (((s.keepResult k r).verdictFormed c k.flag r).finish c.id (plainCompl Status.ok)).ctrs
      = if r.or then (s.bump .noBallSteps).ctrs else s.ctrs :=
    (finish_ctr _ _ _).trans (verdictFormed_ctr _ _ _ _)
  have hq : (s.keepResult k r).seq c.seqNum = q := rfl
  rw [hq] at hscale hclean
  refine ⟨_, barrierResult_verdict harr hof hkind hk hc hop, fun hor => ?_, fun hor => ?_⟩
  · rw [hor] at hscale hclean hctrs
    refine ⟨hclean, ?_, hscale⟩
    unfold ctr
    rw [hctrs]
    exact s.ctr_bump_same .noBallSteps 1
  · rw [hor] at hscale hclean hctrs
    refine ⟨hctrs, fun hgrow hfull => ?_, fun hno => ?_⟩
    · have hafter := afterVerdict_grows (scale := q.scale) hgrow hfull
      exact ⟨hclean.trans (congrArg Prod.snd hafter), hscale.trans (congrArg Prod.fst hafter)⟩
    · have hafter := afterVerdict_counts (scale := q.scale) hno
      exact ⟨hclean.trans (congrArg Prod.snd hafter), hscale.trans (congrArg Prod.fst hafter)⟩

section
variable {s : State} {id : Nat} {c : Cmd} {g : Group}

/-- A barrier whose group this module is alone in takes its own flag as its result, as it starts (R318, R326). -/
theorem runBarrier_leads {group : Nat} {flag : Bool} (halone : AloneIn s g) (hcolls : ∀ k ∈ s.fabric.colls, k.id ≠ id)
    (hc : s.cmd? id = some c) (hg : s.group? group = some g) :
    ∃ (v : State) (k : Coll), v.coll? id = some k ∧ v.cmd? id = some { c with stage := .barrier } ∧ k.flag = flag
      ∧ k.seq = c.seqNo.getD 0 ∧ v = { s with cmds := v.cmds, fabric := v.fabric }
      ∧ s.runBarrier c group flag
        = (v.takeBarrier id { or := flag, members := 1, absent := g.members.length - 1 }).takeEarly id := by
  obtain rfl := cmd?_id hc
  obtain ⟨k, hkdef⟩ : ∃ k, k = s.barrierOf c g flag := ⟨_, rfl⟩
  have hkid : k.id = c.id := by rw [hkdef]; rfl
  have hset : (s.barrierSet c k).coll? c.id = some k := coll?_append hcolls hkid rfl
  have hkind : k.kind = 5 := by rw [hkdef]; rfl
  have hflags : k.flags = [] := by rw [hkdef]; rfl
  have hflag : k.flag = flag := by rw [hkdef]; rfl
  have hseq : k.seq = c.seqNo.getD 0 := by rw [hkdef]; rfl
  have hmembers : k.members = g.members := by rw [hkdef]; rfl
  have habsent : k.absent = s.absentRanks g := by rw [hkdef]; rfl
  have hcv : ((s.barrierSet c k).flagNoted c.id (s.collRank k) k.flag).cmd? c.id = some { c with stage := .barrier } :=
    setStage_cmd? hc .barrier
  obtain ⟨hlead, hranks⟩ := leader_of_alone halone hmembers habsent
  obtain ⟨hnoted, hsend⟩ := sendFlag_alone hset hkind hflags hlead hranks
  refine ⟨_, _, hnoted, hcv, hflag, hseq, rfl, ?_⟩
  rw [runBarrier_eq hg, ← hkdef, hsend, hflag]
  have hg' : k.g = g.members.length := by unfold Coll.g; rw [hmembers]
  rw [hg']

/-- Where nothing more than its result keeps the barrier, it ends as it starts. -/
theorem runBarrier_alone {group : Nat} {flag : Bool} (halone : AloneIn s g) (hcolls : ∀ k ∈ s.fabric.colls, k.id ≠ id)
    (hc : s.cmd? id = some c) (hg : s.group? group = some g)
    (hop : c.opcode = 0x505 ∨ c.opcode = 0x646) :
    ∃ (v : State) (k : Coll), v.coll? id = some k ∧ v.cmd? id = some { c with stage := .barrier } ∧ k.flag = flag
      ∧ k.seq = c.seqNo.getD 0 ∧ v.mem = s.mem ∧ v.free = s.free ∧ v.memside = s.memside ∧ v.seqs = s.seqs
      ∧ s.runBarrier c group flag
        = v.takeBarrier id { or := flag, members := 1, absent := g.members.length - 1 } := by
  obtain ⟨v, k, hk, hcv, hflag, hseq, hframe, hends⟩ := runBarrier_leads (flag := flag) halone hcolls hc hg
  refine ⟨v, k, hk, hcv, hflag, hseq, ?_, ?_, ?_, ?_, hends.trans (takeEarly_ended (coll?_takeBarrier hk hcv hop _))⟩ <;>
    rw [hframe]

theorem exec_collBarrierOr (hrun : s.running? id 0x505 = some c) (hgo : c.stage = .go) :
    exec (.collBarrierOr id) s = .next (s.runBarrier c c.groupParam (bit c.gctrl 30)) := by
  refine congrArg Host.Outcome.next ?_
  rw [hrun]
  exact if_pos (by simp [hgo])

theorem exec_pbVerdict (hrun : s.running? id 0x646 = some c) (hgo : c.stage = .go) :
    exec (.pbVerdict id) s = .next (s.runBarrier c (bits (c.param 0 4) 15 0) (s.stepNf c.src)) := by
  refine congrArg Host.Outcome.next ?_
  rw [hrun]
  exact if_pos (by simp [hgo])

theorem barrierOr_alone (halone : AloneIn s g) (hcolls : ∀ k ∈ s.fabric.colls, k.id ≠ id) (hgo : c.stage = .go)
    (hrun : s.running? id 0x505 = some c) (hg : s.group? c.groupParam = some g) :
    ∃ t u, exec (.collBarrierOr id) s = .next t
      ∧ Completes u t id { status := 0x000, count := g.members.length - 1, aux := c.seqNo.getD 0
                           absent := g.members.length - 1 != 0
                           poison := c.part.poison, poisonIn := c.part.poisonIn, poisonOut := c.part.poisonOut }
      ∧ (s.retryPending (c.param 8 8) = false → u.mem = s.mem.writeBlock s.free
          { loc := c.param 8 8, mask := 2 ^ 64 - 1
            val := Barrier.word { or := bit c.gctrl 30, members := 1, absent := g.members.length - 1 } }) := by
  obtain ⟨hc, -, hop⟩ := running?_some hrun
  obtain ⟨v, k, hk, hcv, -, hseq, hmem, hfree, hside, -, hends⟩ :=
    runBarrier_alone (flag := bit c.gctrl 30) halone hcolls hc hg (.inl hop)
  have hdone := takeBarrier_or hk hcv hop { or := bit c.gctrl 30, members := 1, absent := g.members.length - 1 }
  rw [hseq] at hdone
  refine ⟨_, v.resultStored k { c with stage := .barrier } { or := bit c.gctrl 30, members := 1, absent := g.members.length - 1 },
    exec_collBarrierOr hrun hgo, ?_, fun hretry => ?_⟩
  · rw [hends, hdone]
    refine finish_completes (c := { c with stage := .barrier }) ?_ _
    unfold cmd? resultStored
    rw [writeBlock_cmds]
    exact hcv
  · rw [resultStored_mem (by unfold retryPending at hretry ⊢; rw [hside]; exact hretry), hmem, hfree]
    rfl

theorem pbVerdict_alone (halone : AloneIn s g) (hcolls : ∀ k ∈ s.fabric.colls, k.id ≠ id) (hgo : c.stage = .go)
    (hrun : s.running? id 0x646 = some c) (hg : s.group? (bits (c.param 0 4) 15 0) = some g) (hn : c.seqNum < 4) :
    ∃ t u, exec (.pbVerdict id) s = .next t ∧ Completes u t id { status := 0x000 }
      ∧ ((u.seq c.seqNum).scale, (u.seq c.seqNum).cleanRun)
        = afterVerdict (leNat c.held) (s.stepNf c.src) (s.seq c.seqNum).scale (s.seq c.seqNum).cleanRun := by
  obtain ⟨hc, -, hop⟩ := running?_some hrun
  obtain ⟨v, k, hk, hcv, hflag, -, -, -, -, hseqs, hends⟩ :=
    runBarrier_alone (flag := s.stepNf c.src) halone hcolls hc hg (.inr hop)
  obtain rfl := cmd?_id hc
  have hdone := takeBarrier_verdict hk hcv hop { or := s.stepNf c.src, members := 1, absent := g.members.length - 1 }
  rw [formVerdict_eq] at hdone
  refine ⟨_, _, exec_pbVerdict hrun hgo, ?_,
    (verdictFormed_seq (v.keepResult k { or := s.stepNf c.src, members := 1, absent := g.members.length - 1 })
      { c with stage := .barrier } k.flag { or := s.stepNf c.src, members := 1, absent := g.members.length - 1 } hn).trans ?_⟩
  · rw [hends, hdone]
    refine finish_completes (c := { c with stage := .barrier }) ?_ _
    unfold cmd?
    rw [verdictFormed_cmds]
    exact hcv
  · have hseq : (v.keepResult k { or := s.stepNf c.src, members := 1, absent := g.members.length - 1 }).seq c.seqNum
        = s.seq c.seqNum := by
      unfold seq
      rw [← hseqs]
      rfl
    exact congrArg (fun q : Seq => afterVerdict (leNat c.held) (s.stepNf c.src) q.scale q.cleanRun) hseq

/-- A member that does not lead a barrier sends its flag (R326). -/
theorem runBarrier_member {group : Nat} {flag : Bool} (hg : s.group? group = some g) (hcolls : s.fabric.colls = [])
    (hearly : s.fabric.early = []) (hlead : (s.barrierOf c g flag).leader ≠ s.collRank (s.barrierOf c g flag)) :
    s.runBarrier c group flag
      = ((s.setStage c.id .barrier).modFabric (fun f => { f with colls := [s.barrierOf c g flag] })).inject
          { type := .barrierFlag
            hdr := { group := g.num, seq := c.seqNo.getD 0, rank := s.collRank (s.barrierOf c g flag)
                     dst := g.members.getD (s.barrierOf c g flag).leader 0, nf := flag } } := by
  have hset : s.barrierSet c (s.barrierOf c g flag)
      = (s.setStage c.id .barrier).modFabric (fun f => { f with colls := [s.barrierOf c g flag] }) := by
    have : (s.setStage c.id .barrier).fabric.colls = [] := hcolls
    unfold barrierSet modFabric
    dsimp only
    rw [this]
    rfl
  have hcoll : (s.barrierSet c (s.barrierOf c g flag)).coll? c.id = some (s.barrierOf c g flag) :=
    coll?_append (s := s) (k := s.barrierOf c g flag) (by simp [hcolls]) rfl rfl
  have hsend : (s.barrierSet c (s.barrierOf c g flag)).sendFlag c.id = (s.barrierSet c (s.barrierOf c g flag)).inject
      { type := .barrierFlag
        hdr := { group := g.num, seq := c.seqNo.getD 0, rank := s.collRank (s.barrierOf c g flag)
                 dst := g.members.getD (s.barrierOf c g flag).leader 0, nf := flag } } := by
    unfold sendFlag
    rw [hcoll]
    exact if_neg fun h => hlead (beq_iff_eq.1 h)
  rw [runBarrier_eq hg, hsend, takeEarly_none, hset]
  rw [inject_frame]
  exact hearly

theorem barrier_sendsFlag {op : Nat} {flag : Bool} (hop : op = 0x505 ∨ op = 0x646) (hrun : s.running? id op = some c)
    (hgo : c.stage = .go) (hg : s.group? (if op = 0x505 then c.groupParam else bits (c.param 0 4) 15 0) = some g)
    (hflag : flag = (if op = 0x505 then bit c.gctrl 30 else s.stepNf c.src)) (hcolls : s.fabric.colls = [])
    (hearly : s.fabric.early = []) (hlead : (s.barrierOf c g flag).leader ≠ s.collRank (s.barrierOf c g flag)) :
    exec (if op = 0x505 then .collBarrierOr id else .pbVerdict id) s
      = .next (((s.setStage id .barrier).modFabric (fun f => { f with colls := [s.barrierOf c g flag] })).inject
          { type := .barrierFlag
            hdr := { group := g.num, seq := c.seqNo.getD 0, rank := s.collRank (s.barrierOf c g flag)
                     dst := g.members.getD (s.barrierOf c g flag).leader 0, nf := flag } }) := by
  obtain ⟨hc, -, -⟩ := running?_some hrun
  obtain rfl := cmd?_id hc
  rcases hop with rfl | rfl
  · rw [if_pos rfl] at hg hflag ⊢
    rw [exec_collBarrierOr hrun hgo, ← hflag, runBarrier_member hg hcolls hearly hlead]
  · rw [if_neg (by decide)] at hg hflag ⊢
    rw [exec_pbVerdict hrun hgo, ← hflag, runBarrier_member hg hcolls hearly hlead]

end

theorem exec_barrierFlag {s : State} {p : Packet} {k : Coll} (harr : Arrives s p .barrierFlag) (hof : s.collOf p = some k)
    (hkind : k.kind = 5) : exec (.barrierFlag p) s = .next (s.noteFlag k.id p.hdr.rank p.hdr.nf
      (if p.payload.length == 8 then some (Barrier.ofNat (leNat p.payload)) else none)) := by
  refine congrArg Host.Outcome.next ((receive_arrives harr _).trans ?_)
  rw [hof]
  simp [hkind]

theorem barrierResult_or {s : State} {p : Packet} {k : Coll} {c : Cmd} (harr : Arrives s p .barrierResult)
    (hof : s.collOf p = some k) (hkind : k.kind = 5) (hk : s.coll? k.id = some k) (hc : s.cmd? k.id = some c)
    (hop : c.opcode = 0x505) :
    let r := Barrier.ofNat (leNat p.payload)
    ∃ t u, exec (.barrierResult p) s = .next t
      ∧ Completes u t k.id { status := 0x000, count := r.absent, aux := k.seq, absent := r.absent != 0,
                             poison := c.part.poison, poisonIn := c.part.poisonIn, poisonOut := c.part.poisonOut }
      ∧ (s.retryPending (c.param 8 8) = false →
          u.mem = s.mem.writeBlock s.free { loc := c.param 8 8, mask := 2 ^ 64 - 1, val := r.word })
      ∧ u.cmds = s.cmds ∧ u.seqs = s.seqs := by
  intro r
  have hcmds : (s.resultStored k c r).cmds = s.cmds := by
    unfold resultStored
    rw [writeBlock_cmds]
    rfl
  have hexec := exec_barrierResult harr hof hkind
  rw [takeBarrier_or hk hc hop] at hexec
  refine ⟨_, s.resultStored k c r, hexec, finish_completes (c := c) ?_ _, resultStored_mem, hcmds, ?_⟩
  · unfold cmd?
    rw [hcmds]
    exact hc
  · unfold resultStored
    rw [writeBlock_seqs]
    rfl

/-- Settles O31: `sendFlag` and `takeBarrier`. -/
theorem barriersRun : Obligations.BarriersRun :=
  ⟨fun _ _ _ _ halone hcolls hgo => ⟨barrierOr_alone halone hcolls hgo, pbVerdict_alone halone hcolls hgo⟩,
    fun _ _ _ _ _ _ hop hrun hgo hg hflag hcolls hearly hlead =>
      ⟨_, barrier_sendsFlag hop hrun hgo hg hflag hcolls hearly hlead, rfl⟩,
    fun _ _ _ harr hof hkind => ⟨_, exec_barrierFlag harr hof hkind, rfl⟩,
    fun _ _ _ _ harr hof hkind hk hc hop => barrierResult_or harr hof hkind hk hc hop⟩

end Sys2Proof

/-! PROOFS. PLAYBOOK_ISSUE at a control entry that has dependencies to wait for (log entry 14). -/

namespace Sys2Proof.Machine

/-- The command of entry 0 of sequencer 0, in flight. -/
def entryInFlight : Cmd := { id := 0, src := .seq 0 0 0#32 0, ctx := 0, packet := natLe 64 0x100, st := .running }

/-- Sequencer 0 stands at entry 1 of its two, a PB_PHASE that depends on entry 0. -/
def atDependentPhase : State :=
  { State.reset with
    mem := { cells := [(64, 0x40#8), (65, 0x06#8), (76, 0x01#8)] }
    cmds := [entryInFlight], nextId := 1
    seqs := vset State.reset.seqs 0 { Seq.reset with st := .running, entries := 2, entry := 1, issues := [(0, 0)] } }

theorem atDependentPhase_numbered : Numbered atDependentPhase := by
  simp [Numbered, atDependentPhase, entryInFlight]

/-- The entry has a place to ask for, and PLAYBOOK_ISSUE leaves it to PB_PHASE. -/
theorem atDependentPhase_stays : atDependentPhase.doPlaybookIssue 0 = atDependentPhase := by
  have hgoes : ((atDependentPhase.seq 0).entries ≤ (atDependentPhase.seq 0).entry) = False := by decide +kernel
  have hcontrol : immediateOp (atDependentPhase.nextOp (atDependentPhase.seq 0)) = true := by decide +kernel
  simp [State.doPlaybookIssue, hgoes, hcontrol]

end Sys2Proof.Machine

namespace Sys2Proof

open Machine

/-- Refutes O18: the statement asks PLAYBOOK_ISSUE to make a command of every entry that wants a place. A control entry with dependencies wants
one too, and PLAYBOOK_ISSUE leaves it to its own row, which admits it and lets it act (log entry 14). -/
theorem not_playbookIssueAdmitsTheNextEntry : ¬ Obligations.PlaybookIssueAdmitsTheNextEntry := by
  intro h
  obtain ⟨t, c, hexec, hcmds, -⟩ := h atDependentPhase 0 atDependentPhase_numbered (by decide) (by decide +kernel)
    (by decide +kernel) (by decide +kernel)
  have hstays : exec (.playbookIssue 0) atDependentPhase = .next atDependentPhase :=
    congrArg Host.Outcome.next atDependentPhase_stays
  rw [hstays] at hexec
  obtain rfl := Host.Outcome.next.inj hexec
  exact absurd (congrArg List.length hcmds) (by simp)

end Sys2Proof

/-! PROOFS. The control entries that act at their issue (R53, R230, R233, R428, log entry 14): each acts on
`State.entryIssued`, and moves its own sequencer. -/

namespace Sys2Proof.Machine

namespace State

/-- A control entry that cannot be issued leaves the state as it is (log entry 7). -/
theorem issueControl_waits {s : State} {n : Nat} (h : ¬CanIssue n s) (op : Nat) (f : State → State) :
    s.issueControl n op f = s := by
  unfold CanIssue at h
  rw [not_or] at h
  obtain ⟨hdeps, hplace⟩ := h
  have hturn : (s.seqWantsPlace n && s.hasTurn (64 + n)) = false := by
    rw [Bool.and_eq_false_iff]
    by_contra hno
    rw [not_or] at hno
    exact hplace ⟨by simpa using hno.1, by simpa using hno.2⟩
  simp [issueControl, hdeps, hturn]

section
variable {s : State} {n : Nat} (hn : n < 4)
include hn

theorem entryIssued_mem : (s.entryIssued n).mem = s.mem := by rw [(entryIssued_frame s hn).1]

/-- After its issue an entry still stands where it stood. -/
theorem entryIssued_seq : (s.seq n).SameButIssue ((s.entryIssued n).seq n) := (entryIssued_frame s hn).2.1

/-- After its issue an entry still stands where it stood, and its sequencer holds what it held. -/
theorem entryIssued_stands : ((s.entryIssued n).seq n).entry = (s.seq n).entry
    ∧ ((s.entryIssued n).seq n).offset = (s.seq n).offset ∧ ((s.entryIssued n).seq n).image = (s.seq n).image
    ∧ ((s.entryIssued n).seq n).loops = (s.seq n).loops := by
  have hissue := entryIssued_seq (s := s) hn
  unfold Seq.SameButIssue at hissue
  rw [hissue]
  exact ⟨rfl, rfl, rfl, rfl⟩

/-- A sequencer that goes on stands at the entry after its own; nothing else changes. -/
theorem advance_leaves (u : State) : OnlySequencer n u (u.advance n)
    ∧ u.advance n = u.modSeq n (fun q => { q with
        entry := (u.seq n).entry + 1
        offset := (u.seq n).offset + entrySize (u.plenAt ((u.seq n).image + (u.seq n).offset)) })
    ∧ ((u.seq n).entry = (s.seq n).entry → (u.seq n).offset = (s.seq n).offset → (u.seq n).image = (s.seq n).image →
        u.mem = s.mem → WentOn n s (u.advance n)) := by
  refine ⟨onlySequencer_modSeq u n _, rfl, fun hentry hoff himage hmem => ?_⟩
  have hplen (a : Nat) : u.plenAt a = s.plenAt a := by unfold plenAt; rw [hmem]
  unfold WentOn advance
  dsimp only
  rw [seq_modSeq_same _ _ hn, hplen, hentry, hoff, himage]
  exact ⟨rfl, rfl⟩

/-- Where a control entry has set f of its sequencer, it goes on to the next entry. -/
theorem entryIssued_advance (f : Seq → Seq) (hentry : ∀ q, (f q).entry = q.entry) (hoff : ∀ q, (f q).offset = q.offset)
    (himage : ∀ q, (f q).image = q.image) :
    OnlySequencer n (s.entryIssued n) (((s.entryIssued n).modSeq n f).advance n)
      ∧ WentOn n s (((s.entryIssued n).modSeq n f).advance n)
      ∧ ∃ e o, (((s.entryIssued n).modSeq n f).advance n).seq n
        = { f ((s.entryIssued n).seq n) with entry := e, offset := o } := by
  obtain ⟨he, ho, hi, -⟩ := entryIssued_stands (s := s) hn
  obtain ⟨⟨hframe, hother⟩, hadv, hwent⟩ := advance_leaves (s := s) hn ((s.entryIssued n).modSeq n f)
  refine ⟨⟨hframe, fun m hm => (hother m hm).trans (seq_modSeq_other _ _ hm)⟩, ?_, ?_⟩
  · refine hwent ?_ ?_ ?_ (entryIssued_mem hn) <;> rw [seq_modSeq_same _ _ hn]
    · exact (hentry _).trans he
    · exact (hoff _).trans ho
    · exact (himage _).trans hi
  · rw [hadv, seq_modSeq_same _ _ hn, seq_modSeq_same _ _ hn]
    exact ⟨_, _, rfl⟩

/-- A sequencer that jumps stands at the entry named; nothing else changes. -/
theorem jump_leaves (u : State) (entry : Nat) : OnlySequencer n u (u.jump n entry)
    ∧ ∃ off, (u.jump n entry).seq n = { u.seq n with entry := entry, offset := off } := by
  refine ⟨onlySequencer_modSeq u n _, u.seqEntryAddr (u.seq n) entry - (u.seq n).image, ?_⟩
  unfold jump
  dsimp only
  rw [seq_modSeq_same _ _ hn]

end

/-! ## PB_SEED -/

theorem writeSeed_eq (s : State) (w : Word64) : s.writeSeed w = { s with
    rngSeed := s.rngSeed.write s.rngBusy w
    cfgLate := if s.rngBusy then { s.cfgLate with rng := true } else s.cfgLate } := by
  unfold writeSeed
  dsimp only
  split <;> rfl

/-- An entry that joins the commands in flight waits, and so no SR command more runs. -/
theorem entryIssued_rngBusy {s : State} {n : Nat} (hs : Numbered s) (hop : immediateOp (s.nextOp (s.seq n)) = true) :
    (s.entryIssued n).rngBusy = s.rngBusy := by
  unfold entryIssued
  split
  · rfl
  · obtain ⟨c, hjoin, -, -, hst, -⟩ := joinEntry_issues hs hop
    unfold rngBusy
    rw [hjoin]
    simp [Cmd.isRunning, hst]

theorem seedLeft_back {r : Rs} {l : CfgLate} (x : State) (r' : Rs) (l' : CfgLate) (hr : x.rngSeed = r) (hl : x.cfgLate = l) :
    ({ ({ x with rngSeed := r', cfgLate := l' } : State) with rngSeed := r, cfgLate := l } : State) = x := by
  rw [← hr, ← hl]

end State

end Sys2Proof.Machine

namespace Sys2Proof

open Machine State

theorem OnlySequencer.trans {n : Nat} {s t u : State} (h : OnlySequencer n s t) (h' : OnlySequencer n t u) :
    OnlySequencer n s u :=
  ⟨by rw [h'.1, h.1], fun m hm => (h'.2 m hm).trans (h.2 m hm)⟩

section
variable {s : State} {n : Nat} (hs : Numbered s) (hn : n < 4) (hc : CanIssue n s)

include hs hn in
/-- A control entry that only moves its sequencer issues as the manual says (R233). -/
theorem issued_of_at {op : Nat} {t : State} (hop : immediateOp op = true) (hat : s.seqAt n op = true)
    (h : OnlySequencer n (s.entryIssued n) t) : Issued n s t := by
  have hnext : s.nextOp (s.seq n) = op := by simpa using (Bool.and_eq_true_iff.1 hat).2
  exact (entryIssued_issued hn hs (by rw [hnext]; exact hop)).of_onlySequencer h

include hn hc in
theorem exec_pbEndloop {l : Loop} {r : List Loop} (hat : s.seqAt n 0x642 = true) (hl : (s.seq n).loops = l :: r) :
    exec (.pbEndloop n) s = .next (
      if l.count == 0 || l.passes + 1 < l.count then
        ((s.entryIssued n).modSeq n (fun q => { q with loops := { l with passes := l.passes + 1 } :: r })).jump n (l.entry + 1)
      else ((s.entryIssued n).modSeq n (fun q => { q with loops := r })).advance n) := by
  refine congrArg Host.Outcome.next ((issueControl_acts _ hat hc).trans ?_)
  obtain ⟨-, -, -, hloops⟩ := entryIssued_stands (s := s) hn
  rw [hloops, hl]

include hc in
theorem exec_pbIfClean {w : Window} (hat : s.seqAt n 0x647 = true) (hw : (s.seq n).window? (s.seq n).step = some w)
    (hv : w.verdict = true) : exec (.pbIfClean n) s = .next (if w.noBall then (s.entryIssued n).jump n
      (s.findEntry 0x648 (s.seq n).entry ((s.seq n).image + (s.seq n).offset) ((s.seq n).entries - (s.seq n).entry))
      else (s.entryIssued n).advance n) := by
  refine congrArg Host.Outcome.next ?_
  dsimp only
  rw [hw]
  dsimp only
  rw [hv, Bool.not_true, if_neg Bool.false_ne_true, issueControl_acts _ hat hc]

include hs hn hc

theorem pbPhase_acts (hat : s.seqAt n 0x640 = true) : ∃ t, exec (.pbPhase n) s = .next t ∧ Issued n s t ∧ WentOn n s t
    ∧ (t.seq n).phase = bits (s.nextParam (s.seq n) 0 4) 3 0 := by
  obtain ⟨honly, hwent, e, o, hseq⟩ := entryIssued_advance (s := s) hn
    (fun q => { q with phase := bits (s.nextParam (s.seq n) 0 4) 3 0 }) (fun _ => rfl) (fun _ => rfl) (fun _ => rfl)
  exact ⟨_, congrArg Host.Outcome.next (issueControl_acts _ hat hc), issued_of_at hs hn (by rfl) hat honly, hwent,
    congrArg Seq.phase hseq⟩

theorem pbLoop_acts (hat : s.seqAt n 0x641 = true) : ∃ t, exec (.pbLoop n) s = .next t ∧ Issued n s t ∧ WentOn n s t
    ∧ (t.seq n).loops
      = { entry := (s.seq n).entry, count := bits (s.nextParam (s.seq n) 0 4) 15 0, passes := 0 } :: (s.seq n).loops := by
  obtain ⟨honly, hwent, e, o, hseq⟩ := entryIssued_advance (s := s) hn (fun q => { q with loops :=
    { entry := q.entry, count := bits (s.nextParam (s.seq n) 0 4) 15 0, passes := 0 } :: q.loops })
    (fun _ => rfl) (fun _ => rfl) (fun _ => rfl)
  obtain ⟨hentry, -, -, hloops⟩ := entryIssued_stands (s := s) hn
  rw [hentry, hloops] at hseq
  exact ⟨_, congrArg Host.Outcome.next (issueControl_acts _ hat hc), issued_of_at hs hn (by rfl) hat honly, hwent,
    congrArg Seq.loops hseq⟩

theorem pbEndloop_acts {l : Loop} {r : List Loop} (hat : s.seqAt n 0x642 = true) (hl : (s.seq n).loops = l :: r) :
    ∃ t, exec (.pbEndloop n) s = .next t ∧ Issued n s t
      ∧ (l.count = 0 ∨ l.passes + 1 < l.count →
          (t.seq n).entry = l.entry + 1 ∧ (t.seq n).loops = { l with passes := l.passes + 1 } :: r)
      ∧ (l.count ≠ 0 → l.count ≤ l.passes + 1 → WentOn n s t ∧ (t.seq n).loops = r) := by
  have hexec := exec_pbEndloop hn hc hat hl
  by_cases hmore : l.count = 0 ∨ l.passes + 1 < l.count
  · rw [if_pos (by simpa using hmore)] at hexec
    obtain ⟨honly, off, hseq⟩ := jump_leaves hn
      ((s.entryIssued n).modSeq n (fun q => { q with loops := { l with passes := l.passes + 1 } :: r })) (l.entry + 1)
    rw [seq_modSeq_same _ _ hn] at hseq
    exact ⟨_, hexec, issued_of_at hs hn (by rfl) hat ((onlySequencer_modSeq _ n _).trans honly),
      fun _ => ⟨congrArg Seq.entry hseq, congrArg Seq.loops hseq⟩, fun h0 h => by omega⟩
  · rw [if_neg (by simpa using hmore)] at hexec
    obtain ⟨honly, hwent, e, o, hseq⟩ := entryIssued_advance (s := s) hn (fun q => { q with loops := r })
      (fun _ => rfl) (fun _ => rfl) (fun _ => rfl)
    exact ⟨_, hexec, issued_of_at hs hn (by rfl) hat honly, fun h => absurd h hmore,
      fun _ _ => ⟨hwent, congrArg Seq.loops hseq⟩⟩

omit hs hc in
theorem entryIssued_wentOn : OnlySequencer n (s.entryIssued n) ((s.entryIssued n).advance n)
    ∧ WentOn n s ((s.entryIssued n).advance n) := by
  obtain ⟨he, ho, hi, -⟩ := entryIssued_stands (s := s) hn
  obtain ⟨honly, -, hwent⟩ := advance_leaves (s := s) hn (s.entryIssued n)
  exact ⟨honly, hwent he ho hi (entryIssued_mem hn)⟩

theorem pbIfClean_acts {w : Window} (hat : s.seqAt n 0x647 = true) (hw : (s.seq n).window? (s.seq n).step = some w)
    (hv : w.verdict = true) :
    ∃ t, exec (.pbIfClean n) s = .next t ∧ Issued n s t ∧ (w.noBall = false → WentOn n s t)
      ∧ (w.noBall = true → (t.seq n).entry
          = s.findEntry 0x648 (s.seq n).entry ((s.seq n).image + (s.seq n).offset) ((s.seq n).entries - (s.seq n).entry)) := by
  have hexec := exec_pbIfClean hc hat hw hv
  cases hball : w.noBall with
  | true =>
    obtain ⟨honly, off, hseq⟩ := jump_leaves hn (s.entryIssued n)
      (s.findEntry 0x648 (s.seq n).entry ((s.seq n).image + (s.seq n).offset) ((s.seq n).entries - (s.seq n).entry))
    rw [hball, if_pos rfl] at hexec
    exact ⟨_, hexec, issued_of_at hs hn (by rfl) hat honly, fun h => by simp at h, fun _ => congrArg Seq.entry hseq⟩
  | false =>
    obtain ⟨honly, hwent⟩ := entryIssued_wentOn hn
    rw [hball, if_neg Bool.false_ne_true] at hexec
    exact ⟨_, hexec, issued_of_at hs hn (by rfl) hat honly, fun _ => hwent, fun h => by simp at h⟩

theorem pbEndif_acts (hat : s.seqAt n 0x648 = true) : ∃ t, exec (.pbEndif n) s = .next t ∧ Issued n s t ∧ WentOn n s t := by
  obtain ⟨honly, hwent⟩ := entryIssued_wentOn hn
  exact ⟨_, congrArg Host.Outcome.next (issueControl_acts _ hat hc), issued_of_at hs hn (by rfl) hat honly, hwent⟩

theorem pbSeed_acts (hat : s.seqAt n 0x64B = true) (v : Word64) (hv : v = BitVec.ofNat 64 (s.nextParam (s.seq n) 0 8)
      + (if bit (s.nextParam (s.seq n) 8 4) 0 then BitVec.ofNat 64 (s.seq n).step.toNat else 0#64)) :
    ∃ t, exec (.pbSeed n) s = .next t ∧ Issued n s { t with rngSeed := s.rngSeed, cfgLate := s.cfgLate } ∧ WentOn n s t
      ∧ (t.seq n).seed = v
      ∧ (s.rngBusy = false → t.rngSeed = Rs.mk v v ∧ t.cfgLate = s.cfgLate)
      ∧ (s.rngBusy = true → t.rngSeed = { s.rngSeed with shadow := v } ∧ t.cfgLate = { s.cfgLate with rng := true }) := by
  have hnext : s.nextOp (s.seq n) = 0x64B := by simpa using (Bool.and_eq_true_iff.1 hat).2
  have hbusy : ((s.entryIssued n).modSeq n (fun q => { q with seed := v })).rngBusy = s.rngBusy :=
    entryIssued_rngBusy hs (by rw [hnext]; rfl)
  obtain ⟨hframe, -, -⟩ := entryIssued_frame s hn
  obtain ⟨honly, hwent, e, o, hseq⟩ := entryIssued_advance (s := s) hn (fun q => { q with seed := v })
    (fun _ => rfl) (fun _ => rfl) (fun _ => rfl)
  obtain ⟨t, ht⟩ : ∃ t, t = (((s.entryIssued n).modSeq n (fun q => { q with seed := v })).writeSeed v).advance n := ⟨_, rfl⟩
  have hexec : exec (.pbSeed n) s = .next t := by
    refine congrArg Host.Outcome.next ((issueControl_acts _ hat hc).trans ?_)
    dsimp only
    rw [ht, hv]
  have hrng : (s.entryIssued n).rngSeed = s.rngSeed := by rw [hframe]
  have hlate : (s.entryIssued n).cfgLate = s.cfgLate := by rw [hframe]
  have ht' : t = { ((s.entryIssued n).modSeq n (fun q => { q with seed := v })).advance n with
      rngSeed := s.rngSeed.write s.rngBusy v
      cfgLate := if s.rngBusy then { s.cfgLate with rng := true } else s.cfgLate } := by
    rw [ht, writeSeed_eq, hbusy]
    show { (((s.entryIssued n).modSeq n (fun q => { q with seed := v })).advance n) with
      rngSeed := (s.entryIssued n).rngSeed.write s.rngBusy v
      cfgLate := if s.rngBusy then { (s.entryIssued n).cfgLate with rng := true } else (s.entryIssued n).cfgLate } = _
    rw [hrng, hlate]
  have hissued := issued_of_at hs hn (by rfl) hat honly
  refine ⟨t, hexec, ?_, ?_, ?_, fun hb => ?_, fun hb => ?_⟩
  · have hsame := seedLeft_back (((s.entryIssued n).modSeq n (fun q => { q with seed := v })).advance n)
      (s.rngSeed.write s.rngBusy v) (if s.rngBusy then { s.cfgLate with rng := true } else s.cfgLate) hrng hlate
    rw [ht', hsame]
    exact hissued
  · rw [ht']
    exact hwent
  · rw [ht']
    exact congrArg Seq.seed hseq
  · rw [ht', hb]
    exact ⟨rfl, rfl⟩
  · rw [ht', hb]
    exact ⟨rfl, rfl⟩

end

/-- Settles O19: `issueControl` notes the issue, and the entry moves its sequencer. -/
theorem controlEntriesActAtIssue : Obligations.ControlEntriesActAtIssue := by
  intro s n hs hn
  refine ⟨fun hwait i hi => ?_, fun hc => ⟨pbPhase_acts hs hn hc, pbLoop_acts hs hn hc, fun _ _ => pbEndloop_acts hs hn hc,
    fun _ => pbIfClean_acts hs hn hc, pbEndif_acts hs hn hc, fun hat => pbSeed_acts hs hn hc hat _ rfl⟩⟩
  have hstays (op : Nat) (f : State → State) :
      (.next (s.issueControl n op f) : Host.Outcome State Fault Refusal) = .next s :=
    congrArg Host.Outcome.next (issueControl_waits hwait op f)
  simp only [List.mem_cons, List.not_mem_nil, or_false] at hi
  rcases hi with rfl | rfl | rfl | rfl | rfl | rfl
  · exact hstays _ _
  · exact hstays _ _
  · exact hstays _ _
  · refine congrArg Host.Outcome.next ?_
    dsimp only
    split
    · rfl
    · split
      · rfl
      · exact issueControl_waits hwait _ _
  · exact hstays _ _
  · exact hstays _ _

end Sys2Proof

/-! PROOFS. PLAYBOOK_STOP, PLAYBOOK_HOLD and PLAYBOOK_RESUME (R227, R400). -/

namespace Sys2Proof.Machine

theorem vmod_congr {α : Type} {n : Nat} (v : Vector α n) {i : Nat} {f g : α → α} {d : α} (h : f (vget v i d) = g (vget v i d)) :
    vmod v i f = vmod v i g := by
  unfold vmod
  split
  · next hi =>
    unfold vget at h
    rw [dif_pos hi] at h
    rw [h]
  · rfl

namespace State

theorem modSeq_congr {s : State} {n : Nat} {f g : Seq → Seq} (h : f (s.seq n) = g (s.seq n)) : s.modSeq n f = s.modSeq n g := by
  unfold modSeq
  rw [vmod_congr s.seqs h]

/-! ## What a command that is cut short leaves of the sequencers -/

theorem seq_bumps (s : State) (l : List (Ctr × Nat)) (n : Nat) : (s.seq n).SameButCounts ((s.bumps l).seq n) := by
  induction l generalizing s with
  | nil => rfl
  | cons x r ih => exact (s.seq_bump x.1 x.2 n).trans (ih _)

theorem seq_setNf (s : State) (src : Src) (n : Nat) : (s.seq n).SameButCounts ((s.setNf src).seq n) := by
  unfold setNf
  split
  · rfl
  · next m entry step ph =>
    exact (seqsCount_modSeq s m (f := fun q => q.modWindow step (fun w => { w with nf := true })) rfl).2 n

theorem seq_noteGrad (s : State) (c : Cmd) (k n : Nat) : (s.seq n).SameButCounts ((s.noteGrad c k).seq n) := by
  unfold noteGrad
  split
  · exact (s.seq_bump _ k n).trans (seq_setNf _ _ n)
  · rfl

theorem seq_writeBlocks (s : State) (ws : List BlockWr) (n : Nat) : (s.writeBlocks ws).seq n = s.seq n := by
  unfold seq
  rw [writeBlocks_frame]

theorem seq_cutState (s : State) (c : Cmd) (n : Nat) : (s.seq n).SameButCounts ((s.cutState c).seq n) := by
  unfold cutState
  rw [closeAfter_frame]
  show (s.seq n).SameButCounts ((State.stopEffect _ _ _ _).seq n)
  unfold stopEffect
  dsimp only
  refine Seq.SameButCounts.trans ?_ (seq_noteGrad _ _ _ n)
  refine Seq.SameButCounts.trans ?_ (seq_bump _ _ _ n)
  refine Seq.SameButCounts.trans ?_ (seq_bumps _ _ n)
  rw [seq_writeBlocks]
  rfl

/-! ## The last command of a playbook that stops -/

theorem endHost_srcs (s : State) (id : Nat) (k : Compl) : (s.endHost id k).cmds.map (·.src) = s.cmds.map (·.src) := by
  have hmod : (s.modCmd id (fun x => { x with st := .done { k with cycles := s.cycles.toNat }, stage := .go })).cmds.map (·.src)
      = s.cmds.map (·.src) := by
    rw [modCmd_cmds, List.map_map]
    refine List.map_congr_left fun c _ => ?_
    by_cases hc : c.id = id <;> simp [hc]
  unfold endHost
  split
  · rfl
  · dsimp only
    split <;> exact hmod

theorem settleAwaits_srcs (s : State) : s.settleAwaits.cmds.map (·.src) = s.cmds.map (·.src) := by
  rw [settleAwaits_eq]
  refine foldl_keeps (p := fun t : State => t.cmds.map (·.src) = s.cmds.map (·.src)) (fun t c ht => ?_) _ rfl
  unfold settleAwait
  split
  · split
    · exact ht
    · exact (endHost_srcs ..).trans ht
  · exact ht

theorem retire_srcs (s : State) (id st : Nat) (b : Option (Nat × Word32)) :
    (s.retire id st b).cmds.map (·.src) = (s.cmds.filter (fun c => c.id != id)).map (·.src) := by
  refine (settleAwaits_srcs _).trans ?_
  rw [List.map_map]
  rfl

/-- Once the last command of a playbook that stops has ended, the playbook is idle (R227). -/
theorem finish_idle {s : State} {id n entry ph : Nat} {step : Word32} {c : Cmd} (k : Compl) (hn : n < 4)
    (hc : s.cmd? id = some c) (hsrc : c.src = .seq n entry step ph) (hst : (s.seq n).st = .stopping)
    (hlast : ∀ x ∈ s.cmds, x.ofSeq n = true → x.id = id) : ((s.finish id k).seq n).st = .idle := by
  obtain ⟨u, -, hcmds, -, hseqs, -, -, hfin⟩ := finish_settles hc k
  rw [hsrc] at hfin
  rw [hfin]
  unfold endEntry
  dsimp only
  generalize hv : u.modSeq n _ = v
  have hvst : (v.seq n).st = .stopping := by
    rw [← hv, seq_modSeq_same _ _ hn]
    have hu : u.seq n = s.seq n := by unfold seq; rw [hseqs]
    rw [hu]
    repeat' split
    all_goals exact hst
  refine (settleSeq_ends hn ?_ ?_).1
  · rw [(retire_frame ..).1]
    exact hvst
  · rw [any_ofSeq_congr (retire_srcs v _ _ _), List.any_eq_false]
    intro x hx hof
    obtain ⟨hin, hid⟩ := List.mem_filter.1 hx
    have hin : x ∈ s.cmds := by
      rw [← hv, modSeq_cmds, hcmds] at hin
      exact hin
    have hne : x.id ≠ id := by simpa [cmd?_id hc] using hid
    exact hne (hlast x hin hof)

theorem settleSeq_of_idle {s : State} {n : Nat} (h : (s.seq n).st = .idle) : s.settleSeq n = s := by simp [settleSeq, h]

/-- A command of a sequencer is gone once it has ended (R228). -/
theorem finish_entry_gone {s : State} {id n entry ph : Nat} {step : Word32} {c : Cmd} (k : Compl) (hc : s.cmd? id = some c)
    (hsrc : c.src = .seq n entry step ph) : (s.finish id k).cmd? id = none := by
  obtain ⟨hends, -⟩ := finish_completes hc k
  unfold Ends at hends
  rw [hc] at hends
  simp only [hsrc] at hends
  exact hends.1

/-- A playbook with one command in flight, which it cancels, ends as it is stopped (R227). -/
theorem stopPlaybook_one {s : State} {n : Nat} {b : Bool} {k : Cmd} (hn : n < 4) (hidle : (s.seq n).st ≠ .idle)
    (hopen : s.openTables (s.seq n).ctx = []) (hone : s.cmds.filter (fun c => c.ofSeq n) = [k]) (hk : s.cmd? k.id = some k)
    (hst : k.st = .waiting ∨ (k.st = .running ∧ runsToEnd k.opcode = false ∧ k.opcode ≠ 0x600)) :
    ((s.stopPlaybook n b).seq n).st = .idle ∧ (s.stopPlaybook n b).cmd? k.id = none
      ∧ (k.st = .waiting → (s.stopPlaybook n b).mem = s.mem) := by
  obtain ⟨u, hu⟩ : ∃ u, u = s.modSeq n (fun q => { q with st := .stopping, stopNow := true, cancelled := q.cancelled || b }) :=
    ⟨_, rfl⟩
  have huseq : u.seq n = { s.seq n with st := .stopping, stopNow := true, cancelled := (s.seq n).cancelled || b } := by
    rw [hu, seq_modSeq_same _ _ hn]
  have hucmd : u.cmd? k.id = some k := by rw [hu]; exact hk
  have hof : k.ofSeq n = true := by
    have : k ∈ s.cmds.filter (fun c => c.ofSeq n) := hone ▸ List.mem_singleton_self k
    exact (List.mem_filter.1 this).2
  have hlast : ∀ x ∈ u.cmds, x.ofSeq n = true → x.id = k.id := by
    intro x hx hxof
    rw [hu] at hx
    have : x ∈ s.cmds.filter (fun c => c.ofSeq n) := List.mem_filter.2 ⟨hx, hxof⟩
    rw [hone, List.mem_singleton] at this
    rw [this]
  obtain ⟨entry, step, ph, hsrc⟩ : ∃ entry step ph, k.src = .seq n entry step ph := by
    unfold Cmd.ofSeq at hof
    cases hsrc : k.src with
    | host q => rw [hsrc] at hof; simp at hof
    | seq m entry step ph =>
      rw [hsrc] at hof
      obtain rfl : m = n := by simpa using hof
      exact ⟨entry, step, ph, rfl⟩
  have hopen' : u.openTables (u.seq n).ctx = [] := by rw [huseq, hu]; exact hopen
  have hids : (u.cmds.filter (fun c => c.ofSeq n || ([] : List Nat).contains c.id)).map (fun c => c.id) = [k.id] := by
    have : u.cmds.filter (fun c => c.ofSeq n || ([] : List Nat).contains c.id) = [k] := by
      rw [hu]
      simpa using hone
    rw [this]
    rfl
  have hstop : s.stopPlaybook n b = (u.cancelCmd k.id).settleSeq n := by
    unfold stopPlaybook
    rw [if_neg (by simpa using hidle), ← hu]
    simp only [hopen', List.flatMap_nil, hids, retireDrafts]
    rfl
  have hcancel : ∃ (v : State) (x : Compl), u.cancelCmd k.id = v.finish k.id x ∧ v.cmds = u.cmds ∧ (v.seq n).st = .stopping
      ∧ (k.st = .waiting → v.mem = u.mem) := by
    rcases hst with hwait | ⟨hrun, hend, hop⟩
    · exact ⟨u, _, cancelCmd_waiting hucmd hwait, rfl, by rw [huseq], fun _ => rfl⟩
    · obtain ⟨x, -, hcut⟩ := u.cutShort_finishes k Status.fltCancelled
      have hseq := u.seq_cutState k n
      unfold Seq.SameButCounts at hseq
      exact ⟨u.cutState k, x, (cancelCmd_running hucmd hrun hend (.inl hop)).trans hcut, by rw [cutState_frame],
        by rw [hseq, huseq], fun h => by rw [hrun] at h; cases h⟩
  obtain ⟨v, x, hv, hvcmds, hvst, hvmem⟩ := hcancel
  have hvcmd : v.cmd? k.id = some k := by unfold cmd?; rw [hvcmds]; exact hucmd
  have hidle' := finish_idle x hn hvcmd hsrc hvst (by rw [hvcmds]; exact hlast)
  rw [hstop, hv, settleSeq_of_idle hidle']
  refine ⟨hidle', finish_entry_gone x hvcmd hsrc, fun hwait => ?_⟩
  rw [finish_mem, hvmem hwait, hu]
  rfl

/-- A playbook with nothing in flight is idle as it is stopped, and nothing else changes but its PLAYBOOK_START (R227). -/
theorem stopPlaybook_none {s : State} {n : Nat} {b : Bool} (hn : n < 4) (hidle : (s.seq n).st ≠ .idle)
    (hopen : s.openTables (s.seq n).ctx = []) (hflight : ∀ k ∈ s.cmds, k.ofSeq n = false) :
    ((s.stopPlaybook n b).seq n).st = .idle ∧ (∀ m, m ≠ n → (s.stopPlaybook n b).seq m = s.seq m)
      ∧ (s.stopPlaybook n b).mem = s.mem := by
  rw [stopPlaybook_idle hidle hn b hflight hopen]
  obtain ⟨hended, hother, hmem, -⟩ := settleSeq_ends (s := s.modSeq n (fun q => { q with
    st := .stopping, stopNow := true, cancelled := q.cancelled || b })) hn (by rw [seq_modSeq_same _ _ hn])
    (by rw [List.any_eq_false]; simpa using hflight)
  exact ⟨hended, fun m hm => (hother m hm).trans (seq_modSeq_other _ _ hm), hmem⟩

end State

end Sys2Proof.Machine

namespace Sys2Proof

open Machine State

theorem seqParam_lt (c : Cmd) : c.seqParam < 4 := bits_lt (c.param 0 4) 1 0

section
variable {s : State} {id : Nat} {c : Cmd}

theorem finish_host_seqs {k : Compl} (hc : s.cmd? id = some c) (hhost : c.isHost = true) :
    (s.finish id k).seqs = s.seqs ∧ (s.finish id k).cmds = s.cmds.map (fun (x : Cmd) =>
      if x.id == id then { x with st := .done { k with cycles := s.cycles.toNat }, stage := .go } else x) := by
  obtain ⟨q, hsrc⟩ := isHost_src hhost
  obtain ⟨hends, -⟩ := finish_completes hc k
  unfold Ends at hends
  rw [hc] at hends
  simp only [hsrc] at hends
  exact ⟨hends.2.2.1, hends.1⟩

/-- A playbook is there to be stopped, held or resumed where the command's check passes (R227). -/
theorem playbookCtl_present (h : worst (s.playbookCtlStart c).rejs = none) : (s.seq c.seqParam).st ≠ .idle := by
  have hneed := need_eq_nil.1 (List.append_eq_nil_iff.1 (worst_eq_none.1 h)).2
  simp only [Bool.and_eq_true, bne_iff_ne] at hneed
  exact hneed.1

theorem playbookStop_atBoundary (hrun : s.running? id 0x601 = some c) (hok : worst (s.playbookCtlStart c).rejs = none)
    (hmode : bit (c.param 0 4) 8 = false) (hhost : c.isHost = true) (hst : (s.seq c.seqParam).st = .running) :
    ∃ t, exec (.playbookStop id) s = .next t
      ∧ t.seq c.seqParam = { s.seq c.seqParam with stopAtBoundary := true } ∧ (∀ m, m ≠ c.seqParam → t.seq m = s.seq m)
      ∧ t.mem = s.mem := by
  obtain ⟨hc, -, -⟩ := running?_some hrun
  obtain ⟨hseqs, -⟩ := finish_host_seqs (k := plainCompl Status.ok) hc hhost
  have hseq (m : Nat) : (s.finish id (plainCompl Status.ok)).seq m = s.seq m := by unfold seq; rw [hseqs]
  have hexec : exec (.playbookStop id) s = .next ((s.finish id (plainCompl Status.ok)).modSeq c.seqParam
      (fun q => { q with stopAtBoundary := true })) := by
    refine congrArg Host.Outcome.next ((runChecked_acts hrun hok).trans ?_)
    rw [hmode, if_neg Bool.false_ne_true, if_neg (by simp [hst])]
  refine ⟨_, hexec, ?_, fun m hm => ?_, ?_⟩
  · rw [seq_modSeq_same _ _ (seqParam_lt c), hseq]
  · rw [seq_modSeq_other _ _ hm, hseq]
  · exact finish_mem _ _ _

theorem playbookStop_now (hrun : s.running? id 0x601 = some c) (hok : worst (s.playbookCtlStart c).rejs = none)
    (hmode : bit (c.param 0 4) 8 = true) (hhost : c.isHost = true) :
    ∃ t u, exec (.playbookStop id) s = .next t ∧ Completes s u id { status := 0x000 } ∧ t = u.stopPlaybook c.seqParam false
      ∧ (s.openTables (s.seq c.seqParam).ctx = [] →
        ((∀ k ∈ s.cmds, k.ofSeq c.seqParam = false) →
          (t.seq c.seqParam).st = .idle ∧ (∀ m, m ≠ c.seqParam → t.seq m = s.seq m) ∧ t.mem = s.mem)
        ∧ (∀ k, s.cmds.filter (fun k => k.ofSeq c.seqParam) = [k] → s.cmd? k.id = some k →
            (k.st = .waiting ∨ (k.st = .running ∧ runsToEnd k.opcode = false ∧ k.opcode ≠ 0x600)) →
          (t.seq c.seqParam).st = .idle ∧ t.cmd? k.id = none ∧ (k.st = .waiting → t.mem = s.mem))) := by
  obtain ⟨hc, -, -⟩ := running?_some hrun
  have hdone := finish_completes hc (plainCompl Status.ok)
  obtain ⟨hseqs, hcmds⟩ := finish_host_seqs (k := plainCompl Status.ok) hc hhost
  have hexec : exec (.playbookStop id) s = .next ((s.finish id (plainCompl Status.ok)).stopPlaybook c.seqParam false) := by
    refine congrArg Host.Outcome.next ((runChecked_acts hrun hok).trans ?_)
    rw [hmode, if_pos rfl]
  generalize s.finish id (plainCompl Status.ok) = u at hdone hseqs hcmds hexec
  have hseq (m : Nat) : u.seq m = s.seq m := by unfold seq; rw [hseqs]
  have hn := seqParam_lt c
  have hidle : (u.seq c.seqParam).st ≠ .idle := by rw [hseq]; exact playbookCtl_present hok
  have hmem : u.mem = s.mem := hdone.2.1.mem
  have hofSeq (x : Cmd) (m : Nat) (k : Compl) : Cmd.ofSeq (if x.id == id then { x with st := .done k, stage := .go } else x) m
      = x.ofSeq m := by
    split <;> rfl
  refine ⟨_, u, hexec, hdone, rfl, fun hopen => ?_⟩
  have hopen' : u.openTables (u.seq c.seqParam).ctx = [] := by
    unfold openTables draft at hopen ⊢
    rw [hdone.2.1.drafts, hseq]
    exact hopen
  refine ⟨fun hflight => ?_, fun k hone hk hst => ?_⟩
  · have hflight' : ∀ x ∈ u.cmds, x.ofSeq c.seqParam = false := by
      intro x hx
      rw [hcmds] at hx
      obtain ⟨y, hy, rfl⟩ := List.mem_map.1 hx
      rw [hofSeq]
      exact hflight y hy
    obtain ⟨hended, hother, hmem'⟩ := stopPlaybook_none (b := false) hn hidle hopen' hflight'
    exact ⟨hended, fun m hm => (hother m hm).trans (hseq m), hmem'.trans hmem⟩
  · have hkof : k.ofSeq c.seqParam = true := by
      have : k ∈ s.cmds.filter (fun c' => c'.ofSeq c.seqParam) := hone ▸ List.mem_singleton_self k
      exact (List.mem_filter.1 this).2
    have hkid : k.id ≠ id := by
      intro heq
      rw [heq, hc, Option.some.injEq] at hk
      obtain ⟨q, hsrc⟩ := isHost_src hhost
      rw [← hk, Cmd.ofSeq_eq, hsrc] at hkof
      cases hkof
    have hk' : u.cmd? k.id = some k := by
      have := cmd?_modCmd (s := s) (id := id)
        (f := fun x => { x with st := .done { plainCompl Status.ok with cycles := s.cycles.toNat }, stage := .go })
        (fun _ => rfl) k.id
      unfold cmd?
      rw [hcmds]
      refine this.trans ?_
      rw [hk, Option.map_some, if_neg (by simpa using hkid)]
    have hone' : u.cmds.filter (fun c' => c'.ofSeq c.seqParam) = [k] := by
      rw [hcmds, List.filter_map]
      have hpred : (fun c' : Cmd => c'.ofSeq c.seqParam) ∘ (fun (x : Cmd) =>
          if x.id == id then { x with st := .done { plainCompl Status.ok with cycles := s.cycles.toNat }, stage := .go } else x)
          = fun c' => c'.ofSeq c.seqParam := funext fun x => hofSeq x _ _
      rw [hpred, hone, List.map_singleton, if_neg (by simpa using hkid)]
    obtain ⟨hended, hgone, hkeeps⟩ := stopPlaybook_one (b := false) hn hidle hopen' hone' hk' hst
    exact ⟨hended, hgone, fun hwait => (hkeeps hwait).trans hmem⟩

theorem playbookHold_running (hrun : s.running? id 0x602 = some c) (hok : worst (s.playbookCtlStart c).rejs = none)
    (hst : (s.seq c.seqParam).st = .running) : ∃ t, exec (.playbookHold id) s = .next t
      ∧ Completes (s.modSeq c.seqParam (fun q => { q with st := .holding, holdAtBoundary := true })) t id { status := 0x000 } := by
  obtain ⟨hc, -, -⟩ := running?_some hrun
  have hheld : s.modSeq c.seqParam Seq.hold = s.modSeq c.seqParam (fun q => { q with st := .holding, holdAtBoundary := true }) :=
    modSeq_congr (by simp [Seq.hold, hst])
  have hexec : exec (.playbookHold id) s = .next ((s.modSeq c.seqParam Seq.hold).finish id (plainCompl Status.ok)) :=
    congrArg Host.Outcome.next (runChecked_acts hrun hok)
  rw [hheld] at hexec
  refine ⟨_, hexec, ?_⟩
  exact finish_completes (s := s.modSeq c.seqParam _) (c := c) hc (plainCompl Status.ok)

theorem playbookResume_held (hrun : s.running? id 0x603 = some c) (hok : worst (s.playbookCtlStart c).rejs = none)
    (hst : (s.seq c.seqParam).st = .held) : ∃ t, exec (.playbookResume id) s = .next t
      ∧ Completes (s.modSeq c.seqParam (fun q => { q with st := .running, heldBefore := true })) t id { status := 0x000 } := by
  obtain ⟨hc, -, -⟩ := running?_some hrun
  have hgoes : s.modSeq c.seqParam Seq.resume = s.modSeq c.seqParam (fun q => { q with st := .running, heldBefore := true }) :=
    modSeq_congr (by simp [Seq.resume, hst])
  have hexec : exec (.playbookResume id) s = .next ((s.modSeq c.seqParam Seq.resume).finish id (plainCompl Status.ok)) :=
    congrArg Host.Outcome.next (runChecked_acts hrun hok)
  rw [hgoes] at hexec
  refine ⟨_, hexec, ?_⟩
  exact finish_completes (s := s.modSeq c.seqParam _) (c := c) hc (plainCompl Status.ok)

end

/-- Settles O17: one lemma per command and mode. -/
theorem stopHoldAndResumeActAtStepBoundaries : Obligations.StopHoldAndResumeActAtStepBoundaries := fun _ _ _ =>
  ⟨playbookStop_atBoundary, playbookStop_now, playbookHold_running, playbookResume_held⟩

end Sys2Proof

/-! PROOFS. PLAYBOOK_START (R226, R411): the sequencer that it takes, and what it binds there. -/

namespace Sys2Proof.Machine

theorem leNat_single (b : Byte) (l : List Byte) : fieldAt (b :: l) 0 1 = b.toNat := by
  simp [fieldAt, leNat]

theorem isRunning_st {c : Cmd} (h : c.isRunning = true) : c.st = .running := by
  unfold Cmd.isRunning at h
  split at h
  · assumption
  · cases h

namespace State

/-! ## Its start -/

/-- The lowest sequencer that is idle is taken where no PLAYBOOK_START before has taken one yet. -/
theorem freeSeq_eq {s : State} {n : Nat} (hn : n < 4) (hidle : (s.seq n).st = .idle)
    (hpending : ∀ k ∈ s.cmds, k.pbPending = false) (hbelow : ∀ m < n, (s.seq m).st ≠ .idle) : s.freeSeq = some n := by
  have hnone (m : Nat) : s.cmds.any (fun c => c.pbPending && c.pbSeq == m) = false := by
    rw [List.any_eq_false]
    intro k hk
    simp [hpending k hk]
  unfold freeSeq
  rw [List.find?_range_eq_some]
  refine ⟨by simp [hidle, hnone], List.mem_range.2 hn, fun m hm => ?_⟩
  simp [hbelow m hm]

section
variable {s : State} {c : Cmd} (hop : c.opcode = 0x600)
include hop

theorem playbookStart_onArray : c.onArray = false := by simp [Cmd.onArray, hop]

theorem playbookStart_onThread : c.onThread = false := by simp [Cmd.onThread, playbookStart_onArray hop, hop]

theorem playbookStart_clusters : c.clusters = [] := by simp [Cmd.clusters, clusterOpcode, hop]

theorem playbookStart_usesSr : c.usesSr = false := by
  unfold Cmd.usesSr
  rw [hop]
  rfl

theorem shareClusters_playbookStart : s.shareClusters c = [] := by
  simp [shareClusters, playbookStart_onArray hop, playbookStart_clusters hop]

/-- A PLAYBOOK_START uses no cluster and no rounding seed, and so takes nothing at its boundary (R428, R429). -/
theorem boundary_playbookStart : s.boundary c = s := by
  unfold boundary
  dsimp only
  rw [shareClusters_playbookStart hop, playbookStart_usesSr hop, hop]
  simp

end

/-- A command that runs holds what its checks resolved (R392). -/
theorem cmd?_run {s : State} {c : Cmd} (k : Started) (hc : s.cmd? c.id = some c) : ∃ x, (s.run c k).cmd? c.id = some x
    ∧ x.st = .running ∧ x.held = k.held ∧ x.opcode = c.opcode ∧ x.target = c.target
    ∧ x.latched = (((s.dropTiles c).openSlots c k.slots).takeScratch c k.ops).latch c := by
  have hc' : (((s.dropTiles c).openSlots c k.slots).takeScratch c k.ops).cmd? c.id = some c := hc
  unfold run
  dsimp only
  rw [cmd?_modCmd, hc', Option.map_some, if_pos (by simp)]
  · exact ⟨_, rfl, rfl, rfl, rfl, rfl, rfl⟩
  · exact fun _ => rfl

theorem startWakes_frame (s : State) (l : List Nat) : l.foldl startWake s = { s with power := (l.foldl startWake s).power } := by
  refine foldl_keeps (p := fun t : State => t = { s with power := t.power }) (fun t c ht => ?_) l rfl
  unfold startWake
  split
  · rw [ht]
    rfl
  · exact ht

theorem reportCores_none {s : State} {c : Cmd} (h : c.latched = []) : s.reportCores c = s := by simp [reportCores, h]

theorem place_none {s : State} {c : Cmd} (ha : c.onArray = false) (ht : c.onThread = false) (before : List Cmd) :
    s.place c before = s := by
  simp [State.place, ha, ht]

/-- A PLAYBOOK_START that passes its checks as it starts runs with what they resolved. -/
theorem begin_playbookStart {s : State} {c : Cmd} (hop : c.opcode = 0x600) (hc : s.cmd? c.id = some c) (before : List Cmd)
    (hok : s.startRej c (s.startOf c) = none) (hlink : ∀ x, s.needsDownLink x = false) :
    ∃ x, (s.begin c before).cmd? c.id = some x ∧ x.st = .running ∧ x.held = (s.startOf c).held
      ∧ (s.begin c before).mem = s.mem := by
  obtain ⟨x, hx, hst, hheld, hxop, -, hlatched⟩ := cmd?_run (s.startOf c) hc
  have hxop : x.opcode = 0x600 := hxop.trans hop
  have hnone : x.latched = [] := by
    rw [hlatched]
    unfold latch
    rw [shareClusters_playbookStart hop]
    rfl
  have hdown : (s.run c (s.startOf c)).needsDownLink x = false := hlink x
  have hbegin : s.begin c before = x.needs.foldl startWake (s.run c (s.startOf c)) := by
    unfold State.begin
    dsimp only
    rw [playbookStart_clusters hop, List.foldl_nil, boundary_playbookStart hop, hok]
    dsimp only
    rw [hx]
    dsimp only
    rw [hdown, if_neg Bool.false_ne_true, place_none (playbookStart_onArray hxop) (playbookStart_onThread hxop),
      reportCores_none hnone]
  refine ⟨x, ?_, hst, hheld, ?_⟩
  · rw [hbegin, startWakes_frame]
    exact hx
  · rw [hbegin, startWakes_frame]
    rfl

/-! ## What it binds -/

theorem closeOldest_keeps (q : Seq) (scout : Nat) : (q.closeOldest scout).ewma = q.ewma ∧ (q.closeOldest scout).cfg = q.cfg := by
  unfold Seq.closeOldest
  split <;> exact ⟨rfl, rfl⟩

theorem closeAll_keeps (q : Seq) (scout n : Nat) : (q.closeAll scout n).ewma = q.ewma ∧ (q.closeAll scout n).cfg = q.cfg := by
  induction n generalizing q with
  | zero => exact ⟨rfl, rfl⟩
  | succ n ih =>
    obtain ⟨hewma, hcfg⟩ := ih (q.closeOldest scout)
    obtain ⟨hewma', hcfg'⟩ := closeOldest_keeps q scout
    exact ⟨hewma.trans hewma', hcfg.trans hcfg'⟩

theorem writeVerdict_frame (s : State) (a : Nat) (b : List Byte) : s.writeVerdict a b = { s with
    mem := (s.writeVerdict a b).mem, free := (s.writeVerdict a b).free
    memside := { s.memside with
      uncured := (s.writeVerdict a b).memside.uncured, held := (s.writeVerdict a b).memside.held } } := writeBlocks_frame _ _

theorem spoils_full (m : Mem) (a : Nat) (l : List Byte) : m.spoils (BlockWr.full a l false false) = false := rfl

/-- A sound full block reads back as its bytes. -/
theorem writeBlock_full_byte {m : Mem} {k a i : Nat} {l : List Byte} (hm : m.wf) (hundef : m.undef = []) (hi : i < 64) :
    (m.writeBlock k (BlockWr.full a l false false)).byte (a + i) = l.getD i 0#8 := by
  have hread : (m.writeBlock k (BlockWr.full a l false false)).byte (a + i)
      = BitVec.ofNat 8 (m.merged (BlockWr.full a l false false) / 256 ^ i) :=
    Mem.writeBlock_byte_inside hm (.inl (spoils_full m a l)) hi (by simp [Mem.isUndef, hundef])
  rw [hread]
  refine BitVec.eq_of_getLsbD_eq fun j hj => ?_
  have hset : (BlockWr.full a l false false).mask.testBit (8 * i + j) = true := by
    show fullMask.testBit _ = true
    rw [testBit_fullMask]
    exact decide_eq_true (by omega)
  rw [getLsbD_byteOf _ _ hj, Mem.testBit_merged _ _ hi hj, if_pos hset]
  exact testBit_leNat l hj

theorem getD_bytesAt (l : List Byte) {off n i : Nat} (hi : i < n) : (bytesAt l off n).getD i 0#8 = l.getD (off + i) 0#8 := by
  unfold bytesAt
  rw [List.getD_eq_getElem?_getD, List.getD_eq_getElem?_getD]
  by_cases h : off + i < l.length
  · have ht : i < ((l.drop off).take n).length := by simp; omega
    rw [List.getElem?_append_left ht, List.getElem?_take, if_pos hi, List.getElem?_drop]
  · have ht : ((l.drop off).take n).length ≤ i := by simp; omega
    rw [List.getElem?_append_right ht, List.getElem?_eq_none (l := l) (by omega), List.getElem?_replicate]
    split <;> rfl

/-- A verdict record whose blocks no retry holds reads back as it was written. -/
theorem writeVerdict_bytes {s : State} {a : Nat} {b : List Byte} (hm : Canonical s) (hundef : s.mem.undef = [])
    (hb : b.length = 128) (hlo : s.retryPending a = false) (hhi : s.retryPending (a + 64) = false) :
    (s.writeVerdict a b).mem.bytes a 128 = b := by
  obtain ⟨v, hv⟩ : ∃ v, v = BlockWr.full a (bytesAt b 0 64) false false := ⟨_, rfl⟩
  obtain ⟨w, hw⟩ : ∃ w, w = BlockWr.full (a + 64) (bytesAt b 64 64) false false := ⟨_, rfl⟩
  have hlands : (s.writeVerdict a b).mem = ((s.mem.writeBlock s.free v).writeBlock (s.land v).free w) := by
    have hfirst : s.writeBlock v = s.land v := writeBlock_lands s v (by rw [hv]; exact hlo)
    have hsecond : (s.land v).writeBlock w = (s.land v).land w := writeBlock_lands (s.land v) w (by rw [hw]; exact hhi)
    show (s.writeBlocks [_, _]).mem = _
    rw [← hv, ← hw]
    show ((s.writeBlock v).writeBlock w).mem = _
    rw [hfirst, hsecond]
    rfl
  have hwf : (s.mem.writeBlock s.free v).wf := Mem.writeBlock_wf hm _ _
  have hundef' : (s.mem.writeBlock s.free v).undef = [] := (Mem.writeBlock_undef _ _ _).trans hundef
  have hbyte : ∀ i < 128, (s.writeVerdict a b).mem.byte (a + i) = b.getD i 0#8 := by
    intro i hi
    rw [hlands]
    by_cases hlow : i < 64
    · rw [Mem.writeBlock_byte_outside (.inl (by rw [hw]; show a + i < a + 64; omega)), hv,
        writeBlock_full_byte hm hundef hlow, getD_bytesAt _ hlow, Nat.zero_add]
    · have hin := writeBlock_full_byte (k := (s.land v).free) (a := a + 64) (l := bytesAt b 64 64) hwf hundef'
        (i := i - 64) (by omega)
      rw [show a + 64 + (i - 64) = a + i by omega, getD_bytesAt _ (by omega), show 64 + (i - 64) = i by omega] at hin
      rw [hw, hin]
  refine List.ext_getElem (by simp [Mem.bytes, hb]) fun i hi hi' => ?_
  have hi : i < 128 := by simpa [Mem.bytes] using hi
  simp only [Mem.bytes, List.getElem_map, List.getElem_range]
  rw [hbyte i hi, List.getD_eq_getElem _ _ hi']

theorem writeVerdict_byte_outside {s : State} {a x : Nat} {b : List Byte} (h : x + 1 ≤ a ∨ a + 128 ≤ x) :
    (s.writeVerdict a b).mem.byte x = s.mem.byte x := by
  refine writeBlocks_byte_outside fun w hw => ?_
  simp only [List.mem_cons, List.not_mem_nil, or_false] at hw
  rcases hw with rfl | rfl
  · show x < a ∨ a + 64 ≤ x
    omega
  · show x < a + 64 ∨ a + 64 + 64 ≤ x
    omega

/-- The state in which a playbook is bound, before its record is written and its PLAYBOOK_START goes on. -/
def playbookBound (s : State) (c : Cmd) : State :=
  (s.modSeq c.pbSeq (fun q => (q.closeAll s.scout.index q.windows.length).bind c (fieldAt c.pbHeader 12 4)
    (fieldAt c.pbHeader 8 4) (s.seq c.pbRelaySeq).starter (sha3 (s.mem.bytes c.pbImage (fieldAt c.pbHeader 12 4))))).writeSeed
      (BitVec.ofNat 64 (c.param 56 8))

/-- The record that PLAYBOOK_START writes: no verdict, the step before the first, the loss scale and the clean run (R226). -/
def firstVerdict (c : Cmd) : List Byte :=
  verdictBytes false false false false 0 ((c.param 36 4 + 2 ^ 32 - 1) % 2 ^ 32) (c.param 68 4) (BitVec.ofNat 32 (c.param 48 4))
    (frecip (BitVec.ofNat 32 (c.param 48 4)))

theorem doPlaybookStart_eq {s : State} {id : Nat} {c : Cmd} (hrun : s.running? id 0x600 = some c) (hgo : c.stage = .go) :
    s.doPlaybookStart id = ((s.playbookBound c).writeVerdict c.pbVerdict (firstVerdict c)).setStage c.id .begun := by
  unfold doPlaybookStart
  rw [hrun]
  exact if_pos (by simp [Cmd.atGo, hgo])

theorem leNat_lt (l : List Byte) : leNat l < 256 ^ l.length := by
  induction l with
  | nil => simp [leNat]
  | cons b r ih =>
    rw [leNat, List.length_cons, Nat.pow_succ]
    have := b.isLt
    omega

theorem param_lt (c : Cmd) (off n : Nat) : c.param off n < 256 ^ n :=
  (leNat_lt _).trans_le (Nat.pow_le_pow_right (by omega) (by simp))

/-- A record without a verdict holds its step, the clean run, the loss scale and its reciprocal alone. -/
theorem verdictBytes_none (step clean : Nat) (scale gs : Word32) : verdictBytes false false false false 0 step clean scale gs
    = natLe 128 (at' (step % 2 ^ 32) 32 + at' (clean % 2 ^ 32) 64 + at' scale.toNat 512 + at' gs.toNat 544) := by
  have hflag (k : Nat) : flagAt false k = 0 := rfl
  have hmembers : at' (0 % 8192) 16 = 0 := rfl
  unfold verdictBytes
  rw [hflag, hflag, hflag, hflag, hmembers, Nat.zero_add]

theorem firstVerdict_eq (c : Cmd) : firstVerdict c
    = natLe 128 (at' ((c.param 36 4 + 2 ^ 32 - 1) % 2 ^ 32) 32 + at' (c.param 68 4) 64
      + at' (c.param 48 4) 512 + at' (frecip (BitVec.ofNat 32 (c.param 48 4))).toNat 544) := by
  have hclean : c.param 68 4 % 2 ^ 32 = c.param 68 4 := Nat.mod_eq_of_lt (param_lt c 68 4)
  have hscale : (BitVec.ofNat 32 (c.param 48 4)).toNat = c.param 48 4 :=
    (BitVec.toNat_ofNat _ _).trans (Nat.mod_eq_of_lt (param_lt c 48 4))
  unfold firstVerdict
  rw [verdictBytes_none, hclean, hscale, Nat.mod_mod]

theorem writeSeed_seq (s : State) (w : Word64) (n : Nat) : (s.writeSeed w).seq n = s.seq n := by
  unfold seq
  rw [writeSeed_eq]

theorem writeVerdict_seq (s : State) (a : Nat) (b : List Byte) (n : Nat) : (s.writeVerdict a b).seq n = s.seq n :=
  seq_writeBlocks _ _ _

end State

end Sys2Proof.Machine

namespace Sys2Proof

open Machine State

section
variable {s : State} {id n : Nat} {c : Cmd}

/-- PLAYBOOK_START that passes its checks as it starts takes the lowest free sequencer (R411). -/
theorem commandStart_takesSequencer (hc : s.cmd? id = some c) (hst : c.st = .waiting) (hhost : c.isHost = true)
    (hop : c.opcode = 0x600) (hdep : c.depOutcome = none) (hready : s.ready c = true)
    (hok : s.startRej c (s.startOf c) = none) (hlink : ∀ x, s.needsDownLink x = false) (hn : n < 4)
    (hidle : (s.seq n).st = .idle) (hpending : ∀ k ∈ s.cmds, k.pbPending = false) (hbelow : ∀ m < n, (s.seq m).st ≠ .idle) :
    ∃ t x, exec (.commandStart id) s = .next t ∧ t.cmd? id = some x ∧ x.st = .running ∧ x.pbSeq = n
      ∧ x.pbHeader = s.mem.bytes c.pbImage 64 ∧ t.mem = s.mem := by
  obtain rfl := cmd?_id hc
  obtain ⟨q, hsrc⟩ := isHost_src hhost
  have hheld : (s.startOf c).held = BitVec.ofNat 8 n :: s.mem.bytes c.pbImage 64 := by
    have hfree := freeSeq_eq hn hidle hpending hbelow
    unfold startOf
    rw [hop]
    show BitVec.ofNat 8 (s.freeSeq.getD 0) :: _ = _
    rw [hfree]
    rfl
  have hmodes : s.chooseModes c = s := by simp [chooseModes, playbookStart_onArray hop]
  have hplace : s.placeable c (s.before c) = true := by
    simp [placeable, playbookStart_onArray hop, playbookStart_onThread hop]
  have hexec : exec (.commandStart c.id) s = .next (s.begin c (s.before c)) := by
    refine congrArg Host.Outcome.next ?_
    have hrelay : s.isRelay c = false := by unfold isRelay; rw [hsrc]
    have hway : s.relayInWay c = false := by unfold relayInWay; rw [hsrc]
    have himm : immediateOp c.opcode = false := by rw [hop]; rfl
    unfold doCommandStart
    rw [hc]
    dsimp only
    rw [hdep, hready, hrelay, hway, himm]
    unfold tryBegin
    dsimp only
    rw [hmodes, hplace]
    simp [Cmd.isWaiting, hst]
  obtain ⟨x, hx, hxst, hxheld, hmem⟩ := begin_playbookStart hop hc (s.before c) hok hlink
  rw [hheld] at hxheld
  refine ⟨_, x, hexec, hx, hxst, ?_, ?_, hmem⟩
  · unfold Cmd.pbSeq
    rw [hxheld, leNat_single, BitVec.toNat_ofNat]
    exact Nat.mod_eq_of_lt (by omega)
  · unfold Cmd.pbHeader
    rw [hxheld]
    rfl

/-- The sequencer of a playbook that is accepted (R226). -/
theorem playbookStart_binds (hrun : s.running? id 0x600 = some c) (hgo : c.stage = .go) (hn : c.pbSeq < 4) :
    (s.doPlaybookStart id).seq c.pbSeq = ((s.seq c.pbSeq).closeAll s.scout.index (s.seq c.pbSeq).windows.length).bind c
      (fieldAt c.pbHeader 12 4) (fieldAt c.pbHeader 8 4) (s.seq c.pbRelaySeq).starter
      (sha3 (s.mem.bytes c.pbImage (fieldAt c.pbHeader 12 4))) := by
  rw [doPlaybookStart_eq hrun hgo]
  refine (writeVerdict_seq _ _ _ _).trans ?_
  unfold playbookBound
  rw [writeSeed_seq, seq_modSeq_same _ _ hn]

theorem playbookStart_leaves (hrun : s.running? id 0x600 = some c) (hgo : c.stage = .go) :
    (∀ m, m ≠ c.pbSeq → (s.doPlaybookStart id).seq m = s.seq m) ∧ (s.doPlaybookStart id).sqs = s.sqs
    ∧ (s.doPlaybookStart id).contexts = s.contexts
    ∧ (∃ d, (s.doPlaybookStart id).cmd? id = some d ∧ d.st = .running ∧ d.stage = .begun)
    ∧ ∀ a, a + 1 ≤ c.param 40 8 ∨ c.param 40 8 + 128 ≤ a → (s.doPlaybookStart id).mem.byte a = s.mem.byte a := by
  obtain ⟨hc, hst, -⟩ := running?_some hrun
  rw [doPlaybookStart_eq hrun hgo]
  have hframe := (s.playbookBound c).writeVerdict_frame c.pbVerdict (firstVerdict c)
  have hbound : s.playbookBound c = { s with
      seqs := (s.playbookBound c).seqs, rngSeed := (s.playbookBound c).rngSeed, cfgLate := (s.playbookBound c).cfgLate } := by
    unfold playbookBound
    rw [writeSeed_eq]
    rfl
  refine ⟨fun m hm => ?_, ?_, ?_, ⟨{ c with stage := .begun }, ?_, isRunning_st hst, rfl⟩, fun a ha => ?_⟩
  · refine (writeVerdict_seq _ _ _ _).trans ?_
    unfold playbookBound
    rw [writeSeed_seq, seq_modSeq_other _ _ hm]
  · show (State.writeVerdict _ _ _).sqs = _
    rw [hframe, hbound]
  · show (State.writeVerdict _ _ _).contexts = _
    rw [hframe, hbound]
  · obtain rfl := cmd?_id hc
    refine setStage_cmd? ?_ .begun
    rw [hframe, hbound]
    exact hc
  · refine (writeVerdict_byte_outside ha).trans ?_
    rw [hbound]

theorem playbookStart_record (hrun : s.running? id 0x600 = some c) (hgo : c.stage = .go) (hm : Canonical s)
    (hundef : s.mem.undef = []) (hlo : s.retryPending (c.param 40 8) = false) (hhi : s.retryPending (c.param 40 8 + 64) = false) :
    (s.doPlaybookStart id).mem.bytes (c.param 40 8) 128
      = natLe 128 (at' ((c.param 36 4 + 2 ^ 32 - 1) % 2 ^ 32) 32 + at' (c.param 68 4) 64
        + at' (c.param 48 4) 512 + at' (frecip (BitVec.ofNat 32 (c.param 48 4))).toNat 544) := by
  have hmem : (s.playbookBound c).mem = s.mem := by
    unfold playbookBound
    rw [writeSeed_eq]
    rfl
  have hside : (s.playbookBound c).memside = s.memside := by
    unfold playbookBound
    rw [writeSeed_eq]
    rfl
  rw [doPlaybookStart_eq hrun hgo, ← firstVerdict_eq]
  refine writeVerdict_bytes (s := s.playbookBound c) ?_ ?_ ?_ ?_ ?_
  · unfold Canonical
    rw [hmem]
    exact hm
  · rw [hmem]
    exact hundef
  · exact natLe_length _ _
  · unfold retryPending
    rw [hside]
    exact hlo
  · unfold retryPending
    rw [hside]
    exact hhi

end

/-- Settles O16: what the start takes, and what `Seq.bind` sets. -/
theorem playbookStartTakesTheLowestFreeSequencer : Obligations.PlaybookStartTakesTheLowestFreeSequencer := by
  constructor
  · intro s id n c hc hst hhost hop hdep hready u hok hlink hn hidle hpending hbelow
    have hu : u = s := by
      show (c.clusters.foldl settleDomain s).boundary c = s
      rw [playbookStart_clusters hop, List.foldl_nil, boundary_playbookStart hop]
    rw [hu] at hok hlink
    exact commandStart_takesSequencer hc hst hhost hop hdep hready hok hlink hn hidle hpending hbelow
  · intro s id c hrun hgo hn n
    have hseq := playbookStart_binds hrun hgo hn
    obtain ⟨hothers, hsqs, hctx, hcmd, hmem⟩ := playbookStart_leaves hrun hgo
    obtain ⟨hewma, hcfg⟩ := closeAll_keeps (s.seq n) s.scout.index (s.seq n).windows.length
    obtain rfl := cmd?_id (running?_some hrun).1
    refine ⟨s.doPlaybookStart c.id, rfl, ?_⟩
    rw [show (s.doPlaybookStart c.id).seq n = _ from hseq]
    exact ⟨rfl, rfl, rfl, rfl, rfl, rfl, rfl, rfl, rfl, rfl, rfl, rfl, rfl, rfl, rfl, rfl, rfl, rfl, rfl, rfl, rfl,
      fun hm hundef _ hlo hhi => playbookStart_record hrun hgo hm hundef hlo hhi, rfl, rfl, rfl, hewma, hcfg, hothers, hsqs, hctx,
      hcmd, hmem⟩

end Sys2Proof

/-! PROOFS. CLEAR_STICKY and the W1C words (R10, R405, R430). -/

namespace Sys2Proof.Machine

/-! ## Words whose bits are cleared -/

/-- The word w' of k bits is w with the bits of m cleared. -/
def Clears (m k w w' : Nat) : Prop := w < 2 ^ k ∧ w' < 2 ^ k ∧ ∀ i, w'.testBit i = (w.testBit i && !m.testBit i)

theorem at'_add_testBit {w k : Nat} (h : w < 2 ^ k) (x i : Nat) :
    (w + at' x k).testBit i = if i < k then w.testBit i else x.testBit (i - k) := by
  rw [at', Nat.shiftLeft_eq, Nat.mul_comm, Nat.add_comm, Nat.testBit_two_pow_mul_add _ h]

theorem flagAt_eq (b : Bool) (k : Nat) : flagAt b k = at' b.toNat k := by cases b <;> simp [flagAt, at', Nat.shiftLeft_eq]

namespace Clears

variable {m k w w' : Nat}

theorem add_lt (h : w < 2 ^ k) {x n : Nat} (hx : x < 2 ^ n) : w + at' x k < 2 ^ (k + n) := by
  rw [at', Nat.shiftLeft_eq, Nat.pow_add, Nat.mul_comm x]
  calc w + 2 ^ k * x < 2 ^ k * (x + 1) := by rw [Nat.mul_add]; omega
    _ ≤ 2 ^ k * 2 ^ n := Nat.mul_le_mul_left _ hx

/-- A field of the word above those cleared before. -/
theorem field (h : Clears m k w w') {x x' n : Nat} (hx : x < 2 ^ n) (hx' : x' < 2 ^ n)
    (hbits : ∀ i, x'.testBit i = (x.testBit i && !m.testBit (k + i))) : Clears m (k + n) (w + at' x k) (w' + at' x' k) := by
  obtain ⟨hw, hw', hlow⟩ := h
  refine ⟨add_lt hw hx, add_lt hw' hx', fun i => ?_⟩
  rw [at'_add_testBit hw, at'_add_testBit hw']
  split
  · exact hlow i
  · next hi =>
    rw [hbits, show k + (i - k) = i by omega]

theorem zero : Clears m 0 0 0 := ⟨by simp, by simp, fun i => by simp⟩

theorem skip (h : Clears m k w w') {n : Nat} (hn : k ≤ n) : Clears m n w w' :=
  ⟨h.1.trans_le (Nat.pow_le_pow_right (by omega) hn), h.2.1.trans_le (Nat.pow_le_pow_right (by omega) hn), h.2.2⟩

/-- A flag that is cleared where m names it. -/
theorem flag (h : Clears m k w w') (b : Bool) : Clears m (k + 1) (w + flagAt b k) (w' + flagAt (b && !bit m k) k) := by
  rw [flagAt_eq, flagAt_eq]
  refine h.field (by cases b <;> decide) (by cases b <;> cases bit m k <;> decide) fun i => ?_
  cases i with
  | zero => cases b <;> cases hm : m.testBit k <;> simp [bit, hm]
  | succ i => cases b <;> cases hm : bit m k <;> simp [Nat.testBit_succ]

/-- A field that m does not name. -/
theorem keep (h : Clears m k w w') {x n : Nat} (hx : x < 2 ^ n) (hm : ∀ i, i < n → m.testBit (k + i) = false) :
    Clears m (k + n) (w + at' x k) (w' + at' x k) := by
  refine h.field hx hx fun i => ?_
  by_cases hi : i < n
  · simp [hm i hi]
  · rw [Nat.testBit_lt_two_pow (hx.trans_le (Nat.pow_le_pow_right (by omega) (by omega)))]
    rfl

theorem keepFlag (h : Clears m k w w') (b : Bool) (hm : m.testBit k = false) :
    Clears m (k + 1) (w + flagAt b k) (w' + flagAt b k) := by
  have := h.flag b
  rwa [bit, hm, Bool.not_false, Bool.and_true] at this

/-- The highest field, of any width, that m does not name. -/
theorem top (h : Clears m k w w') (x : Nat) (hm : ∀ i, m.testBit (k + i) = false) (i : Nat) :
    (w' + at' x k).testBit i = ((w + at' x k).testBit i && !m.testBit i) := by
  obtain ⟨hw, hw', hlow⟩ := h
  rw [at'_add_testBit hw, at'_add_testBit hw']
  split
  · exact hlow i
  · next hi =>
    have := hm (i - k)
    rw [show k + (i - k) = i by omega] at this
    simp [this]

/-- A flag word of n bits. -/
theorem word (h : Clears m k w w') {n : Nat} (x : BitVec n) (v : Nat) (hv : ∀ i, i < n → v.testBit i = m.testBit (k + i)) :
    Clears m (k + n) (w + at' x.toNat k) (w' + at' (clearBits x v).toNat k) := by
  refine h.field x.isLt (clearBits x v).isLt fun i => ?_
  by_cases hi : i < n
  · rw [← hv i hi]
    show (clearBits x v).getLsbD i = (x.getLsbD i && !v.testBit i)
    rw [clearBits, BitVec.getLsbD_and, BitVec.getLsbD_not, BitVec.getLsbD_ofNat]
    simp [hi]
  · rw [Nat.testBit_lt_two_pow (x.isLt.trans_le (Nat.pow_le_pow_right (by omega) (by omega))),
      Nat.testBit_lt_two_pow ((clearBits x v).isLt.trans_le (Nat.pow_le_pow_right (by omega) (by omega)))]
    rfl

end Clears

theorem testBit_bits {m hi lo i : Nat} (h : lo + i ≤ hi) : (bits m hi lo).testBit i = m.testBit (lo + i) := by
  rw [bits, Nat.testBit_mod_two_pow, Nat.testBit_shiftRight]
  simp [show i < hi + 1 - lo by omega]

/-- A bit that the W1C fields of a word do not hold is in no mask for it. -/
theorem testBit_mask {a v i : Nat} (h : v.testBit i = false) : (a &&& v).testBit i = false := by simp [h]

namespace State

/-! ## What a W1C write leaves -/

theorem vget_vmod {α : Type} {n : Nat} (v : Vector α n) (i k : Nat) {f : α → α} {d : α} (hf : f d = d) :
    vget (vmod v i f) k d = if k = i then f (vget v k d) else vget v k d := by
  by_cases hk : k = i
  · subst hk
    rw [if_pos rfl]
    by_cases hlt : k < n
    · exact vget_vmod_same _ _ _ _ hlt
    · rw [vget_outside hlt, vget_outside hlt, hf]
  · rw [if_neg hk]
    exact vget_vmod_other _ _ _ _ _ hk

theorem modSeq_overrun (s : State) (n : Nat) (f : Bool → Bool) (hf : f false = false) (k : Nat) :
    (s.modSeq n (fun q => { q with feedOverrun := f q.feedOverrun })).seq k
      = { s.seq k with feedOverrun := if k = n then f (s.seq k).feedOverrun else (s.seq k).feedOverrun } := by
  have hreset : ({ Seq.reset with feedOverrun := f Seq.reset.feedOverrun } : Seq) = Seq.reset := by
    show ({ Seq.reset with feedOverrun := f false } : Seq) = Seq.reset
    rw [hf]
    rfl
  refine (vget_vmod s.seqs n k hreset).trans ?_
  split <;> rfl

theorem modCq_lost (s : State) (n : Nat) (f : Bool → Bool) (hf : f false = false) (k : Nat) :
    (s.modCq n (fun q => { q with lost := f q.lost })).cq k
      = { s.cq k with lost := if k = n then f (s.cq k).lost else (s.cq k).lost } := by
  have hreset : ({ lost := f false } : Cq) = {} := by rw [hf]
  refine (vget_vmod s.cqs n k hreset).trans ?_
  split <;> rfl

theorem modPort_lasting (s : State) (n : Nat) (f : Bool → Bool) (hf : f false = false) (k : Nat) :
    (s.modPort n (fun p => { p with lasting := f p.lasting })).port k
      = { s.port k with lasting := if k = n then f (s.port k).lasting else (s.port k).lasting } := by
  have hreset : ({ lasting := f false } : Port) = {} := by rw [hf]
  refine (vget_vmod s.fabric.ports n k hreset).trans ?_
  split <;> rfl

/-! ## Reads that a W1C write leaves alone -/

section
variable {s t : State} {x : Reg}

theorem regRead_of_cfgLate (h : t = { s with cfgLate := t.cfgLate }) (hx : x ≠ .cfgLate) (hsum : x ≠ .stickySummary) :
    t.regRead x = s.regRead x := by
  rw [h]
  cases x with
  | cfgLate => exact absurd rfl hx
  | stickySummary => exact absurd rfl hsum
  | _ => rfl

theorem regRead_of_clkLost (b : Bool) (h : t = { s with power := { s.power with clkLost := b } }) (hx : x ≠ .clkStatus)
    (hsum : x ≠ .stickySummary) : t.regRead x = s.regRead x := by
  rw [h]
  cases x with
  | clkStatus => exact absurd rfl hx
  | stickySummary => exact absurd rfl hsum
  | _ => rfl

theorem regRead_of_overrun (n : Nat) (f : Bool → Bool) (hf : f false = false)
    (ht : t = s.modSeq n (fun q => { q with feedOverrun := f q.feedOverrun })) (hx : x ≠ .pbSticky n) (hsum : x ≠ .stickySummary) : t.regRead x = s.regRead x := by
  have hseq (k : Nat) := ht ▸ s.modSeq_overrun n f hf k
  have h : t = { s with seqs := t.seqs } := by rw [ht]; rfl
  have hread (k : Nat) (r : Reg) (hr : ∀ q : Seq, ∀ b : Bool, Seq.reg { q with feedOverrun := b } r = q.reg r) :
      (t.seq k).reg r = (s.seq k).reg r := by
    rw [hseq k]
    exact hr _ _
  cases x with
  | stickySummary => exact absurd rfl hsum
  | pbSticky k =>
    have hk : k ≠ n := fun hkn => hx (by rw [hkn])
    show (t.seq k).reg (.pbSticky k) = (s.seq k).reg (.pbSticky k)
    rw [hseq k, if_neg hk]
  | pbCfg k => exact hread _ (.pbCfg k) fun _ _ => rfl
  | pbStatus k => exact hread _ (.pbStatus k) fun _ _ => rfl
  | lossEwma k => exact hread _ (.lossEwma k) fun _ _ => rfl
  | feedHead k => exact hread _ (.feedHead k) fun _ _ => rfl
  | feedTail k => exact hread _ (.feedTail k) fun _ _ => rfl
  | resultHead k => exact hread _ (.resultHead k) fun _ _ => rfl
  | resultTail k => exact hread _ (.resultTail k) fun _ _ => rfl
  | pbDigest k i => exact hread _ (.pbDigest k i) fun _ _ => rfl
  | phaseCyc k i => exact hread _ (.phaseCyc k i) fun _ _ => rfl
  | relayDelay k => exact hread _ (.relayDelay k) fun _ _ => rfl
  | stepRecord k i j => exact hread _ (.stepRecord k i j) fun _ _ => rfl
  | _ => rw [h]; rfl

theorem regRead_of_peak (v : Scout) (h : t = { s with scout := v }) (hx : x ≠ .scoutStatus) (hsum : x ≠ .stickySummary) :
    t.regRead x = s.regRead x := by
  rw [h]
  cases x with
  | scoutStatus => exact absurd rfl hx
  | stickySummary => exact absurd rfl hsum
  | _ => rfl

theorem regRead_of_keeper (v : Keeper) (h : t = { s with keeper := v }) (hx : x ≠ .keepStatus) (hsum : x ≠ .stickySummary) :
    t.regRead x = s.regRead x := by
  rw [h]
  cases x with
  | keepStatus => exact absurd rfl hx
  | stickySummary => exact absurd rfl hsum
  | _ => rfl

theorem regRead_of_memErr (a : BitVec 16) (b : BitVec 12)
    (h : t = { s with memside := { s.memside with hbmLasting := a, ddrLasting := b } }) (hx : x ≠ .memErrStatus)
    (hsum : x ≠ .stickySummary) : t.regRead x = s.regRead x := by
  rw [h]
  cases x with
  | memErrStatus => exact absurd rfl hx
  | stickySummary => exact absurd rfl hsum
  | _ => rfl

theorem regRead_of_lost (n : Nat) (f : Bool → Bool) (hf : f false = false)
    (ht : t = s.modCq n (fun q => { q with lost := f q.lost })) (hx : x ≠ .cqStatus n) (hsum : x ≠ .stickySummary) :
    t.regRead x = s.regRead x := by
  have hcq (k : Nat) := ht ▸ s.modCq_lost n f hf k
  have h : t = { s with cqs := t.cqs } := by rw [ht]; rfl
  cases x with
  | stickySummary => exact absurd rfl hsum
  | cqStatus k =>
    have hk : k ≠ n := fun hkn => hx (by rw [hkn])
    have hsame := hcq k
    rw [if_neg hk] at hsame
    have hsame : t.cq k = s.cq k := hsame
    unfold regRead
    dsimp only
    rw [hsame]
  | cqCfg k i =>
    unfold regRead
    dsimp only
    rw [hcq k]
  | _ => rw [h]; rfl

theorem regRead_of_fabStatus (a b : Bool) (h : t = { s with fabric := { s.fabric with reoriented := a, idConflict := b } })
    (hx : x ≠ .fabStatus) (hsum : x ≠ .stickySummary) : t.regRead x = s.regRead x := by
  rw [h]
  cases x with
  | fabStatus => exact absurd rfl hx
  | stickySummary => exact absurd rfl hsum
  | _ => rfl

theorem regRead_of_liust (v : Liust) (h : t = { s with liust := v }) (hx : x ≠ .liustStatus) (hsum : x ≠ .stickySummary) :
    t.regRead x = s.regRead x := by
  rw [h]
  cases x with
  | liustStatus => exact absurd rfl hx
  | stickySummary => exact absurd rfl hsum
  | _ => rfl

theorem regRead_of_busy (b : Bool) (h : t = { s with referee := { s.referee with busy := b } }) (hx : x ≠ .refStatus)
    (hsum : x ≠ .stickySummary) : t.regRead x = s.regRead x := by
  rw [h]
  cases x with
  | refStatus => exact absurd rfl hx
  | stickySummary => exact absurd rfl hsum
  | _ => rfl

end

/-- The demand for a domain, and so what it shows, depends on the ports through their states alone. -/
theorem regRead_of_lasting {s t : State} {x : Reg} (n : Nat) (f : Bool → Bool) (hf : f false = false)
    (ht : t = s.modPort n (fun p => { p with lasting := f p.lasting })) (hx : x ≠ .portStatus n) (hsum : x ≠ .stickySummary) :
    t.regRead x = s.regRead x := by
  have hport (k : Nat) := ht ▸ s.modPort_lasting n f hf k
  have h : t = { s with fabric := { s.fabric with ports := t.fabric.ports } } := by rw [ht]; rfl
  have hstate (k : Nat) : (t.port k).state = (s.port k).state := by rw [hport k]
  have hdomain (c : Nat) : t.domain c = s.domain c := by rw [h]; rfl
  have href (c : Nat) : t.refVote c = s.refVote c := by
    have hen : t.fabric.en = s.fabric.en := by rw [h]
    unfold refVote
    dsimp only
    simp only [hstate, hen, hdomain]
  have htransit (c : Nat) : t.transit c = s.transit c := by
    have hcross : t.crossLinks = s.crossLinks := by rw [h]; rfl
    have hpass : t.passEntry = s.passEntry := by rw [h]; rfl
    have hqueued : t.fabric.queued = s.fabric.queued := by rw [h]
    unfold transit
    simp only [hstate, hcross, hpass, hqueued]
  have hhw (c : Nat) : t.hwVote c = s.hwVote c := by
    unfold hwVote
    rw [htransit]
    rw [h]
    rfl
  have hown (c : Nat) : t.ownDemand c = s.ownDemand c := by
    unfold ownDemand
    rw [href, hhw, hdomain]
  have hchild : t.childRank = s.childRank := by
    funext k
    unfold childRank
    rw [hown, hdomain]
  cases x with
  | stickySummary => exact absurd rfl hsum
  | portStatus k =>
    have hk : k ≠ n := fun hkn => hx (by rw [hkn])
    have hsame := hport k
    rw [if_neg hk] at hsame
    have hsame : t.port k = s.port k := hsame
    have hleads : t.leadsUp k = s.leadsUp k := by
      unfold leadsUp
      rw [hsame, h]
      rfl
    show t.fabricWord (.portStatus k) = s.fabricWord (.portStatus k)
    unfold fabricWord
    dsimp only
    rw [hleads, hsame]
  | pwrDomain c =>
    show t.domainReg c = s.domainReg c
    unfold domainReg shown demand
    rw [hown, hchild, hhw, href, hdomain]
  | _ => rw [h]; rfl

theorem regRead_clearPwrSticky {s : State} {x : Reg} (m : Nat) (hx : x ≠ .pwrSticky) (hsum : x ≠ .stickySummary) :
    (s.clearW1c .pwrSticky m).regRead x = s.regRead x := by
  cases x with
  | pwrSticky => exact absurd rfl hx
  | stickySummary => exact absurd rfl hsum
  | _ => rfl

theorem regRead_clearErrSticky {s : State} {x : Reg} (m : Nat) (hx : x ≠ .errSticky) (hsum : x ≠ .stickySummary) :
    (s.clearW1c .errSticky m).regRead x = s.regRead x := by
  cases x with
  | errSticky => exact absurd rfl hx
  | stickySummary => exact absurd rfl hsum
  | _ => rfl

/-- Every read but that of the word written and of STICKY_SUMMARY is left alone (R430). -/
theorem regRead_clearW1c {s : State} {r x : Reg} (m : Nat) (hx : x ≠ r) (hsum : x ≠ .stickySummary) :
    (s.clearW1c r m).regRead x = s.regRead x := by
  cases r with
  | cfgLate => exact regRead_of_cfgLate rfl hx hsum
  | clkStatus => exact regRead_of_clkLost _ rfl hx hsum
  | pbSticky n => exact regRead_of_overrun n (fun b => b && !bit m 0) rfl rfl hx hsum
  | scoutStatus =>
    unfold clearW1c
    dsimp only
    split
    · exact regRead_of_peak _ rfl hx hsum
    · rfl
  | keepStatus => exact regRead_of_keeper _ rfl hx hsum
  | memErrStatus => exact regRead_of_memErr _ _ rfl hx hsum
  | cqStatus n => exact regRead_of_lost n (fun b => b && !bit m 13) rfl rfl hx hsum
  | fabStatus => exact regRead_of_fabStatus _ _ rfl hx hsum
  | portStatus n => exact regRead_of_lasting n (fun b => b && !bit m 16) rfl rfl hx hsum
  | liustStatus => exact regRead_of_liust _ rfl hx hsum
  | pwrSticky => exact regRead_clearPwrSticky m hx hsum
  | refStatus => exact regRead_of_busy _ rfl hx hsum
  | errSticky => exact regRead_clearErrSticky m hx hsum
  | _ => rfl

/-- A mask above the W1C fields of a word names nothing. -/
theorem testBit_mask_above {a v k : Nat} (h : v < 2 ^ k) (i : Nat) : (a &&& v).testBit (k + i) = false :=
  testBit_mask (Nat.testBit_lt_two_pow (h.trans_le (Nat.pow_le_pow_right (by omega) (by omega))))

/-- A mask between two W1C fields of a word names nothing. -/
theorem testBit_mask_between {a v k n : Nat} (h : ∀ i < n, v.testBit (k + i) = false) (i : Nat) (hi : i < n) :
    (a &&& v).testBit (k + i) = false := testBit_mask (h i hi)

theorem clearWord_bits {w w' m k : Nat} (h : Clears m k w w') (i : Nat) : w'.testBit i = (w.testBit i && !m.testBit i) := h.2.2 i

section
variable (s : State) (a : Nat)

theorem clear_cfgLate (i : Nat) : ((s.clearW1c .cfgLate (a &&& 0x3FFF)).regRead .cfgLate).testBit i
    = ((s.regRead .cfgLate).testBit i && !(a &&& 0x3FFF).testBit i) := by
  have h := ((Clears.zero (m := a &&& 0x3FFF)).word s.cfgLate.cluster (a &&& 0x3FFF) (fun i _ => by rw [Nat.zero_add])).word
    s.cfgLate.seq (bits (a &&& 0x3FFF) 11 8) (fun i hi => testBit_bits (by omega))
  have h := clearWord_bits ((h.flag s.cfgLate.rng).flag s.cfgLate.power) i
  simpa [regRead, CfgLate.word, clearW1c, at'] using h

theorem clear_clkStatus (i : Nat) : ((s.clearW1c .clkStatus (a &&& 1)).regRead .clkStatus).testBit i
    = ((s.regRead .clkStatus).testBit i && !(a &&& 1).testBit i) := by
  have h := clearWord_bits ((Clears.zero (m := a &&& 1)).flag s.power.clkLost) i
  rw [Nat.zero_add, Nat.zero_add] at h
  exact h

theorem clear_pbSticky (n i : Nat) : ((s.clearW1c (.pbSticky n) (a &&& 1)).regRead (.pbSticky n)).testBit i
    = ((s.regRead (.pbSticky n)).testBit i && !(a &&& 1).testBit i) := by
  have h := clearWord_bits ((Clears.zero (m := a &&& 1)).flag (s.seq n).feedOverrun) i
  rw [Nat.zero_add, Nat.zero_add] at h
  have hseq := s.modSeq_overrun n (fun b => b && !bit (a &&& 1) 0) rfl n
  show (flagAt ((s.modSeq n _).seq n).feedOverrun 0).testBit i = _
  rw [hseq, if_pos rfl]
  exact h

/-- The pairing and the feed ID of KEEP_STATUS lie above its sticky bits. -/
theorem keepWord_eq (k : Keeper) (f : Nat) :
    f + (if k.standing then at' (k.partner.getD 0) 16 + 2 ^ 28 else 0) + at' k.feedId.toNat 48
      = f + at' ((if k.standing then k.partner.getD 0 + 2 ^ 12 else 0) + k.feedId.toNat * 2 ^ 32) 16 := by
  simp only [at', Nat.shiftLeft_eq]
  split <;> ring

theorem clear_keepStatus (i : Nat) : ((s.clearW1c .keepStatus (a &&& 3)).regRead .keepStatus).testBit i
    = ((s.regRead .keepStatus).testBit i && !(a &&& 3).testBit i) := by
  have h := ((((Clears.zero (m := a &&& 3)).flag s.keeper.sameFeed).flag s.keeper.diverged).skip
    (show 0 + 1 + 1 ≤ 16 by decide)).top ((if s.keeper.standing then s.keeper.partner.getD 0 + 2 ^ 12 else 0)
      + s.keeper.feedId.toNat * 2 ^ 32) (testBit_mask_above (by decide)) i
  rw [← keepWord_eq, ← keepWord_eq] at h
  simp only [Nat.zero_add] at h
  simp only [regRead, clearW1c, modKeeper_keeper]
  exact h

theorem ddrShown_defined {m : MemSide} (h : m.ddrUndef = 0#12) : m.ddrShown = m.ddrLasting := by
  unfold MemSide.ddrShown
  rw [h, BitVec.zero_and, BitVec.or_zero]
  exact BitVec.and_allOnes

theorem clear_memErrStatus (hundef : s.memside.ddrUndef = 0#12) (i : Nat) :
    ((s.clearW1c .memErrStatus (a &&& 0xFFFFFFF)).regRead .memErrStatus).testBit i
    = ((s.regRead .memErrStatus).testBit i && !(a &&& 0xFFFFFFF).testBit i) := by
  have h := clearWord_bits (((Clears.zero (m := a &&& 0xFFFFFFF)).word s.memside.hbmLasting
    (a &&& 0xFFFFFFF) (fun i _ => by rw [Nat.zero_add])).word s.memside.ddrLasting
    (bits (a &&& 0xFFFFFFF) 27 16) (fun i hi => testBit_bits (by omega))) i
  have hread (t : State) (ht : t.memside.ddrUndef = 0#12) :
      t.regRead .memErrStatus = t.memside.hbmLasting.toNat + at' t.memside.ddrLasting.toNat 16 := by
    rw [← ddrShown_defined ht]
    rfl
  rw [hread s hundef, hread (s.clearW1c .memErrStatus (a &&& 0xFFFFFFF)) hundef]
  simpa [clearW1c, at'] using h

theorem clear_cqStatus (n i : Nat) (hhead : (s.cq n).head < 4096) :
    ((s.clearW1c (.cqStatus n) (a &&& 0x2000)).regRead (.cqStatus n)).testBit i
    = ((s.regRead (.cqStatus n)).testBit i && !(a &&& 0x2000).testBit i) := by
  have h := (((((Clears.zero (m := a &&& 0x2000)).keep (n := 12) hhead
    (testBit_mask_between (by decide))).keepFlag (s.cq n).wphase (testBit_mask (by decide))).flag (s.cq n).lost).skip
    (show 0 + 12 + 1 + 1 ≤ 32 by decide)).top (s.cq n).tail (testBit_mask_above (by decide)) i
  have hcq := s.modCq_lost n (fun b => b && !bit (a &&& 0x2000) 13) rfl n
  rw [if_pos rfl] at hcq
  have hread : (s.clearW1c (.cqStatus n) (a &&& 0x2000)).regRead (.cqStatus n) = (s.cq n).head + flagAt (s.cq n).wphase 12
      + flagAt ((s.cq n).lost && !bit (a &&& 0x2000) 13) 13 + at' (s.cq n).tail 32 := by
    show ((s.modCq n _).cq n).head + flagAt ((s.modCq n _).cq n).wphase 12 + flagAt ((s.modCq n _).cq n).lost 13
      + at' ((s.modCq n _).cq n).tail 32 = _
    rw [hcq]
  rw [hread]
  simpa only [regRead, at', Nat.shiftLeft_zero, Nat.zero_add] using h

/-- FAB_STATUS above its sticky bits. -/
theorem fabWord_eq (f x y z : Nat) :
    f + at' x 7 + at' y 20 + at' z 32 = f + at' (x + y * 2 ^ 13 + z * 2 ^ 25) 7 := by
  simp only [at', Nat.shiftLeft_eq]
  ring

theorem clear_fabStatus (i : Nat) : ((s.clearW1c .fabStatus (a &&& 0x60)).regRead .fabStatus).testBit i
    = ((s.regRead .fabStatus).testBit i && !(a &&& 0x60).testBit i) := by
  have hcode : s.fabric.state.code < 2 ^ 4 := by cases s.fabric.state <;> decide
  have h := (((((Clears.zero (m := a &&& 0x60)).keep hcode (testBit_mask_between (by decide))).keepFlag s.fabric.isCaptain
    (testBit_mask (by decide))).flag s.fabric.reoriented).flag s.fabric.idConflict).top
    (s.fabric.roster.presentIds.length + s.fabric.captain * 2 ^ 13 + s.fabric.roster.epoch * 2 ^ 25)
    (testBit_mask_above (by decide)) i
  rw [← fabWord_eq, ← fabWord_eq] at h
  simpa only [regRead, fabricWord, clearW1c, modFabric_fabric, at', Nat.shiftLeft_zero, Nat.zero_add, Nat.reduceAdd] using h

/-- PORT_STATUS above its sticky bit. -/
theorem portWord_eq (f x y z : Nat) :
    f + at' x 32 + at' y 46 + at' z 52 = f + at' (x + y * 2 ^ 14 + z * 2 ^ 20) 32 := by
  simp only [at', Nat.shiftLeft_eq]
  ring

theorem clear_portStatus (n i : Nat) (hwidth : (s.port n).width < 4) :
    ((s.clearW1c (.portStatus n) (a &&& 0x10000)).regRead (.portStatus n)).testBit i
    = ((s.regRead (.portStatus n)).testBit i && !(a &&& 0x10000).testBit i) := by
  have hcode : (s.port n).state.code < 2 ^ 3 := by cases (s.port n).state <;> decide
  have h := (((((((((Clears.zero (m := a &&& 0x10000)).keep hcode (testBit_mask_between (by decide))).skip
    (show 0 + 3 ≤ 8 by decide)).keepFlag (s.port n).nbrMember (testBit_mask (by decide))).keepFlag
    ((s.port n).state == .up && (s.port n).heard && s.leadsUp n) (testBit_mask (by decide))).keep (n := 2) hwidth
    (testBit_mask_between (by decide))).skip (show 8 + 1 + 1 + 2 ≤ 16 by decide)).flag (s.port n).lasting).skip
    (show 16 + 1 ≤ 32 by decide)).top ((s.port n).retrains + (s.port n).nbrPort * 2 ^ 14 + (s.port n).nbrId * 2 ^ 20)
    (testBit_mask_above (by decide)) i
  rw [← portWord_eq, ← portWord_eq] at h
  have hport := s.modPort_lasting n (fun b => b && !bit (a &&& 0x10000) 16) rfl n
  rw [if_pos rfl] at hport
  obtain ⟨u, hu⟩ : ∃ u, u = s.clearW1c (.portStatus n) (a &&& 0x10000) := ⟨_, rfl⟩
  have hup : u.port n = { s.port n with lasting := (s.port n).lasting && !bit (a &&& 0x10000) 16 } := by rw [hu]; exact hport
  have hleads : u.leadsUp n = s.leadsUp n := by
    unfold leadsUp
    rw [hup, hu]
    rfl
  rw [← hu]
  have hread : u.regRead (.portStatus n) = (s.port n).state.code + flagAt (s.port n).nbrMember 8
      + flagAt ((s.port n).state == .up && (s.port n).heard && s.leadsUp n) 9 + at' (s.port n).width 10
      + flagAt ((s.port n).lasting && !bit (a &&& 0x10000) 16) 16 + at' (s.port n).retrains 32 + at' (s.port n).nbrPort 46
      + at' (s.port n).nbrId 52 := by
    unfold regRead fabricWord
    dsimp only
    rw [hup, hleads]
  rw [hread]
  simpa only [regRead, fabricWord, at', Nat.shiftLeft_zero, Nat.zero_add] using h

theorem clear_liustStatus (i : Nat) (hwidth : s.liust.width < 4) :
    ((s.clearW1c .liustStatus (a &&& 0x70)).regRead .liustStatus).testBit i
    = ((s.regRead .liustStatus).testBit i && !(a &&& 0x70).testBit i) := by
  have hcode : s.liust.state.code < 2 ^ 2 := by cases s.liust.state <;> decide
  have h := (((((((Clears.zero (m := a &&& 0x70)).keep hcode (testBit_mask_between (by decide))).keep (n := 2) hwidth
    (testBit_mask_between (by decide))).flag s.liust.linkDown).flag s.liust.lasting).flag s.liust.dbBad).skip
    (show 0 + 2 + 2 + 1 + 1 + 1 ≤ 24 by decide)).top s.liust.retrains (testBit_mask_above (by decide)) i
  simpa only [regRead, clearW1c, modLiust_liust, at', Nat.shiftLeft_zero, Nat.zero_add, Nat.reduceAdd] using h

theorem clear_pwrSticky (i : Nat) : ((s.clearW1c .pwrSticky (a &&& 0xFF)).regRead .pwrSticky).testBit i
    = ((s.regRead .pwrSticky).testBit i && !(a &&& 0xFF).testBit i) := by
  have h := clearWord_bits ((((((((Clears.zero (m := a &&& 0xFF)).flag s.power.capLimited).flag s.power.throttled).flag
    s.power.fastClamp).flag s.power.stVinMargin).flag s.power.stRegMargin).flag s.power.coolBad).flag s.power.capUnmet |>.flag
    s.power.wakeFail) i
  simpa only [regRead, powerWord, Power.sticky, clearW1c, modPower_power, Nat.zero_add, Nat.reduceAdd] using h

/-- REF_STATUS above its sticky bit. -/
theorem refWord_eq (f x y : Nat) : f + at' x 24 + at' y 32 = f + at' (x + y * 2 ^ 8) 24 := by
  simp only [at', Nat.shiftLeft_eq]
  ring

theorem clear_refStatus (i : Nat) : ((s.clearW1c .refStatus (a &&& 0x100)).regRead .refStatus).testBit i
    = ((s.regRead .refStatus).testBit i && !(a &&& 0x100).testBit i) := by
  have hcode : s.referee.state.code < 2 ^ 8 := by cases s.referee.state <;> decide
  have h := ((((Clears.zero (m := a &&& 0x100)).keep hcode (testBit_mask_between (by decide))).flag s.referee.busy).skip
    (show 0 + 8 + 1 ≤ 24 by decide)).top (s.referee.mult + s.referee.util * 2 ^ 8) (testBit_mask_above (by decide)) i
  rw [← refWord_eq, ← refWord_eq] at h
  simpa only [regRead, refereeWord, clearW1c, modReferee_referee, at', Nat.shiftLeft_zero, Nat.zero_add, Nat.reduceAdd] using h

theorem clear_errSticky (i : Nat) : ((s.clearW1c .errSticky (a &&& 0x7F)).regRead .errSticky).testBit i
    = ((s.regRead .errSticky).testBit i && !(a &&& 0x7F).testBit i) := by
  have h := clearWord_bits (((((((Clears.zero (m := a &&& 0x7F)).flag s.errors.coreBenched).flag s.errors.residueLasting).flag
    s.errors.sramLasting).flag s.errors.dlinkLasting).flag s.errors.clusterOut).flag s.errors.recordBad |>.flag
    s.errors.recordFull) i
  simpa only [regRead, Errors.sticky, clearW1c, modErrors_errors, Nat.zero_add, Nat.reduceAdd] using h

end

/-! ## One word -/

theorem head_lt {s : State} (h : WidthsFit s) (n : Nat) : (s.cq n).head < 4096 := by
  by_cases hn : n < 64
  · exact h.1 n hn
  · rw [show s.cq n = {} from vget_outside hn]
    decide

theorem width_lt {s : State} (h : WidthsFit s) (n : Nat) : (s.port n).width < 4 := by
  by_cases hn : n < 48
  · exact h.2.1 n hn
  · rw [show s.port n = {} from vget_outside hn]
    decide

/-- The bits that the mask names read 0 after a W1C write, and the others as before (R430). -/
theorem clearW1c_bits {s : State} {r : Reg} (a : Nat) (hr : r ≠ .scoutStatus) (hfit : WidthsFit s)
    (hundef : r = .memErrStatus → s.memside.ddrUndef = 0#12) (i : Nat) :
    ((s.clearW1c r (a &&& r.w1c)).regRead r).testBit i = ((s.regRead r).testBit i && !(bit a i && bit r.w1c i)) := by
  obtain ⟨-, -, hlink⟩ := id hfit
  rw [bit, bit, ← Nat.testBit_and]
  cases r with
  | cfgLate => exact clear_cfgLate s a i
  | clkStatus => exact clear_clkStatus s a i
  | pbSticky n => exact clear_pbSticky s a n i
  | scoutStatus => exact absurd rfl hr
  | keepStatus => exact clear_keepStatus s a i
  | memErrStatus => exact clear_memErrStatus s a (hundef rfl) i
  | cqStatus n => exact clear_cqStatus s a n i (head_lt hfit n)
  | fabStatus => exact clear_fabStatus s a i
  | portStatus n => exact clear_portStatus s a n i (width_lt hfit n)
  | liustStatus => exact clear_liustStatus s a i hlink
  | pwrSticky => exact clear_pwrSticky s a i
  | refStatus => exact clear_refStatus s a i
  | errSticky => exact clear_errSticky s a i
  | _ =>
    rw [show Reg.w1c _ = 0 from rfl, Nat.and_zero, Nat.zero_testBit, Bool.not_false, Bool.and_true]
    rfl

/-- A mask that names a bit of PEAK clears that whole field (R345, R430). -/
theorem clearW1c_peak (s : State) (a : Nat) : (s.clearW1c .scoutStatus (a &&& 0xFF00)).regRead .scoutStatus
    = if bits a 15 8 = 0 then s.regRead .scoutStatus else s.scout.index := by
  have hbits : bits (a &&& 0xFF00) 15 8 = bits a 15 8 := by
    refine Nat.eq_of_testBit_eq fun i => ?_
    rw [bits, bits, Nat.testBit_mod_two_pow, Nat.testBit_mod_two_pow, Nat.testBit_shiftRight, Nat.testBit_shiftRight,
      Nat.testBit_and]
    by_cases hi : i < 8
    · have hset : Nat.testBit 0xFF00 (8 + i) = true := by interval_cases i <;> decide
      simp [hset]
    · simp [hi]
  unfold clearW1c
  dsimp only
  rw [hbits]
  by_cases h : bits a 15 8 = 0
  · simp [h]
  · rw [if_pos (by simpa using h), if_neg h]
    show s.scout.index + at' 0 8 = s.scout.index
    simp [at']

/-- A W1C write changes the part of the state that its word shows. -/
theorem clearW1c_frame (s : State) (r : Reg) (m : Nat) : s.clearW1c r m = { s with
    cfgLate := (s.clearW1c r m).cfgLate, power := (s.clearW1c r m).power, seqs := (s.clearW1c r m).seqs
    scout := (s.clearW1c r m).scout, keeper := (s.clearW1c r m).keeper, memside := (s.clearW1c r m).memside
    cqs := (s.clearW1c r m).cqs, fabric := (s.clearW1c r m).fabric, liust := (s.clearW1c r m).liust
    referee := (s.clearW1c r m).referee, errors := (s.clearW1c r m).errors } := by
  cases r with
  | scoutStatus =>
    unfold clearW1c
    dsimp only
    split <;> rfl
  | _ => rfl

theorem clearW1c_scout (s : State) (m : Nat) : s.clearW1c .scoutStatus m
    = { s with scout := { s.scout with peak := if bits m 15 8 != 0 then 0 else s.scout.peak } } := by
  unfold clearW1c
  dsimp only
  split <;> rfl

/-! ## Every word -/

/-- The sticky bits of a word are clear. -/
def Cleared (t : State) : Reg → Prop
  | .cfgLate => t.cfgLate = {}
  | .clkStatus => t.power.clkLost = false
  | .scoutStatus => t.scout.peak = 0
  | .keepStatus => t.keeper.sameFeed = false ∧ t.keeper.diverged = false
  | .memErrStatus => t.memside.hbmLasting = 0#16 ∧ t.memside.ddrLasting = 0#12
  | .fabStatus => t.fabric.reoriented = false ∧ t.fabric.idConflict = false
  | .liustStatus => t.liust.linkDown = false ∧ t.liust.lasting = false ∧ t.liust.dbBad = false
  | .pwrSticky => t.power.capLimited = false ∧ t.power.throttled = false ∧ t.power.fastClamp = false
      ∧ t.power.stVinMargin = false ∧ t.power.stRegMargin = false ∧ t.power.coolBad = false ∧ t.power.capUnmet = false
      ∧ t.power.wakeFail = false
  | .refStatus => t.referee.busy = false
  | .errSticky => t.errors.coreBenched = false ∧ t.errors.residueLasting = false ∧ t.errors.sramLasting = false
      ∧ t.errors.dlinkLasting = false ∧ t.errors.clusterOut = false ∧ t.errors.recordBad = false
      ∧ t.errors.recordFull = false
  | .pbSticky n => (t.seq n).feedOverrun = false
  | .cqStatus n => (t.cq n).lost = false
  | .portStatus n => (t.port n).lasting = false
  | _ => True

theorem clearBits_ofFull {w : Nat} (x : BitVec w) {m : Nat} (h : BitVec.ofNat w m = BitVec.allOnes w) : clearBits x m = 0#w := by
  simp [clearBits, h]

theorem and_not_bit {m i : Nat} (h : bit m i = true) (b : Bool) : (b && !bit m i) = false := by simp [h]

theorem cleared_clearW1c (t : State) (r : Reg) : (t.clearW1c r r.w1c).Cleared r := by
  cases r with
  | cfgLate =>
    show CfgLate.mk _ _ _ _ = {}
    dsimp only
    rw [clearBits_ofFull _ (by decide), clearBits_ofFull _ (by decide), and_not_bit (by decide), and_not_bit (by decide)]
  | clkStatus => exact and_not_bit (by decide) _
  | scoutStatus =>
    rw [clearW1c_scout]
    rfl
  | keepStatus => exact ⟨and_not_bit (by decide) _, and_not_bit (by decide) _⟩
  | memErrStatus => exact ⟨clearBits_ofFull _ (by decide), clearBits_ofFull _ (by decide)⟩
  | fabStatus => exact ⟨and_not_bit (by decide) _, and_not_bit (by decide) _⟩
  | liustStatus => exact ⟨and_not_bit (by decide) _, and_not_bit (by decide) _, and_not_bit (by decide) _⟩
  | pwrSticky => exact ⟨and_not_bit (by decide) _, and_not_bit (by decide) _, and_not_bit (by decide) _,
      and_not_bit (by decide) _, and_not_bit (by decide) _, and_not_bit (by decide) _, and_not_bit (by decide) _,
      and_not_bit (by decide) _⟩
  | refStatus => exact and_not_bit (by decide) _
  | errSticky => exact ⟨and_not_bit (by decide) _, and_not_bit (by decide) _, and_not_bit (by decide) _,
      and_not_bit (by decide) _, and_not_bit (by decide) _, and_not_bit (by decide) _, and_not_bit (by decide) _⟩
  | pbSticky n =>
    refine (congrArg Seq.feedOverrun (t.modSeq_overrun n (fun b => b && !bit 1 0) rfl n)).trans ?_
    dsimp only
    rw [if_pos rfl]
    exact and_not_bit (by decide) _
  | cqStatus n =>
    refine (congrArg Cq.lost (t.modCq_lost n (fun b => b && !bit 0x2000 13) rfl n)).trans ?_
    dsimp only
    rw [if_pos rfl]
    exact and_not_bit (by decide) _
  | portStatus n =>
    refine (congrArg Port.lasting (t.modPort_lasting n (fun b => b && !bit 0x10000 16) rfl n)).trans ?_
    dsimp only
    rw [if_pos rfl]
    exact and_not_bit (by decide) _
  | _ => exact trivial

/-- What one word shows as clear stays so where another is cleared. -/
theorem cleared_other {t : State} {x r : Reg} (m : Nat) (h : t.Cleared x) (hne : r ≠ x) : (t.clearW1c r m).Cleared x := by
  cases x with
  | pbSticky n =>
    cases r with
    | pbSticky k =>
      have hk : n ≠ k := fun hnk => hne (by rw [hnk])
      refine (congrArg Seq.feedOverrun (t.modSeq_overrun k (fun b => b && !bit m 0) rfl n)).trans ?_
      dsimp only
      rw [if_neg hk]
      exact h
    | scoutStatus => rw [clearW1c_scout]; exact h
    | _ => exact h
  | cqStatus n =>
    cases r with
    | cqStatus k =>
      have hk : n ≠ k := fun hnk => hne (by rw [hnk])
      refine (congrArg Cq.lost (t.modCq_lost k (fun b => b && !bit m 13) rfl n)).trans ?_
      dsimp only
      rw [if_neg hk]
      exact h
    | scoutStatus => rw [clearW1c_scout]; exact h
    | _ => exact h
  | portStatus n =>
    cases r with
    | portStatus k =>
      have hk : n ≠ k := fun hnk => hne (by rw [hnk])
      refine (congrArg Port.lasting (t.modPort_lasting k (fun b => b && !bit m 16) rfl n)).trans ?_
      dsimp only
      rw [if_neg hk]
      exact h
    | scoutStatus => rw [clearW1c_scout]; exact h
    | _ => exact h
  | cfgLate =>
    cases r with
    | cfgLate => exact absurd rfl hne
    | scoutStatus => rw [clearW1c_scout]; exact h
    | _ => exact h
  | clkStatus =>
    cases r with
    | clkStatus => exact absurd rfl hne
    | scoutStatus => rw [clearW1c_scout]; exact h
    | _ => exact h
  | keepStatus =>
    cases r with
    | keepStatus => exact absurd rfl hne
    | scoutStatus => rw [clearW1c_scout]; exact h
    | _ => exact h
  | memErrStatus =>
    cases r with
    | memErrStatus => exact absurd rfl hne
    | scoutStatus => rw [clearW1c_scout]; exact h
    | _ => exact h
  | fabStatus =>
    cases r with
    | fabStatus => exact absurd rfl hne
    | scoutStatus => rw [clearW1c_scout]; exact h
    | _ => exact h
  | liustStatus =>
    cases r with
    | liustStatus => exact absurd rfl hne
    | scoutStatus => rw [clearW1c_scout]; exact h
    | _ => exact h
  | pwrSticky =>
    cases r with
    | pwrSticky => exact absurd rfl hne
    | scoutStatus => rw [clearW1c_scout]; exact h
    | _ => exact h
  | refStatus =>
    cases r with
    | refStatus => exact absurd rfl hne
    | scoutStatus => rw [clearW1c_scout]; exact h
    | _ => exact h
  | errSticky =>
    cases r with
    | errSticky => exact absurd rfl hne
    | scoutStatus => rw [clearW1c_scout]; exact h
    | _ => exact h
  | scoutStatus =>
    cases r with
    | scoutStatus => exact absurd rfl hne
    | _ => exact h
  | _ => exact trivial

/-- CLEAR_STICKY of address 0 clears every word (R405). -/
theorem cleared_clearAllSticky (s : State) {x : Reg} (hx : x ∈ stickyRegs) : s.clearAllSticky.Cleared x := by
  have hstays (l : List Reg) (t : State) (h : t.Cleared x) : (l.foldl (fun (t : State) r => t.clearW1c r r.w1c) t).Cleared x := by
    refine foldl_keeps (p := fun t : State => t.Cleared x) (fun t r ht => ?_) l h
    by_cases hr : r = x
    · subst hr
      exact cleared_clearW1c t r
    · exact cleared_other _ ht hr
  obtain ⟨l, l', hsplit⟩ := List.append_of_mem hx
  unfold clearAllSticky
  rw [hsplit, List.foldl_append, List.foldl_cons]
  exact hstays l' _ (cleared_clearW1c _ x)

theorem clearAllSticky_frame (s : State) : s.clearAllSticky = { s with
    cfgLate := s.clearAllSticky.cfgLate, power := s.clearAllSticky.power, seqs := s.clearAllSticky.seqs
    scout := s.clearAllSticky.scout, keeper := s.clearAllSticky.keeper, memside := s.clearAllSticky.memside
    cqs := s.clearAllSticky.cqs, fabric := s.clearAllSticky.fabric, liust := s.clearAllSticky.liust
    referee := s.clearAllSticky.referee, errors := s.clearAllSticky.errors } := by
  unfold clearAllSticky
  refine foldl_keeps (p := fun t : State => t = { s with
    cfgLate := t.cfgLate, power := t.power, seqs := t.seqs, scout := t.scout, keeper := t.keeper, memside := t.memside
    cqs := t.cqs, fabric := t.fabric, liust := t.liust, referee := t.referee, errors := t.errors }) (fun t r ht => ?_) _ rfl
  rw [clearW1c_frame, ht]

end State

end Sys2Proof.Machine

namespace Sys2Proof

open Machine State

/-- The state before CLEAR_STICKY completes. -/
def stickyCleared (s : State) (c : Cmd) : State :=
  if c.param 0 8 = 0 then s.clearAllSticky
  else match regAt (c.param 0 8 - csb) with
    | some r => s.clearW1c r (c.param 8 8 &&& r.w1c)
    | none => s

section
variable {s : State} {id : Nat} {c : Cmd}

theorem exec_clearSticky (hrun : s.running? id 0x030 = some c) (hok : worst (s.clearStickyStart c).rejs = none) :
    exec (.clearSticky id) s = .next ((stickyCleared s c).finish id (plainCompl Status.ok)) := by
  refine congrArg Host.Outcome.next ((runChecked_acts hrun hok).trans ?_)
  unfold stickyCleared
  by_cases h : c.param 0 8 = 0
  · simp [h]
  · refine congrArg (fun u => State.finish u id (plainCompl Status.ok))
      (Eq.trans ((if_neg (by simpa using h)).trans ?_) (if_neg h).symm)
    generalize regAt (c.param 0 8 - csb) = o
    cases o <;> rfl

theorem stickyCleared_frame (s : State) (c : Cmd) : stickyCleared s c = { s with
    cfgLate := (stickyCleared s c).cfgLate, power := (stickyCleared s c).power, seqs := (stickyCleared s c).seqs
    scout := (stickyCleared s c).scout, keeper := (stickyCleared s c).keeper, memside := (stickyCleared s c).memside
    cqs := (stickyCleared s c).cqs, fabric := (stickyCleared s c).fabric, liust := (stickyCleared s c).liust
    referee := (stickyCleared s c).referee, errors := (stickyCleared s c).errors } := by
  unfold stickyCleared
  split
  · exact clearAllSticky_frame s
  · split
    · exact clearW1c_frame s _ _
    · rfl

theorem stickyCleared_all (h : c.param 0 8 = 0) : stickyCleared s c = s.clearAllSticky := if_pos h

theorem stickyCleared_one {r : Reg} (h : c.param 0 8 ≠ 0) (hr : regAt (c.param 0 8 - csb) = some r) :
    stickyCleared s c = s.clearW1c r (c.param 8 8 &&& r.w1c) := by
  unfold stickyCleared
  rw [if_neg h, hr]

theorem mem_stickyRegs : (∀ x ∈ [Reg.cfgLate, .clkStatus, .scoutStatus, .keepStatus, .memErrStatus, .fabStatus, .liustStatus,
      .pwrSticky, .refStatus, .errSticky], x ∈ stickyRegs) ∧ (∀ n < 4, .pbSticky n ∈ stickyRegs)
    ∧ (∀ n < 64, .cqStatus n ∈ stickyRegs) ∧ ∀ n < 48, .portStatus n ∈ stickyRegs := by
  unfold stickyRegs
  refine ⟨fun x hx => by simp only [List.mem_append]; tauto, fun n hn => ?_, fun n hn => ?_, fun n hn => ?_⟩ <;>
    simp [hn]

/-- What one word of a W1C write leaves of the parts that other words show. -/
theorem clearW1c_others (s : State) (r : Reg) (m : Nat) : (r ≠ .errSticky → (s.clearW1c r m).errors = s.errors)
    ∧ (r ≠ .refStatus → (s.clearW1c r m).referee = s.referee) ∧ (r ≠ .memErrStatus → (s.clearW1c r m).memside = s.memside)
    ∧ (r ≠ .keepStatus → (s.clearW1c r m).keeper = s.keeper) := by
  cases r with
  | scoutStatus =>
    rw [clearW1c_scout]
    exact ⟨fun _ => rfl, fun _ => rfl, fun _ => rfl, fun _ => rfl⟩
  | errSticky => exact ⟨fun h => absurd rfl h, fun _ => rfl, fun _ => rfl, fun _ => rfl⟩
  | refStatus => exact ⟨fun _ => rfl, fun h => absurd rfl h, fun _ => rfl, fun _ => rfl⟩
  | memErrStatus => exact ⟨fun _ => rfl, fun _ => rfl, fun h => absurd rfl h, fun _ => rfl⟩
  | keepStatus => exact ⟨fun _ => rfl, fun _ => rfl, fun _ => rfl, fun h => absurd rfl h⟩
  | _ => exact ⟨fun _ => rfl, fun _ => rfl, fun _ => rfl, fun _ => rfl⟩

end

/-- Settles O15: what a W1C write does to one word, and, for address 0, to each word in turn. -/
theorem clearStickyClearsItsRegister : Obligations.ClearStickyClearsItsRegister := by
  intro s id c hrun hok
  obtain ⟨hc, -, -⟩ := running?_some hrun
  have hframe := stickyCleared_frame s c
  have hcu : (stickyCleared s c).cmd? id = some c := by rw [hframe]; exact hc
  refine ⟨_, stickyCleared s c, exec_clearSticky hrun hok, finish_completes hcu _, by rw [hframe], by rw [hframe],
    by rw [hframe], by rw [hframe], by rw [hframe], by rw [hframe], fun h0 => ?_, fun r hne hr => ?_⟩
  · rw [stickyCleared_all h0]
    obtain ⟨hregs, hpb, hcq, hport⟩ := mem_stickyRegs
    have hclear (x : Reg) (hx : x ∈ [Reg.cfgLate, .clkStatus, .scoutStatus, .keepStatus, .memErrStatus, .fabStatus,
        .liustStatus, .pwrSticky, .refStatus, .errSticky]) : s.clearAllSticky.Cleared x :=
      cleared_clearAllSticky s (hregs x hx)
    obtain ⟨hfeed, hdiverged⟩ := hclear .keepStatus (by simp)
    obtain ⟨hhbm, hddr⟩ := hclear .memErrStatus (by simp)
    obtain ⟨hreo, hconf⟩ := hclear .fabStatus (by simp)
    obtain ⟨hdown, hlast, hbad⟩ := hclear .liustStatus (by simp)
    obtain ⟨hcap, hthr, hfast, hvin, hreg, hcool, hunmet, hwake⟩ := hclear .pwrSticky (by simp)
    obtain ⟨hcore, hres, hsram, hdlink, hout, hrbad, hrfull⟩ := hclear .errSticky (by simp)
    exact ⟨hclear .cfgLate (by simp), hclear .clkStatus (by simp), hclear .scoutStatus (by simp), hfeed, hdiverged, hhbm, hddr,
      hreo, hconf, hdown, hlast, hbad, hcap, hthr, hfast, hvin, hreg, hcool, hunmet, hwake, hclear .refStatus (by simp),
      hcore, hres, hsram, hdlink, hout, hrbad, hrfull, fun n hn => cleared_clearAllSticky s (hpb n hn),
      fun n hn => cleared_clearAllSticky s (hcq n hn), fun n hn => cleared_clearAllSticky s (hport n hn)⟩
  · rw [stickyCleared_one hne hr]
    obtain ⟨herr, href, hmem, hkeep⟩ := clearW1c_others s r (c.param 8 8 &&& r.w1c)
    refine ⟨rfl, fun hscout hfit hundef => clearW1c_bits _ hscout hfit hundef, fun hscout => ?_,
      fun x hx hsum => regRead_clearW1c _ hx hsum, herr, href, hmem, hkeep⟩
    subst hscout
    exact clearW1c_peak s (c.param 8 8)

end Sys2Proof

/-! PROOFS. Effects (R87 to R190, R398, R408): what one lands, what it leaves alone, and the rings, which copy by one (R239). -/

namespace Sys2Proof.Machine

/-- Two states of a sequencer that differ at most in its step windows. -/
def Seq.SameButWindows (q r : Seq) : Prop := r = { q with windows := r.windows }

theorem Seq.SameButWindows.trans {p q r : Seq} (h : p.SameButWindows q) (h' : q.SameButWindows r) : p.SameButWindows r := by
  unfold Seq.SameButWindows at h h' ⊢
  rw [h', h]

theorem Seq.SameButWindows.endsAlike {q r : Seq} (h : q.SameButWindows r) : q.EndsAlike r := by
  unfold Seq.SameButWindows at h
  unfold Seq.EndsAlike
  rw [h]

namespace State

/-! ## Cores and clusters -/

theorem SameCore.trans {x y z : Core} (h : SameCore x y) (h' : SameCore y z) : SameCore x z := by
  obtain ⟨hxy, hm⟩ := h
  obtain ⟨hyz, hm'⟩ := h'
  refine ⟨?_, ?_⟩
  · rw [← hyz] at hxy
    exact hxy
  · rcases hm with hm | ⟨hb, ha⟩
    · rcases hm' with hm' | ⟨hb', ha'⟩
      · exact .inl (hm'.trans hm)
      · exact .inr ⟨hm ▸ hb', ha'⟩
    · rcases hm' with hm' | ⟨hb', ha'⟩
      · exact .inr ⟨hb, hm'.trans ha⟩
      · rw [ha] at hb'
        cases hb'

theorem SameCluster.trans {a b c : Cluster} (h : SameCluster a b) (h' : SameCluster b c) : SameCluster a c := by
  refine ⟨?_, fun i => SameCore.trans (h.cores i) (h'.cores i)⟩
  have hab := h.words
  rw [← h'.words] at hab
  exact hab

/-- A cluster some of whose cores change what they hold of commands. -/
theorem sameCluster_modCore (c : Cluster) (n : Nat) {f : Core → Core} (hf : ∀ k, SameCore k (f k)) :
    SameCluster c { c with cores := vmod c.cores n f } := by
  refine ⟨rfl, fun i => ?_⟩
  show SameCore _ (vget (vmod c.cores n f) i {})
  by_cases hi : i < 28
  · by_cases hin : i = n
    · subst hin
      rw [vget_vmod_same _ _ _ _ hi]
      exact hf _
    · rw [vget_vmod_other _ _ _ _ _ hin]
      exact SameCore.refl _
  · rw [vget_outside hi, vget_outside hi]
    exact SameCore.refl _

theorem sameCluster_fillTiles (c : Cluster) (id : Nat) (tiles : List AccTile) (last : Option StatTile) :
    SameCluster c (c.fillTiles id tiles last) := by
  unfold Cluster.fillTiles
  dsimp only
  refine foldl_keeps (p := fun d : Cluster => SameCluster c d) (fun d x hd => SameCluster.trans hd ?_) _ (SameCluster.refl c)
  exact sameCluster_modCore d x.2.1 fun k => ⟨rfl, .inl rfl⟩

theorem sameCluster_modCluster (s : State) (m n : Nat) {f : Cluster → Cluster} (hf : ∀ k, SameCluster k (f k)) :
    SameCluster (s.cluster n) ((s.modCluster m f).cluster n) := by
  by_cases hn : n = m
  · subst hn
    by_cases hlt : n < 8
    · rw [cluster_modCluster_same _ _ hlt]
      exact hf _
    · rw [modCluster, vmod_outside _ _ _ (Nat.le_of_not_lt hlt)]
      exact SameCluster.refl _
  · rw [cluster_modCluster_other _ _ hn]
    exact SameCluster.refl _

/-- The sums of an effect lie in the tiles of the partitions that ran it, and nothing else changes. -/
theorem fillTiles_frame (s : State) (c : Cmd) (e : Effect) : s.fillTiles c e = { s with clusters := (s.fillTiles c e).clusters }
    ∧ ∀ n, SameCluster (s.cluster n) ((s.fillTiles c e).cluster n) := by
  unfold fillTiles
  split
  · exact ⟨rfl, fun n => SameCluster.refl _⟩
  · refine foldl_keeps (p := fun t : State => t = { s with clusters := t.clusters }
      ∧ ∀ n, SameCluster (s.cluster n) (t.cluster n)) (fun t l ht => ⟨?_, fun n => ?_⟩) _ ⟨rfl, fun n => SameCluster.refl _⟩
    · obtain ⟨hframe, -⟩ := ht
      dsimp only [modCluster]
      rw [hframe]
    · exact SameCluster.trans (ht.2 n) (sameCluster_modCluster t _ n fun k => sameCluster_fillTiles k _ _ _)

/-! ## What an effect lands -/

theorem sameButWindows_modSeq (s : State) (m n : Nat) {f : Seq → Seq} (hf : ∀ q : Seq, q.SameButWindows (f q)) :
    (s.seq n).SameButWindows ((s.modSeq m f).seq n) := by
  by_cases hn : n = m
  · subst hn
    by_cases hlt : n < 4
    · rw [seq_modSeq_same _ _ hlt]
      exact hf _
    · rw [modSeq, vmod_outside _ _ _ (Nat.le_of_not_lt hlt)]
      rfl
  · rw [seq_modSeq_other _ _ hn]
    rfl

theorem sameButWindows_bump (s : State) (c : Ctr) (k n : Nat) : (s.seq n).SameButWindows ((s.bump c k).seq n) := by
  unfold seq bump
  dsimp only
  rw [vget_ofFn]
  by_cases h : n < 4
  · simp only [h, vget, dif_pos]
    rfl
  · simp only [h, vget, dif_neg, not_false_eq_true]
    rfl

theorem sameButWindows_bumps (s : State) (l : List (Ctr × Nat)) (n : Nat) : (s.seq n).SameButWindows ((s.bumps l).seq n) := by
  induction l generalizing s with
  | nil => rfl
  | cons x r ih => exact (s.sameButWindows_bump x.1 x.2 n).trans (ih _)

theorem sameButWindows_noteGrad (s : State) (c : Cmd) (k n : Nat) : (s.seq n).SameButWindows ((s.noteGrad c k).seq n) := by
  unfold noteGrad
  split
  · refine (s.sameButWindows_bump .nonfiniteGrad k n).trans ?_
    unfold setNf
    split
    · rfl
    · exact sameButWindows_modSeq _ _ _ fun q => rfl
  · rfl

theorem noteGrad_frame (s : State) (c : Cmd) (k : Nat) :
    s.noteGrad c k = { s with ctrs := (s.noteGrad c k).ctrs, seqs := (s.noteGrad c k).seqs } := by
  unfold noteGrad
  split
  · rw [setNf_frame]
    rfl
  · rfl

theorem ctr_noteGrad (s : State) (c : Cmd) (k : Nat) {x : Ctr} (hx : x ≠ .nonfiniteGrad) : (s.noteGrad c k).ctr x = s.ctr x := by
  unfold noteGrad
  split
  · rw [setNf_frame]
    exact s.ctr_bump_other k hx
  · rfl

theorem ctr_bumps (s : State) (l : List (Ctr × Nat)) {x : Ctr} (hx : ∀ p ∈ l, p.1 ≠ x) : (s.bumps l).ctr x = s.ctr x := by
  induction l generalizing s with
  | nil => rfl
  | cons p r ih =>
    obtain ⟨hp, hr⟩ := List.forall_mem_cons.1 hx
    exact (ih _ hr).trans (s.ctr_bump_other p.2 (Ne.symm hp))

section
variable (s : State) (c : Cmd) (e : Effect)

/-- The state after the block writes of an effect. -/
def written : State := (s.writeBlocks e.writes).writeBlocks e.finals

theorem written_frame : s.written e = { s with
    mem := (s.written e).mem, free := (s.written e).free
    memside := { s.memside with uncured := (s.written e).memside.uncured, held := (s.written e).memside.held } } := by
  unfold written
  rw [writeBlocks_frame, writeBlocks_frame s]

/-- An effect changes memory, what its blocks showed of errors, counters, tiles, slots and step windows. -/
theorem landEffect_frame : s.landEffect c e = { s with
    mem := (s.written e).mem, free := (s.written e).free
    memside := { s.memside with uncured := (s.written e).memside.uncured, held := (s.written e).memside.held }
    ctrs := (s.landEffect c e).ctrs, seqs := (s.landEffect c e).seqs, clusters := (s.landEffect c e).clusters
    tiles := (s.landEffect c e).tiles, slots := (s.landEffect c e).slots } := by
  unfold landEffect
  dsimp only
  rw [noteGrad_frame]
  dsimp only [closeSlots]
  rw [addSlots_frame]
  dsimp only [noteTiles]
  rw [(fillTiles_frame ..).1, bumps_frame]
  show ({ s.written e with seqs := _, slots := _, ctrs := _, tiles := _, clusters := _ } : State) = _
  rw [written_frame]

theorem landEffect_seq (n : Nat) : (s.seq n).SameButWindows ((s.landEffect c e).seq n) := by
  have hwritten : (s.written e).seq n = s.seq n := by
    unfold seq
    rw [written_frame]
  unfold landEffect
  dsimp only
  refine Seq.SameButWindows.trans ?_ (sameButWindows_noteGrad _ _ _ n)
  have hslots (u : State) : ((u.addSlots c.ctx e.slots).closeSlots c.ctx e.closes).seq n = u.seq n := by
    show (u.addSlots c.ctx e.slots).seq n = _
    unfold seq
    rw [addSlots_frame]
  have htiles (u : State) : ((u.fillTiles c e).noteTiles c).seq n = u.seq n := by
    show (u.fillTiles c e).seq n = _
    unfold seq
    rw [(fillTiles_frame u c e).1]
  rw [hslots, htiles]
  refine Seq.SameButWindows.trans ?_ (sameButWindows_bumps _ e.ctrs n)
  exact hwritten ▸ rfl

theorem landEffect_clusters (n : Nat) : SameCluster (s.cluster n) ((s.landEffect c e).cluster n) := by
  have hbumped : (((s.written e).bumps e.ctrs).cluster n) = s.cluster n := by
    unfold cluster
    rw [bumps_frame, written_frame]
  have hlast : (s.landEffect c e).cluster n = (((s.written e).bumps e.ctrs).fillTiles c e).cluster n := by
    unfold landEffect
    dsimp only
    unfold cluster
    rw [noteGrad_frame]
    dsimp only [closeSlots]
    rw [addSlots_frame]
    rfl
  rw [hlast, ← hbumped]
  exact (fillTiles_frame _ c e).2 n

theorem landEffect_ctr {x : Ctr} (hx : x ≠ .nonfiniteGrad) (hnone : ∀ p ∈ e.ctrs, p.1 ≠ x) :
    (s.landEffect c e).ctr x = s.ctr x := by
  have hwritten : (s.written e).ctr x = s.ctr x := by
    unfold ctr
    rw [written_frame]
  have hlast : (s.landEffect c e).ctr x = ((s.written e).bumps e.ctrs).ctr x := by
    unfold landEffect
    dsimp only
    rw [ctr_noteGrad _ _ _ hx]
    unfold ctr
    dsimp only [closeSlots]
    rw [addSlots_frame]
    dsimp only [noteTiles]
    rw [(fillTiles_frame ..).1]
    rfl
  rw [hlast, ctr_bumps _ _ hnone, hwritten]

end

/-- Block writes that no retry holds land. -/
theorem writeBlocks_held {s : State} {ws : List BlockWr} (h : ∀ w ∈ ws, s.memside.pendingUe.contains w.loc = false) :
    (s.writeBlocks ws).memside.held = s.memside.held := by
  induction ws generalizing s with
  | nil => rfl
  | cons w r ih =>
    obtain ⟨hw, hr⟩ := List.forall_mem_cons.1 h
    have hland : s.writeBlock w = s.land w := writeBlock_lands s w hw
    show ((s.writeBlock w).writeBlocks r).memside.held = _
    rw [hland]
    exact ih (s := s.land w) hr

theorem written_held {s : State} {e : Effect} (h : s.retryBlocks e = false) : (s.written e).memside.held = s.memside.held := by
  have hfree : ∀ w ∈ e.writes ++ e.finals, s.memside.pendingUe.contains w.loc = false := by
    intro w hw
    simpa using List.any_eq_false.1 h w hw
  have hpending : (s.writeBlocks e.writes).memside.pendingUe = s.memside.pendingUe := by rw [writeBlocks_frame]
  unfold written
  rw [writeBlocks_held, writeBlocks_held]
  · exact fun w hw => hfree w (List.mem_append_left _ hw)
  · rw [hpending]
    exact fun w hw => hfree w (List.mem_append_right _ hw)

theorem written_byte_outside {s : State} {e : Effect} {a : Nat} (h : ∀ w ∈ e.writes ++ e.finals, a < w.loc ∨ w.loc + 64 ≤ a) :
    (s.written e).mem.byte a = s.mem.byte a :=
  (writeBlocks_byte_outside fun w hw => h w (List.mem_append_right _ hw)).trans
    (writeBlocks_byte_outside fun w hw => h w (List.mem_append_left _ hw))

theorem written_poisoned_other {s : State} {e : Effect} {a : Nat} (h : ∀ w ∈ e.writes ++ e.finals, blockOf a ≠ blockOf w.loc) :
    (s.written e).mem.poisoned a = s.mem.poisoned a :=
  (writeBlocks_poisoned_other fun w hw => h w (List.mem_append_right _ hw)).trans
    (writeBlocks_poisoned_other fun w hw => h w (List.mem_append_left _ hw))

/-- Of a sequencer that did not issue it, the end of a command changes nothing. -/
theorem finish_seq_other {s : State} {id n : Nat} {c : Cmd} (k : Compl) (hc : s.cmd? id = some c) (hn : c.ofSeq n = false) :
    (s.finish id k).seq n = s.seq n := by
  obtain ⟨hends, -⟩ := finish_completes hc k
  unfold Ends at hends
  rw [hc] at hends
  cases hsrc : c.src with
  | host q =>
    simp only [hsrc] at hends
    unfold seq
    rw [hends.2.2.1]
  | seq m entry step ph =>
    simp only [hsrc] at hends
    refine hends.2 n fun hnm => ?_
    rw [Cmd.ofSeq_eq, hsrc, hnm] at hn
    simp [Src.isSeq] at hn

/-- An effect that a retry holds up waits (R398). -/
theorem perform_waits {s : State} {e : Effect} (c : Cmd) (h : s.retryBlocks e = true) : s.perform c e = s := if_pos h

theorem perform_lands {s : State} {c : Cmd} {e : Effect} (hr : s.retryBlocks e = false) (ho : e.overLimit c = false) :
    s.perform c e = (s.landEffect c e).finish c.id (e.compl c) := by simp [perform, hr, ho]

/-- An effect that would write more poisoned blocks than its command allows stops it (R185). -/
theorem perform_stops {s : State} {c : Cmd} {e : Effect} (hc : s.cmd? c.id = some c) (hr : s.retryBlocks e = false)
    (ho : e.overLimit c = true) : ∃ u n x b, n ≤ c.part.count + e.count ∧ x ≤ e.aux ∧ b ≤ c.part.poisonIn + e.poisonIn
      ∧ Completes u (s.perform c e) c.id
          { status := 0x202, count := n, aux := x, poison := b != 0, poisonIn := b, poisonOut := c.poisonLimit } := by
  have hstop : s.perform c e = s.stopPoison c e := by simp [perform, hr, ho]
  rw [hstop]
  unfold stopPoison
  dsimp only [freeNat]
  refine ⟨_, _, _, _, ?_, ?_, ?_, finish_completes (c := c) ?_ _⟩
  · exact Nat.add_le_add_left (Nat.le_of_lt_succ (Nat.mod_lt _ (Nat.succ_pos _))) _
  · exact Nat.le_of_lt_succ (Nat.mod_lt _ (Nat.succ_pos _))
  · exact Nat.add_le_add_left (Nat.le_of_lt_succ (Nat.mod_lt _ (Nat.succ_pos _))) _
  · rw [stopEffect_frame]
    exact hc

end State

end Sys2Proof.Machine

namespace Sys2Proof

open Machine State

/-- The row of a data-path command runs its effect. -/
theorem dataCommand_exec {i : Instr} {id op : Nat} {f : State → Cmd → Effect} (h : dataCommand i = some (id, op, f))
    (s : State) : exec i s = .next (s.runOp id op f) := by
  unfold dataCommand at h
  split at h <;> cases h
  all_goals rfl

section
variable {i : Instr} {s : State} {id op : Nat} {f : State → Cmd → Effect} {c : Cmd}
  (hi : dataCommand i = some (id, op, f)) (hrun : s.running? id op = some c)
include hi hrun

theorem dataCommand_waits (h : s.slotTurn c = false ∨ s.mayStream id = false ∨ s.retryBlocks (f s c) = true) :
    exec i s = .next s := by
  rw [dataCommand_exec hi]
  refine congrArg Host.Outcome.next ?_
  by_cases hgo : s.slotTurn c = false ∨ s.mayStream id = false
  · refine runOp_idle fun d hd => ?_
    rw [hrun, Option.some.injEq] at hd
    exact hd ▸ hgo
  · rw [not_or] at hgo
    obtain ⟨hturn, hstream⟩ := hgo
    have hretry : s.retryBlocks (f s c) = true := by
      rcases h with h | h | h
      · exact absurd h hturn
      · exact absurd h hstream
      · exact h
    rw [runOp_runs hrun (by simpa using hturn) (by simpa using hstream), perform_waits c hretry]

variable (hturn : s.slotTurn c = true) (hstream : s.mayStream id = true) (hretry : s.retryBlocks (f s c) = false)
include hturn hstream hretry

omit hretry in
theorem dataCommand_performs : exec i s = .next (s.perform c (f s c)) := by
  rw [dataCommand_exec hi, runOp_runs hrun hturn hstream]

theorem dataCommand_ends (hlimit : (f s c).overLimit c = false) :
    exec i s = .next ((s.landEffect c (f s c)).finish id ((f s c).compl c))
      ∧ Completes (s.landEffect c (f s c)) ((s.landEffect c (f s c)).finish id ((f s c).compl c)) id ((f s c).compl c) := by
  obtain ⟨hc, -, -⟩ := running?_some hrun
  obtain rfl := cmd?_id hc
  have hdone := perform_completes hc hretry hlimit
  rw [perform_lands hretry hlimit] at hdone
  exact ⟨(dataCommand_performs hi hrun hturn hstream).trans (by rw [perform_lands hretry hlimit]), hdone⟩

theorem dataCommand_stops (hlimit : (f s c).overLimit c = true) : ∃ t u n x b, exec i s = .next t
    ∧ n ≤ c.part.count + (f s c).count ∧ x ≤ (f s c).aux ∧ b ≤ c.part.poisonIn + (f s c).poisonIn
    ∧ Completes u t id { status := 0x202, count := n, aux := x, poison := b != 0, poisonIn := b, poisonOut := c.poisonLimit } := by
  obtain ⟨hc, -, -⟩ := running?_some hrun
  obtain rfl := cmd?_id hc
  obtain ⟨u, n, x, b, hn, hx, hb, hdone⟩ := perform_stops hc hretry hlimit
  exact ⟨_, u, n, x, b, dataCommand_performs hi hrun hturn hstream, hn, hx, hb, hdone⟩

end

/-- Settles O39: what `State.perform` can do. -/
theorem dataCommandsRunToTheirEnd : Obligations.DataCommandsRunToTheirEnd := by
  refine ⟨fun i s id op f c hi hrun => dataCommand_waits hi hrun, fun i s id op f c hi hrun hturn hstream => ?_,
    fun i s id op f c hi hrun hturn hstream hretry hlimit hover => ?_⟩
  · intro e hretry hlimit
    obtain ⟨hexec, hdone⟩ := dataCommand_ends hi hrun hturn hstream hretry hlimit
    exact ⟨_, hexec, rfl, hdone⟩
  · refine dataCommand_stops hi hrun hturn hstream hretry ?_
    simp [Effect.overLimit, hlimit, hover]

/-- Settles O40: what `State.landEffect` and then the end of the command leave. -/
theorem dataCommandsChangeOnlyTheirBlocks : Obligations.DataCommandsChangeOnlyTheirBlocks := by
  intro i s id op f c a hi hrun hturn hstream hretry hlimit hblocks
  obtain ⟨hexec, -, hkept, -⟩ := dataCommand_ends hi hrun hturn hstream hretry hlimit
  obtain ⟨hc, -, -⟩ := running?_some hrun
  have hframe := s.landEffect_frame c (f s c)
  have hmem : (s.landEffect c (f s c)).mem = (s.written (f s c)).mem := by rw [hframe]
  have hctr (k : Ctr) : ((s.landEffect c (f s c)).finish id ((f s c).compl c)).ctr k = (s.landEffect c (f s c)).ctr k := by
    unfold ctr
    rw [hkept.ctrs]
  have hcl : (s.landEffect c (f s c)).cmd? id = some c := by rw [hframe]; exact hc
  refine ⟨_, hexec, ?_, ?_, ?_, fun n => ?_, ?_, ?_, ?_, ?_, ?_, ?_, ?_, fun k hk hnone => ?_, fun n hn => ?_, ?_, ?_, ?_, ?_, ?_,
    ?_, ?_, ?_, ?_⟩
  · rw [hkept.mem, hmem]
    exact written_byte_outside fun w hw => (hblocks w hw).2
  · rw [hkept.mem, hmem]
    exact written_poisoned_other fun w hw => (hblocks w hw).1
  · rw [hkept.contexts, hframe]
  · exact SameCluster.trans (landEffect_clusters s c (f s c) n) (hkept.clusters n)
  · rw [hkept.sqs, hframe]
  · rw [hkept.drafts, hframe]
  · rw [hkept.keeper, hframe]
  · rw [hkept.memside, hframe]
    have hheld := written_held hretry
    dsimp only
    rw [hheld]
  · rw [hkept.referee, hframe]
  · rw [hkept.errors, hframe]
  · rw [hkept.scout, hframe]
  · rw [hctr]
    exact landEffect_ctr s c (f s c) hk hnone
  · have hseq := landEffect_seq s c (f s c) n
    unfold Seq.SameButWindows at hseq
    rw [finish_seq_other _ hcl hn]
    exact hseq
  · rw [hkept.power, hframe]
  · rw [hkept.fabric, hframe]
  · rw [hkept.liust, hframe]
  · rw [hkept.save, hframe]
  · rw [hkept.hostTx, hframe]
  · rw [hkept.fabTx, hframe]
  · rw [hkept.cycles, hframe]
  · rw [hkept.rngSeed, hframe]
  · rw [hkept.cfgLate, hframe]

/-! ## Rings (R239, R240) -/

theorem written_modSeq (s : State) (n : Nat) (f : Seq → Seq) (e : Effect) :
    (s.modSeq n f).written e = (s.written e).modSeq n f := by
  have hblocks (ws : List BlockWr) (t : State) : (t.modSeq n f).writeBlocks ws = (t.writeBlocks ws).modSeq n f := by
    induction ws generalizing t with
    | nil => rfl
    | cons w r ih =>
      have hone : (t.modSeq n f).writeBlock w = (t.writeBlock w).modSeq n f := by
        cases h : t.memside.pendingUe.contains w.loc with
        | true => rw [writeBlock_held _ _ h, writeBlock_held _ _ (by exact h)]; rfl
        | false => rw [writeBlock_lands _ _ h, writeBlock_lands _ _ (by exact h)]; rfl
      show ((t.modSeq n f).writeBlock w).writeBlocks r = _
      rw [hone]
      exact ih _
  unfold written
  rw [hblocks, hblocks]

section
variable {s : State} {id n : Nat} {c : Cmd} {d : Operand} {f : Seq → Seq} {e : Effect}

/-- A copy into or out of a ring moves its index on by one as it lands. -/
theorem perform_movesIndex (hn : n < 4) (hc : s.cmd? c.id = some c) (hretry : s.retryBlocks e = false)
    (hlimit : e.overLimit c = false) : (f (s.seq n)).EndsAlike (((s.modSeq n f).perform c e).seq n)
      ∧ ((s.modSeq n f).perform c e).mem = (s.written e).mem ∧ ((s.modSeq n f).perform c e).hostTx = s.hostTx
      ∧ ((s.modSeq n f).perform c e).linkUp = s.linkUp := by
  have hretry' : (s.modSeq n f).retryBlocks e = false := hretry
  obtain ⟨-, hkept, -⟩ := perform_completes (s := s.modSeq n f) hc hretry' hlimit
  have hframe := (s.modSeq n f).landEffect_frame c e
  have hseq := ((s.modSeq n f).landEffect_seq c e n).endsAlike
  rw [seq_modSeq_same _ _ hn] at hseq
  refine ⟨?_, ?_, ?_, ?_⟩
  · rw [perform_lands hretry' hlimit]
    exact hseq.trans (finish_endsAlike _ _ _ hn)
  · rw [hkept.mem, hframe, written_modSeq]
    rfl
  · rw [hkept.hostTx, hframe]
    rfl
  · have hstate := congrArg Liust.state hkept.liust
    rw [hframe] at hstate
    unfold linkUp
    rw [show ((s.modSeq n f).perform c e).liust.state = s.liust.state from hstate]

variable (hop : c.op? 0 = some d) (hfirst : s.earlierSame c = false)
include hop hfirst

theorem pbFeed_copies (hrun : s.running? id 0x643 = some c) (hn : c.seqNum < 4)
    (he : e = s.ringCopy (d.inSlot (ringSlot (s.seq c.seqNum).inBase (s.seq c.seqNum).inSlot (s.seq c.seqNum).inSlots
      (s.seq c.seqNum).feedHead)) d) :
    (s.retryBlocks e = true → exec (.pbFeed id) s = .next s) ∧ (s.retryBlocks e = false → e.overLimit c = false →
      ∃ t, exec (.pbFeed id) s = .next t ∧ (t.seq c.seqNum).feedHead = (s.seq c.seqNum).feedHead + 1#32
        ∧ t.mem = ((s.writeBlocks e.writes).writeBlocks e.finals).mem) := by
  have hexec : exec (.pbFeed id) s = .next ((if s.retryBlocks e || e.overLimit c then s
      else s.modSeq c.seqNum (fun q => { q with feedHead := q.feedHead + 1#32 })).perform c e) := by
    refine congrArg Host.Outcome.next ?_
    unfold doPbFeed
    rw [hrun]
    dsimp only
    rw [hop]
    dsimp only
    rw [hfirst, if_neg Bool.false_ne_true, he]
  obtain ⟨hc, -, -⟩ := running?_some hrun
  obtain rfl := cmd?_id hc
  refine ⟨fun hretry => ?_, fun hretry hlimit => ?_⟩
  · rw [hexec, hretry, Bool.true_or, if_pos rfl, perform_waits c hretry]
  · rw [hretry, hlimit, Bool.or_false, if_neg Bool.false_ne_true] at hexec
    obtain ⟨hseq, hmem, -⟩ := perform_movesIndex (f := fun q => { q with feedHead := q.feedHead + 1#32 }) hn hc hretry hlimit
    unfold Seq.EndsAlike at hseq
    exact ⟨_, hexec, (congrArg Seq.feedHead hseq :), hmem⟩

theorem pbPost_copies (hrun : s.running? id 0x644 = some c) (hn : c.seqNum < 4)
    (he : e = s.ringCopy d (d.inSlot (ringSlot (s.seq c.seqNum).resBase (s.seq c.seqNum).resSlot (s.seq c.seqNum).resSlots
      (s.seq c.seqNum).resultTail))) :
    (s.retryBlocks e = true → exec (.pbPost id) s = .next s) ∧ (s.retryBlocks e = false → e.overLimit c = false →
      ∃ t, exec (.pbPost id) s = .next t ∧ (t.seq c.seqNum).resultTail = (s.seq c.seqNum).resultTail + 1#32
        ∧ t.mem = ((s.writeBlocks e.writes).writeBlocks e.finals).mem
        ∧ t.hostTx = s.hostTx ++ (if bit (c.param 8 4) 0 && s.linkUp then [.msgInt (s.seq c.seqNum).postVector] else [])) := by
  obtain ⟨hc, -, -⟩ := running?_some hrun
  obtain rfl := cmd?_id hc
  have hdef : exec (.pbPost c.id) s = .next (if s.retryBlocks e || e.overLimit c then s.perform c e
      else
        let u := (s.modSeq c.seqNum (fun q => { q with resultTail := q.resultTail + 1#32 })).perform c e
        if bit (c.param 8 4) 0 && u.linkUp then u.sendHost (.msgInt (s.seq c.seqNum).postVector) else u) := by
    refine congrArg Host.Outcome.next ?_
    unfold doPbPost
    rw [hrun]
    dsimp only
    rw [hop]
    dsimp only
    rw [hfirst, if_neg Bool.false_ne_true, he]
  refine ⟨fun hretry => ?_, fun hretry hlimit => ?_⟩
  · rw [hdef, hretry, Bool.true_or, if_pos rfl, perform_waits c hretry]
  · rw [hretry, hlimit, Bool.or_false, if_neg Bool.false_ne_true] at hdef
    obtain ⟨hseq, hmem, htx, hlink⟩ := perform_movesIndex (f := fun q => { q with resultTail := q.resultTail + 1#32 }) hn hc hretry hlimit
    unfold Seq.EndsAlike at hseq
    generalize (s.modSeq c.seqNum (fun q => { q with resultTail := q.resultTail + 1#32 })).perform c e = u at *
    dsimp only at hdef
    rw [hlink] at hdef
    refine ⟨_, hdef, ?_, ?_, ?_⟩
    · split
      · exact (congrArg Seq.resultTail hseq :)
      · exact (congrArg Seq.resultTail hseq :)
    · split
      · exact hmem
      · exact hmem
    · split
      · exact (congrArg (· ++ [HostTx.msgInt (s.seq c.seqNum).postVector]) htx :)
      · rw [htx, List.append_nil]

end

/-- Settles O21: the copies of `ringCopy`, and the writes of the two indices of the host. -/
theorem ringIndicesMove : Obligations.RingIndicesMove := by
  refine ⟨fun s id c d hrun hop hfirst hn => pbFeed_copies hop hfirst hrun hn rfl,
    fun s id c d hrun hop hfirst hn => pbPost_copies hop hfirst hrun hn rfl, fun s n v hn hup hst => ⟨⟨_, ?_, rfl⟩, _, ?_, rfl⟩⟩
  · refine congrArg Host.Outcome.next ((atHost_up hup).trans ?_)
    unfold doFeedTail
    dsimp only
    rw [hup, Bool.not_true, Bool.false_or, if_neg (by simpa using hst)]
    split
    · next h => exact modSeq_congr (by simp only [h, if_true])
    · next h => exact modSeq_congr (by simp only [h, if_false])
  · exact congrArg Host.Outcome.next ((atHost_up hup).trans (if_pos (by simpa using hst)))

end Sys2Proof

/-! PROOFS. Remote accesses as this module serves them (R298, R303, R476): what is refused, what waits, what lands. -/

namespace Sys2Proof.Machine

theorem lt_of_mem_enumFrom_chunksOf {α : Type} {n : Nat} {x : Nat × List α} {fuel k : Nat} {l : List α}
    (h : x ∈ enumFrom k (chunksOf n fuel l)) : n * x.1 < n * k + l.length := by
  induction fuel generalizing k l with
  | zero => simp [chunksOf, enumFrom] at h
  | succ fuel ih =>
    cases l with
    | nil => simp [chunksOf, enumFrom] at h
    | cons a r =>
      rcases List.mem_cons.mp h with rfl | h
      · simp
      · obtain hr | hr := Nat.lt_or_ge n (a :: r).length
        · have := ih h
          simp only [List.length_drop, List.length_cons, Nat.mul_add, Nat.mul_one] at this hr ⊢
          omega
        · rw [List.drop_eq_nil_of_le hr] at h
          cases fuel <;> simp [chunksOf, enumFrom] at h

/-- A piece of n elements of a list begins inside it. -/
theorem lt_of_mem_enumFrom_chunks {α : Type} {n : Nat} {x : Nat × List α} {l : List α}
    (h : x ∈ enumFrom 0 (chunks n l)) : n * x.1 < l.length := by
  have := lt_of_mem_enumFrom_chunksOf h
  omega

theorem loc_of_mem_blockWrites {w : BlockWr} {a : Nat} {data : List Byte} {poison : Nat}
    (h : w ∈ blockWrites a data poison) : ∃ i, w.loc = a + 64 * i ∧ 64 * i < data.length := by
  obtain ⟨x, hx, rfl⟩ := List.mem_map.mp h
  exact ⟨x.1, rfl, lt_of_mem_enumFrom_chunks hx⟩

namespace State

/-- Whole blocks written from an address change no byte outside them. -/
theorem writeBlocks_blockWrites_byte {s : State} {a x poison : Nat} {data : List Byte} (hn : data.length % 64 = 0)
    (hx : x < a ∨ a + data.length ≤ x) : (s.writeBlocks (blockWrites a data poison)).mem.byte x = s.mem.byte x := by
  refine writeBlocks_byte_outside fun w hw => ?_
  obtain ⟨i, hloc, hi⟩ := loc_of_mem_blockWrites hw
  omega

/-! ## Memory that is reached -/

theorem woken_frame (s : State) (a n : Nat) (dies : List Nat) :
    woken s a n dies = { s with power := { s.power with domains := (woken s a n dies).power.domains } } :=
  touchAll_frame _ _

theorem access_reached {s : State} {a n : Nat} {dies : List Nat} (f : State → State) (h : Reached s a n dies) :
    s.access dies a n f = f (woken s a n dies) :=
  if_pos (List.all_eq_true.mpr h)

theorem access_waits {s : State} {a n : Nat} {dies : List Nat} (f : State → State) (h : ¬ Reached s a n dies) :
    s.access dies a n f = woken s a n dies :=
  if_neg (fun hall => h (List.all_eq_true.mp hall))

theorem spanFrom_congr {s t : State} (h : t.memside = s.memside) (fuel lo hi : Nat) :
    t.spanFrom fuel lo hi = s.spanFrom fuel lo hi := by
  induction fuel generalizing lo with
  | zero => rfl
  | succ fuel ih =>
    unfold spanFrom
    simp only [ih, h]

theorem presentSpan_congr {s t : State} (h : t.memside = s.memside) (a n : Nat) : t.presentSpan a n = s.presentSpan a n := by
  unfold presentSpan
  rw [spanFrom_congr h]

@[simp] theorem remoteRej_woken (s : State) (p : Packet) (a n k : Nat) (dies : List Nat) (write : Bool) :
    (woken s a n dies).remoteRej p k write = s.remoteRej p k write := by
  have hspan := presentSpan_congr (s := s) (t := woken s a n dies) (by rw [woken_frame]) p.hdr.addr k
  unfold remoteRej
  rw [hspan, woken_frame]
  rfl

@[simp] theorem inject_mem (s : State) (p : Packet) : (s.inject p).mem = s.mem := by
  rw [inject_frame]

/-! ## Requests that are served -/

section
variable {s : State} {p : Packet} {n : Nat} {write : Bool}

theorem serve_refused (f : State → Packet → State × Packet) (h : s.remoteRej p n write ≠ 0) :
    s.serve p n write f = (f s p).1.inject (f s p).2 :=
  if_pos (bne_iff_ne.mpr h)

theorem serve_allowed (f : State → Packet → State × Packet) (h : s.remoteRej p n write = 0) :
    s.serve p n write f = s.access [] p.hdr.addr n (fun t => (f t p).1.inject (f t p).2) :=
  if_neg (fun hne => bne_iff_ne.mp hne h)

theorem serveWrite_allowed (h : s.remoteRej p p.payload.length true = 0) :
    s.serveWrite p = (s.writeBlocks (blockWrites p.hdr.addr p.payload p.poison), answer p .wrAck) :=
  if_neg (fun hne => bne_iff_ne.mp hne h)

theorem serveWrite_refused (h : s.remoteRej p p.payload.length true ≠ 0) :
    s.serveWrite p = (s.bump .fabRemoteReject, errAnswer p (s.remoteRej p p.payload.length true)) :=
  if_pos (bne_iff_ne.mpr h)

theorem serveRead_refused (h : s.remoteRej p p.hdr.len false ≠ 0) :
    s.serveRead p = (s.bump .fabRemoteReject, errAnswer p (s.remoteRej p p.hdr.len false)) :=
  if_pos (bne_iff_ne.mpr h)

/-- The response to a read that is allowed. -/
def readAnswer (s : State) (p : Packet) : Packet :=
  let poison := s.poisonBits p.hdr.addr (p.hdr.len / 64)
  { answer p .rdResp with
    hdr := { (answer p .rdResp).hdr with psn := poison != 0 }
    payload := s.mem.bytes p.hdr.addr p.hdr.len, poison := poison }

theorem serveRead_allowed (h : s.remoteRej p p.hdr.len false = 0) : s.serveRead p = (s, readAnswer s p) :=
  if_neg (fun hne => bne_iff_ne.mp hne h)

@[simp] theorem readAnswer_woken (s : State) (p : Packet) (a k : Nat) (dies : List Nat) :
    readAnswer (woken s a k dies) p = readAnswer s p := by
  rw [woken_frame]
  rfl

end

/-- A write of another module, once it has arrived: it lands whole, waits, or is refused. -/
theorem write_served {s : State} {p : Packet} {ty : PktType} {i : Instr}
    (hexec : exec i s = .next (s.receive p ty (fun s => s.serve p p.payload.length true State.serveWrite)))
    (ha : Arrives s p ty) (hwhole : p.payload.length % 64 = 0) :
    (s.remoteRej p p.payload.length true = 0 →
      (Reached s p.hdr.addr p.payload.length → ∃ t, exec i s = .next t
        ∧ t = ((woken s p.hdr.addr p.payload.length).writeBlocks (blockWrites p.hdr.addr p.payload p.poison)).inject
          (answer p .wrAck)
        ∧ ∀ a, a < p.hdr.addr ∨ p.hdr.addr + p.payload.length ≤ a → t.mem.byte a = s.mem.byte a)
      ∧ (¬Reached s p.hdr.addr p.payload.length → exec i s = .next (woken s p.hdr.addr p.payload.length)
        ∧ (woken s p.hdr.addr p.payload.length).mem = s.mem))
    ∧ (∀ r, s.remoteRej p p.payload.length true = r → r ≠ 0 →
      ∃ t, exec i s = .next t ∧ t = (s.bump .fabRemoteReject).inject (errAnswer p r) ∧ t.mem = s.mem) := by
  have hmem : (woken s p.hdr.addr p.payload.length).mem = s.mem := by rw [woken_frame]
  rw [hexec, receive_arrives ha]
  refine ⟨fun h0 => ⟨fun hr => ⟨_, rfl, ?_, ?_⟩, fun hr => ⟨?_, hmem⟩⟩, ?_⟩
  · rw [serve_allowed _ h0, access_reached _ hr, serveWrite_allowed (by simpa using h0)]
  · intro a ha
    rw [serve_allowed _ h0, access_reached _ hr, serveWrite_allowed (by simpa using h0), inject_mem,
      writeBlocks_blockWrites_byte hwhole ha, hmem]
  · rw [serve_allowed _ h0, access_waits _ hr]
  · rintro r rfl hr
    refine ⟨_, rfl, ?_, ?_⟩
    · rw [serve_refused _ hr, serveWrite_refused hr]
    · rw [serve_refused _ hr, serveWrite_refused hr, inject_mem]
      rfl

theorem read_served {s : State} {p : Packet} (ha : Arrives s p .rdReq) :
    ∃ t, exec (.remoteRdReq p) s = .next t ∧ t.mem = s.mem
      ∧ (s.remoteRej p p.hdr.len false = 0 →
          (Reached s p.hdr.addr p.hdr.len → t = (woken s p.hdr.addr p.hdr.len).inject (readAnswer s p))
          ∧ (¬Reached s p.hdr.addr p.hdr.len → t = woken s p.hdr.addr p.hdr.len))
      ∧ (s.remoteRej p p.hdr.len false ≠ 0 →
          t = (s.bump .fabRemoteReject).inject (errAnswer p (s.remoteRej p p.hdr.len false))) := by
  refine ⟨_, congrArg Host.Outcome.next (receive_arrives ha _), ?_⟩
  by_cases h0 : s.remoteRej p p.hdr.len false = 0
  · rw [serve_allowed _ h0]
    by_cases hr : Reached s p.hdr.addr p.hdr.len
    · rw [access_reached _ hr, serveRead_allowed (by simpa using h0), readAnswer_woken, inject_mem]
      exact ⟨by rw [woken_frame], fun _ => ⟨fun _ => rfl, fun hn => absurd hr hn⟩, fun hn => absurd h0 hn⟩
    · rw [access_waits _ hr]
      exact ⟨by rw [woken_frame], fun _ => ⟨fun h => absurd h hr, fun _ => rfl⟩, fun hn => absurd h0 hn⟩
  · rw [serve_refused _ h0, serveRead_refused h0, inject_mem]
    exact ⟨rfl, fun h => absurd h h0, fun _ => rfl⟩

theorem length_of_lenOk_write {p : Packet} (hty : p.type = .wr ∨ p.type = .wrBulk) (h : lenOk p = true) :
    p.payload.length % 64 = 0 := by
  rcases hty with hty | hty <;>
    · simp only [lenOk, hty, Bool.and_eq_true, beq_iff_eq] at h
      omega

end State

open State

/-- Settles O24: requests of other modules are served or refused, and a refused one leaves memory. -/
theorem remoteAccessesAnswer : Obligations.RemoteAccessesAnswer := by
  unfold Obligations.RemoteAccessesAnswer
  refine ⟨fun s p => ?_, fun s p ha => ?_⟩
  · refine ⟨fun ha => ?_, fun ha => ?_⟩
    · exact write_served rfl ha (length_of_lenOk_write (.inl ha.1) ha.2.2.2.2.2)
    · exact write_served rfl ha (length_of_lenOk_write (.inr ha.1) ha.2.2.2.2.2)
  · obtain ⟨t, hexec, hmem, hallowed, hrefused⟩ := read_served ha
    exact ⟨t, hexec, hmem, hallowed, hrefused⟩

end Sys2Proof.Machine

/-! PROOFS. Remote commands of this module (R298, R304, R398): what blocks that land leave, and how their commands end. -/

namespace Sys2Proof.Machine

namespace State

/-! ## Blocks that land for a command -/

/-- What holds of a state through every act of `landBlocks` holds after it. -/
theorem landBlocks_keeps {P : State → Prop} {id : Nat} {f : Fmt} {ws : List BlockWr}
    (hend : ∀ t c k, t.cmd? id = some c → c.poisonLimit ≠ 0xFFFF → P t → P (t.finish id k))
    (hblock : ∀ t, ∀ w ∈ ws, P t → P (t.writeBlock w))
    (hcount : ∀ t n src, P t → P ((t.bump .nonfiniteGrad n).setNf src))
    (hcmd : ∀ t n, P t → P (t.modCmd id (fun c => { c with part := { c.part with poisonOut := c.part.poisonOut + n } })))
    {s : State} (h : P s) : P (s.landBlocks id f ws).1 := by
  induction ws generalizing s with
  | nil => exact h
  | cons w r ih =>
    unfold landBlocks
    split
    · exact h
    · next c hc =>
      split
      · next hlimit =>
        refine hend _ c _ hc (fun h => ?_) h
        simp [h] at hlimit
      · have hw := hblock s w List.mem_cons_self h
        have hcounted : ∀ (n : Nat) (src : Src),
            P (if n == 0 then s.writeBlock w else ((s.writeBlock w).bump .nonfiniteGrad n).setNf src) := fun n src => by
          split
          · exact hw
          · exact hcount _ _ _ hw
        exact ih (fun t v hv => hblock t v (List.mem_cons_of_mem _ hv)) (hcmd _ _ (hcounted _ _))

/-- A command that settles ends, or stays as it is but for a free choice. -/
theorem settleRemote_keeps {P : State → Prop} {id : Nat} (hend : ∀ t k, P t → P (t.finish id k))
    (hfree : ∀ t, P t → P t.freeBit.2) {s : State} (h : P s) : P (s.settleRemote id) := by
  have hpart : ∀ t, P t → P (t.finishPart id (plainCompl Status.ok)) := fun t ht => by
    unfold finishPart
    split
    · exact ht
    · exact hend _ _ ht
  unfold settleRemote
  split
  · exact h
  · split
    · dsimp only
      split
      · exact hpart _ (hfree _ h)
      · exact hfree _ h
    · exact hpart _ h

/-! ## The requests that a command awaits -/

/-- Every request that the one state awaits the other awaits too. -/
def AwaitsNoMore (s t : State) : Prop := ∀ r ∈ t.fabric.remotes, r ∈ s.fabric.remotes

theorem finish_remotes_sub (s : State) (id : Nat) (k : Compl) : AwaitsNoMore s (s.finish id k) := by
  intro r hr
  cases hc : s.cmd? id with
  | none => rwa [finish_of_none hc] at hr
  | some c =>
    rw [finish_fabric s hc] at hr
    exact (List.mem_filter.mp hr).1

theorem finish_backlog (s : State) (id : Nat) (k : Compl) (h : s.fabric.backlog = []) :
    (s.finish id k).fabric.backlog = [] := by
  cases hc : s.cmd? id with
  | none => rw [finish_of_none hc]; exact h
  | some c =>
    rw [finish_fabric s hc]
    simp [h]

section
variable {s : State} {ws : List BlockWr}

theorem landBlocks_remotes_sub (id : Nat) (f : Fmt) : AwaitsNoMore s (s.landBlocks id f ws).1 := by
  refine landBlocks_keeps (P := AwaitsNoMore s) (fun t _ k _ _ ht r hr => ht r (finish_remotes_sub t id k r hr))
    (fun t w _ ht r hr => ht r ?_) (fun t n src ht r hr => ht r ?_) (fun _ _ ht => ht) (fun _ hr => hr)
  · rwa [writeBlock_fabric] at hr
  · rw [setNf_frame] at hr
    exact hr

theorem landBlocks_byte_outside (id : Nat) (f : Fmt) {a : Nat} (h : ∀ w ∈ ws, a < w.loc ∨ w.loc + 64 ≤ a) :
    (s.landBlocks id f ws).1.mem.byte a = s.mem.byte a := by
  refine landBlocks_keeps (P := fun t => t.mem.byte a = s.mem.byte a) (fun t _ k _ _ ht => ?_) (fun t w hw ht => ?_)
    (fun t n src ht => ?_) (fun _ _ ht => ht) rfl
  · rwa [finish_mem]
  · rw [writeBlock_byte_outside (h w hw), ht]
  · rw [setNf_frame]
    exact ht

theorem settleRemote_remotes_sub (id : Nat) : AwaitsNoMore s (s.settleRemote id) :=
  settleRemote_keeps (P := AwaitsNoMore s) (fun t k ht r hr => ht r (finish_remotes_sub t id k r hr)) (fun _ ht => ht)
    (fun _ hr => hr)

theorem settleRemote_mem (id : Nat) : (s.settleRemote id).mem = s.mem :=
  settleRemote_keeps (P := fun t => t.mem = s.mem) (fun t k ht => by rw [finish_mem, ht]) (fun _ ht => ht) rfl

end

/-! ## The end of a remote command -/

section
variable {s : State} {p : Packet} {r : Remote} {c : Cmd}

theorem tag_of_mem_dropRemote {x : Remote} {tag : Nat} (h : x ∈ (s.dropRemote tag).fabric.remotes) : x.tag ≠ tag :=
  bne_iff_ne.mp (List.mem_filter.mp h).2

theorem settleRemote_held {id : Nat} (h : s.memside.held ≠ []) : s.settleRemote id = s := by
  simp [settleRemote, h]

/-- A FAB_PUT or FAB_GET with nothing more to come, while no write waits for a retry, completes. -/
theorem settleRemote_ends {id : Nat} (hc : s.cmd? id = some c) (hop : c.opcode ≠ 0x802)
    (hawait : ∀ x ∈ s.fabric.remotes, x.id ≠ id) (hback : ∀ b ∈ s.fabric.backlog, b.1 ≠ id)
    (hheld : s.memside.held = []) :
    s.settleRemote id = s.finish id { plainCompl Status.ok with
      poison := c.part.poison, poisonIn := c.part.poisonIn, poisonOut := c.part.poisonOut } := by
  have hrestore : (s.running? id 0x802).isSome = false := by
    cases hrun : s.running? id 0x802 with
    | none => rfl
    | some d =>
      obtain ⟨hd, -, hdop⟩ := running?_some hrun
      exact absurd (Option.some.inj (hc.symm.trans hd) ▸ hdop) hop
  have hany : s.fabric.remotes.any (fun x => x.id == id) = false := by simpa using hawait
  have hsent : s.fabric.backlog.any (fun b => b.1 == id) = false := by simpa using hback
  unfold settleRemote
  simp only [hany, hsent, hheld, hrestore, List.isEmpty_nil, Bool.not_true, Bool.or_self, Bool.false_eq_true,
    if_false]
  unfold finishPart
  rw [hc]

/-- A remote command that fails ends, and nothing of the backlog moves. -/
theorem failRemote_completes (st : Nat) (hc : s.cmd? r.id = some c) (hback : s.fabric.backlog = []) :
    Completes (s.dropQueued ((s.fabric.remotes.filter (fun x => x.id == r.id)).map (fun x => x.tag)))
      (s.failRemote r.id st).pumpRemotes r.id
      { status := st, poisonIn := c.part.poisonIn, poisonOut := c.part.poisonOut } := by
  unfold failRemote
  dsimp only
  rw [hc]
  generalize hu : s.dropQueued ((s.fabric.remotes.filter (fun x => x.id == r.id)).map (fun x => x.tag)) = u
  have hcu : u.cmd? r.id = some c := by rw [← hu]; exact hc
  have hbacku : u.fabric.backlog = [] := by rw [← hu]; exact hback
  rw [pumpRemotes_idle (finish_backlog u r.id _ hbacku)]
  exact finish_completes hcu _

theorem takeResponse_wrAck (hty : p.type = .wrAck) (hr : s.remote? p = some r) (hw : r.write = true)
    (hback : s.fabric.backlog = []) : s.takeResponse p = (s.dropRemote r.tag).settleRemote r.id := by
  have hpump : (s.dropRemote r.tag).pumpRemotes = s.dropRemote r.tag := pumpRemotes_idle hback
  unfold takeResponse
  simp only [hr, hty, hw, if_true, hpump]

theorem takeResponse_errResp (hty : p.type = .errResp) (hr : s.remote? p = some r) :
    s.takeResponse p = (s.failRemote r.id Status.fltRemote).pumpRemotes := by
  unfold takeResponse
  simp only [hr, hty]

/-- The blocks of a response to a read, where they land. -/
def responseWrites (p : Packet) (r : Remote) (o : Operand) : List BlockWr :=
  (enumFrom 0 (chunks 64 p.payload)).map (fun x =>
    { loc := r.addr + 64 * x.1, mask := o.d.blockMask (r.first + x.1), val := leNat x.2
      poison := o.foul || bit p.poison x.1, carry := true : BlockWr })

theorem loc_of_mem_responseWrites {w : BlockWr} {o : Operand} (h : w ∈ responseWrites p r o) :
    r.addr ≤ w.loc ∧ w.loc + 64 ≤ r.addr + 64 * ((p.payload.length + 63) / 64) := by
  obtain ⟨x, hx, rfl⟩ := List.mem_map.mp h
  have := lt_of_mem_enumFrom_chunks hx
  dsimp only
  omega

theorem takeResponse_rdResp {o : Operand} (hty : p.type = .rdResp) (hr : s.remote? p = some r) (hw : r.write = false)
    (hc : s.cmd? r.id = some c) (ho : c.op? 0 = some o) (hback : s.fabric.backlog = []) :
    s.takeResponse p =
      let u := (s.dropRemote r.tag).addPoisonIn r.id (countBits p.poison (p.payload.length / 64))
      let t := u.landBlocks r.id o.d.fmt (responseWrites p r o)
      if t.2 then t.1.settleRemote r.id else t.1 := by
  have hpump : (s.dropRemote r.tag).pumpRemotes = s.dropRemote r.tag := pumpRemotes_idle hback
  have hop : (s.cmd? r.id).bind (fun c => c.op? 0) = some o := by rw [hc]; exact ho
  unfold takeResponse
  simp only [hr, hty, hw, hop, hpump]
  rfl

end

end State

open State

/-- Settles O25: how the responses that a remote command awaits end it. -/
theorem responsesEndRemoteCommands : Obligations.ResponsesEndRemoteCommands := by
  unfold Obligations.ResponsesEndRemoteCommands
  intro s p r c hc hop hback
  refine ⟨fun ha hr hw hheld => ?_, fun ha hr hw hheld hlast => ?_, fun ha hr => ?_, fun hr => ?_,
    fun ha hr hw hsome => ?_⟩
  · refine congrArg Host.Outcome.next ((receive_arrives ha _).trans ((takeResponse_wrAck ha.1 hr hw hback).trans ?_))
    exact settleRemote_held hheld
  · have hnone : ∀ x ∈ (s.dropRemote r.tag).fabric.remotes, x.id ≠ r.id := fun x hx hid =>
      tag_of_mem_dropRemote hx (hlast x (List.mem_filter.mp hx).1 hid)
    refine ⟨_, congrArg Host.Outcome.next ((receive_arrives ha _).trans (takeResponse_wrAck ha.1 hr hw hback)), ?_⟩
    rw [settleRemote_ends (s := s.dropRemote r.tag) hc hop hnone (by rw [show (s.dropRemote r.tag).fabric.backlog = [] from hback]; simp) hheld]
    exact finish_completes (s := s.dropRemote r.tag) hc _
  · refine ⟨_, congrArg Host.Outcome.next ((receive_arrives ha _).trans (takeResponse_errResp ha.1 hr)), ?_⟩
    exact failRemote_completes _ hc hback
  · refine ⟨((s.bump .fabTimeout).failRemote r.id Status.fltRemoteTimeout).pumpRemotes, congrArg Host.Outcome.next ?_,
      failRemote_completes (s := s.bump .fabTimeout) _ hc hback⟩
    rw [hr]
  · obtain ⟨o, ho⟩ := Option.isSome_iff_exists.mp hsome
    refine ⟨_, congrArg Host.Outcome.next ((receive_arrives ha _).trans (takeResponse_rdResp ha.1 hr hw hc ho hback)), ?_⟩
    dsimp only
    generalize hu : (s.dropRemote r.tag).addPoisonIn r.id (countBits p.poison (p.payload.length / 64)) = u
    have hsub := landBlocks_remotes_sub (s := u) (ws := responseWrites p r o) r.id o.d.fmt
    have hbyte : ∀ a, a < r.addr ∨ r.addr + 64 * ((p.payload.length + 63) / 64) ≤ a →
        (u.landBlocks r.id o.d.fmt (responseWrites p r o)).1.mem.byte a = s.mem.byte a := fun a ha => by
      rw [landBlocks_byte_outside _ _ fun w hw => ?_, ← hu]
      · rfl
      · have := loc_of_mem_responseWrites hw
        omega
    have htag : ∀ x ∈ u.fabric.remotes, x.tag ≠ r.tag := fun x hx => tag_of_mem_dropRemote (s := s) (by rw [← hu] at hx; exact hx)
    split
    · refine ⟨fun x hx => htag x (hsub x (settleRemote_remotes_sub _ x hx)), fun a ha => ?_⟩
      rw [settleRemote_mem]
      exact hbyte a ha
    · exact ⟨fun x hx => htag x (hsub x hx), hbyte⟩

end Sys2Proof.Machine

/-! PROOFS. PACKET_FORWARD (R292, R296, R297, R306, R312): what is discarded, and the route of what goes on. -/

namespace Sys2Proof.Machine
open State

namespace State

section
variable {s : State} {inPort micros : Nat} {p : Packet} {credits : List Nat}

theorem forward_discards (hon : s.fabOn = true) (hage : p.hdr.age < s.lifetime)
    (h : typeKnown p.type = false ∨ (p.hdr.dst ≠ s.moduleId ∧ p.bad = false ∧ lenOk p = false)) :
    s.doForward inPort p micros credits = s.bump .fabDiscardBad := by
  have hage' : ¬ s.lifetime ≤ p.hdr.age := by omega
  rcases h with hty | ⟨hdst, hbad, hlen⟩
  · simp [doForward, hon, hage', hty]
  · cases hty : typeKnown p.type <;> simp [doForward, hon, hage', hty, hdst, hbad, hlen]

theorem forward_expired (hon : s.fabOn = true) (hage : s.lifetime ≤ p.hdr.age)
    (h : p.hdr.dst ≠ s.moduleId ∨ typeKnown p.type = false) :
    s.doForward inPort p micros credits = s.bump .fabDiscardAge := by
  rcases h with h | h <;> simp [doForward, hon, hage, h]

theorem forward_refused (hon : s.fabOn = true) (hage : p.hdr.age < s.lifetime) (hty : typeKnown p.type = true)
    (hdst : p.hdr.dst ≠ s.moduleId) (hwhole : p.bad = true ∨ lenOk p = true) (hst : s.fabric.state = .refused) :
    s.doForward inPort p micros credits = s := by
  have hage' : ¬ s.lifetime ≤ p.hdr.age := by omega
  rcases hwhole with h | h <;> simp [doForward, hon, hage', hty, hdst, h, hst]

/-- A packet with the time that it spent in this module added to its age. -/
def aged (p : Packet) (micros : Nat) : Packet :=
  { p with hdr := { p.hdr with age := min (p.hdr.age + micros + 1) 65535 } }

/-- What a route does with the packet that takes it. -/
def sendRouted (s : State) (inPort : Nat) (q : Packet) : Route → State
  | .none => s.bump .fabDiscardRoute
  | .wait => s.wait { packet := q, inPort := some inPort, since := s.wall }
  | .port n => s.sendOn n q

/-- A packet that is passed on takes its route. -/
theorem forward_routed (hon : s.fabOn = true) (hage : p.hdr.age < s.lifetime) (hty : typeKnown p.type = true)
    (hdst : p.hdr.dst ≠ s.moduleId) (hwhole : p.bad = true ∨ lenOk p = true) (hst : s.fabric.state ≠ .refused) :
    s.doForward inPort p micros credits =
      s.sendRouted inPort (aged p micros) (s.route (aged p micros) (some inPort) credits) := by
  have hage' : ¬ s.lifetime ≤ p.hdr.age := by omega
  have hlen : (!p.bad && !lenOk p) = false := by rcases hwhole with h | h <;> simp [h]
  have hst' : (s.fabric.state == .refused) = false := beq_eq_false_iff_ne.mpr hst
  simp only [doForward, hon, hage', hty, hdst, hlen, hst', Bool.not_true, Bool.false_eq_true, if_false, beq_iff_eq]
  rfl

end
end State

/-- Settles O26: PACKET_FORWARD passes on what has a route and discards what is too old or malformed. -/
theorem packetsAreForwardedByTheirRoute : Obligations.PacketsAreForwardedByTheirRoute := by
  unfold Obligations.PacketsAreForwardedByTheirRoute
  intro s inPort micros p credits hon
  refine ⟨fun hport => ?_, fun hport => ?_⟩
  · exact congrArg Host.Outcome.next (if_neg (by simpa using hport))
  · have hexec : exec (.packetForward inPort p micros credits) s = .next (s.doForward inPort p micros credits) :=
      congrArg Host.Outcome.next (if_pos (by simpa using hport))
    rw [hexec]
    refine ⟨fun hage h => congrArg _ (forward_expired hon hage h), fun hage =>
      ⟨fun hty => congrArg _ (forward_discards hon hage (.inl hty)), fun hty hdst =>
        ⟨fun hbad hlen => congrArg _ (forward_discards hon hage (.inr ⟨hdst, hbad, hlen⟩)), fun hwhole =>
          ⟨fun hst => congrArg _ (forward_refused hon hage hty hdst hwhole hst), fun hst => ?_⟩⟩⟩⟩
    have hgo := forward_routed (inPort := inPort) (micros := micros) (credits := credits) hon hage hty hdst hwhole hst
    refine ⟨fun n hr => ⟨_, rfl, ?_⟩, fun hr => congrArg _ ?_, fun hr => congrArg _ ?_⟩
    · rw [hgo, show s.route (aged p micros) (some inPort) credits = .port n from hr]
      rfl
    · rw [hgo, show s.route (aged p micros) (some inPort) credits = .none from hr]
      rfl
    · rw [hgo, show s.route (aged p micros) (some inPort) credits = .wait from hr]
      rfl

end Sys2Proof.Machine

/-! PROOFS. FAB_PUT and FAB_GET (R199, R304): the copy within this module, and the request that goes to another. -/

namespace Sys2Proof.Machine

namespace State

/-! ## The copy within this module (R199) -/

/-- A state in which a remote command still copies: it runs with no poison limit, no write is held, and what the fabric
holds is as it was. -/
structure Copies (s : State) (id op : Nat) (t : State) : Prop where
  fabric : t.fabric = s.fabric
  held : t.memside.held = []
  pendingUe : t.memside.pendingUe = []
  runs : ∃ c, t.cmd? id = some c ∧ c.poisonLimit = 0xFFFF ∧ c.opcode = op

theorem Copies.modCmd {s t : State} {id op : Nat} {f : Cmd → Cmd} (h : Copies s id op t) (hid : ∀ c, (f c).id = c.id)
    (hf : ∀ c, (f c).poisonLimit = c.poisonLimit ∧ (f c).opcode = c.opcode) : Copies s id op (t.modCmd id f) := by
  obtain ⟨c, hc, hlimit, hop⟩ := h.runs
  refine ⟨h.fabric, h.held, h.pendingUe, f c, ?_, (hf c).1.trans hlimit, (hf c).2.trans hop⟩
  rw [cmd?_modCmd hid, hc, Option.map_some, if_pos (by simpa using cmd?_id hc)]

theorem Copies.land {s t : State} {id op : Nat} (h : Copies s id op t) (w : BlockWr) : Copies s id op (t.writeBlock w) := by
  rw [writeBlock_lands t w (by rw [h.pendingUe]; rfl)]
  exact ⟨h.fabric, h.held, h.pendingUe, h.runs⟩

theorem Copies.count {s t : State} {id op n : Nat} {src : Src} (h : Copies s id op t) :
    Copies s id op ((t.bump .nonfiniteGrad n).setNf src) := by
  rw [setNf_frame]
  exact ⟨h.fabric, h.held, h.pendingUe, h.runs⟩

theorem Copies.piece {s t : State} {id op : Nat} (h : Copies s id op t) (src dst : Operand) (p : Nat × Nat × Nat) :
    Copies s id op (t.copyPiece id src dst p) := by
  unfold copyPiece
  split
  · exact h
  · refine landBlocks_keeps (fun t c k hc hlimit ht => ?_) (fun t w _ ht => ht.land w) (fun t n src ht => ht.count)
      (fun t n ht => ht.modCmd (fun _ => rfl) fun _ => ⟨rfl, rfl⟩) (h.modCmd (fun _ => rfl) fun _ => ⟨rfl, rfl⟩)
    obtain ⟨d, hd, hunlimited, -⟩ := ht.runs
    exact absurd (Option.some.inj (hd.symm.trans hc) ▸ hunlimited) hlimit

theorem copyPiece_byte_outside {t : State} {id a : Nat} {src dst : Operand} {p : Nat × Nat × Nat}
    (ha : a < dst.d.base + dst.d.rowOff p.1 + 64 * p.2.1 ∨ dst.d.base + dst.d.rowOff p.1 + 64 * p.2.1 + 64 * p.2.2 ≤ a) :
    (t.copyPiece id src dst p).mem.byte a = t.mem.byte a := by
  unfold copyPiece
  split
  · rfl
  · refine landBlocks_byte_outside _ _ fun w hw => ?_
    obtain ⟨x, hx, rfl⟩ := List.mem_map.mp hw
    have hlen : (t.settledMem.bytes (src.d.base + src.d.rowOff p.1 + 64 * p.2.1) (64 * p.2.2)).length = 64 * p.2.2 := by
      simp [Mem.bytes]
    have := hlen ▸ lt_of_mem_enumFrom_chunks hx
    dsimp only
    omega

/-- The pieces of a tensor copied in order. -/
def copyAll (s : State) (id : Nat) (src dst : Operand) (l : List (Nat × Nat × Nat)) : State :=
  l.foldl (fun s p => s.copyPiece id src dst p) s

theorem Copies.all {s t : State} {id op : Nat} (h : Copies s id op t) (src dst : Operand) (l : List (Nat × Nat × Nat)) :
    Copies s id op (t.copyAll id src dst l) :=
  foldl_keeps (p := Copies s id op) (fun _ p ht => ht.piece src dst p) l h

theorem copyAll_byte_outside {t : State} {id a : Nat} {src dst : Operand} {l : List (Nat × Nat × Nat)}
    (ha : ∀ p ∈ l, a < dst.d.base + dst.d.rowOff p.1 + 64 * p.2.1
      ∨ dst.d.base + dst.d.rowOff p.1 + 64 * p.2.1 + 64 * p.2.2 ≤ a) :
    (t.copyAll id src dst l).mem.byte a = t.mem.byte a := by
  induction l generalizing t with
  | nil => rfl
  | cons p r ih =>
    obtain ⟨hp, hr⟩ := List.forall_mem_cons.1 ha
    exact (ih hr).trans (copyPiece_byte_outside hp)

/-! ## The request to another module -/

theorem pumpRemotes_one {s : State} {b : Nat × Nat × Nat × Nat} (h : s.fabric.backlog = [b])
    (hlen : s.fabric.remotes.length < 65536) :
    s.pumpRemotes = (s.modFabric (fun f => { f with backlog := [] })).sendNext b := by
  obtain ⟨n, hn⟩ : ∃ n, 65536 - s.fabric.remotes.length = n + 1 := ⟨65535 - s.fabric.remotes.length, by omega⟩
  unfold pumpRemotes modFabric
  dsimp only
  rw [hn, h]
  simp

/-- The piece of the backlog of a FAB_PUT or FAB_GET. -/
theorem sendNext_piece {s : State} {id : Nat} {p : Nat × Nat × Nat} {c : Cmd} {o r : Operand} (hc : s.cmd? id = some c)
    (hop : c.opcode ≠ 0x802) (ho : c.op? 0 = some o) (hr : c.op? 8 = some r) :
    s.sendNext (id, p) = s.sendPiece c o r p := by
  simp [sendNext, hc, hop, ho, hr]

/-- A request is recorded and goes out under a tag of its own. -/
theorem remoteRequest_records (s : State) (id la first : Nat) (p : Packet) :
    (s.remoteRequest id la first p).mem = s.mem ∧ (s.remoteRequest id la first p).cmds = s.cmds
      ∧ ∃ tag, (s.remoteRequest id la first p).fabric.remotes
        = s.fabric.remotes ++ [Remote.mk tag id p.hdr.dst la p.hdr.len (p.type != .rdReq) first] := by
  unfold remoteRequest
  dsimp only
  rw [inject_frame]
  exact ⟨rfl, rfl, _, rfl⟩

/-- The one request of a piece that another module holds. -/
theorem sendPiece_records {s : State} {c : Cmd} {o r : Operand} (row blk n : Nat) (hop : c.opcode = 0x520 ∨ c.opcode = 0x521)
    (hgrad : c.grad = false) :
    (s.sendPiece c o r (row, blk, n)).mem = s.mem
      ∧ (∃ f : Cmd → Cmd, (∀ d, (f d).id = d.id ∧ (f d).stage = d.stage ∧ (f d).st = d.st)
        ∧ (s.sendPiece c o r (row, blk, n)).cmds = (s.modCmd c.id f).cmds)
      ∧ ∃ tag, (s.sendPiece c o r (row, blk, n)).fabric.remotes = s.fabric.remotes
        ++ [Remote.mk tag c.id c.remoteId (o.d.base + o.d.rowOff row + 64 * blk) (64 * n) (c.opcode == 0x520) blk] := by
  rcases hop with hop | hop
  · unfold sendPiece
    simp only [hop, hgrad, show ((0x520 : Nat) == 0x521) = false from rfl, Bool.false_eq_true, if_false, beq_self_eq_true,
      if_true]
    generalize hp : Packet.mk _ _ _ _ _ = p
    have htype : (p.type != .rdReq) = true := by
      rw [← hp]
      dsimp only
      split <;> rfl
    unfold addPoisonIn
    generalize hf : (fun d : Cmd => ({ d with part := _ } : Cmd)) = f
    obtain ⟨hmem, hcmds, tag, hremotes⟩ := remoteRequest_records (s.modCmd c.id f) c.id (o.d.base + o.d.rowOff row + 64 * blk) blk p
    refine ⟨hmem, ⟨f, fun d => ?_, hcmds⟩, tag, hremotes.trans ?_⟩
    · rw [← hf]
      exact ⟨rfl, rfl, rfl⟩
    · rw [htype, ← hp]
      rfl
  · unfold sendPiece
    simp only [hop, beq_self_eq_true, if_true]
    obtain ⟨hmem, hcmds, tag, hremotes⟩ := s.remoteRequest_records c.id (o.d.base + o.d.rowOff row + 64 * blk) blk
      { type := .rdReq, hdr := { addr := r.d.base + r.d.rowOff row + 64 * blk, dst := c.remoteId
                                 tctx := bits (c.param 28 4) 15 12, len := 64 * n } }
    refine ⟨hmem, ⟨id, fun _ => ⟨rfl, rfl, rfl⟩, hcmds.trans ?_⟩, tag, hremotes⟩
    simp [State.modCmd]

/-! ## The two commands -/

section
variable {s : State} {id op : Nat} {c : Cmd} {o r : Operand}

theorem exec_remote (hop : op = 0x520 ∨ op = 0x521) :
    exec (if op = 0x520 then .fabPut id else .fabGet id) s = .next (s.doRemote id op) := by
  rcases hop with rfl | rfl <;> rfl

theorem doRemote_absent (hrun : s.running? id op = some c) (hgo : c.stage = .go) (hdst : c.remoteId ≠ s.moduleId)
    (habsent : s.declaredAbsent c.remoteId = true) : s.doRemote id op = s.finish id (plainCompl Status.fltMemberLost) := by
  simp [doRemote, hrun, hgo, hdst, habsent]

theorem doRemote_local (hop : op = 0x520 ∨ op = 0x521) (hrun : s.running? id op = some c) (hgo : c.stage = .go)
    (hdst : c.remoteId = s.moduleId) (ho : c.op? 0 = some o) (hr : c.op? 8 = some r) :
    s.doRemote id op = ((s.setStage id .begun).copyAll id (if op = 0x520 then o else r) (if op = 0x520 then r else o)
      o.d.pieces).settleRemote id := by
  rcases hop with rfl | rfl <;> simp [doRemote, copyAll, hrun, hgo, hdst, ho, hr]

/-- The pieces that a remote command has to send. -/
def queuePieces (s : State) (id : Nat) (l : List (Nat × Nat × Nat)) : State :=
  (s.setStage id .begun).modFabric (fun f => { f with backlog := f.backlog ++ l.map (fun p => (id, p)) })

theorem doRemote_sends (hrun : s.running? id op = some c) (hgo : c.stage = .go) (hdst : c.remoteId ≠ s.moduleId)
    (habsent : s.declaredAbsent c.remoteId = false) (ho : c.op? 0 = some o) (hr : c.op? 8 = some r) :
    s.doRemote id op = (s.queuePieces id o.d.pieces).pumpRemotes.settleRemote id := by
  simp [doRemote, queuePieces, hrun, hgo, hdst, habsent, ho, hr]

end

/-- What is running for a remote command that has sent its one piece. -/
theorem doRemote_one {s : State} {id op row blk n : Nat} {c : Cmd} {o r : Operand} (hop : op = 0x520 ∨ op = 0x521)
    (hrun : s.running? id op = some c) (hgo : c.stage = .go) (hdst : c.remoteId ≠ s.moduleId)
    (habsent : s.declaredAbsent c.remoteId = false) (ho : c.op? 0 = some o) (hr : c.op? 8 = some r)
    (hback : s.fabric.backlog = []) (hone : o.d.pieces = [(row, blk, n)]) (hlen : s.fabric.remotes.length < 65536)
    (hgrad : c.grad = false) :
    ∃ tag, (s.doRemote id op).mem = s.mem
      ∧ (s.doRemote id op).fabric.remotes = s.fabric.remotes
        ++ [Remote.mk tag id c.remoteId (o.d.base + o.d.rowOff row + 64 * blk) (64 * n) (op == 0x520) blk]
      ∧ ∃ d, (s.doRemote id op).cmd? id = some d ∧ d.stage = .begun ∧ d.st = .running := by
  obtain ⟨hc, hrunning, rfl⟩ := running?_some hrun
  have hid := cmd?_id hc
  generalize hw : (s.setStage id .begun).modFabric (fun f => { f with backlog := [] }) = w
  have hcw : w.cmd? id = some { c with stage := .begun } := by
    rw [← hw]
    exact setStage_cmd? hc .begun
  have hpump : (s.queuePieces id o.d.pieces).pumpRemotes = w.sendPiece { c with stage := .begun } o r (row, blk, n) := by
    have hnot : c.opcode ≠ 0x802 := by omega
    have hone' : (s.queuePieces id [(row, blk, n)]).fabric.backlog = [(id, row, blk, n)] := by
      show s.fabric.backlog ++ _ = _
      rw [hback]
      rfl
    rw [hone, pumpRemotes_one hone' hlen,
      show (s.queuePieces id [(row, blk, n)]).modFabric (fun f => { f with backlog := [] }) = w from hw]
    exact sendNext_piece hcw hnot ho hr
  obtain ⟨hmem, ⟨f, hf, hcmds⟩, tag, hremotes⟩ := sendPiece_records (s := w) (c := { c with stage := .begun }) (o := o) (r := r)
    row blk n hop hgrad
  have hsettle : s.doRemote id c.opcode = w.sendPiece { c with stage := .begun } o r (row, blk, n) := by
    rw [doRemote_sends hrun hgo hdst habsent ho hr, hpump]
    refine settleRemote_awaited ⟨_, by rw [hremotes]; exact List.mem_append_right _ List.mem_cons_self, hid⟩
  rw [hsettle]
  refine ⟨tag, hmem.trans (by rw [← hw]; rfl), ?_, f { c with stage := .begun }, ?_, (hf _).2.1, (hf _).2.2.trans ?_⟩
  · rw [hremotes, ← hw, ← hid]
    rfl
  · unfold cmd?
    rw [hcmds]
    refine (cmd?_modCmd (s := w) (id := c.id) (f := f) (fun d => (hf d).1) id).trans ?_
    rw [hcw, Option.map_some, if_pos (by simp)]
  · exact isRunning_st hrunning

end State

open State

/-- Settles O27: FAB_PUT and FAB_GET send one request for a piece, copy within the module, and complete where nothing is left. -/
theorem putAndGetSendTheirRequests : Obligations.PutAndGetSendTheirRequests := by
  unfold Obligations.PutAndGetSendTheirRequests
  intro s id op c o r hop hrun hgo ho hr
  obtain ⟨hc, -, hopc⟩ := running?_some hrun
  have hrestore : op ≠ 0x802 := by omega
  dsimp only
  rw [exec_remote hop]
  refine ⟨fun hdst habsent => ?_, fun hdst hlimit hheld hue hremotes hbacklog => ?_, fun hdst habsent hback => ⟨?_, ?_⟩⟩
  · exact ⟨_, congrArg _ (doRemote_absent hrun hgo hdst habsent), finish_completes hc _⟩
  · generalize hsrc : (if op = 0x520 then o else r) = src
    generalize hto : (if op = 0x520 then r else o) = dest
    have hbegun : Copies s id op (s.setStage id .begun) := ⟨rfl, hheld, hue, _, setStage_cmd? hc .begun, hlimit, hopc⟩
    have hcopy := hbegun.all src dest o.d.pieces
    obtain ⟨d, hd, -, hdop⟩ := hcopy.runs
    have hexec := doRemote_local hop hrun hgo hdst ho hr
    rw [hsrc, hto, settleRemote_ends hd (hdop ▸ hrestore) (by rw [hcopy.fabric]; exact hremotes)
      (by rw [hcopy.fabric]; exact hbacklog) hcopy.held] at hexec
    refine ⟨_, _, _, congrArg _ hexec, finish_completes hd _, rfl, fun a ha => ?_⟩
    rw [finish_mem, copyAll_byte_outside ha]
    rfl
  · intro hnone hremotes hheld
    have hqueue : (s.queuePieces id o.d.pieces).fabric.backlog = [] := by simp [queuePieces, hback, hnone]
    have hcq : (s.queuePieces id o.d.pieces).cmd? id = some { c with stage := .begun } := setStage_cmd? hc .begun
    have hexec := doRemote_sends hrun hgo hdst habsent ho hr
    rw [pumpRemotes_idle hqueue, settleRemote_ends hcq (hopc ▸ hrestore) hremotes
      (by rw [hqueue]; simp) hheld] at hexec
    exact ⟨_, _, _, congrArg _ hexec, finish_completes hcq _, rfl, by rw [finish_mem]; rfl⟩
  · intro row blk n hone hlen hgrad
    obtain ⟨tag, hone⟩ := doRemote_one hop hrun hgo hdst habsent ho hr hback hone hlen hgrad
    exact ⟨_, tag, rfl, hone⟩

end Sys2Proof.Machine

/-! PROOFS. Groups (R317, R318): they are defined, released and readmitted. -/

namespace Sys2Proof.Machine

namespace State

section
variable {s : State} {id : Nat} {c : Cmd}

theorem absent_of_not_present (s : State) (m : Nat) :
    (!s.presentModule m) = (m != s.moduleId && s.fabric.roster.absent m) := by
  simp [presentModule, bne]

/-- The group that FAB_GROUP_DEFINE makes. -/
def definedGroup (s : State) (c : Cmd) : Group :=
  { num := c.groupParam, members := c.memberList, seq := c.param 28 4
    absent := c.memberList.filter (fun m => m != s.moduleId && s.fabric.roster.absent m) }

theorem doGroupDefine_defines (hrun : s.running? id 0x510 = some c) (hnew : s.group? c.groupParam = none)
    (hroom : s.fabric.groups.length < 64) (hidle : s.groupCmds c.groupParam = []) :
    s.doGroupDefine id = (s.modFabric (fun f => { f with groups := f.groups ++ [s.definedGroup c] })).finish id
      (plainCompl Status.ok) := by
  have hfull : ((s.group? c.groupParam).isSome || decide (64 ≤ s.fabric.groups.length)) = false := by
    rw [hnew]
    simpa using hroom
  unfold doGroupDefine
  simp only [hrun, hfull, absent_of_not_present, Bool.false_eq_true, if_false]
  rw [show (s.modFabric _).groupCmds c.groupParam = [] from hidle]
  rfl

theorem doGroupDefine_rejects (hrun : s.running? id 0x510 = some c)
    (h : (s.group? c.groupParam).isSome = true ∨ 64 ≤ s.fabric.groups.length) :
    s.doGroupDefine id = s.finish id (rejCompl Status.rejGroup 88) := by
  have hfull : ((s.group? c.groupParam).isSome || decide (64 ≤ s.fabric.groups.length)) = true := by simpa using h
  unfold doGroupDefine
  simp only [hrun, hfull, if_true]

theorem group?_removed (s : State) (g : Nat) :
    (s.modFabric (fun f => { f with groups := f.groups.filter (fun x => x.num != g) })).group? g = none :=
  List.find?_eq_none.mpr fun x hx => by simpa using (List.mem_filter.mp hx).2

theorem finish_group? (s : State) (id : Nat) (k : Compl) (g : Nat) : (s.finish id k).group? g = s.group? g := by
  cases hc : s.cmd? id with
  | none => rw [finish_of_none hc]
  | some c =>
    unfold group?
    rw [finish_fabric s hc]

end

end State

open State

/-- Settles O28: a group is defined once and with room, is gone once released, and takes a member back. -/
theorem groupsAreDefinedReleasedAndReadmitted : Obligations.GroupsAreDefinedReleasedAndReadmitted := by
  unfold Obligations.GroupsAreDefinedReleasedAndReadmitted
  intro s id c
  refine ⟨fun hrun hnew hroom hidle => ?_, fun hrun h => ?_, fun hrun hok => ?_, fun g hrun hok hg => ?_⟩
  · have hc := (running?_some hrun).1
    exact ⟨_, congrArg Host.Outcome.next (doGroupDefine_defines hrun hnew hroom hidle), finish_completes (s := s.modFabric _) hc _⟩
  · have hc := (running?_some hrun).1
    exact ⟨_, congrArg Host.Outcome.next (doGroupDefine_rejects hrun h), finish_completes hc _⟩
  · have hc := (running?_some hrun).1
    refine ⟨_, congrArg Host.Outcome.next (runChecked_acts hrun hok), finish_completes (s := s.modFabric _) hc _, ?_⟩
    rw [finish_group?, group?_removed]
  · have hc := (running?_some hrun).1
    exact ⟨_, _, congrArg Host.Outcome.next (runChecked_acts hrun hok), finish_completes (s := s.modGroup _ _) hc _⟩

end Sys2Proof.Machine

/-! PROOFS. The start of a broadcast (R319, R322) whose root is not a rank of the group that it finds as it acts. -/

namespace Sys2Proof.Machine

/-- A COLL_BROADCAST of group 5 with root 1 and no poison limit, from and to the first block of memory, that has yet to act. -/
def rootedBroadcast : Cmd :=
  let block : Operand := { d := { base := 0, fmt := .fp32, ndim := 1, ext := [16] } }
  { id := 0, src := .host 0, ctx := 0, st := .running, ops := [(0, block), (8, block)]
    packet := natLe 64 (0x504 + 0xFFFF * 2 ^ 112) ++ natLe 32 ((5 + 2 ^ 16) * 2 ^ 192) }

/-- Group 5, whose one member, module 1, has rank 0. -/
def ownGroup : Group := { num := 5, members := [1], seq := 9 }

/-- Module 1 runs the broadcast alone. -/
def broadcastWithoutRoot : State :=
  { State.reset with
    cmds := [rootedBroadcast], nextId := 1
    fabric := { State.reset.fabric with moduleId := 1, groups := [ownGroup] } }

theorem broadcastWithoutRoot_alone : AloneIn broadcastWithoutRoot ownGroup := by
  unfold AloneIn
  decide +kernel

/-- The target waits for the data of a rank that no member has. -/
theorem broadcastWithoutRoot_runs_on :
    ((broadcastWithoutRoot.doColl 0 0x504 4).cmd? 0).map (fun c => c.st) = some .running := by decide +kernel

/-- A command that completes is not running afterwards. -/
theorem State.not_running_of_completes {u t : State} {id : Nat} {k : Compl} (h : Completes u t id k) :
    (t.cmd? id).map (fun c => c.st) ≠ some .running := by
  obtain ⟨hends, -, -⟩ := h
  unfold Ends at hends
  cases hc : u.cmd? id with
  | none => rw [hc] at hends; exact hends.elim
  | some c =>
    rw [hc] at hends
    cases hsrc : c.src with
    | host q =>
      simp only [hsrc] at hends
      have hfind : t.cmd? id = some { c with st := .done { k with cycles := u.cycles.toNat }, stage := .go } := by
        unfold cmd?
        rw [hends.1]
        refine (find_map_id u.cmds id _ (fun c => by split <;> rfl)).trans ?_
        rw [show u.cmds.find? (fun c => c.id == id) = some c from hc, Option.map_some, if_pos (by simpa using cmd?_id hc)]
      rw [hfind]
      simp
    | seq n entry step ph =>
      simp only [hsrc] at hends
      rw [hends.1]
      simp

end Sys2Proof.Machine

namespace Sys2Proof

open Machine

/-- Refutes O29, by its last clause: the statement asks nothing of the root of a broadcast. Where that is not the rank of a
member, the target waits for data that no member sends, and the command does not complete at once. Its start checks the rank
(R319), in the group as it stands then. -/
theorem not_collectivesStart : ¬ Obligations.CollectivesStart := by
  intro h
  obtain ⟨-, -, halone⟩ := h (.collBroadcast 0) broadcastWithoutRoot 0 0x504 4 rootedBroadcast rfl (by decide +kernel) rfl
  obtain ⟨t, u, k, hexec, hcompletes, -⟩ := halone ownGroup _ _ (by decide +kernel) rfl rfl broadcastWithoutRoot_alone
    (by decide +kernel) rfl (by decide +kernel) (by decide)
  obtain rfl : t = broadcastWithoutRoot.doColl 0 0x504 4 := (Host.Outcome.next.inj hexec).symm
  exact State.not_running_of_completes hcompletes broadcastWithoutRoot_runs_on

end Sys2Proof

/-! PROOFS. The packets of a collective that runs (R320 to R324). -/

namespace Sys2Proof.Machine

namespace State

section
variable {s : State} {p : Packet}

theorem earlyOrDrop_dropped (h : s.group? p.hdr.group = none) : s.earlyOrDrop p = s.bump .fabDiscardSeq := by
  unfold earlyOrDrop
  rw [h]

theorem earlyOrDrop_held {g : Group} (hty : p.type = .collReady) (hg : s.group? p.hdr.group = some g)
    (hseq : p.hdr.seq = (s.currentSeq g + 1) % 2 ^ 32) :
    s.earlyOrDrop p = s.modFabric (fun f => { f with early := f.early ++ [p] }) := by
  unfold earlyOrDrop
  rw [hg]
  exact if_pos (by simp [hty, hseq])

/-- The fault of a collective names its absent members and its sequence number. -/
theorem faultCompl_coll {id : Nat} {k : Coll} {c : Cmd} (hk : s.coll? id = some k) (hc : s.cmd? id = some c) (st : Nat) :
    s.faultCompl id st = { status := st, poisonIn := c.part.poisonIn, poisonOut := c.part.poisonOut
                           count := if 0x500 ≤ c.opcode ∧ c.opcode ≤ 0x505 then k.absent.length else c.part.count
                           aux := if 0x500 ≤ c.opcode ∧ c.opcode ≤ 0x505 then c.seqNo.getD 0 else 0 } := by
  have hk' : s.fabric.colls.find? (fun k => k.id == id) = some k := hk
  unfold faultCompl
  rw [hc]
  simp only [hk', Bool.and_eq_true, decide_eq_true_eq]

theorem exec_collReady (ha : Arrives s p .collReady) :
    (∀ k, s.collOf p = some k → k.kind ≠ 5 →
      exec (.collReady p) s = .next ((s.takeReady k.id p.hdr.rank).settleColl k.id))
    ∧ (s.collOf p = none → exec (.collReady p) s = .next (s.earlyOrDrop p)) := by
  refine ⟨fun k hk hkind => congrArg Host.Outcome.next ((receive_arrives ha _).trans ?_),
    fun hnone => congrArg Host.Outcome.next ((receive_arrives ha _).trans ?_)⟩
  · rw [hk]
    exact if_neg (by simpa using hkind)
  · rw [hnone]

theorem exec_collData {k : Coll} (ha : Arrives s p .collData) (hk : s.collOf p = some k) (hkind : k.kind ≠ 5) :
    exec (.collData p) s = .next (
      if !k.present p.hdr.rank || k.g ≤ p.hdr.rank then s
      else if 64 * k.targetBlocks < p.hdr.addr + p.payload.length then s.bump .fabDiscardBad
      else s.takeData k p) := by
  refine congrArg Host.Outcome.next ((receive_arrives ha _).trans ?_)
  rw [hk]
  exact if_neg (by simpa using hkind)

end

end State

open State

/-- Settles O30: a packet acts on the collective that it names, is held for the next one, or is counted and dropped. -/
theorem collectivePacketsAct : Obligations.CollectivePacketsAct := by
  unfold Obligations.CollectivePacketsAct
  intro s p
  refine ⟨fun ha => ⟨fun k hk hkind => ⟨_, (exec_collReady ha).1 k hk hkind, rfl⟩, fun g hnone hg hseq => ?_, fun hnone hg => ?_⟩,
    fun ha => ⟨fun hnone => ?_, fun k hk hkind hpresent hrank => ⟨fun hbeyond => ?_, fun hfits => ?_⟩,
      fun k hk hkind habsent => ?_⟩,
    fun ha => ⟨fun hnone => ?_, fun k hk => ?_⟩, fun id k c hk hc hwaits => ?_⟩
  · refine ⟨_, (exec_collReady ha).2 hnone, ?_⟩
    rw [earlyOrDrop_held ha.1 hg hseq]
    exact ⟨rfl, rfl⟩
  · rw [(exec_collReady ha).2 hnone, earlyOrDrop_dropped hg]
  · refine congrArg Host.Outcome.next ((receive_arrives ha _).trans ?_)
    rw [hnone]
  · rw [exec_collData ha hk hkind, if_neg (by simpa [hpresent] using hrank), if_pos hbeyond]
  · refine ⟨_, exec_collData ha hk hkind, ?_⟩
    rw [if_neg (by simpa [hpresent] using hrank), if_neg (by omega)]
  · rw [exec_collData ha hk hkind, if_pos (by simp [habsent])]
  · refine congrArg Host.Outcome.next ((receive_arrives ha _).trans ?_)
    rw [hnone]
  · refine ⟨_, congrArg Host.Outcome.next (receive_arrives ha _), ?_⟩
    rw [hk]
  · have hany : ((List.range k.g).any fun r => r != s.collRank k && k.present r) = true := by
      obtain ⟨r, hr, hne, hpresent⟩ := hwaits
      exact List.any_eq_true.mpr ⟨r, List.mem_range.mpr hr, by simp [hne, hpresent]⟩
    refine ⟨s.finish id (s.faultCompl id Status.fltCollTimeout), congrArg Host.Outcome.next ?_, ?_⟩
    · rw [hk]
      exact if_pos hany
    · rw [← faultCompl_coll hk hc]
      exact finish_completes hc _

end Sys2Proof.Machine

/-! PROOFS. Draft tables (R257 to R280): what packets, requests and lists leave of an open generation, and the commands that
open and close one. -/

namespace Sys2Proof.Machine

/-! ## Words of a packet -/

theorem leNat_append (l r : List Byte) : leNat (l ++ r) = leNat l + 256 ^ l.length * leNat r := by
  induction l with
  | nil => simp [leNat]
  | cons b l ih =>
    simp only [List.cons_append, leNat, ih, List.length_cons, Nat.pow_succ]
    ring

theorem length_natLe (n x : Nat) : (natLe n x).length = n := by
  induction n generalizing x with
  | zero => rfl
  | succ n ih => simp [natLe, ih]

theorem leNat_natLe (n x : Nat) : leNat (natLe n x) = x % 256 ^ n := by
  induction n generalizing x with
  | zero => simp [natLe, leNat, Nat.mod_one]
  | succ n ih =>
    rw [show 256 ^ (n + 1) = 256 * 256 ^ n by ring, Nat.mod_mul, ← ih (x / 256)]
    simp only [natLe, leNat, BitVec.toNat_ofNat]

theorem fieldAt_natLe_append (n x : Nat) (r : List Byte) : fieldAt (natLe n x ++ r) 0 n = x % 256 ^ n := by
  unfold fieldAt
  rw [List.drop_zero, List.take_append_of_le_length (by rw [length_natLe]), List.take_of_length_le (by rw [length_natLe]),
    leNat_natLe]

theorem kind_of_draftHead {p : Packet} {gen t kind source expert count part : Nat} {empty last : Bool} {bytes : List Byte}
    (hp : p.payload = draftHead gen t kind source expert empty count part last ++ bytes) (hk : kind < 4) :
    (partOf p).kind = kind := by
  unfold partOf
  dsimp only
  rw [hp]
  unfold draftHead
  rw [List.append_assoc, fieldAt_natLe_append]
  have hempty : flagAt empty 15 ≤ 2 ^ 15 := by cases empty <;> decide
  simp only [bits, at', Nat.shiftLeft_eq, Nat.shiftRight_eq_div_pow]
  norm_num at hempty ⊢
  omega

/-- A part of a list, copy or contribution says what it is. -/
theorem kind_of_mem_draftPackets {s : State} {t gen kind expert dst : Nat} {pieces : List DraftPiece} {nf : Bool} {p : Packet}
    (hk : kind < 4) (h : p ∈ s.draftPackets t gen kind expert dst pieces nf) : (partOf p).kind = kind := by
  cases pieces with
  | nil =>
    obtain rfl := List.mem_singleton.mp h
    exact kind_of_draftHead (bytes := []) (List.append_nil _).symm hk
  | cons a r =>
    obtain ⟨x, -, rfl⟩ := List.mem_map.mp h
    exact kind_of_draftHead rfl hk

/-! ## What stays of a generation -/

/-- Two states of a table in one generation: they differ at most in what it collects. -/
def Draft.Alike (d e : Draft) : Prop :=
  e = { d with drafted := e.drafted, listDone := e.listDone, parts := e.parts, copies := e.copies, demands := e.demands
               loanSteps := e.loanSteps, fetches := e.fetches, asked := e.asked, reduced := e.reduced }

theorem Draft.Alike.trans {d e f : Draft} (h : d.Alike e) (h' : e.Alike f) : d.Alike f := by
  unfold Draft.Alike at h h' ⊢
  rw [h', h]

namespace State

/-- Two states between which table t has collected, and no other table, and no command, has changed. -/
structure SameGeneration (t : Nat) (s u : State) : Prop where
  cmds : u.cmds = s.cmds
  others : ∀ m, m ≠ t → u.draft m = s.draft m
  table : (s.draft t).Alike (u.draft t)
  moduleId : u.moduleId = s.moduleId
  power : u.power = s.power

theorem SameGeneration.refl (t : Nat) (s : State) : SameGeneration t s s := ⟨rfl, fun _ _ => rfl, rfl, rfl, rfl⟩

theorem SameGeneration.trans {t : Nat} {s u v : State} (h : SameGeneration t s u) (h' : SameGeneration t u v) :
    SameGeneration t s v :=
  ⟨h'.cmds.trans h.cmds, fun m hm => (h'.others m hm).trans (h.others m hm), h.table.trans h'.table,
    h'.moduleId.trans h.moduleId, h'.power.trans h.power⟩

/-- Nothing of commands and tables changes where the fields stay that hold them. -/
theorem sameGeneration_of {t : Nat} {s u : State} (hcmds : u.cmds = s.cmds) (hdrafts : u.drafts = s.drafts)
    (hid : u.moduleId = s.moduleId) (hpower : u.power = s.power) : SameGeneration t s u := by
  have hdraft : ∀ m, u.draft m = s.draft m := fun m => by
    unfold draft
    rw [hdrafts]
  exact ⟨hcmds, fun m _ => hdraft m, by rw [hdraft]; rfl, hid, hpower⟩

theorem draft_modDraft_same (s : State) {t : Nat} (f : Draft → Draft) (h : t < 64) : (s.modDraft t f).draft t = f (s.draft t) :=
  vget_vmod_same _ _ _ _ h

theorem draft_modDraft_other (s : State) {t m : Nat} (f : Draft → Draft) (h : m ≠ t) : (s.modDraft t f).draft m = s.draft m :=
  vget_vmod_other _ _ _ _ _ h

theorem draft_outside (s : State) {t : Nat} (h : ¬ t < 64) : s.draft t = {} := vget_outside h

theorem sameGeneration_modDraft (s : State) (t : Nat) {f : Draft → Draft} (hf : ∀ d : Draft, d.Alike (f d)) :
    SameGeneration t s (s.modDraft t f) := by
  refine ⟨rfl, fun m hm => draft_modDraft_other s f hm, ?_, rfl, rfl⟩
  by_cases ht : t < 64
  · rw [draft_modDraft_same s f ht]
    exact hf _
  · rw [draft_outside _ ht, draft_outside _ ht]
    rfl

theorem sameGeneration_inject (t : Nat) (s : State) (p : Packet) : SameGeneration t s (s.inject p) := by
  rw [inject_frame]
  exact sameGeneration_of rfl rfl rfl rfl

theorem sameGeneration_writeBlocks (t : Nat) (s : State) (ws : List BlockWr) : SameGeneration t s (s.writeBlocks ws) := by
  rw [writeBlocks_frame]
  exact sameGeneration_of rfl rfl rfl rfl

theorem sameGeneration_bump (t : Nat) (s : State) (c : Ctr) (n : Nat) : SameGeneration t s (s.bump c n) :=
  sameGeneration_of rfl rfl rfl rfl

theorem sameGeneration_creditDraft (t : Nat) (s : State) (d : Draft) (m n : Nat) : SameGeneration t s (s.creditDraft d m n) := by
  unfold creditDraft
  split <;> exact sameGeneration_of rfl rfl rfl rfl

theorem sameGeneration_foldl {α : Type} {t : Nat} {f : State → α → State} {l : List α}
    (hf : ∀ u, ∀ x ∈ l, SameGeneration t u (f u x)) (s : State) : SameGeneration t s (l.foldl f s) := by
  induction l generalizing s with
  | nil => exact .refl t s
  | cons x r ih =>
    exact (hf s x List.mem_cons_self).trans (ih (fun u y hy => hf u y (List.mem_cons_of_mem _ hy)) (f s x))

theorem sameGeneration_draftNf (t : Nat) (s : State) : SameGeneration t s (s.draftNf t) := by
  unfold draftNf
  split
  · exact sameGeneration_of rfl rfl rfl rfl
  · exact .refl t s

theorem sameGeneration_writeDraftList (t : Nat) (s : State) (lists : List (List Nat × Bool)) :
    SameGeneration t s (s.writeDraftList t lists) := by
  unfold writeDraftList
  dsimp only
  split
  · exact ((((sameGeneration_writeBlocks t s _).trans (sameGeneration_bump t _ _ _)).trans (sameGeneration_bump t _ _ _)).trans
      (sameGeneration_creditDraft t _ _ _ _)).trans (sameGeneration_modDraft _ t fun _ => rfl)
  · exact .refl t s

theorem sameGeneration_settleList (t : Nat) (s : State) : SameGeneration t s (s.settleList t) := by
  unfold settleList
  dsimp only
  split
  · exact sameGeneration_writeDraftList t s _
  · exact .refl t s

/-! ## Requests for copies -/

theorem sameGeneration_askFor (t : Nat) (s : State) (a : Ask) : SameGeneration t s (s.askFor t a) := by
  unfold askFor
  dsimp only
  have hasked := sameGeneration_modDraft s t (f := fun d => { d with asked := d.asked ++ [a] }) fun _ => rfl
  split
  · exact hasked
  · exact hasked.trans (sameGeneration_inject t _ _)

theorem sameGeneration_sendCopy (t : Nat) (s : State) (r : FetchReq) (a : Nat) : SameGeneration t s (s.sendCopy t r a) :=
  sameGeneration_foldl (fun u _ _ => sameGeneration_inject t u _) s

theorem sameGeneration_serveFetch (t : Nat) (s : State) (r : FetchReq) : SameGeneration t s (s.serveFetch t r) := by
  have hdrop (u : State) := sameGeneration_modDraft u t (f := fun d => { d with fetches := d.fetches.filter (fun x => x != r) })
    fun _ => rfl
  unfold serveFetch
  dsimp only
  split
  · split
    · exact .refl t s
    · exact (sameGeneration_sendCopy t s r _).trans (hdrop _)
  · split
    · exact hdrop _
    · split
      · exact (sameGeneration_sendCopy t s r _).trans (hdrop _)
      · split
        · exact .refl t s
        · exact sameGeneration_askFor t s _

theorem sameGeneration_serveFetches (t : Nat) (s : State) : SameGeneration t s (s.serveFetches t) :=
  sameGeneration_foldl (fun u _ _ => sameGeneration_serveFetch t u _) s

/-! ## Packets to the members -/

theorem sameGeneration_takePart (t : Nat) (s : State) {p : DraftPart} (hk : p.kind ≠ 2) :
    SameGeneration t s (s.takePart t p) := by
  have hpart := sameGeneration_modDraft s t (f := fun d => { d with parts := addPart d.parts p }) fun _ => rfl
  have hnf : SameGeneration t s (if p.kind == 3 && p.nf then (s.modDraft t (fun d => { d with parts := addPart d.parts p })).draftNf t
      else s.modDraft t (fun d => { d with parts := addPart d.parts p })) := by
    split
    · exact hpart.trans (sameGeneration_draftNf t _)
    · exact hpart
  unfold takePart
  dsimp only
  split
  · exact hnf.trans (sameGeneration_settleList t _)
  · next h => exact absurd h hk
  · exact hnf

theorem sameGeneration_deliverAll (t : Nat) (s : State) {l : List Packet} (hk : ∀ p ∈ l, (partOf p).kind ≠ 2) :
    SameGeneration t s (s.deliverAll t l) := by
  refine sameGeneration_foldl (fun u p hp => ?_) s
  unfold deliver
  split
  · exact sameGeneration_takePart t u (hk p hp)
  · exact sameGeneration_inject t u p

theorem sameGeneration_deliverPackets (t gen kind expert dst : Nat) (u s : State) (pieces : List DraftPiece) (nf : Bool)
    (hk : kind < 4) (h2 : kind ≠ 2) :
    SameGeneration t s (s.deliverAll t (u.draftPackets t gen kind expert dst pieces nf)) :=
  sameGeneration_deliverAll t s fun p hp => by
    rw [kind_of_mem_draftPackets hk hp]
    exact h2

/-! ## The commands -/

theorem draft_finish (s : State) (id : Nat) (k : Compl) (m : Nat) : (s.finish id k).draft m = s.draft m := by
  cases hc : s.cmd? id with
  | none => rw [finish_of_none hc]
  | some c =>
    obtain ⟨-, hkept, -⟩ := finish_completes hc k
    unfold draft
    rw [hkept.drafts]

theorem SameGeneration.cmd? {t : Nat} {s u : State} (h : SameGeneration t s u) (id : Nat) : u.cmd? id = s.cmd? id := by
  unfold State.cmd?
  rw [h.cmds]

section
variable {s : State} {id : Nat} {c : Cmd}

/-- DRAFT_PROPOSE begins the next generation, and what it then sends and settles stays within it. -/
theorem doDraftPropose_begins {g : Group} {score : Operand} (hrun : s.running? id 0x701 = some c) (hscore : c.op? 0 = some score)
    (hg : s.group? (s.draft c.draftTable).desc.group = some g) :
    ∃ u k, s.doDraftPropose id = u.finish id k ∧ k.status = 0x000
      ∧ SameGeneration c.draftTable (s.modDraft c.draftTable (fun d =>
        d.begin c (g.members.filter (s.presentFor g)) (s.absentFor g d.place))) u := by
  have hop : (s.cmd? id).bind (fun c => c.op? 0) = some score := by
    rw [(running?_some hrun).1]
    exact hscore
  unfold doDraftPropose
  rw [hrun, hop]
  dsimp only
  rw [hg]
  dsimp only
  generalize s.modDraft c.draftTable _ = w
  refine ⟨_, _, rfl, rfl, ?_⟩
  have hnf : SameGeneration c.draftTable w (if (w.draft c.draftTable).parts.any (fun p => p.kind == 3 && p.nf) then
      w.draftNf c.draftTable else w) := by
    split
    · exact sameGeneration_draftNf _ w
    · exact .refl _ w
  refine (hnf.trans ?_).trans ((sameGeneration_serveFetches _ _).trans (sameGeneration_settleList _ _))
  refine SameGeneration.trans ?_
    (sameGeneration_foldl (fun u x _ => sameGeneration_deliverPackets _ _ 0 _ _ _ u _ _ (by decide) (by decide)) _)
  exact (sameGeneration_writeBlocks _ _ _).trans (sameGeneration_bump _ _ _ _)

/-- DRAFT_MERGE with every list there sends its answers, and stays in the generation. -/
theorem doDraftMerge_answers (hrun : s.running? id 0x702 = some c) (hopen : (s.draft c.draftTable).genOpen = true)
    (hall : ∀ e ∈ ownedBy (s.draft c.draftTable).genPlace s.moduleId, ∀ m ∈ (s.draft c.draftTable).present,
      ((s.draft c.draftTable).whole 0 m e).isSome = true) :
    ∃ u, s.doDraftMerge id = u.finish id (plainCompl Status.ok) ∧ SameGeneration c.draftTable s u := by
  have hready : (!(s.draft c.draftTable).genOpen || !(ownedBy (s.draft c.draftTable).genPlace s.moduleId).all (fun e =>
      (s.draft c.draftTable).present.all (fun m => ((s.draft c.draftTable).whole 0 m e).isSome))) = false := by
    simpa [hopen] using hall
  unfold doDraftMerge
  rw [hrun]
  dsimp only
  rw [hready]
  refine ⟨_, rfl, ?_⟩
  refine sameGeneration_foldl (fun u e _ => ?_) _
  exact sameGeneration_foldl (fun v m _ => sameGeneration_deliverPackets _ _ 1 _ _ _ v _ _ (by decide) (by decide)) _

theorem draftCancel_open (hok : worst (s.draftCancelStart c).rejs = none) (hrun : s.running? id 0x705 = some c)
    (hopen : (s.draft c.draftTable).genOpen = true) (hnone : s.ofGeneration c.draftTable c.ctx = []) :
    s.doDraftCancel id = (s.retireGen c.draftTable).finish id (plainCompl Status.ok) := by
  refine (runChecked_acts hrun hok).trans ?_
  simp only [hopen, hnone, if_true, List.foldl_nil]

theorem draftCancel_closed (hok : worst (s.draftCancelStart c).rejs = none) (hrun : s.running? id 0x705 = some c)
    (hclosed : (s.draft c.draftTable).genOpen = false) : s.doDraftCancel id = s.finish id (plainCompl Status.ok) := by
  refine (runChecked_acts hrun hok).trans ?_
  simp only [hclosed, Bool.false_eq_true, if_false]

theorem draftOpen_binds (hrun : s.running? id 0x700 = some c) (hnone : s.inFlightBefore (Cmd.draftTableByte c.held) id = []) :
    exec (.draftOpen id) s = .next ((s.modDraft (Cmd.draftTableByte c.held) (fun _ => c.openedDraft)).finish id
      (plainCompl Status.ok)) := by
  refine congrArg Host.Outcome.next ?_
  rw [hrun]
  dsimp only
  rw [hnone]
  rfl

/-- A retired generation is not open. -/
theorem draft_retireGen (s : State) (t : Nat) :
    ((s.retireGen t).draft t).genOpen = false ∧ ∀ m, m ≠ t → (s.retireGen t).draft m = s.draft m := by
  refine ⟨?_, fun m hm => draft_modDraft_other s _ hm⟩
  by_cases ht : t < 64
  · rw [retireGen, draft_modDraft_same s _ ht]
    rfl
  · rw [draft_outside _ ht]

end

end State

open State

/-- Settles O33: DRAFT_OPEN binds, DRAFT_PROPOSE begins a generation, DRAFT_MERGE stays in it, DRAFT_CANCEL retires it. -/
theorem draftTablesAndGenerations : Obligations.DraftTablesAndGenerations := by
  unfold Obligations.DraftTablesAndGenerations
  refine ⟨fun s id c hrun hnone => ?_, fun s id c ht => ⟨fun g score hrun hscore hg => ?_, fun hrun hopen hall => ?_⟩,
    fun s id c hrun hok => ⟨fun hclosed => ?_, fun hopen hnone => ?_⟩⟩
  · have hc := (running?_some hrun).1
    refine ⟨_, s.modDraft (Cmd.draftTableByte c.held) (fun _ => c.openedDraft), draftOpen_binds hrun hnone,
      finish_completes (s := s.modDraft _ _) hc _, rfl, fun hn => ?_, fun m hm => ?_⟩
    · rw [draft_finish, draft_modDraft_same _ _ hn]
      exact ⟨rfl, rfl, rfl, rfl⟩
    · rw [draft_finish, draft_modDraft_other _ _ hm]
  · obtain ⟨u, k, hexec, hk, hsame⟩ := doDraftPropose_begins hrun hscore hg
    have hc : u.cmd? id = some c := (hsame.cmd? id).trans (running?_some hrun).1
    have htable := hsame.table
    rw [draft_modDraft_same _ _ ht] at htable
    refine ⟨_, u, k, congrArg Host.Outcome.next hexec, finish_completes hc k, hk, ?_⟩
    simp only [draft_finish]
    rw [htable]
    exact ⟨rfl, rfl, rfl, rfl, rfl, fun m hm => (hsame.others m hm).trans (draft_modDraft_other s _ hm)⟩
  · obtain ⟨u, hexec, hsame⟩ := doDraftMerge_answers hrun hopen hall
    have hc : u.cmd? id = some c := (hsame.cmd? id).trans (running?_some hrun).1
    refine ⟨_, u, congrArg Host.Outcome.next hexec, finish_completes hc _, ?_⟩
    simp only [draft_finish]
    rw [hsame.table]
    exact ⟨rfl, hsame.others⟩
  · exact ⟨_, congrArg Host.Outcome.next (draftCancel_closed hok hrun hclosed), finish_completes (running?_some hrun).1 _⟩
  · obtain ⟨hclosed, hothers⟩ := draft_retireGen s c.draftTable
    refine ⟨_, congrArg Host.Outcome.next (draftCancel_open hok hrun hopen hnone),
      finish_completes (s := s.retireGen _) (running?_some hrun).1 _, ?_⟩
    simp only [draft_finish]
    exact ⟨hclosed, hothers⟩

end Sys2Proof.Machine

/-! PROOFS. Draft runs (R269 to R272): the copies that a run places, what it writes, and how it ends. -/

namespace Sys2Proof.Machine

namespace State

/-! ## Blocks alone -/

/-- Two states that differ at most in memory and in what its blocks show of errors. -/
def SameButBlocks (s u : State) : Prop :=
  u = { s with mem := u.mem, free := u.free
               memside := { s.memside with uncured := u.memside.uncured, held := u.memside.held } }

theorem SameButBlocks.trans {s u v : State} (h : SameButBlocks s u) (h' : SameButBlocks u v) : SameButBlocks s v := by
  unfold SameButBlocks at h h' ⊢
  rw [h', h]

theorem sameButBlocks_placeCopy (s : State) (d : Draft) (e i : Nat) : SameButBlocks s (s.placeCopy d e i).1 := by
  unfold placeCopy
  split
  · rfl
  · split
    · rfl
    · dsimp only
      split
      · exact writeBlocks_frame s _
      · rfl

theorem sameButBlocks_overExperts {α : Type} (s : State) (d : Draft) (l : List (Nat × List Pair))
    (f : State → Nat → Nat → List Pair → α) : SameButBlocks s (s.overExperts d l f).1 := by
  unfold overExperts
  dsimp only
  exact foldl_keeps (p := fun acc : State × Nat × List (Nat × α) => SameButBlocks s acc.1)
    (fun acc x h => h.trans (sameButBlocks_placeCopy acc.1 d x.1 acc.2.1)) l rfl

theorem sameButBlocks_fwdEffect (s : State) (d : Draft) (c : Cmd) (pairs : List (Nat × List Pair)) (bad : Nat) :
    SameButBlocks s (s.fwdEffect d c pairs bad).1 := by
  unfold fwdEffect
  split
  · dsimp only
    exact sameButBlocks_overExperts s d pairs _
  · rfl

theorem sameButBlocks_bwdEffect (s : State) (d : Draft) (c : Cmd) (pairs : List (Nat × List Pair)) (bad : Nat) :
    SameButBlocks s (s.bwdEffect d c pairs bad).1 := by
  unfold bwdEffect
  split
  · dsimp only
    exact sameButBlocks_overExperts s d pairs _
  · rfl

/-- What a block write does to memory turns on memory, the free choices and the memory side alone. -/
theorem writeBlocks_congr {s u : State} (hmem : u.mem = s.mem) (hfree : u.free = s.free) (hside : u.memside = s.memside)
    (ws : List BlockWr) : (u.writeBlocks ws).mem = (s.writeBlocks ws).mem ∧ (u.writeBlocks ws).free = (s.writeBlocks ws).free
      ∧ (u.writeBlocks ws).memside = (s.writeBlocks ws).memside := by
  induction ws generalizing s u with
  | nil => exact ⟨hmem, hfree, hside⟩
  | cons w r ih =>
    refine ih (s := s.writeBlock w) (u := u.writeBlock w) ?_ ?_ ?_ <;>
      · unfold writeBlock land
        rw [hmem, hfree, hside]
        split <;> rfl

theorem written_congr {s u : State} (hmem : u.mem = s.mem) (hfree : u.free = s.free) (hside : u.memside = s.memside)
    (e : Effect) : (u.written e).mem = (s.written e).mem := by
  obtain ⟨hmem, hfree, hside⟩ := writeBlocks_congr hmem hfree hside e.writes
  exact (writeBlocks_congr hmem hfree hside e.finals).1

/-! ## The runs -/

section
variable {s : State} {id : Nat} {c : Cmd}

/-- Nothing that a run writes is under retry once its copies are placed. -/
theorem retryBlocks_of_runWaits {u : State} {e : Effect} (hu : SameButBlocks s u) (h : s.runWaits u e = false) :
    u.retryBlocks e = false := by
  have hretry : s.retryBlocks e = false := (Bool.or_eq_false_iff.mp h).2
  unfold SameButBlocks at hu
  unfold retryBlocks at hretry ⊢
  rw [hu]
  exact hretry

/-- A run that has its list and its copies, and that no retry holds back. -/
structure Ready (s : State) (c : Cmd) (pairs : List (Nat × List Pair) × Nat) : Prop where
  begun : c.stage = .begun
  isOpen : (s.draft c.draftTable).genOpen = true
  list : (s.draft c.draftTable).listDone = true
  listed : s.runPairs (s.draft c.draftTable) c (((c.op? 0).map (fun o => o.d.extent 1)).getD 0) = pairs
  copies : ∀ x ∈ pairs.1, s.haveExpert (s.draft c.draftTable) x.1 = true

variable {l : List (Nat × List Pair) × Nat}

/-- The state in which the forward run has its copies placed. -/
def fwdPlaced (s : State) (c : Cmd) (l : List (Nat × List Pair) × Nat) : State :=
  (s.fwdEffect (s.draft c.draftTable) c l.1 l.2).1.modDraft c.draftTable (fun d => { d with x := c.op? 0, copies := [] })

theorem doDraftFwd_performs (h : Ready s c l) (hrun : s.running? id 0x703 = some c)
    (hwaits : s.runWaits (s.fwdEffect (s.draft c.draftTable) c l.1 l.2).1 (s.fwdEffect (s.draft c.draftTable) c l.1 l.2).2
      = false) :
    s.doDraftFwd id =
      let v := (s.fwdPlaced c l).perform c (s.fwdEffect (s.draft c.draftTable) c l.1 l.2).2
      if bit c.draftCtrl 10 then v.closeGen c.draftTable else v := by
  have hgo : (c.stage == .go) = false := by rw [h.begun]; rfl
  have hall : (!l.1.all (fun x => s.haveExpert (s.draft c.draftTable) x.1)) = false := by simpa using h.copies
  unfold doDraftFwd
  simp only [hrun, h.isOpen, h.list, h.listed, hgo, hall, hwaits, Bool.not_true, Bool.or_self, Bool.false_eq_true, if_false]
  rfl

theorem fwdPlaced_cmds (s : State) (c : Cmd) (l : List (Nat × List Pair) × Nat) : (s.fwdPlaced c l).cmds = s.cmds := by
  show (s.fwdEffect (s.draft c.draftTable) c l.1 l.2).1.cmds = s.cmds
  rw [sameButBlocks_fwdEffect]

/-- The state in which the backward run has its copies placed. -/
def bwdPlaced (s : State) (c : Cmd) (l : List (Nat × List Pair) × Nat) : State :=
  (s.bwdEffect (s.draft c.draftTable) c l.1 l.2).1.modDraft c.draftTable (fun d => { d with copies := [] })

/-- What the backward run writes has landed, and the run waits for the gradients. -/
def bwdLanded (s : State) (c : Cmd) (l : List (Nat × List Pair) × Nat) : State :=
  ((s.bwdPlaced c l).performPart c (s.bwdEffect (s.draft c.draftTable) c l.1 l.2).2.1).1.setStage c.id (.dma 1)

/-- A contribution that is taken or sent leaves memory. -/
theorem takePart_mem (u : State) (t : Nat) {p : DraftPart} (hk : p.kind = 3) : (u.takePart t p).mem = u.mem := by
  unfold takePart draftNf
  simp only [hk]
  split
  · split <;> rfl
  · rfl

theorem deliverAll_mem (u : State) (t : Nat) {ps : List Packet} (hk : ∀ p ∈ ps, (partOf p).kind = 3) :
    (u.deliverAll t ps).mem = u.mem := by
  induction ps generalizing u with
  | nil => rfl
  | cons p r ih =>
    obtain ⟨hp, hr⟩ := List.forall_mem_cons.1 hk
    refine (ih (u.deliver t p) hr).trans ?_
    unfold deliver
    split
    · exact takePart_mem u t hp
    · exact inject_mem u p

/-- The backward run lands what it writes, sends its contributions to the owners, and sees whether it is done. -/
theorem doDraftBwd_sends (h : Ready s c l) (hrun : s.running? id 0x704 = some c)
    (hwaits : s.runWaits (s.bwdEffect (s.draft c.draftTable) c l.1 l.2).1 (s.bwdEffect (s.draft c.draftTable) c l.1 l.2).2.1
      = false) (hlimit : (s.bwdEffect (s.draft c.draftTable) c l.1 l.2).2.1.overLimit c = false) :
    ∃ u, s.doDraftBwd id = u.settleBwd c.draftTable id ∧ SameGeneration c.draftTable (s.bwdLanded c l) u
      ∧ u.mem = (s.bwdLanded c l).mem := by
  have hgo : (c.stage == .go) = false := by rw [h.begun]; rfl
  have hdma : (c.stage == .dma 1) = false := by rw [h.begun]; rfl
  have hall : (!l.1.all (fun x => s.haveExpert (s.draft c.draftTable) x.1)) = false := by simpa using h.copies
  have hpart : ∀ u : State, (u.performPart c (s.bwdEffect (s.draft c.draftTable) c l.1 l.2).2.1).2 = true := fun u => by
    unfold performPart
    rw [hlimit]
    rfl
  obtain rfl := cmd?_id (running?_some hrun).1
  unfold doDraftBwd
  simp only [hrun, h.isOpen, h.list, h.listed, hgo, hdma, hall, hwaits, hpart, Bool.not_true, Bool.or_self, Bool.false_eq_true,
    if_false]
  refine ⟨_, rfl, ?_, ?_⟩
  · exact sameGeneration_foldl (fun v e _ => sameGeneration_deliverPackets _ _ 3 _ _ _ v _ _ (by decide) (by decide)) _
  · exact foldl_keeps (p := fun v : State => v.mem = (s.bwdLanded c l).mem) (fun v e hv =>
      (deliverAll_mem v _ fun p hp => kind_of_mem_draftPackets (by decide) hp).trans hv) _ rfl

theorem landEffect_mem (s : State) (c : Cmd) (e : Effect) : (s.landEffect c e).mem = (s.written e).mem := by
  rw [landEffect_frame]

theorem sameGeneration_of_blocks {u : State} (t : Nat) (h : SameButBlocks s u) : SameGeneration t s u := by
  unfold SameButBlocks at h
  rw [h]
  exact sameGeneration_of rfl rfl rfl rfl

theorem sameGeneration_landEffect (t : Nat) (s : State) (c : Cmd) (e : Effect) : SameGeneration t s (s.landEffect c e) := by
  rw [landEffect_frame]
  exact sameGeneration_of rfl rfl rfl rfl

theorem sameGeneration_bwdPlaced (s : State) (c : Cmd) (l : List (Nat × List Pair) × Nat) :
    SameGeneration c.draftTable s (s.bwdPlaced c l) :=
  (sameGeneration_of_blocks _ (sameButBlocks_bwdEffect s _ c l.1 l.2)).trans (sameGeneration_modDraft _ _ fun _ => rfl)

/-- The command of a backward run once its writes have landed. -/
theorem bwdLanded_eq (hlimit : (s.bwdEffect (s.draft c.draftTable) c l.1 l.2).2.1.overLimit c = false) :
    ∃ f : Cmd → Cmd, (∀ d, (f d).id = d.id ∧ (f d).st = d.st ∧ (f d).opcode = d.opcode ∧ (f d).needs = d.needs)
      ∧ s.bwdLanded c l
        = (((s.bwdPlaced c l).landEffect c (s.bwdEffect (s.draft c.draftTable) c l.1 l.2).2.1).modCmd c.id f).setStage c.id
          (.dma 1) := by
  unfold bwdLanded performPart
  rw [hlimit]
  refine ⟨_, ?_, rfl⟩
  exact fun _ => ⟨rfl, rfl, rfl, rfl⟩

theorem running?_of_cmd? {u : State} {op : Nat} {d : Cmd} (hrun : s.running? id op = some c) (hd : u.cmd? id = some d)
    (hst : d.st = c.st) (hop : d.opcode = c.opcode) (hneeds : d.needs = c.needs) (hpower : u.power = s.power) :
    u.running? id op = some d := by
  have hawake : u.awake = s.awake := by
    funext x
    unfold awake domain
    rw [hpower]
  have hrunning : d.isRunning = c.isRunning := by
    unfold Cmd.isRunning
    rw [hst]
  unfold running? at hrun ⊢
  rw [hd]
  rw [(running?_some hrun).1] at hrun
  simp only [hop, hneeds, hawake, hrunning] at hrun ⊢
  split at hrun
  · next h => rw [if_pos h]
  · cases hrun

/-- Where every gradient that this module owns is formed, a backward run that waits for them closes its generation and ends. -/
theorem settleBwd_ends {u : State} {t : Nat} {d : Cmd} (hrun : u.running? id 0x704 = some d) (hstage : d.stage = .dma 1)
    (hnone : ownedBy (u.draft t).genPlace u.moduleId = []) :
    u.settleBwd t id = (u.closeGen t).finish id { status := Status.ok, count := d.part.count, oob := d.part.oob
                                                  poison := d.part.poison, poisonIn := d.part.poisonIn
                                                  poisonOut := d.part.poisonOut } := by
  have hc : (u.closeGen t).cmd? id = some d := (running?_some hrun).1
  have hbeq : (d.stage == .dma 1) = true := by rw [hstage]; rfl
  unfold settleBwd
  simp only [hrun, hbeq, hnone, List.all_nil, Bool.and_self, if_true]
  unfold finishPart
  rw [hc]

theorem draft_closeGen (s : State) (t : Nat) :
    ((s.closeGen t).draft t).genOpen = false ∧ ∀ m, m ≠ t → (s.closeGen t).draft m = s.draft m := by
  refine ⟨?_, fun m hm => draft_modDraft_other s _ hm⟩
  by_cases ht : t < 64
  · rw [closeGen, draft_modDraft_same s _ ht]
    rfl
  · rw [draft_outside _ ht]

end

end State

open State

/-- Settles O34: a draft run that has its list and its copies writes what it computes, and ends. -/
theorem draftRunsWriteTheirResults : Obligations.DraftRunsWriteTheirResults := by
  unfold Obligations.DraftRunsWriteTheirResults
  intro s id c hbegun hopen hlist
  dsimp only
  generalize hl : s.runPairs (s.draft c.draftTable) c (((c.op? 0).map (fun o => o.d.extent 1)).getD 0) = l
  intro hcopies
  have hready : Ready s c l := ⟨hbegun, hopen, hlist, hl, hcopies⟩
  refine ⟨fun hrun hwaits hlimit => ?_, fun hrun hwaits hlimit hnone => ?_⟩
  · obtain rfl := cmd?_id (running?_some hrun).1
    have hblocks := sameButBlocks_fwdEffect s (s.draft c.draftTable) c l.1 l.2
    have hretry : (s.fwdPlaced c l).retryBlocks (s.fwdEffect (s.draft c.draftTable) c l.1 l.2).2 = false := by
      show (s.fwdEffect (s.draft c.draftTable) c l.1 l.2).1.retryBlocks _ = false
      exact retryBlocks_of_runWaits hblocks hwaits
    have hc : (s.fwdPlaced c l).cmd? c.id = some c := by
      unfold cmd?
      rw [fwdPlaced_cmds]
      exact (running?_some hrun).1
    have hends := perform_completes hc hretry hlimit
    refine ⟨_, _, congrArg Host.Outcome.next (doDraftFwd_performs hready hrun hwaits), hends, ?_, fun m hm => ?_⟩
    · rw [hends.2.1.mem, landEffect_mem]
      exact written_congr (s := (s.fwdEffect (s.draft c.draftTable) c l.1 l.2).1) (u := s.fwdPlaced c l) rfl rfl rfl _
    · rw [perform_lands hretry hlimit, draft_finish, (sameGeneration_landEffect c.draftTable _ c _).others m hm]
      refine (draft_modDraft_other _ _ hm).trans ?_
      exact (sameGeneration_of_blocks c.draftTable hblocks).others m hm
  · obtain rfl := cmd?_id (running?_some hrun).1
    obtain ⟨u, hexec, hsent, hmem⟩ := doDraftBwd_sends hready hrun hwaits hlimit
    obtain ⟨f, hf, hlanded⟩ := bwdLanded_eq hlimit
    generalize hw : (s.bwdPlaced c l).landEffect c (s.bwdEffect (s.draft c.draftTable) c l.1 l.2).2.1 = w at hlanded
    have hsame : SameGeneration c.draftTable s w := hw ▸ (sameGeneration_bwdPlaced s c l).trans (sameGeneration_landEffect _ _ c _)
    have hcw : (w.modCmd c.id f).cmd? c.id = some (f c) := by
      rw [cmd?_modCmd (f := f) fun d => (hf d).1, hsame.cmd?, (running?_some hrun).1, Option.map_some, if_pos (by simp)]
    have hcu : u.cmd? c.id = some { f c with stage := .dma 1 } := by
      rw [hsent.cmd?, hlanded]
      exact setStage_cmd? hcw _
    have hpower : u.power = s.power := by
      rw [hsent.power, hlanded]
      exact hsame.power
    have hothers : ∀ m, m ≠ c.draftTable → u.draft m = s.draft m := fun m hm => by
      rw [hsent.others m hm, hlanded]
      exact hsame.others m hm
    have hplace : (u.draft c.draftTable).genPlace = (s.draft c.draftTable).genPlace := by
      have htable := hsent.table
      rw [hlanded] at htable
      have := hsame.table.trans htable
      unfold Draft.Alike at this
      rw [this]
    have hmodule : u.moduleId = s.moduleId := by
      rw [hsent.moduleId, hlanded]
      exact hsame.moduleId
    have hend := settleBwd_ends (running?_of_cmd? hrun hcu (hf c).2.1 (hf c).2.2.1 (hf c).2.2.2 hpower) rfl
      (by rw [hplace, hmodule]; exact hnone)
    rw [hend] at hexec
    obtain ⟨hclosed, hother⟩ := draft_closeGen u c.draftTable
    refine ⟨_, u.closeGen c.draftTable, _, congrArg Host.Outcome.next hexec,
      finish_completes (s := u.closeGen c.draftTable) hcu _, rfl, ?_, ?_, fun m hm => ?_⟩
    · rw [finish_mem]
      refine hmem.trans ?_
      rw [hlanded]
      show w.mem = _
      rw [← hw, landEffect_mem]
      exact written_congr (s := (s.bwdEffect (s.draft c.draftTable) c l.1 l.2).1) (u := s.bwdPlaced c l) rfl rfl rfl _
    · rw [draft_finish]
      exact hclosed
    · rw [draft_finish, hother m hm, hothers m hm]

end Sys2Proof.Machine

/-! PROOFS. DRAFT_TRANSFER (R282 to R284) on a module that is alone in its group. -/

namespace Sys2Proof.Machine

/-! ## No loans for a module that is alone -/

theorem loanCount_alone (experts load total : Nat) : loanCount experts load total 1 = 0 := by
  unfold loanCount
  split <;> simp

theorem chooseLoans_alone (d : Draft) (loads : List Nat) (m : Nat) : chooseLoans d loads [m] = [] := by
  unfold chooseLoans
  dsimp only
  refine foldl_keeps (p := fun made : List (Nat × Nat) => made = []) (fun made e h => ?_) _ rfl
  rw [h, List.length_singleton, loanCount_alone]
  rfl

theorem map_enumFrom_snd {α β : Type} (f : α → β) (k : Nat) (l : List α) : (enumFrom k l).map (fun p => f p.2) = l.map f := by
  induction l generalizing k with
  | nil => rfl
  | cons x r ih => exact congrArg (f x :: ·) (ih (k + 1))

theorem newPlacement_alone (d : Draft) (loads : List Nat) (m : Nat) :
    newPlacement d loads [m] = d.place.map (fun p => { p with holders := [] }) := by
  unfold newPlacement
  rw [chooseLoans_alone]
  exact map_enumFrom_snd (fun p : Placement => { p with holders := [] }) 0 d.place

theorem holderSlot_noHolders (pl : List Placement) (e m : Nat) :
    holderSlot (pl.map (fun p => { p with holders := [] })) e m = none := by
  unfold holderSlot
  rw [List.getElem?_map]
  cases pl[e]? <;> rfl

namespace State

section
variable {s : State} {id : Nat} {c : Cmd}

/-- The steps between the transfer windows of a table (R282). -/
def windowOf (d : Draft) : Nat := if d.desc.window = 0 then 200 else d.desc.window

/-- A transfer that its step does not ask for ends at once. -/
theorem doDraftTransfer_between {n entry ph : Nat} {step : Word32} (hrun : s.running? id 0x706 = some c) (hgo : c.stage = .go)
    (hsrc : c.src = .seq n entry step ph) (hstep : step.toNat % windowOf (s.draft c.draftTable) ≠ 0) :
    s.doDraftTransfer id = s.finish id (plainCompl Status.ok) := by
  unfold windowOf at hstep
  unfold doDraftTransfer
  simp [hrun, hgo, hsrc, hstep]

/-- The state in which a transfer of a module that is alone has its placement, with nothing to fetch. -/
def transferPlanned (s : State) (id : Nat) (c : Cmd) : State :=
  let d := s.draft c.draftTable
  (({ s with free := s.free + d.desc.experts } : State).setStage id .begun).modDraft c.draftTable
    (fun e => { e with newPlace := some (d.place.map (fun p => { p with holders := [] })) })

theorem doDraftTransfer_alone {g : Group} (hrun : s.running? id 0x706 = some c) (hgo : c.stage = .go)
    (hacts : (∃ q, c.src = .host q) ∨ ∃ n entry step ph, c.src = .seq n entry step ph
      ∧ step.toNat % windowOf (s.draft c.draftTable) = 0 ∧ (s.seq n).st ≠ .holding)
    (hg : s.group? (s.draft c.draftTable).desc.group = some g)
    (halone : g.members.filter (s.presentFor g) = [s.moduleId]) :
    s.doDraftTransfer id = (s.transferPlanned id c).settleTransfer c.draftTable := by
  unfold windowOf at hacts
  have hstage : (c.stage != .go) = false := by rw [hgo]; rfl
  unfold doDraftTransfer transferPlanned
  rcases hacts with ⟨q, hsrc⟩ | ⟨n, entry, step, ph, hsrc, hstep, hhold⟩
  · simp only [hrun, hstage, hsrc, hg, Option.map_some, Option.getD_some, halone, newPlacement_alone, holderSlot_noHolders,
      Option.bind_none, List.filterMap_none, List.foldl_nil, Bool.not_true, Bool.false_eq_true, if_false]
  · have hstep' : step.toNat % (if (s.draft c.draftTable).desc.window == 0 then 200 else (s.draft c.draftTable).desc.window)
        = 0 := by simpa using hstep
    have hhold' : ((s.seq n).st != .holding) = true := bne_iff_ne.mpr hhold
    simp only [hrun, hstage, hsrc, hg, Option.map_some, Option.getD_some, halone, newPlacement_alone, holderSlot_noHolders,
      Option.bind_none, List.filterMap_none, List.foldl_nil, hstep', hhold', beq_self_eq_true, Bool.and_self,
      Bool.not_true, Bool.false_eq_true, if_false]

/-- The transfer of a table whose copies are all there ends, and its placement waits for the step boundary. -/
theorem settleTransfer_ends {t : Nat} {pl : List Placement} (hnew : (s.draft t).newPlace = some pl)
    (hfind : s.cmds.find? (fun c => c.isRunning && c.opcode == 0x706 && c.draftTable == t) = some c)
    (hasked : (s.draft t).asked = []) :
    s.settleTransfer t = (s.modDraft t (fun d => { d with
      demands := List.replicate d.desc.experts 0, nextPlace := some pl, newPlace := none })).finish c.id
        (plainCompl Status.ok) := by
  unfold settleTransfer
  simp only [hnew, hfind, hasked, List.any_nil, Bool.not_false, if_true]

theorem transferPlanned_finds (hrun : s.running? id 0x706 = some c)
    (honly : ∀ k ∈ s.cmds, k.isRunning = true → k.opcode = 0x706 → k.draftTable = c.draftTable → k.id = id) :
    ∃ k, (s.transferPlanned id c).cmds.find? (fun k => k.isRunning && k.opcode == 0x706 && k.draftTable == c.draftTable) = some k
      ∧ k.id = id := by
  obtain ⟨hc, hrunning, hop⟩ := running?_some hrun
  have hmem := List.mem_of_find?_eq_some hc
  have hpred : ((fun k : Cmd => k.isRunning && k.opcode == 0x706 && k.draftTable == c.draftTable)
      ∘ fun k : Cmd => if k.id == id then { k with stage := .begun } else k)
        = fun k : Cmd => k.isRunning && k.opcode == 0x706 && k.draftTable == c.draftTable := by
    funext k
    dsimp only [Function.comp]
    split <;> rfl
  have hcmds : (s.transferPlanned id c).cmds = s.cmds.map (fun k => if k.id == id then { k with stage := .begun } else k) := rfl
  rw [hcmds, List.find?_map, hpred]
  cases hk : s.cmds.find? (fun k => k.isRunning && k.opcode == 0x706 && k.draftTable == c.draftTable) with
  | none =>
    have := List.find?_eq_none.mp hk c hmem
    simp [hrunning, hop] at this
  | some k =>
    have hprop := List.find?_some hk
    simp only [Bool.and_eq_true, beq_iff_eq] at hprop
    obtain ⟨⟨hkrun, hkop⟩, hktable⟩ := hprop
    have hid := honly k (List.mem_of_find?_eq_some hk) hkrun hkop hktable
    refine ⟨_, rfl, ?_⟩
    show (if k.id == id then { k with stage := .begun } else k).id = id
    split <;> exact hid

end

end State

open State

/-- Settles O36: a transfer acts at its windows alone, and gives a module that is alone no loans. -/
theorem draftTransferFormsThePlacement : Obligations.DraftTransferFormsThePlacement := by
  unfold Obligations.DraftTransferFormsThePlacement
  intro s id c hrun hgo ht
  have hc := (running?_some hrun).1
  refine ⟨fun n entry step ph hsrc hstep => ?_, fun g hacts hg halone hasked honly => ?_⟩
  · exact ⟨_, congrArg Host.Outcome.next (doDraftTransfer_between hrun hgo hsrc hstep), finish_completes hc _⟩
  · obtain ⟨k, hfind, hid⟩ := transferPlanned_finds hrun honly
    have hdraft : (s.transferPlanned id c).draft c.draftTable = { s.draft c.draftTable with
        newPlace := some ((s.draft c.draftTable).place.map (fun p => { p with holders := [] })) } :=
      draft_modDraft_same _ _ ht
    have hexec := doDraftTransfer_alone hrun hgo hacts hg halone
    rw [settleTransfer_ends (by rw [hdraft]) hfind (by rw [hdraft]; exact hasked), hid] at hexec
    refine ⟨_, _, congrArg Host.Outcome.next hexec, finish_completes (c := { c with stage := .begun }) ?_ _, ?_⟩
    · exact setStage_cmd? (s := { s with free := s.free + (s.draft c.draftTable).desc.experts }) hc .begun
    · rw [draft_finish, draft_modDraft_same _ _ ht, hdraft, finish_mem]
      exact ⟨rfl, rfl, rfl, rfl⟩

end Sys2Proof.Machine

/-! PROOFS. Draft packets (R276, R278): by table, context and generation they are taken, held, or stale. -/

namespace Sys2Proof.Machine

namespace State

/-- The table and the generation that a draft packet names. -/
def packetTable (p : Packet) : Nat := bits (fieldAt p.payload 0 8) 47 42
def packetGen (p : Packet) : Nat := bits (fieldAt p.payload 0 8) 63 48

theorem packetGen_lt (p : Packet) : packetGen p < 65536 := Nat.mod_lt _ (by decide)

section
variable {s : State} {p : Packet}

theorem doDraftPacket_unbound (h : (s.draft (packetTable p)).bound = false ∨ (s.draft (packetTable p)).ctx ≠ p.hdr.tctx) :
    s.doDraftPacket p = s.bump .staleReturn :=
  if_pos (by rcases h with h | h <;> simp [show bits (fieldAt p.payload 0 8) 47 42 = packetTable p from rfl, h])

/-- Of the generation that a table is in, a packet that is not taken is stale. -/
theorem not_next_of_current (hgen : packetGen p = (s.draft (packetTable p)).gen) :
    (packetGen p == ((s.draft (packetTable p)).gen + 1) % 65536) = false := by
  have := packetGen_lt p
  refine beq_eq_false_iff_ne.mpr ?_
  omega

section
variable (hbound : (s.draft (packetTable p)).bound = true) (hctx : (s.draft (packetTable p)).ctx = p.hdr.tctx)
include hbound hctx

/-- What `doDraftPacket` does with a packet of a table that is bound in the packet's context. -/
theorem doDraftPacket_bound :
    s.doDraftPacket p =
      if (partOf p).kind == 2 && (partOf p).empty && packetGen p == (s.draft (packetTable p)).gen
          && ((s.draft (packetTable p)).genOpen || (partOf p).part == 1) then
        (s.modDraft (packetTable p) (fun d => { d with
          fetches := d.fetches ++ [(partOf p).request (packetGen p)] })).serveFetches (packetTable p)
      else if !((partOf p).kind == 2 && (partOf p).empty) && packetGen p == (s.draft (packetTable p)).gen
          && ((s.draft (packetTable p)).genOpen || ((partOf p).kind == 2
            && (s.draft (packetTable p)).asked.any (fun a => a.expert == (partOf p).expert && a.source == (partOf p).source))) then
        s.takePart (packetTable p) (partOf p)
      else if packetGen p == ((s.draft (packetTable p)).gen + 1) % 65536 then
        s.modDraft (packetTable p) (fun d => { d with nextParts := addPart d.nextParts (partOf p) })
      else s.bump .staleReturn :=
  if_neg (by simp [show bits (fieldAt p.payload 0 8) 47 42 = packetTable p from rfl, hbound, hctx])

theorem doDraftPacket_other (hgen : packetGen p ≠ (s.draft (packetTable p)).gen) :
    s.doDraftPacket p = if packetGen p == ((s.draft (packetTable p)).gen + 1) % 65536 then
        s.modDraft (packetTable p) (fun d => { d with nextParts := addPart d.nextParts (partOf p) })
      else s.bump .staleReturn := by
  have hgen' : (packetGen p == (s.draft (packetTable p)).gen) = false := beq_eq_false_iff_ne.mpr hgen
  rw [doDraftPacket_bound hbound hctx]
  simp only [hgen', Bool.and_false, Bool.false_and, Bool.false_eq_true, if_false]

variable (hgen : packetGen p = (s.draft (packetTable p)).gen)
include hgen

theorem doDraftPacket_request (hkind : (partOf p).kind = 2) (hempty : (partOf p).empty = true) :
    s.doDraftPacket p = if (s.draft (packetTable p)).genOpen || (partOf p).part == 1 then
        (s.modDraft (packetTable p) (fun d => { d with
          fetches := d.fetches ++ [(partOf p).request (packetGen p)] })).serveFetches (packetTable p)
      else s.bump .staleReturn := by
  rw [doDraftPacket_bound hbound hctx, not_next_of_current hgen]
  simp only [hkind, hempty, hgen, beq_self_eq_true, Bool.and_self, Bool.true_and, Bool.not_true, Bool.false_and,
    Bool.false_eq_true, if_false]

theorem doDraftPacket_part (hpart : ¬((partOf p).kind = 2 ∧ (partOf p).empty = true)) :
    s.doDraftPacket p = if (s.draft (packetTable p)).genOpen || ((partOf p).kind == 2
          && (s.draft (packetTable p)).asked.any (fun a => a.expert == (partOf p).expert && a.source == (partOf p).source)) then
        s.takePart (packetTable p) (partOf p)
      else s.bump .staleReturn := by
  have hnot : ((partOf p).kind == 2 && (partOf p).empty) = false := by
    rw [Bool.eq_false_iff]
    intro h
    exact hpart (by simpa using h)
  rw [doDraftPacket_bound hbound hctx, not_next_of_current hgen]
  simp only [hnot, hgen, beq_self_eq_true, Bool.and_self, Bool.true_and, Bool.not_false, Bool.false_and,
    Bool.false_eq_true, if_false]

end

/-- A candidate list joins the parts of its table. -/
theorem takePart_list (t : Nat) {x : DraftPart} (hk : x.kind = 0) :
    s.takePart t x = s.modDraft t (fun d => { d with parts := addPart d.parts x }) := by
  unfold takePart
  simp only [hk]
  rfl

end

end State

open State

/-- Settles O37: a draft packet is taken by its generation, held for the next, or counted as stale. -/
theorem draftPacketsMatchTheirGeneration : Obligations.DraftPacketsMatchTheirGeneration := by
  unfold Obligations.DraftPacketsMatchTheirGeneration
  intro s p ha
  dsimp only
  have hexec : exec (.draftPacket p) s = .next (s.doDraftPacket p) := congrArg Host.Outcome.next (receive_arrives ha _)
  rw [show bits (fieldAt p.payload 0 8) 47 42 = packetTable p from rfl,
    show bits (fieldAt p.payload 0 8) 63 48 = packetGen p from rfl, hexec]
  refine ⟨fun h => congrArg _ (doDraftPacket_unbound h), fun hbound hctx => ⟨fun hgen hnext => congrArg _ ?_,
    fun hgen hnext => congrArg _ ?_, fun hgen hreq => ⟨fun hclosed hpart => congrArg _ ?_, fun hopen => congrArg _ ?_⟩,
    fun hgen hreq => ⟨fun htaken => ⟨_, rfl, ?_, ?_⟩, fun hclosed hasked => congrArg _ ?_⟩⟩⟩
  · rw [doDraftPacket_other hbound hctx hgen, if_neg (by simpa using hnext)]
  · rw [doDraftPacket_other hbound hctx hgen, if_pos (by simpa using hnext)]
  · rw [doDraftPacket_request hbound hctx hgen hreq.1 hreq.2, if_neg (by simp [hclosed, hpart])]
  · rw [doDraftPacket_request hbound hctx hgen hreq.1 hreq.2, if_pos (by simpa using hopen)]
    rfl
  · rw [doDraftPacket_part hbound hctx hgen hreq, if_pos (by simpa using htaken)]
  · intro hk
    rw [doDraftPacket_part hbound hctx hgen hreq, if_pos (by simpa using htaken), takePart_list _ hk]
  · rw [doDraftPacket_part hbound hctx hgen hreq, if_neg (by simpa [hclosed] using hasked)]

end Sys2Proof.Machine

/-! PROOFS. Sums in rank order (R209, R210, R272, R320): the words that they form, and how these lie in memory. -/

namespace Sys2Proof.Machine

/-! ## Words in lists of bytes -/

/-- Byte i of a list is byte i of its number. -/
theorem byteOf_leNat (l : List Byte) (i : Nat) : BitVec.ofNat 8 (leNat l / 256 ^ i) = l.getD i 0#8 := by
  induction l generalizing i with
  | nil => simp [leNat]
  | cons b r ih =>
    have hb := b.isLt
    cases i with
    | zero =>
      refine BitVec.eq_of_toNat_eq ?_
      simp only [leNat, Nat.pow_zero, Nat.div_one, BitVec.toNat_ofNat, List.getD_cons_zero]
      omega
    | succ i =>
      rw [List.getD_cons_succ, ← ih, Nat.pow_succ', ← Nat.div_div_eq_div_mul, leNat]
      congr 2
      omega

/-- Word j of a list of words of n bytes. -/
theorem fieldAt_flatMap_natLe {α : Type} (n : Nat) (f : α → Nat) (l : List α) {j : Nat} (h : j < l.length) :
    fieldAt (l.flatMap (fun w => natLe n (f w))) (n * j) n = f l[j] % 256 ^ n := by
  induction l generalizing j with
  | nil => simp at h
  | cons w r ih =>
    rw [List.flatMap_cons]
    cases j with
    | zero => exact fieldAt_natLe_append n _ _
    | succ j =>
      rw [List.getElem_cons_succ, ← ih (by simpa using h)]
      unfold fieldAt
      rw [show n * (j + 1) = (natLe n (f w)).length + n * j by rw [length_natLe]; ring, List.drop_length_add_append]

theorem length_flatMap_natLe {α : Type} (n : Nat) (f : α → Nat) (l : List α) :
    (l.flatMap (fun w => natLe n (f w))).length = n * l.length := by
  induction l with
  | nil => rfl
  | cons w r ih =>
    rw [List.flatMap_cons, List.length_append, length_natLe, ih, List.length_cons]
    ring

theorem fieldAt_eq_of_getD {l r : List Byte} {p q n : Nat} (h : ∀ i < n, l.getD (p + i) 0#8 = r.getD (q + i) 0#8)
    (hl : p + n ≤ l.length) (hr : q + n ≤ r.length) : fieldAt l p n = fieldAt r q n := by
  unfold fieldAt
  congr 1
  refine List.ext_getElem (by simp; omega) fun i hi hi' => ?_
  have hin : i < n := by
    rw [List.length_take] at hi
    omega
  have := h i hin
  rw [List.getD_eq_getElem _ _ (by omega), List.getD_eq_getElem _ _ (by omega)] at this
  simpa using this

theorem getD_bytes (m : Mem) (a : Nat) {n i : Nat} (h : i < n) : (m.bytes a n).getD i 0#8 = m.byte (a + i) := by
  simp [Mem.bytes, h]

/-- The number that lies at an address is the field of a list whose bytes lie there. -/
theorem numAt_eq_fieldAt {m : Mem} {a off n : Nat} {l : List Byte} (h : ∀ i < n, m.byte (a + i) = l.getD (off + i) 0#8)
    (hl : off + n ≤ l.length) : numAt m a n = fieldAt l off n := by
  have hwhole : numAt m a n = fieldAt (m.bytes a n) 0 n := by
    unfold numAt fieldAt
    rw [List.drop_zero, List.take_of_length_le (by simp [Mem.bytes])]
  rw [hwhole]
  refine fieldAt_eq_of_getD (fun i hi => ?_) (by simp [Mem.bytes]) hl
  rw [Nat.zero_add, getD_bytes m a hi, h i hi]

/-! ## Sums -/

theorem addWords_getD {a b : List Word32} {j : Nat} (ha : j < a.length) (hb : j < b.length) :
    (addWords a b).getD j 0#32 = fadd (a.getD j 0#32) (b.getD j 0#32) := by
  simp [addWords, ha, hb]

theorem addAll_getD {cs : List (List Word32)} {d : List Word32} {j : Nat} (hd : j < d.length) (hcs : ∀ x ∈ cs, j < x.length) :
    j < (addAll d cs).length
      ∧ (addAll d cs).getD j 0#32 = (cs.map (fun x => x.getD j 0#32)).foldl fadd (d.getD j 0#32) := by
  induction cs generalizing d with
  | nil => exact ⟨hd, rfl⟩
  | cons x r ih =>
    obtain ⟨hx, hr⟩ := List.forall_mem_cons.1 hcs
    have hlen : j < (addWords d x).length := by simp [addWords, hd, hx]
    obtain ⟨hlast, heq⟩ := ih hlen hr
    refine ⟨hlast, heq.trans ?_⟩
    rw [addWords_getD hd hx]
    rfl

/-- Word j of a sum of lists in order. -/
theorem sum_getD {x : List Word32} {r : List (List Word32)} {j : Nat} (h : ∀ y ∈ x :: r, j < y.length) :
    ((addAll x r).map canonWord).getD j 0#32 = rankSum ((x :: r).map (fun y => y.getD j 0#32)) := by
  obtain ⟨hx, hr⟩ := List.forall_mem_cons.1 h
  obtain ⟨hlen, heq⟩ := addAll_getD hx hr
  rw [List.getD_eq_getElem _ _ (by simpa using hlen), List.getElem_map, ← List.getD_eq_getElem _ 0#32 hlen, heq]
  rfl

theorem length_blockWords (bf : Bool) (b : List Byte) : (blockWords bf b).length = if bf then 32 else 16 := by
  cases bf <;> simp [blockWords]

/-- Word j of the sum of some blocks. -/
theorem sumParts_getD (bf : Bool) (bs : List (List Byte)) {j : Nat} (hj : j < if bf then 32 else 16) :
    (sumParts bf bs).getD j 0#32 = rankSum (bs.map (fun b => (blockWords bf b).getD j 0#32)) := by
  cases bs with
  | nil => simp [sumParts, rankSum, hj]
  | cons b r =>
    have h : ∀ y ∈ blockWords bf b :: r.map (blockWords bf), j < y.length := by
      intro y hy
      rcases List.mem_cons.mp hy with rfl | hy
      · rwa [length_blockWords]
      · obtain ⟨x, -, rfl⟩ := List.mem_map.mp hy
        rwa [length_blockWords]
    rw [sumParts, sum_getD h, ← List.map_cons, List.map_map]
    rfl

theorem length_addAll {n : Nat} {cs : List (List Word32)} {d : List Word32} (hd : d.length = n) (hcs : ∀ x ∈ cs, x.length = n) :
    (addAll d cs).length = n := by
  induction cs generalizing d with
  | nil => exact hd
  | cons x r ih =>
    obtain ⟨hx, hr⟩ := List.forall_mem_cons.1 hcs
    exact ih (d := addWords d x) (by simp [addWords, hd, hx]) hr

theorem length_sumParts (bf : Bool) (bs : List (List Byte)) : (sumParts bf bs).length = if bf then 32 else 16 := by
  cases bs with
  | nil => simp [sumParts]
  | cons b r =>
    rw [sumParts, List.length_map]
    refine length_addAll (length_blockWords bf b) fun x hx => ?_
    obtain ⟨y, -, rfl⟩ := List.mem_map.mp hx
    exact length_blockWords bf y

/-- An element of a sum, with its mean where that is asked for. -/
def meanOf (mean : Bool) (n : Nat) (w : Word32) : Word32 := if mean && n != 0 then fmul w (frecip (f32OfNat n)) else w

theorem toBf16R_lt (rm : Rnd) (v : Val) : toBf16R rm v < 2 ^ 16 := by
  cases v with
  | nan => exact (by decide : 0x7FC0 < 2 ^ 16)
  | inf s =>
    show (if s then 0xFF80 else 0x7F80) < 2 ^ 16
    split <;> decide
  | fin s m e =>
    have hsign : flagAt s 15 ≤ 2 ^ 15 := by cases s <;> decide
    unfold toBf16R
    dsimp only
    split
    · omega
    · next h =>
      simp only [ge_iff_le, Bool.or_eq_true, decide_eq_true_eq, not_or, Nat.not_le] at h
      omega

theorem formBlock_eq (bf mean : Bool) (n : Nat) (ws : List Word32) :
    formBlock bf mean n ws = wordsBlock bf (ws.map (meanOf mean n)) := by
  unfold formBlock
  dsimp only
  cases h : mean && n != 0 with
  | true =>
    rw [if_pos rfl]
    congr 1
    refine List.map_congr_left fun w _ => ?_
    rw [meanOf, h, if_pos rfl]
  | false =>
    rw [if_neg Bool.false_ne_true]
    congr 1
    refine ((List.map_congr_left fun w _ => ?_).trans (List.map_id ws)).symm
    rw [meanOf, h]
    rfl

theorem length_wordsBlock (bf : Bool) (ws : List Word32) (h : ws.length = if bf then 32 else 16) : (wordsBlock bf ws).length = 64 := by
  unfold wordsBlock
  cases bf with
  | true =>
    simp only [if_true] at h ⊢
    rw [length_flatMap_natLe, h]
  | false =>
    simp only [Bool.false_eq_true, if_false] at h ⊢
    rw [length_flatMap_natLe, h]

/-- Word j of an FP32 block that a sum forms. -/
theorem fieldAt_formBlock_fp32 (mean : Bool) (n : Nat) (bs : List (List Byte)) {j : Nat} (hj : j < 16) :
    fieldAt (formBlock false mean n (sumParts false bs)) (4 * j) 4
      = (meanOf mean n (rankSum (bs.map (fun b => BitVec.ofNat 32 (fieldAt b (4 * j) 4))))).toNat := by
  have hlen : j < ((sumParts false bs).map (meanOf mean n)).length := by
    rw [List.length_map, length_sumParts]
    exact hj
  have hsum := sumParts_getD false bs hj
  have hword : ∀ b : List Byte, (blockWords false b).getD j 0#32 = BitVec.ofNat 32 (fieldAt b (4 * j) 4) := fun b => by
    simp [blockWords, hj]
  simp only [hword] at hsum
  rw [List.getD_eq_getElem _ _ (by simpa using hlen)] at hsum
  rw [formBlock_eq, wordsBlock]
  simp only [Bool.false_eq_true, if_false]
  rw [fieldAt_flatMap_natLe 4 BitVec.toNat _ hlen, List.getElem_map, hsum]
  exact Nat.mod_eq_of_lt (BitVec.isLt _)

/-- Word j of a BF16 block that a sum forms: it is rounded once. -/
theorem fieldAt_formBlock_bf16 (mean : Bool) (n : Nat) (bs : List (List Byte)) {j : Nat} (hj : j < 32) :
    fieldAt (formBlock true mean n (sumParts true bs)) (2 * j) 2
      = toBf16R .near (ofF32 (meanOf mean n (rankSum (bs.map (fun b => toF32 (ofBf16 (fieldAt b (2 * j) 2))))))) := by
  have hlen : j < ((sumParts true bs).map (meanOf mean n)).length := by
    rw [List.length_map, length_sumParts]
    exact hj
  have hsum := sumParts_getD true bs hj
  have hword : ∀ b : List Byte, (blockWords true b).getD j 0#32 = toF32 (ofBf16 (fieldAt b (2 * j) 2)) := fun b => by
    simp [blockWords, hj]
  simp only [hword] at hsum
  rw [List.getD_eq_getElem _ _ (by simpa using hlen)] at hsum
  rw [formBlock_eq, wordsBlock]
  simp only [if_true]
  rw [fieldAt_flatMap_natLe 2 (fun w => toBf16R .near (ofF32 w)) _ hlen, List.getElem_map, hsum]
  exact Nat.mod_eq_of_lt (toBf16R_lt _ _)

/-! ## Sound blocks in memory -/

/-- Address x is byte i of a block write whose mask is set there, and the byte that it writes is v. -/
def BlockWr.Puts (w : BlockWr) (x : Nat) (v : Byte) : Prop :=
  ∃ i < 64, x = w.loc + i ∧ (∀ j < 8, w.mask.testBit (8 * i + j) = true) ∧ BitVec.ofNat 8 (w.val / 256 ^ i) = v

def BlockWr.Sound (w : BlockWr) : Prop := w.poison = false ∧ w.merge = false

theorem Mem.writeBlock_byte_puts {m : Mem} {k x : Nat} {w : BlockWr} {v : Byte} (hm : m.wf) (hu : m.undef = []) (hw : w.Sound)
    (h : w.Puts x v) : (m.writeBlock k w).byte x = v := by
  obtain ⟨i, hi, rfl, hmask, hv⟩ := h
  have hspoils : m.spoils w = false := by
    unfold Mem.spoils
    rw [hw.1, hw.2]
    rfl
  rw [Mem.writeBlock_byte_inside hm (.inl hspoils) hi (by simp [Mem.isUndef, hu]), ← hv]
  refine BitVec.eq_of_getLsbD_eq fun j hj => ?_
  rw [getLsbD_byteOf _ _ hj, getLsbD_byteOf _ _ hj, Mem.testBit_merged m w hi hj, if_pos (hmask j hj)]

namespace State

/-- Memory of which every byte is defined, and no block of which is under retry. -/
structure Settled (s : State) : Prop where
  wf : s.mem.wf
  defined : s.mem.undef = []
  noRetry : s.memside.pendingUe = []

theorem Settled.land {s : State} (h : s.Settled) (w : BlockWr) : (s.writeBlock w).Settled := by
  obtain ⟨hwf, hdefined, hretry⟩ := h
  rw [writeBlock_lands s w (by rw [hretry]; rfl)]
  exact ⟨Mem.writeBlock_wf hwf _ _, (Mem.writeBlock_undef _ _ _).trans hdefined, hretry⟩

theorem Settled.writeBlocks {s : State} (h : s.Settled) (ws : List BlockWr) : (s.writeBlocks ws).Settled := by
  induction ws generalizing s with
  | nil => exact h
  | cons w r ih => exact ih (h.land w)

/-- A byte that sound writes put, and that none of them writes otherwise, reads as they put it. -/
theorem writeBlocks_byte_puts {s : State} {ws : List BlockWr} {x : Nat} {v : Byte} (hs : s.Settled) (hsound : ∀ w ∈ ws, w.Sound)
    (hws : ∀ w ∈ ws, (x < w.loc ∨ w.loc + 64 ≤ x) ∨ w.Puts x v) (h : s.mem.byte x = v ∨ ∃ w ∈ ws, w.Puts x v) :
    (s.writeBlocks ws).mem.byte x = v := by
  induction ws generalizing s with
  | nil => exact h.resolve_right (by simp)
  | cons w r ih =>
    obtain ⟨hwsound, hrsound⟩ := List.forall_mem_cons.1 hsound
    obtain ⟨hw, hr⟩ := List.forall_mem_cons.1 hws
    have hputs : w.Puts x v → (s.writeBlock w).mem.byte x = v := fun hp => by
      rw [writeBlock_lands s w (by rw [hs.noRetry]; rfl)]
      exact Mem.writeBlock_byte_puts hs.wf hs.defined hwsound hp
    refine ih (hs.land w) hrsound hr ?_
    rcases h with h | ⟨y, hy, hp⟩
    · rcases hw with hout | hp
      · exact .inl ((writeBlock_byte_outside hout).trans h)
      · exact .inl (hputs hp)
    · rcases List.mem_cons.mp hy with rfl | hy
      · exact .inl (hputs hp)
      · exact .inr ⟨y, hy, hp⟩

/-- Sound blocks of a command land as they are written, and it goes on. -/
theorem landBlocks_sound {s u : State} {id : Nat} {f : Fmt} {ws : List BlockWr} (hmem : u.mem = s.mem) (hfree : u.free = s.free)
    (hside : u.memside = s.memside) (hc : (u.cmd? id).isSome = true) (hsound : ∀ w ∈ ws, w.poison = false) :
    (u.landBlocks id f ws).2 = true ∧ (u.landBlocks id f ws).1.mem = (s.writeBlocks ws).mem := by
  induction ws generalizing s u with
  | nil => exact ⟨hc, hmem⟩
  | cons w r ih =>
    obtain ⟨hw, hr⟩ := List.forall_mem_cons.1 hsound
    obtain ⟨c, hc⟩ := Option.isSome_iff_exists.mp hc
    obtain ⟨hmem', hfree', hside'⟩ := writeBlocks_congr hmem hfree hside [w]
    have hcount : ∀ n : Nat, ∃ sq ct, (if n == 0 then u.writeBlock w else ((u.writeBlock w).bump .nonfiniteGrad n).setNf c.src)
        = { u.writeBlock w with seqs := sq, ctrs := ct } := fun n => by
      split
      · exact ⟨_, _, rfl⟩
      · rw [setNf_frame]
        exact ⟨_, _, rfl⟩
    obtain ⟨sq, ct, hcounted⟩ := hcount (if c.grad then blockNonFinite f w.mask w.val w.poison else 0)
    unfold landBlocks
    rw [hc]
    dsimp only
    rw [if_neg (by simp [hw]), hcounted]
    refine ih (s := s.writeBlock w) hmem' hfree' hside' ?_ hr
    have hcw : ({ u.writeBlock w with seqs := sq, ctrs := ct } : State).cmd? id = some c := by
      unfold cmd?
      rw [writeBlock_cmds]
      exact hc
    rw [cmd?_modCmd (f := fun c => { c with part := { c.part with poisonOut := c.part.poisonOut + (if w.poison then 1 else 0) } })
      fun _ => rfl, hcw]
    rfl

end State

end Sys2Proof.Machine

/-! PROOFS. RANK_ORDER_REDUCTION of a collective (R209, R210, R320): the shard that it forms. -/

namespace Sys2Proof.Machine

/-- The ranks whose contributions to a range are whole and not empty, in ascending order. -/
def Coll.givers (k : Coll) (range : Nat × Nat) : List Nat :=
  (List.range k.g).filter (fun r => k.whole r range && !((k.landed r range).any (fun c => c.empty)))

/-- The place of block `off` of a rank's contribution in the staging tensor. -/
def Coll.slotBlock (k : Coll) (st : Operand) (off r : Nat) : Nat := st.d.base + r * 64 * k.targetBlocks + off

namespace State

/-- The bytes of block `off` that the contributions in the staging tensor give. -/
def formedBytes (s : State) (k : Coll) (o st : Operand) (range : Nat × Nat) (off : Nat) : List Byte :=
  formBlock (o.d.fmt == .bf16) k.mean (k.givers range).length
    (sumParts (o.d.fmt == .bf16) ((k.givers range).map (fun r => s.mem.bytes (k.slotBlock st off r) 64)))

theorem formedBytes_length (s : State) (k : Coll) (o st : Operand) (range : Nat × Nat) (off : Nat) :
    (s.formedBytes k o st range off).length = 64 := by
  unfold formedBytes
  rw [formBlock_eq]
  exact length_wordsBlock _ _ (by rw [List.length_map, length_sumParts])

/-- Word j of a block of contributions, as it lies in memory. -/
theorem fieldAt_bytes (m : Mem) (a p : Nat) {n : Nat} (h : p + n ≤ 64) : fieldAt (m.bytes a 64) p n = numAt m (a + p) n :=
  (numAt_eq_fieldAt (l := m.bytes a 64) (fun i hi => by rw [getD_bytes m a (by omega), Nat.add_assoc])
    (by simpa [Mem.bytes] using h)).symm

section
variable {s : State} {k : Coll} {o st : Operand} {range : Nat × Nat} {off : Nat}

theorem formedBytes_fp32 (hfmt : o.d.fmt = .fp32) {j : Nat} (hj : j < 16) :
    fieldAt (s.formedBytes k o st range off) (4 * j) 4
      = (meanOf k.mean (k.givers range).length (rankSum ((k.givers range).map (fun r =>
          BitVec.ofNat 32 (numAt s.mem (k.slotBlock st off r + 4 * j) 4))))).toNat := by
  unfold formedBytes
  rw [show (o.d.fmt == .bf16) = false by rw [hfmt]; rfl, fieldAt_formBlock_fp32 _ _ _ hj, List.map_map]
  simp only [Function.comp_def, fieldAt_bytes s.mem _ (4 * j) (n := 4) (by omega)]

theorem formedBytes_bf16 (hfmt : o.d.fmt = .bf16) {j : Nat} (hj : j < 32) :
    fieldAt (s.formedBytes k o st range off) (2 * j) 2
      = toBf16R .near (ofF32 (meanOf k.mean (k.givers range).length (rankSum ((k.givers range).map (fun r =>
          toF32 (ofBf16 (numAt s.mem (k.slotBlock st off r + 2 * j) 2))))))) := by
  unfold formedBytes
  rw [show (o.d.fmt == .bf16) = true by rw [hfmt]; rfl, fieldAt_formBlock_bf16 _ _ _ hj, List.map_map]
  simp only [Function.comp_def, fieldAt_bytes s.mem _ (2 * j) (n := 2) (by omega)]

theorem formWrite_order (horder : k.order = true) (hst : k.staging = some st) :
    s.formWrite k o range off = { loc := o.d.base + off, mask := o.offMask off, val := leNat (s.formedBytes k o st range off)
                                  poison := o.foul || (k.givers range).any (fun r => s.mem.poisoned (k.slotBlock st off r)) } := by
  unfold formWrite
  dsimp only
  rw [if_pos horder, hst]
  rfl

end

/-! ## What the collective keeps -/

/-- The first collective of a command, while it runs, keeps the order of the ranks. -/
def KeepsOrder (id : Nat) (s : State) : Prop := ∀ k, s.coll? id = some k → k.order = true

theorem KeepsOrder.of_colls {id : Nat} {s t : State} (h : KeepsOrder id s) (ht : t.fabric.colls = s.fabric.colls) :
    KeepsOrder id t := fun k hk => h k (by
  unfold coll? at hk ⊢
  rwa [ht] at hk)

theorem KeepsOrder.modColl {id : Nat} {s : State} (h : KeepsOrder id s) {f : Coll → Coll}
    (hf : ∀ x, (f x).id = x.id ∧ (f x).order = x.order) : KeepsOrder id (s.modColl id f) := fun k hk => by
  cases hs : s.coll? id with
  | none =>
    refine absurd hk ?_
    unfold coll? State.modColl at *
    rw [modFabric_fabric]
    simp only [List.find?_map, Option.map_eq_some_iff, not_exists, not_and]
    intro x hx
    have hnone := List.find?_eq_none.mp hs x (List.mem_of_find?_eq_some hx)
    have hfound := List.find?_some hx
    simp only [Function.comp_apply] at hfound
    split at hfound
    · next h => exact absurd h hnone
    · exact absurd hfound hnone
  | some x =>
    rw [coll?_modColl hs fun y => (hf y).1] at hk
    cases hk
    exact (hf x).2.trans (h x hs)

theorem KeepsOrder.finish {id : Nat} {s : State} (h : KeepsOrder id s) (k : Compl) : KeepsOrder id (s.finish id k) := by
  cases hc : s.cmd? id with
  | none => rwa [finish_of_none hc]
  | some c => exact fun x hx => by rw [coll?_finish hc k] at hx; cases hx

theorem keepsOrder_landBlocks {id : Nat} {s : State} (h : KeepsOrder id s) (f : Fmt) (ws : List BlockWr) :
    KeepsOrder id (s.landBlocks id f ws).1 :=
  landBlocks_keeps (P := KeepsOrder id) (fun _ _ k _ _ ht => ht.finish k)
    (fun t w _ ht => ht.of_colls (by rw [writeBlock_fabric])) (fun t n src ht => ht.of_colls (by rw [setNf_frame]; rfl))
    (fun _ _ ht => ht.of_colls rfl) h

/-- Sends that go out leave memory, and the order of the ranks. -/
theorem trySends_mem (s : State) (id : Nat) : (s.trySends id).mem = s.mem := by
  unfold trySends
  split
  · exact foldl_keeps (p := fun t : State => t.mem = s.mem) (fun t x ht => (inject_mem t _).trans ht) _ rfl
  · rfl

theorem keepsOrder_trySends {id : Nat} {s : State} (h : KeepsOrder id s) : KeepsOrder id (s.trySends id) := by
  unfold trySends
  split
  · exact foldl_keeps (p := KeepsOrder id) (fun t x ht => ht.of_colls (by rw [inject_frame])) _
      (h.modColl fun _ => ⟨rfl, rfl⟩)
  · exact h

theorem keepsOrder_addSends {id : Nat} {s : State} (h : KeepsOrder id s) (l : List Send) : KeepsOrder id (s.addSends id l) :=
  h.modColl (f := fun k => { k with sends := k.sends ++ l }) fun _ => ⟨rfl, rfl⟩

theorem keepsOrder_formShard {id : Nat} {s : State} (h : KeepsOrder id s) (i : Nat) : KeepsOrder id (s.formShard id i) := by
  unfold formShard
  cases s.coll? id with
  | none => exact h
  | some k =>
    dsimp only
    cases k.dst with
    | none => exact h
    | some o =>
      dsimp only
      have hcounted : ∀ n, KeepsOrder id (if k.order then s else s.uncount id n) := fun n => by
        split
        · exact h
        · exact h.of_colls rfl
      generalize (List.range ((k.shardAt i).2 / 64)).map _ = ws
      have hu := hcounted (ws.filter (fun w => w.poison)).length
      generalize (if k.order = true then s else s.uncount id (ws.filter (fun w => w.poison)).length) = u at hu ⊢
      have hland := keepsOrder_landBlocks hu o.d.fmt ws
      split
      · exact hland
      · have hformed := hland.modColl (f := fun k => { k with formed := i :: k.formed }) fun _ => ⟨rfl, rfl⟩
        split
        · exact hformed
        · exact keepsOrder_trySends (keepsOrder_addSends hformed _)

/-- In rank order a collective forms no shard as it settles, and memory stays. -/
theorem settleColl_mem {id : Nat} {s : State} (h : KeepsOrder id s) : (s.settleColl id).mem = s.mem := by
  unfold settleColl
  split
  · rfl
  · next k hk =>
    split
    · rfl
    · have horder : ((k.kind == 0 || k.kind == 1) && !k.order) = false := by rw [h k hk]; simp
      dsimp only
      rw [horder]
      simp only [Bool.false_eq_true, if_false]
      split
      · rfl
      · split
        · unfold endColl finishPart
          split
          · rfl
          · exact finish_mem _ _ _
        · rfl

/-! ## The shard -/

section
variable {s : State} {id i : Nat} {k : Coll} {c : Cmd} {o st : Operand}

/-- The blocks of a shard that is formed. -/
def shardWrites (s : State) (k : Coll) (o : Operand) (range : Nat × Nat) : List BlockWr :=
  (List.range (range.2 / 64)).map (fun b => s.formWrite k o range (range.1 + 64 * b))

/-- In rank order the blocks of a shard without poison land. -/
theorem formShard_mem (hk : s.coll? id = some k) (horder : k.order = true) (hc : s.cmd? id = some c) (hdst : k.dst = some o)
    (hsound : ∀ w ∈ s.shardWrites k o (k.shardAt i), w.poison = false) :
    (s.formShard id i).mem = (s.writeBlocks (s.shardWrites k o (k.shardAt i))).mem := by
  obtain ⟨hgoes, hmem⟩ := landBlocks_sound (s := s) (u := s) (id := id) (f := o.d.fmt) rfl rfl rfl (by rw [hc]; rfl) hsound
  have hgoes' : (!(s.landBlocks id o.d.fmt (s.shardWrites k o (k.shardAt i))).2) = false := by rw [hgoes]; rfl
  unfold formShard
  rw [hk]
  dsimp only
  rw [hdst]
  dsimp only
  rw [if_pos horder, show (List.range ((k.shardAt i).2 / 64)).map (fun b => s.formWrite k o (k.shardAt i) ((k.shardAt i).1 + 64 * b))
    = s.shardWrites k o (k.shardAt i) from rfl, hgoes', if_neg Bool.false_ne_true]
  split
  · exact hmem
  · exact (trySends_mem _ _).trans hmem

/-- Element bytes of a shard's block, where its mask takes them, are those that the contributions give. -/
theorem shardWrites_byte {off n p : Nat} {range : Nat × Nat} (hs : s.Settled) (horder : k.order = true)
    (hst : k.staging = some st) (hsound : ∀ w ∈ s.shardWrites k o range, w.poison = false)
    (hoff : ∃ b < range.2 / 64, off = range.1 + 64 * b) (hp : p + n ≤ 64)
    (hmask : ∀ x < 8 * n, bit (o.offMask off) (8 * p + x) = true) :
    ∀ y < n, (s.writeBlocks (s.shardWrites k o range)).mem.byte (o.d.base + off + p + y)
      = (s.formedBytes k o st range off).getD (p + y) 0#8 := by
  obtain ⟨b, hb, rfl⟩ := hoff
  intro y hy
  have hmerge : ∀ w ∈ s.shardWrites k o range, w.Sound := fun w hw => by
    refine ⟨hsound w hw, ?_⟩
    obtain ⟨b', -, rfl⟩ := List.mem_map.mp hw
    rw [formWrite_order horder hst]
  have hputs : (s.formWrite k o range (range.1 + 64 * b)).Puts (o.d.base + (range.1 + 64 * b) + p + y)
      ((s.formedBytes k o st range (range.1 + 64 * b)).getD (p + y) 0#8) := by
    rw [formWrite_order horder hst]
    refine ⟨p + y, by omega, by dsimp only; omega, fun j hj => ?_, byteOf_leNat _ _⟩
    have := hmask (8 * y + j) (by omega)
    rwa [show 8 * (p + y) + j = 8 * p + (8 * y + j) by ring]
  refine writeBlocks_byte_puts hs hmerge (fun w hw => ?_) (.inr ⟨_, List.mem_map.mpr ⟨b, List.mem_range.mpr hb, rfl⟩, hputs⟩)
  obtain ⟨b', -, rfl⟩ := List.mem_map.mp hw
  by_cases hbb : b' = b
  · subst hbb
    exact .inr hputs
  · refine .inl ?_
    rw [formWrite_order horder hst]
    dsimp only
    omega

end

end State

end Sys2Proof.Machine

/-! PROOFS. RANK_ORDER_REDUCTION of an expert that this module owns (R210, R271, R272): the gradient that it forms. -/

namespace Sys2Proof.Machine

/-! ## Bytes at any address -/

theorem drop_chunksOf {α : Type} {n : Nat} (hn : 0 < n) (fuel j : Nat) (l : List α) (h : l.length ≤ fuel) :
    (chunksOf n fuel l).getD j [] = (l.drop (n * j)).take n ∧ (j < (chunksOf n fuel l).length ↔ n * j < l.length) := by
  induction fuel generalizing j l with
  | zero =>
    obtain rfl : l = [] := List.eq_nil_of_length_eq_zero (by omega)
    simp [chunksOf]
  | succ fuel ih =>
    cases l with
    | nil => simp [chunksOf]
    | cons a r =>
      cases j with
      | zero => simp [chunksOf]
      | succ j =>
        have hlen : ((a :: r).drop n).length ≤ fuel := by
          simp only [List.length_drop, List.length_cons] at h ⊢
          omega
        obtain ⟨hget, hlt⟩ := ih j ((a :: r).drop n) hlen
        have hstep : chunksOf n (fuel + 1) (a :: r) = (a :: r).take n :: chunksOf n fuel ((a :: r).drop n) := rfl
        rw [hstep, List.getD_cons_succ, hget, List.drop_drop, List.length_cons, Nat.add_lt_add_iff_right, hlt, List.length_drop]
        refine ⟨by rw [Nat.mul_succ, Nat.add_comm], ?_⟩
        rw [Nat.mul_succ]
        omega

theorem getD_chunks {α : Type} {n : Nat} (hn : 0 < n) (j : Nat) (l : List α) :
    (chunks n l).getD j [] = (l.drop (n * j)).take n :=
  (drop_chunksOf hn l.length j l (Nat.le_refl _)).1

theorem length_chunks {α : Type} {n : Nat} (hn : 0 < n) (l : List α) (h : l.length % n = 0) :
    (chunks n l).length = l.length / n := by
  have hlt := fun j => (drop_chunksOf hn l.length j l (Nat.le_refl _)).2
  have hmul : n * (l.length / n) = l.length := Nat.mul_div_cancel' (Nat.dvd_of_mod_eq_zero h)
  refine Nat.le_antisymm ?_ ?_
  · exact Nat.le_of_not_lt fun hcon => absurd ((hlt _).mp hcon) (by omega)
  · by_contra hcon
    have := (hlt (chunks n l).length).mpr (by
      calc n * (chunks n l).length < n * (l.length / n) := Nat.mul_lt_mul_of_pos_left (by omega) hn
        _ = l.length := hmul)
    exact absurd this (Nat.lt_irrefl _)

theorem testBit_at' (v n i : Nat) : (at' v n).testBit i = (decide (n ≤ i) && v.testBit (i - n)) := by
  rw [at', Nat.testBit_shiftLeft]

/-- Of a write of bytes at any address, each block puts the bytes that lie in it. -/
theorem spanWrites_puts {a t : Nat} {data : List Byte} (ht : t < data.length) :
    (∀ w ∈ spanWrites a data (fun _ => false), (a + t < w.loc ∨ w.loc + 64 ≤ a + t) ∨ w.Puts (a + t) (data.getD t 0#8))
      ∧ ∃ w ∈ spanWrites a data (fun _ => false), w.Puts (a + t) (data.getD t 0#8) := by
  have hputs : ∀ i, (a / 64 + i) * 64 ≤ a + t → a + t < (a / 64 + i) * 64 + 64 →
      BlockWr.Puts
        { loc := (a / 64 + i) * 64
          mask := at' (low (8 * (min (a + data.length) ((a / 64 + i) * 64 + 64) - max a ((a / 64 + i) * 64))))
            (8 * (max a ((a / 64 + i) * 64) - (a / 64 + i) * 64))
          val := at' (leNat ((data.drop (max a ((a / 64 + i) * 64) - a)).take
            (min (a + data.length) ((a / 64 + i) * 64 + 64) - max a ((a / 64 + i) * 64))))
              (8 * (max a ((a / 64 + i) * 64) - (a / 64 + i) * 64))
          poison := false } (a + t) (data.getD t 0#8) := by
    intro i hlo hhi
    generalize (a / 64 + i) * 64 = b at hlo hhi ⊢
    generalize hp : max a b - b = p
    generalize hn : min (a + data.length) (b + 64) - max a b = n
    refine ⟨a + t - b, by omega, by dsimp only; omega, fun j hj => ?_, ?_⟩
    · dsimp only
      rw [testBit_at', low, Nat.testBit_two_pow_sub_one]
      simp only [Bool.and_eq_true, decide_eq_true_eq]
      omega
    · dsimp only
      have hdiv : at' (leNat ((data.drop (max a b - a)).take n)) (8 * p) / 256 ^ (a + t - b)
          = leNat ((data.drop (max a b - a)).take n) / 256 ^ (a + t - b - p) := by
        have hpow : 2 ^ (8 * p) = 256 ^ p := by rw [Nat.pow_mul]
        rw [at', Nat.shiftLeft_eq, hpow]
        rw [show 256 ^ (a + t - b) = 256 ^ (a + t - b - p) * 256 ^ p by rw [← Nat.pow_add]; congr 1; omega]
        exact Nat.mul_div_mul_right _ _ (Nat.pow_pos (by decide))
      rw [hdiv, byteOf_leNat]
      have hin : a + t - b - p < ((data.drop (max a b - a)).take n).length := by
        simp only [List.length_take, List.length_drop]
        omega
      rw [List.getD_eq_getElem _ _ hin, List.getD_eq_getElem _ _ ht, List.getElem_take, List.getElem_drop]
      congr 1
      omega
  refine ⟨fun w hw => ?_, ?_⟩
  · obtain ⟨i, -, rfl⟩ := List.mem_map.mp hw
    by_cases hout : a + t < (a / 64 + i) * 64 ∨ (a / 64 + i) * 64 + 64 ≤ a + t
    · exact .inl hout
    · exact .inr (hputs i (by omega) (by omega))
  · exact ⟨_, List.mem_map.mpr ⟨(a + t) / 64 - a / 64, List.mem_range.mpr (by omega), rfl⟩, hputs _ (by omega) (by omega)⟩

theorem spanWrites_sound {a : Nat} {data : List Byte} {poison : Nat → Bool} (h : ∀ i, poison i = false) :
    ∀ w ∈ spanWrites a data poison, w.Sound := by
  intro w hw
  obtain ⟨i, -, rfl⟩ := List.mem_map.mp hw
  exact ⟨h _, rfl⟩

/-! ## The sum of contributions -/

/-- The words of a contribution (R272). -/
theorem gradWords_getD {ps : List DraftPart} {n j : Nat} (hlen : (wholeBytes ps).length = n) (hn : n % 4 = 0) (hj : 4 * j + 4 ≤ n) :
    j < (gradWords ps).length ∧ (gradWords ps).length = n / 4
      ∧ (gradWords ps).getD j 0#32 = BitVec.ofNat 32 (fieldAt (wholeBytes ps) (4 * j) 4) := by
  have hcount : (chunks 4 (wholeBytes ps)).length = n / 4 := by
    rw [length_chunks (by decide) _ (by rw [hlen]; exact hn), hlen]
  have hlength : (gradWords ps).length = n / 4 := by rw [gradWords, List.length_map, hcount]
  have hjlt : j < (chunks 4 (wholeBytes ps)).length := by omega
  refine ⟨by omega, hlength, ?_⟩
  have hget := getD_chunks (by decide : 0 < 4) j (wholeBytes ps)
  rw [List.getD_eq_getElem _ _ hjlt] at hget
  rw [List.getD_eq_getElem _ _ (by omega)]
  unfold gradWords
  rw [List.getElem_map, hget]
  rfl

/-- The sum of the contributions to an expert's gradient. -/
def gradSum (n : Nat) : List (List DraftPart) → List Word32
  | [] => List.replicate (n / 4) 0#32
  | x :: r => (addAll (gradWords x) (r.map gradWords)).map canonWord

theorem gradSum_length {n : Nat} (hn : n % 4 = 0) {l : List (List DraftPart)} (h : ∀ ps ∈ l, (wholeBytes ps).length = n) :
    (gradSum n l).length = n / 4 := by
  have hone : ∀ ps ∈ l, (gradWords ps).length = n / 4 := fun ps hps => by
    rw [gradWords, List.length_map, length_chunks (by decide) _ (by rw [h ps hps]; exact hn), h ps hps]
  cases l with
  | nil => simp [gradSum]
  | cons x r =>
    obtain ⟨hx, hr⟩ := List.forall_mem_cons.1 hone
    rw [gradSum, List.length_map]
    refine length_addAll hx fun y hy => ?_
    obtain ⟨z, hz, rfl⟩ := List.mem_map.mp hy
    exact hr z hz

theorem gradSum_getD {n j : Nat} (hn : n % 4 = 0) (hj : 4 * j + 4 ≤ n) {l : List (List DraftPart)}
    (h : ∀ ps ∈ l, (wholeBytes ps).length = n) :
    (gradSum n l).getD j 0#32 = rankSum (l.map (fun ps => BitVec.ofNat 32 (fieldAt (wholeBytes ps) (4 * j) 4))) := by
  have hword := fun ps hps => gradWords_getD (h ps hps) hn hj
  cases l with
  | nil =>
    have : j < n / 4 := by omega
    simp [gradSum, rankSum, this]
  | cons x r =>
    have hlen : ∀ y ∈ gradWords x :: r.map gradWords, j < y.length := by
      rw [← List.map_cons]
      intro y hy
      obtain ⟨z, hz, rfl⟩ := List.mem_map.mp hy
      exact (hword z hz).1
    rw [gradSum, sum_getD hlen, ← List.map_cons, List.map_map]
    congr 1
    exact List.map_congr_left fun ps hps => (hword ps hps).2.2

namespace State

section
variable {s : State} {t e : Nat} {c : Cmd} {g : Group}

/-- The contributions to an expert that have arrived whole, with their members. -/
def gotOf (d : Draft) (e : Nat) : List (Nat × List DraftPart) :=
  d.present.filterMap (fun m => (d.whole 3 m e).map (fun ps => (m, ps)))

/-- Those of them that are not empty. -/
def fullOf (d : Draft) (e : Nat) : List (Nat × List DraftPart) :=
  (gotOf d e).filter (fun x => !(x.2.any (fun p => p.empty)))

theorem fullOf_parts (d : Draft) (e : Nat) :
    (fullOf d e).map (·.2) = (d.present.filterMap (fun m => d.whole 3 m e)).filter (fun ps => !(ps.any (fun p => p.empty))) := by
  unfold fullOf gotOf
  induction d.present with
  | nil => rfl
  | cons m r ih =>
    cases h : d.whole 3 m e with
    | none => simpa [h] using ih
    | some ps =>
      simp only [List.filterMap_cons, h, Option.map_some, List.filter_cons]
      split
      · exact congrArg (ps :: ·) ih
      · exact ih

theorem gotOf_all {d : Draft} (h : ∀ m ∈ d.present, (d.whole 3 m e).isSome = true) :
    (gotOf d e).length = d.present.length := by
  unfold gotOf
  generalize d.present = l at h ⊢
  induction l with
  | nil => rfl
  | cons m r ih =>
    obtain ⟨hm, hr⟩ := List.forall_mem_cons.1 h
    obtain ⟨ps, hps⟩ := Option.isSome_iff_exists.mp hm
    simp [hps, ih hr]

/-- The state in which the contributions of an expert lie in the staging, and the expert is marked formed. -/
def gradStaged (s : State) (t e : Nat) (c : Cmd) (g : Group) : State :=
  ((fullOf (s.draft t) e).foldl (fun (s' : State) (x : Nat × List DraftPart) => s'.writeBlocks
    ((spanWrites (c.gradStage + (ownIndex (s.draft t).genPlace e * g.members.length + rankIn g.members x.1) * c.gradBytes)
      ((wholeBytes x.2).take c.gradBytes) (gradPoison x.2)).map (fun w => { w with carry := true }))) s).modDraft t (fun d =>
    { d with reduced := d.reduced ++ [e], parts := d.parts.filter (fun p => !(p.kind == 3 && p.expert == e)) })

/-- The writes of an expert's gradient. -/
def gradWrites (d : Draft) (e : Nat) (c : Cmd) : List BlockWr :=
  spanWrites (c.gradBase + ownIndex d.genPlace e * c.gradBytes)
    ((gradSum c.gradBytes ((fullOf d e).map (·.2))).flatMap (fun w => natLe 4 w.toNat))
    (fun i => (fullOf d e).any (fun x => gradPoison x.2 i))

theorem reduceExpert_forms
    (hc : s.cmds.find? (fun c => c.isRunning && c.opcode == 0x704 && c.draftTable == t && c.stage == .dma 1) = some c)
    (hg : s.group? (s.draft t).desc.group = some g)
    (hown : (ownedBy (s.draft t).genPlace s.moduleId).contains e = true) (hnew : (s.draft t).reduced.contains e = false)
    (hall : ∀ m ∈ (s.draft t).present, ((s.draft t).whole 3 m e).isSome = true) :
    s.reduceExpert t e =
      let r := (s.gradStaged t e c g).landBlocks c.id .fp32 (gradWrites (s.draft t) e c)
      if r.2 then r.1.settleBwd t c.id else r.1.closeGen t := by
  have hwaits : (!(ownedBy (s.draft t).genPlace s.moduleId).contains e || (s.draft t).reduced.contains e
      || ((gotOf (s.draft t) e).length != (s.draft t).present.length)) = false := by
    rw [hown, hnew, gotOf_all hall]
    simp
  have hsum : ∀ l : List (Nat × List DraftPart), (match l with
      | [] => List.replicate (c.gradBytes / 4) 0#32
      | x :: r => (addAll (gradWords x.2) (r.map (fun (y : Nat × List DraftPart) => gradWords y.2))).map canonWord)
        = gradSum c.gradBytes (l.map (·.2)) := by
    intro l
    cases l with
    | nil => rfl
    | cons x r => exact congrArg (fun m => (addAll (gradWords x.2) m).map canonWord) (List.map_map (f := fun x : Nat × List DraftPart => x.2) (g := gradWords) (l := r)).symm
  unfold reduceExpert
  dsimp only
  rw [hc, hg]
  dsimp only
  refine (if_neg (Bool.eq_false_iff.mp hwaits)).trans ?_
  have hsum' := hsum (fullOf (s.draft t) e)
  unfold gradStaged gradWrites
  rw [← hsum']
  rfl

theorem gradStaged_settled (hs : s.Settled) (t e : Nat) (c : Cmd) (g : Group) : (s.gradStaged t e c g).Settled := by
  have h := foldl_keeps (p := fun u : State => u.Settled) (fun u (x : Nat × List DraftPart) hu => hu.writeBlocks
    ((spanWrites (c.gradStage + (ownIndex (s.draft t).genPlace e * g.members.length + rankIn g.members x.1) * c.gradBytes)
      ((wholeBytes x.2).take c.gradBytes) (gradPoison x.2)).map (fun w => { w with carry := true }))) (fullOf (s.draft t) e) hs
  exact ⟨h.wf, h.defined, h.noRetry⟩

theorem gradStaged_frame (s : State) (t e : Nat) (c : Cmd) (g : Group) (ht : t < 64) :
    (s.gradStaged t e c g).cmds = s.cmds ∧ ((s.gradStaged t e c g).draft t).reduced = (s.draft t).reduced ++ [e]
      ∧ ∀ m, m ≠ t → (s.gradStaged t e c g).draft m = s.draft m := by
  have h : SameGeneration t s ((fullOf (s.draft t) e).foldl (fun (s' : State) (x : Nat × List DraftPart) => s'.writeBlocks
      ((spanWrites (c.gradStage + (ownIndex (s.draft t).genPlace e * g.members.length + rankIn g.members x.1) * c.gradBytes)
        ((wholeBytes x.2).take c.gradBytes) (gradPoison x.2)).map (fun w => { w with carry := true }))) s) :=
    sameGeneration_foldl (fun u x _ => sameGeneration_writeBlocks t u _) s
  have hdrafts : ∀ m, State.draft ((fullOf (s.draft t) e).foldl (fun (s' : State) (x : Nat × List DraftPart) => s'.writeBlocks
      ((spanWrites (c.gradStage + (ownIndex (s.draft t).genPlace e * g.members.length + rankIn g.members x.1) * c.gradBytes)
        ((wholeBytes x.2).take c.gradBytes) (gradPoison x.2)).map (fun w => { w with carry := true }))) s) m = s.draft m :=
    fun m => foldl_keeps (p := fun u : State => u.draft m = s.draft m) (fun u x hu => by
      unfold draft at hu ⊢
      rw [writeBlocks_frame]
      exact hu) _ rfl
  unfold gradStaged
  refine ⟨h.cmds, ?_, fun m hm => (draft_modDraft_other _ _ hm).trans (hdrafts m)⟩
  rw [draft_modDraft_same _ _ ht, hdrafts]

theorem landBlocks_drafts (s : State) (id : Nat) (f : Fmt) (ws : List BlockWr) (m : Nat) :
    (s.landBlocks id f ws).1.draft m = s.draft m := by
  refine landBlocks_keeps (P := fun u => u.draft m = s.draft m) (fun u c k _ _ hu => (draft_finish u id k m).trans hu)
    (fun u w _ hu => ?_) (fun u n src hu => ?_) (fun _ _ hu => hu) rfl
  · unfold draft at hu ⊢
    rw [writeBlock_drafts]
    exact hu
  · unfold draft at hu ⊢
    rw [setNf_frame]
    exact hu

theorem closeGen_keeps (s : State) (t : Nat) : (s.closeGen t).mem = s.mem
    ∧ ((s.closeGen t).draft t).reduced = (s.draft t).reduced ∧ ∀ m, m ≠ t → (s.closeGen t).draft m = s.draft m := by
  refine ⟨rfl, ?_, (draft_closeGen s t).2⟩
  by_cases ht : t < 64
  · rw [closeGen, draft_modDraft_same _ _ ht]
    rfl
  · rw [draft_outside _ ht, draft_outside _ ht]

/-- The end of a backward run leaves what it has formed, other tables, and memory. -/
theorem settleBwd_keeps (s : State) (t id : Nat) : (s.settleBwd t id).mem = s.mem
    ∧ ((s.settleBwd t id).draft t).reduced = (s.draft t).reduced ∧ ∀ m, m ≠ t → (s.settleBwd t id).draft m = s.draft m := by
  obtain ⟨hmem, hclose, hothers⟩ := closeGen_keeps s t
  unfold settleBwd
  split
  · exact ⟨rfl, rfl, fun _ _ => rfl⟩
  · dsimp only
    split
    · unfold finishPart
      split
      · exact ⟨hmem, hclose, hothers⟩
      · refine ⟨(finish_mem _ _ _).trans hmem, ?_, fun m hm => ?_⟩
        · rw [draft_finish, hclose]
        · rw [draft_finish, hothers m hm]
    · exact ⟨rfl, rfl, fun _ _ => rfl⟩

/-- What a reduction of an expert leaves: its gradient's blocks landed, and the expert marked formed. -/
theorem reduceExpert_keeps (ht : t < 64)
    (hc : s.cmds.find? (fun c => c.isRunning && c.opcode == 0x704 && c.draftTable == t && c.stage == .dma 1) = some c)
    (hg : s.group? (s.draft t).desc.group = some g)
    (hown : (ownedBy (s.draft t).genPlace s.moduleId).contains e = true) (hnew : (s.draft t).reduced.contains e = false)
    (hall : ∀ m ∈ (s.draft t).present, ((s.draft t).whole 3 m e).isSome = true) :
    (s.reduceExpert t e).mem = ((s.gradStaged t e c g).landBlocks c.id .fp32 (gradWrites (s.draft t) e c)).1.mem
      ∧ ((s.reduceExpert t e).draft t).reduced = (s.draft t).reduced ++ [e]
      ∧ ∀ m, m ≠ t → (s.reduceExpert t e).draft m = s.draft m := by
  obtain ⟨-, hreduced, hothers⟩ := s.gradStaged_frame t e c g ht
  rw [reduceExpert_forms hc hg hown hnew hall]
  dsimp only
  have hland := landBlocks_drafts (s.gradStaged t e c g) c.id .fp32 (gradWrites (s.draft t) e c)
  split
  · obtain ⟨hmem, hred, hoth⟩ := settleBwd_keeps ((s.gradStaged t e c g).landBlocks c.id .fp32 (gradWrites (s.draft t) e c)).1 t c.id
    exact ⟨hmem, by rw [hred, hland, hreduced], fun m hm => by rw [hoth m hm, hland, hothers m hm]⟩
  · obtain ⟨hmem, hred, hoth⟩ := closeGen_keeps ((s.gradStaged t e c g).landBlocks c.id .fp32 (gradWrites (s.draft t) e c)).1 t
    exact ⟨hmem, by rw [hred, hland, hreduced], fun m hm => by rw [hoth m hm, hland, hothers m hm]⟩

theorem gradBytes_mod (c : Cmd) : c.gradBytes % 4 = 0 := by
  unfold Cmd.gradBytes
  rw [Nat.mul_assoc]
  omega

/-- Word j of the gradient that an expert's contributions form, where it lands. -/
theorem gradient_word {j : Nat} (hs : s.Settled) (hc : (s.cmd? c.id).isSome = true)
    (hfull : ∀ ps ∈ (fullOf (s.draft t) e).map (·.2), (wholeBytes ps).length = c.gradBytes ∧ ∀ p ∈ ps, p.psn = false)
    (hj : 4 * j + 4 ≤ c.gradBytes) :
    numAt ((s.gradStaged t e c g).landBlocks c.id .fp32 (gradWrites (s.draft t) e c)).1.mem
        (c.gradBase + ownIndex (s.draft t).genPlace e * c.gradBytes + 4 * j) 4
      = (rankSum (((fullOf (s.draft t) e).map (·.2)).map (fun ps =>
          BitVec.ofNat 32 (fieldAt (wholeBytes ps) (4 * j) 4)))).toNat := by
  have hmod := gradBytes_mod c
  have hbytes : ∀ ps ∈ (fullOf (s.draft t) e).map (·.2), (wholeBytes ps).length = c.gradBytes := fun ps hps => (hfull ps hps).1
  have hpoison : (fun i => (fullOf (s.draft t) e).any (fun x => gradPoison x.2 i)) = fun _ => false := by
    funext i
    refine List.any_eq_false.mpr fun x hx => ?_
    have hpsn := (hfull x.2 (List.mem_map_of_mem hx)).2
    unfold gradPoison
    simp only [Bool.not_eq_true]
    exact List.any_eq_false.mpr fun p hp => by simp [hpsn p hp]
  have hsound := spanWrites_sound (a := c.gradBase + ownIndex (s.draft t).genPlace e * c.gradBytes)
    (data := (gradSum c.gradBytes ((fullOf (s.draft t) e).map (·.2))).flatMap (fun w => natLe 4 w.toNat)) (poison := fun _ => false)
    fun _ => rfl
  have hcs : ((s.gradStaged t e c g).cmd? c.id).isSome = true := by
    have hcmds : (s.gradStaged t e c g).cmds = s.cmds :=
      (sameGeneration_foldl (fun u (x : Nat × List DraftPart) _ => sameGeneration_writeBlocks t u _) s).cmds
    unfold cmd? at hc ⊢
    rwa [hcmds]
  unfold gradWrites
  rw [hpoison, (landBlocks_sound (s := s.gradStaged t e c g) rfl rfl rfl hcs fun w hw => (hsound w hw).1).2]
  have hlen := gradSum_length hmod hbytes
  have hjlt : j < (gradSum c.gradBytes ((fullOf (s.draft t) e).map (·.2))).length := by
    rw [hlen]
    omega
  have hdata : ((gradSum c.gradBytes ((fullOf (s.draft t) e).map (·.2))).flatMap (fun w => natLe 4 w.toNat)).length = c.gradBytes := by
    rw [length_flatMap_natLe, hlen]
    omega
  have hword := fieldAt_flatMap_natLe 4 BitVec.toNat _ hjlt
  rw [numAt_eq_fieldAt (off := 4 * j)
    (l := (gradSum c.gradBytes ((fullOf (s.draft t) e).map (·.2))).flatMap (fun w => natLe 4 w.toNat)) (fun i hi => ?_) (by omega),
    hword, ← List.getD_eq_getElem _ 0#32 hjlt, gradSum_getD hmod hj hbytes]
  · exact Nat.mod_eq_of_lt (BitVec.isLt _)
  · obtain ⟨hall, hex⟩ := spanWrites_puts (a := c.gradBase + ownIndex (s.draft t).genPlace e * c.gradBytes) (t := 4 * j + i)
      (data := (gradSum c.gradBytes ((fullOf (s.draft t) e).map (·.2))).flatMap (fun w => natLe 4 w.toNat)) (by omega)
    have hread := writeBlocks_byte_puts (gradStaged_settled hs t e c g) hsound hall (.inr hex)
    rw [Nat.add_assoc]
    exact hread

end

end State

open State

/-- Settles O35: sums in rank order, of a shard and of an expert's gradient. -/
theorem rankOrderReductionForms : Obligations.RankOrderReductionForms := by
  unfold Obligations.RankOrderReductionForms
  refine ⟨fun s id k hk horder => ?_, ?_, ?_⟩
  · refine ⟨((s.formable k).foldl (fun s i => s.formShard id i) s).settleColl id, congrArg Host.Outcome.next ?_, rfl⟩
    dsimp only
    rw [hk]
    exact if_pos horder
  · intro s id i k c o st hk horder hc hdst hst hformable hcanon hdefined hretry hfoul
    dsimp only
    intro hpoison
    have hs : s.Settled := ⟨hcanon, hdefined, hretry⟩
    have hkeeps : KeepsOrder id s := fun k' hk' => by
      rw [hk] at hk'
      cases hk'
      exact horder
    have hexec : exec (.rankOrderReduction (.coll id)) s = .next ((s.formShard id i).settleColl id) := by
      refine congrArg Host.Outcome.next ?_
      dsimp only
      rw [hk]
      refine (if_pos horder).trans ?_
      rw [hformable]
      rfl
    have hsound : ∀ w ∈ s.shardWrites k o (k.shardAt i), w.poison = false := by
      intro w hw
      obtain ⟨b, hb, rfl⟩ := List.mem_map.mp hw
      rw [formWrite_order horder hst, hfoul, Bool.false_or]
      refine List.any_eq_false.mpr fun r hr => ?_
      have := hpoison r hr b (List.mem_range.mp hb)
      rw [Bool.not_eq_true, Coll.slotBlock, ← Nat.add_assoc]
      exact this
    have hmem := (settleColl_mem (keepsOrder_formShard hkeeps i)).trans (formShard_mem hk horder hc hdst hsound)
    refine ⟨_, hexec, fun b hb j => ⟨fun hfmt hj hmask => ?_, fun hfmt hj hmask => ?_⟩⟩
    · have hbytes := shardWrites_byte (n := 4) (p := 4 * j) hs horder hst hsound ⟨b, hb, rfl⟩ (by omega)
        (fun x hx => by rw [show 8 * (4 * j) + x = 32 * j + x by ring]; exact hmask x hx)
      rw [hmem, numAt_eq_fieldAt hbytes (by rw [formedBytes_length]; omega), formedBytes_fp32 hfmt hj]
      rfl
    · have hbytes := shardWrites_byte (n := 2) (p := 2 * j) hs horder hst hsound ⟨b, hb, rfl⟩ (by omega)
        (fun x hx => by rw [show 8 * (2 * j) + x = 16 * j + x by ring]; exact hmask x hx)
      rw [hmem, numAt_eq_fieldAt hbytes (by rw [formedBytes_length]; omega), formedBytes_bf16 hfmt hj]
      rfl
  · intro s t e c g ht hc hg hown hnew hall
    obtain ⟨hmem, hreduced, hothers⟩ := reduceExpert_keeps ht hc hg hown hnew hall
    refine ⟨_, rfl, by rw [hreduced]; simp, hothers, ?_⟩
    intro full hfull hparts hcanon hdefined hretry j hj
    rw [← fullOf_parts] at hfull
    subst hfull
    have hsome : (s.cmd? c.id).isSome = true :=
      List.find?_isSome.mpr ⟨c, List.mem_of_find?_eq_some hc, by simp⟩
    rw [hmem]
    exact gradient_word ⟨hcanon, hdefined, hretry⟩ hsome hparts hj

end Sys2Proof.Machine

/-! PROOFS. OPT_UPDATE after a no-ball (R219), where its command has counted poison before. -/

namespace Sys2Proof.Machine

/-- An OPT_UPDATE of the host that has updated no unit and has counted one poisoned block; its verdict record is valid and marks
a no-ball step. -/
def countingUpdate : Cmd :=
  { id := 0, src := .host 0, ctx := 0, packet := natLe 64 0x630 ++ natLe 88 0, st := .running, held := [3#8]
    part := { poisonIn := 1 } }

def updateRuns : State := { State.reset with cmds := [countingUpdate], nextId := 1 }

/-- The update ends, and its completion has the count. -/
theorem updateRuns_ends : ((updateRuns.doOptUpdate 0).cmds.map (fun c => c.st))
    = [.done { status := 0x000, poisonIn := 1 }] := by decide +kernel

/-- A host command that completes stands with its completion in the list of commands. -/
theorem State.done_of_completes {u t : State} {id : Nat} {k : Compl} (h : Completes u t id k) (hid : ∃ c ∈ t.cmds, c.id = id) :
    ∃ c ∈ t.cmds, ∃ n, c.st = .done { k with cycles := n } := by
  obtain ⟨hends, -, -⟩ := h
  unfold Ends at hends
  cases hc : u.cmd? id with
  | none => rw [hc] at hends; exact hends.elim
  | some c =>
    rw [hc] at hends
    cases hsrc : c.src with
    | host q =>
      simp only [hsrc] at hends
      rw [hends.1]
      refine ⟨_, List.mem_map_of_mem (List.mem_of_find?_eq_some hc), u.cycles.toNat, ?_⟩
      rw [if_pos (by simpa using cmd?_id hc)]
    | seq n entry step ph =>
      simp only [hsrc] at hends
      obtain ⟨x, hx, hxid⟩ := hid
      exact absurd hxid (by simpa using List.find?_eq_none.mp hends.1 x hx)

end Sys2Proof.Machine

namespace Sys2Proof

open Machine

/-- Refutes O41, by its clause of a no-ball step: the statement speaks of every command that has updated no unit, also of one that
has counted poison before, and the completion of that one counts it (R402). A command counts poison with its units only. -/
theorem not_tablesLoadAndOptimizersUpdate : ¬ Obligations.TablesLoadAndOptimizersUpdate := by
  intro h
  obtain ⟨-, hnoBall, -⟩ := h.2.1 updateRuns 0 countingUpdate rfl (by decide +kernel)
  obtain ⟨t, u, hexec, hcompletes, -⟩ := hnoBall rfl (by decide +kernel) (by decide +kernel) (by decide +kernel)
  obtain rfl : t = updateRuns.doOptUpdate 0 := (Host.Outcome.next.inj hexec).symm
  have hids : (updateRuns.doOptUpdate 0).cmds.map (fun c => c.id) = [0] := by decide +kernel
  obtain ⟨c, hc, hid⟩ : ∃ c ∈ (updateRuns.doOptUpdate 0).cmds, c.id = 0 :=
    List.mem_map.mp (hids ▸ List.mem_singleton.mpr rfl)
  obtain ⟨d, hd, n, hst⟩ := State.done_of_completes hcompletes ⟨c, hc, hid⟩
  have hmem : d.st ∈ (updateRuns.doOptUpdate 0).cmds.map (fun c => c.st) := List.mem_map_of_mem hd
  rw [updateRuns_ends, hst] at hmem
  simp at hmem

end Sys2Proof

/-! PROOFS. The keeper commands (R332 to R338, R350): a pair, a piece, a check of digests, and the copy of a block to the
partner. -/

namespace Sys2Proof.Machine

namespace State

/-! ## What this module records (R332, R335, R336) -/

/-- A module that is not the captain publishes nothing. -/
theorem republish_member {s : State} (h : s.fabric.isCaptain = false) : s.republish = s := by simp [republish, h]

section
variable {s : State} {id : Nat} {c : Cmd} (hcap : s.fabric.isCaptain = false)
include hcap

theorem keepPair_records (hrun : s.running? id 0x800 = some c) (hok : worst (s.keepPairStart c).rejs = none)
    (hforce : c.pairForce = true) :
    ∃ t u, exec (.keepPair id) s = .next t ∧ Completes u t id { status := 0x000 }
      ∧ t.keeper.want = some (c.pairWith, true) ∧ t.keeper.unpair = false ∧ t.keeper.pieces = s.keeper.pieces
      ∧ t.mem = s.mem := by
  obtain ⟨hc, -, -⟩ := running?_some hrun
  generalize hu : (s.freeNat.2).modKeeper (fun k =>
    { k with want := some (c.pairWith, c.pairForce), partnerFeed := s.freeNat.1 % 65536, unpair := false }) = u
  have hcu : u.cmd? id = some c := by rw [← hu]; exact hc
  have hcapu : u.fabric.isCaptain = false := by rw [← hu]; exact hcap
  have hends := finish_completes hcu (plainCompl Status.ok)
  have hexec : s.doKeepPair id = u.finish id (plainCompl Status.ok) := by
    refine (runChecked_acts hrun hok).trans ?_
    dsimp only
    rw [if_neg (by simp [hforce]), hu, republish_member hcapu]
  have hkept := hends.2.1
  refine ⟨_, u, congrArg Host.Outcome.next hexec, hends, ?_, ?_, ?_, ?_⟩
  · rw [hkept.keeper, ← hu, ← hforce]; rfl
  · rw [hkept.keeper, ← hu]; rfl
  · rw [hkept.keeper, ← hu]; rfl
  · rw [hkept.mem, ← hu]; rfl

theorem keepUnpair_asks (hrun : s.running? id 0x801 = some c) (hok : worst (s.keepUnpairStart c).rejs = none) :
    ∃ t, exec (.keepUnpair id) s = .next t
      ∧ Completes (s.modKeeper (fun k => { k with unpair := k.want.isSome })) t id { status := 0x000 } := by
  obtain ⟨hc, -, -⟩ := running?_some hrun
  refine ⟨_, congrArg Host.Outcome.next ((runChecked_acts hrun hok).trans ?_),
    finish_completes (s := s.modKeeper _) (c := c) hc (plainCompl Status.ok)⟩
  exact congrArg (fun u => u.finish id (plainCompl Status.ok)) (republish_member (s := s.modKeeper _) hcap)

theorem distRegister_records {o : Operand} (hrun : s.running? id 0x804 = some c) (ho : c.op? 0 = some o) :
    ∃ t, exec (.distRegister id) s = .next t
      ∧ Completes (s.modKeeper (fun k => { k with
          pieces := k.pieces.filter (fun x => !x.same (c.piece o)) ++ [c.piece o] })) t id { status := 0x000 } := by
  obtain ⟨hc, -, -⟩ := running?_some hrun
  refine ⟨_, congrArg Host.Outcome.next ?_, finish_completes (s := s.modKeeper _) (c := c) hc (plainCompl Status.ok)⟩
  unfold doDistRegister
  rw [hrun]
  dsimp only
  rw [ho]
  exact congrArg (fun u => u.finish id (plainCompl Status.ok)) (republish_member (s := s.modKeeper _) hcap)

end

/-! ## KEEP_CHECK (R338) -/

theorem keepCheck_compares {s : State} {id : Nat} {c : Cmd} {peer : List (BitVec 256)} (hrun : s.running? id 0x803 = some c)
    (hok : worst (s.keepCheckStart c).rejs = none) (hlen : (s.checkBlocks c).length = peer.length) :
    let bad := ((s.checkBlocks c).zip peer).filter (fun (x : Nat × BitVec 256) =>
      match s.blockAddr c.checkGroup c.checkTensor x.1 with
      | some a => sha3 (s.mem.bytes a mib) != x.2
      | none => false)
    ∃ t, exec (.keepCheck id peer) s = .next t
      ∧ (bad = [] → Completes s t id { status := 0x000, poison := s.checkPoison c != 0, poisonIn := s.checkPoison c })
      ∧ (∀ b r, bad = b :: r → Completes (s.modKeeper (fun k => { k with diverged := true })) t id
          { status := 0x20A, count := r.length + 1, aux := b.1, poisonIn := s.checkPoison c }) := by
  intro bad
  obtain ⟨hc, -, -⟩ := running?_some hrun
  have hexec : s.doKeepCheck id peer = match bad with
      | [] => s.finish id { status := Status.ok, poison := s.checkPoison c != 0, poisonIn := s.checkPoison c }
      | b :: _ => (s.modKeeper (fun k => { k with diverged := true })).finish id
          { status := Status.fltKeepDiverged, count := bad.length, aux := b.1, poisonIn := s.checkPoison c } :=
    (runChecked_acts hrun hok).trans (if_neg (by simp [hlen]))
  refine ⟨_, rfl, fun hbad => ?_, fun b r hbad => ?_⟩
  · rw [hexec, hbad]
    exact finish_completes hc _
  · rw [hexec, hbad]
    exact finish_completes (s := s.modKeeper _) (c := c) hc _

/-! ## KEEP_RESTORE (R350) -/

/-- From s, module id's command has sent the partner the 4 KiB at each local address to each remote one, and awaits the
acknowledgements. -/
structure HasSent (s : State) (id dst : Nat) (l : List (Nat × Nat)) (t : State) : Prop where
  mem : t.mem = s.mem
  state : t.fabric.state = s.fabric.state
  runs : ∃ d, t.cmd? id = some d ∧ d.stage = .begun ∧ d.st = .running ∧ d.opcode = 0x802
  remotes : ∃ rs, t.fabric.remotes = s.fabric.remotes ++ rs
    ∧ rs.map (fun r => (r.id, r.dst, r.addr, r.len, r.write)) = l.map (fun j => (id, dst, j.1, 4096, true))
  queued : s.fabric.state = .hold → ∃ q, t.fabric.queued = s.fabric.queued ++ q
    ∧ q.map (fun w => (w.packet.type, w.packet.hdr.dst, w.packet.hdr.addr, w.packet.payload))
      = l.map (fun j => (.wrBulk, dst, j.2, s.mem.bytes j.1 4096))

/-- While injection is stopped, a request waits behind what waits already. -/
theorem inject_hold {s : State} {p : Packet} (h : s.fabric.state = .hold) (hty : p.type = .wrBulk) :
    ∃ w, (s.inject p).fabric.queued = s.fabric.queued ++ [w] ∧ w.packet.type = .wrBulk ∧ w.packet.hdr.dst = p.hdr.dst
      ∧ w.packet.hdr.addr = p.hdr.addr ∧ w.packet.payload = p.payload := by
  unfold inject
  dsimp only
  rw [if_pos (by simp [h, hty, pktVc])]
  exact ⟨_, rfl, hty, rfl, rfl, rfl⟩

/-- A request goes out under a tag, from a state that holds the same packets back. -/
theorem remoteRequest_injects (s : State) (id la first : Nat) (p : Packet) :
    ∃ (u : State) (tag : Nat), s.remoteRequest id la first p = u.inject { p with hdr := { p.hdr with tag := tag } }
      ∧ u.fabric.state = s.fabric.state ∧ u.fabric.queued = s.fabric.queued :=
  ⟨_, _, rfl, rfl, rfl⟩

theorem sendPart_sends {s : State} (c : Cmd) (dst la ra : Nat) :
    (s.sendPart c dst la ra).mem = s.mem
      ∧ (s.sendPart c dst la ra).fabric.state = s.fabric.state
      ∧ (∃ n, (s.sendPart c dst la ra).cmds = (s.addPoisonIn c.id n).cmds)
      ∧ (∃ r, (s.sendPart c dst la ra).fabric.remotes = s.fabric.remotes ++ [r]
        ∧ (r.id, r.dst, r.addr, r.len, r.write) = (c.id, dst, la, 4096, true))
      ∧ (s.fabric.state = .hold → ∃ w, (s.sendPart c dst la ra).fabric.queued = s.fabric.queued ++ [w]
        ∧ (w.packet.type, w.packet.hdr.dst, w.packet.hdr.addr, w.packet.payload)
          = (.wrBulk, dst, ra, s.mem.bytes la 4096)) := by
  unfold sendPart
  dsimp only
  generalize hp : Packet.mk _ _ _ _ _ = p
  have htype : p.type = .wrBulk := by rw [← hp]
  generalize countBits (s.poisonBits la 64) 64 = n
  obtain ⟨hmem, hcmds, tag, hremotes⟩ := remoteRequest_records (s.addPoisonIn c.id n) c.id la 0 p
  refine ⟨hmem, ?_, ⟨n, hcmds⟩, ⟨_, hremotes, ?_⟩, fun hhold => ?_⟩
  · unfold remoteRequest
    dsimp only
    rw [inject_frame]
    rfl
  · rw [← hp]
    rfl
  · obtain ⟨u, tag, hinject, hstate, hsame⟩ := (s.addPoisonIn c.id n).remoteRequest_injects c.id la 0 p
    obtain ⟨w, hqueued, hty, hdst, haddr, hpayload⟩ :=
      inject_hold (s := u) (p := { p with hdr := { p.hdr with tag := tag } }) (hstate.trans hhold) htype
    refine ⟨w, by rw [hinject, hqueued, hsame]; rfl, ?_⟩
    rw [hty, hdst, haddr, hpayload, ← hp]
    simp only [addPoisonIn, modCmd_mem]

theorem HasSent.next {s t : State} {id dst : Nat} {l : List (Nat × Nat)} (h : HasSent s id dst l t) (la ra : Nat) :
    HasSent s id dst (l ++ [(la, ra)]) (t.sendNext (id, la, ra, dst)) := by
  obtain ⟨d, hd, hstage, hst, hop⟩ := h.runs
  have hid := cmd?_id hd
  have hsend : t.sendNext (id, la, ra, dst) = t.sendPart d dst la ra := by simp [sendNext, hd, hop]
  obtain ⟨hmem, hstate, ⟨n, hcmds⟩, ⟨r, hremotes, hr⟩, hqueued⟩ := t.sendPart_sends d dst la ra
  rw [hsend]
  refine ⟨hmem.trans h.mem, hstate.trans h.state, ?_, ?_, fun hhold => ?_⟩
  · unfold cmd?
    rw [hcmds]
    show ∃ e, (t.addPoisonIn d.id n).cmd? id = some e ∧ _
    unfold addPoisonIn
    rw [cmd?_modCmd (by exact fun _ => rfl), hd, Option.map_some, if_pos (by simp)]
    exact ⟨_, rfl, hstage, hst, hop⟩
  · obtain ⟨rs, hrs, hmap⟩ := h.remotes
    exact ⟨rs ++ [r], by rw [hremotes, hrs, List.append_assoc], by simp [hmap, hr, hid]⟩
  · obtain ⟨q, hq, hmap⟩ := h.queued hhold
    obtain ⟨w, hw, hpacket⟩ := hqueued (h.state.trans hhold)
    refine ⟨q ++ [w], by rw [hw, hq, List.append_assoc], ?_⟩
    rw [List.map_append, List.map_append, hmap, List.map_cons, hpacket, h.mem]
    rfl

theorem HasSent.all {s t : State} {id dst : Nat} {l : List (Nat × Nat)} (h : HasSent s id dst l t) (r : List (Nat × Nat)) :
    HasSent s id dst (l ++ r) ((r.map (fun j => (id, j.1, j.2, dst))).foldl sendNext t) := by
  induction r generalizing l t with
  | nil => rwa [List.append_nil]
  | cons j r ih => simpa using ih (h.next j.1 j.2)

/-- A backlog that fits in the tags that are free goes out whole. -/
theorem pumpRemotes_all {s : State} (h : s.fabric.remotes.length + s.fabric.backlog.length ≤ 65536) :
    s.pumpRemotes = s.fabric.backlog.foldl sendNext (s.modFabric (fun f => { f with backlog := [] })) := by
  have hfit : s.fabric.backlog.length ≤ 65536 - s.fabric.remotes.length := by omega
  unfold pumpRemotes modFabric
  dsimp only
  rw [List.take_of_length_le hfit, List.drop_of_length_le hfit]

/-- The pieces of 4 KiB of a block of 1 MiB: here, and in the partner's memory. -/
def pairParts (x y : Nat) : List (Nat × Nat) := (List.range 256).map (fun i => (x + 4096 * i, y + 4096 * i))

section
variable {s : State} {id : Nat} {c : Cmd} {dst : Nat} {peer : List PeerPiece} (hrun : s.running? id 0x802 = some c)
  (hgo : c.stage = .go) (hok : worst (s.keepRestoreStart c).rejs = none) (hpartner : s.keeper.partner = some dst)
include hrun hgo hok hpartner

theorem keepRestore_nothing (hnone : s.restorePieces c.restoreGroup dst = []) :
    ∃ t, exec (.keepRestore id peer) s = .next t ∧ Completes s t id { status := 0x000 } := by
  obtain ⟨hc, -, -⟩ := running?_some hrun
  refine ⟨_, congrArg Host.Outcome.next ?_, finish_completes hc (plainCompl Status.ok)⟩
  simp [doKeepRestore, hrun, hgo, hok, hpartner, hnone]

theorem doKeepRestore_block {x y : Nat} (hone : (s.restorePieces c.restoreGroup dst).flatMap (fun p =>
      p.blocks.filterMap (fun b => (peerAddr peer p b).map (fun a => (p.addr b, a)))) = [(x, y)]) :
    s.doKeepRestore id peer = ((s.setStage id .begun).modFabric (fun f => { f with
      backlog := f.backlog ++ (pairParts x y).map (fun j => (id, j.1, j.2, dst)) })).pumpRemotes.settleRemote id := by
  unfold doKeepRestore
  rw [hrun]
  dsimp only
  rw [if_neg (by simp [hgo]), hok, hpartner]
  dsimp only
  rw [hone, List.flatMap_cons, List.flatMap_nil, List.append_nil, if_neg (by simp), pairParts, List.map_map]
  rfl

theorem keepRestore_sends {x y : Nat} (hback : s.fabric.backlog = []) (hlen : s.fabric.remotes.length + 256 ≤ 65536)
    (hone : (s.restorePieces c.restoreGroup dst).flatMap (fun p =>
      p.blocks.filterMap (fun b => (peerAddr peer p b).map (fun a => (p.addr b, a)))) = [(x, y)]) :
    HasSent s id dst (pairParts x y) (s.doKeepRestore id peer) := by
  obtain ⟨hc, hrunning, hop⟩ := running?_some hrun
  rw [doKeepRestore_block hrun hgo hok hpartner hone]
  generalize hu : (s.setStage id .begun).modFabric _ = u
  have hbacku : u.fabric.backlog = (pairParts x y).map (fun j => (id, j.1, j.2, dst)) := by
    rw [← hu]
    show s.fabric.backlog ++ _ = _
    rw [hback, List.nil_append]
  have hremotes : u.fabric.remotes = s.fabric.remotes := by rw [← hu]; rfl
  have hsent : HasSent s id dst (pairParts x y) u.pumpRemotes := by
    rw [pumpRemotes_all (by rw [hbacku, hremotes]; simpa [pairParts] using hlen), hbacku]
    refine HasSent.all (l := []) ?_ (pairParts x y)
    subst hu
    exact ⟨rfl, rfl, ⟨_, setStage_cmd? hc .begun, rfl, isRunning_st hrunning, hop⟩, ⟨[], by simp, rfl⟩,
      fun _ => ⟨[], by simp, rfl⟩⟩
  obtain ⟨rs, hrs, hmap⟩ := hsent.remotes
  rw [settleRemote_awaited]
  · exact hsent
  · obtain ⟨r, rest, rfl⟩ : ∃ r rest, rs = r :: rest := by
      cases rs with
      | nil => simp [pairParts] at hmap
      | cons r rest => exact ⟨r, rest, rfl⟩
    have hr : r.id = id := by
      obtain ⟨j, -, hj⟩ : ∃ j ∈ pairParts x y, (id, dst, j.1, 4096, true) = (r.id, r.dst, r.addr, r.len, r.write) :=
        List.mem_map.mp (hmap ▸ List.mem_cons_self)
      exact (congrArg Prod.fst hj).symm
    exact ⟨r, by rw [hrs]; simp, hr⟩

end

end State

end Sys2Proof.Machine

/-! PROOFS. Secure saves (R339 to R346, R413): SAVE_SHARD and SAVE_RESTORE. -/

namespace Sys2Proof.Machine

namespace State

/-! ## Transfers of a command -/

/-- A state in which a command has at most more of its requests outstanding. -/
def MoreAsked (s t : State) : Prop := ∃ dmas tag tx, t = { s with
  liust := { s.liust with dmas := dmas, nextTag := tag }, hostTx := tx }

theorem askParts_asks (s : State) (id first addr total : Nat) : MoreAsked s (s.askParts id first addr total) := by
  unfold askParts
  refine foldl_keeps (p := MoreAsked s) (fun u k hu => ?_) _ ⟨_, _, _, rfl⟩
  split
  · exact hu
  · obtain ⟨_, _, _, rfl⟩ := hu
    exact ⟨_, _, _, rfl⟩

theorem MoreAsked.partsData {s t : State} (h : MoreAsked s t) (id first total : Nat) :
    t.partsData id first total = s.partsData id first total := by
  obtain ⟨_, _, _, rfl⟩ := h
  rfl

theorem isSome_of_partsData {s : State} {id first total k : Nat} {l : List Byte} (h : s.partsData id first total = some l)
    (hk : k ∈ List.range (ceilDiv total 4096)) : (s.partData id (first + k)).isSome = true := by
  unfold State.partsData at h
  dsimp only at h
  split at h
  · next hall =>
    rw [List.all_map, List.all_eq_true] at hall
    exact hall k hk
  · nomatch h

theorem foldl_same {α β : Type} {f : β → α → β} {b : β} {l : List α} (h : ∀ a ∈ l, f b a = b) : l.foldl f b = b := by
  induction l with
  | nil => rfl
  | cons a r ih =>
    rw [List.foldl_cons, h a List.mem_cons_self]
    exact ih fun x hx => h x (List.mem_cons_of_mem _ hx)

/-- Nothing is asked for where every part has come. -/
theorem askParts_complete {s : State} {id first addr total : Nat} {l : List Byte} (h : s.partsData id first total = some l) :
    s.askParts id first addr total = s :=
  foldl_same fun _ hk => if_pos (by simp [isSome_of_partsData h hk])

theorem partsData_none {s : State} {id first total : Nat} (h : ∀ d ∈ s.liust.data, d.1 ≠ id) (htotal : 1 ≤ total) :
    s.partsData id first total = none := by
  have hpart (part : Nat) : s.partData id part = none := by
    unfold partData
    rw [List.find?_eq_none.2 fun d hd => by simp [h d hd]]
    rfl
  have hn : 0 < ceilDiv total 4096 := by
    unfold ceilDiv
    omega
  unfold State.partsData
  dsimp only
  rw [if_neg]
  simp only [hpart, List.all_map, List.all_eq_true, List.mem_range]
  intro hall
  exact absurd (hall 0 hn) (by simp)

/-- The end of a command does not look at its stage. -/
theorem completes_of_setStage {s t : State} {id : Nat} {g : Stage} {k : Compl} (h : Completes (s.setStage id g) t id k) :
    Completes s t id k := by
  obtain ⟨hends, hkept, hslots⟩ := h
  refine ⟨?_, ⟨hkept.pending, hkept.free, hkept.mem, hkept.contexts, hkept.clusters, hkept.cores, hkept.tiles, hkept.sqs,
    hkept.nextId, hkept.turn, hkept.drafts, hkept.keeper, hkept.scout, hkept.ctrs, hkept.memside, hkept.referee, hkept.errors,
    hkept.cfgLate, hkept.rngSeed, hkept.cycles, hkept.wall, hkept.hostTx, hkept.fabTx, hkept.smbTx, hkept.fabric, hkept.liust,
    hkept.save, hkept.power⟩, hslots⟩
  cases hc : s.cmd? id with
  | none =>
    have hnone : (s.setStage id g).cmd? id = none :=
      (cmd?_modCmd (f := fun c => { c with stage := g }) (fun _ => rfl) id).trans (congrArg _ hc)
    unfold Ends at hends
    rw [hnone] at hends
    exact hends.elim
  | some c =>
    unfold Ends at hends ⊢
    rw [setStage_cmd? hc g] at hends
    rw [hc]
    cases hsrc : c.src with
    | host q =>
      simp only [hsrc] at hends ⊢
      obtain ⟨hcmds, hrest⟩ := hends
      refine ⟨hcmds.trans ?_, hrest⟩
      show (s.cmds.map _).map _ = _
      rw [List.map_map]
      refine List.map_congr_left fun x _ => ?_
      by_cases hx : (x.id == id) = true <;> simp [Function.comp, hx]
    | seq n entry step ph =>
      simp only [hsrc] at hends ⊢
      exact hends

/-! ## SAVE_SHARD (R339 to R342, R346) -/

/-- A SAVE_SHARD holds its ranges, and notes the pairing that stands (R220, R340). -/
def rangesHeld (s : State) (id : Nat) (c : Cmd) : State := s.modSave (fun v => { v with
  holder := some id, unsent := c.saveRanges, kept := if s.keeper.standing then s.keeper.partner else none })

/-- A state that differs in memory from none before, and in the save engine only in what is not yet sent. -/
def SendsOn (s t : State) : Prop := t.mem = s.mem ∧ t.save = { s.save with unsent := t.save.unsent }

theorem saveSend_sends (s : State) (c : Cmd) (bufs : List (Nat × Nat)) : SendsOn s (s.saveSend c bufs) := by
  have hsign (u : State) (body : List Byte) (hu : SendsOn s u) : SendsOn s (u.identitySign body).2 := by
    unfold identitySign
    split <;> exact hu
  have hwrite (u : State) (a : Nat) (data : List Byte) (poison : Word64) (o : DmaOwner) (id : Nat) (g : Stage)
      (hu : SendsOn s u) : SendsOn s ((u.dmaWr a data poison o).setStage id g) := hu
  unfold saveSend
  dsimp only
  generalize hu : List.foldl _ s _ = u
  have hsent : SendsOn s u := by
    rw [← hu]
    refine foldl_keeps (p := SendsOn s) (fun v k hv => ?_) _ ⟨rfl, rfl⟩
    split
    · exact hv
    · obtain ⟨hmem, hsave⟩ := hv
      exact ⟨hmem, congrArg (fun x : Save => { x with unsent := streamAt c.saveRanges (4096 * (k + 1)) c.saveTotal }) hsave⟩
  split
  · exact hsent
  · split
    · exact hsent
    · exact hwrite _ _ _ _ _ _ _ (hsign u _ hsent)

/-- A save that begins has its count of boundaries start again, and no save is due (R346). -/
theorem saveBegin_acts {s : State} {c : Cmd} (h : s.partData c.id stepPart = none) :
    (s.saveBegin c).mem = s.mem ∧ (s.saveBegin c).save = { s.save with
      active := some c.id, since := 0, rose := false, due := false, startNanos := s.wall } := by
  unfold saveBegin
  rw [h, if_neg (by simp)]
  unfold saveStepNo
  split <;> exact ⟨rfl, rfl⟩

/-- While its buffer list is to come, a save only asks for it. -/
theorem saveOn_asks {s : State} {c : Cmd} (h : ∀ d ∈ s.liust.data, d.1 ≠ c.id) (hbufs : 1 ≤ c.saveBufs) :
    MoreAsked s (s.saveOn c) := by
  have hasks := s.askParts_asks c.id 0 c.saveBuflist (16 * c.saveBufs)
  unfold saveOn
  dsimp only
  rw [hasks.partsData, partsData_none h (by omega)]
  exact hasks

/-- The buffer list of a save has come, and this is its failed check. -/
def ListJudged (s : State) (c : Cmd) (l : List Byte) (r : Option Rej) : Prop :=
  s.partsData c.id 0 (16 * c.saveBufs) = some l ∧ bufferRej (bufferList l) c.saveTotal = r

theorem saveOn_rejects {s : State} {c : Cmd} {l : List Byte} {r : Rej} (h : ListJudged s c l (some r)) :
    s.saveOn c = s.finish c.id (rejCompl r.1 r.2) := by
  obtain ⟨hl, hr⟩ := h
  simp only [saveOn, askParts_complete hl, hl, hr]

theorem saveOn_acts {s : State} {c : Cmd} {l : List Byte} (h : ListJudged s c l none) :
    s.saveOn c = (s.saveBegin c).saveSend c (bufferList l) := by
  obtain ⟨hl, hr⟩ := h
  simp only [saveOn, askParts_complete hl, hl, hr]

section
variable {s : State} {id : Nat} {c : Cmd}

theorem saveShard_asks (hdata : ∀ d ∈ s.liust.data, d.1 ≠ id) (hbufs : 1 ≤ c.saveBufs) (hrun : s.running? id 0x810 = some c)
    (hgo : c.stage = .go) (hhost : c.isHost = true) :
    ∃ t, exec (.saveShard id) s = .next t ∧ t.mem = s.mem
      ∧ t.save = { s.save with
          holder := some id, unsent := c.saveRanges, kept := if s.keeper.standing then s.keeper.partner else none }
      ∧ ∃ d, t.cmd? id = some d ∧ d.stage = .dma 0 ∧ d.st = .running := by
  obtain ⟨hc, hrunning, -⟩ := running?_some hrun
  have hid := cmd?_id hc
  have hexec : s.doSaveShard id = ((s.rangesHeld id c).setStage id (.dma 0)).saveOn c := by
    unfold doSaveShard
    rw [hrun]
    dsimp only
    rw [hgo]
    exact if_pos hhost
  obtain ⟨_, _, _, hasks⟩ := saveOn_asks (s := (s.rangesHeld id c).setStage id (.dma 0)) (c := c) (hid ▸ hdata) hbufs
  rw [hasks] at hexec
  exact ⟨_, congrArg Host.Outcome.next hexec, rfl, rfl, _, setStage_cmd? (s := s.rangesHeld id c) hc (.dma 0), rfl,
    isRunning_st hrunning⟩

theorem exec_saveShard_dma (hrun : s.running? id 0x810 = some c) (hstage : c.stage = .dma 0) :
    exec (.saveShard id) s = .next (s.saveOn c) := by
  refine congrArg Host.Outcome.next ?_
  simp only [doSaveShard, hrun, hstage]

theorem saveShard_rejects {l : List Byte} {r : Rej} (hrun : s.running? id 0x810 = some c) (hstage : c.stage = .dma 0)
    (hl : s.partsData id 0 (16 * c.saveBufs) = some l) (hr : bufferRej (bufferList l) c.saveTotal = some r) :
    ∃ t, exec (.saveShard id) s = .next t ∧ Completes s t id { status := r.1, aux := r.2 } := by
  obtain ⟨hc, -, -⟩ := running?_some hrun
  obtain rfl := cmd?_id hc
  refine ⟨_, exec_saveShard_dma hrun hstage, ?_⟩
  rw [saveOn_rejects ⟨hl, hr⟩]
  exact finish_completes hc _

theorem saveShard_acts {l : List Byte} (hrun : s.running? id 0x810 = some c) (hstage : c.stage = .dma 0)
    (hl : s.partsData id 0 (16 * c.saveBufs) = some l) (hr : bufferRej (bufferList l) c.saveTotal = none)
    (hstep : s.partData id stepPart = none) :
    ∃ t, exec (.saveShard id) s = .next t ∧ t.mem = s.mem ∧ t.save = { s.save with
      active := some id, since := 0, rose := false, due := false, startNanos := s.wall, unsent := t.save.unsent } := by
  obtain ⟨hc, -, -⟩ := running?_some hrun
  obtain rfl := cmd?_id hc
  obtain ⟨hmem, hsave⟩ := saveBegin_acts hstep
  obtain ⟨hmem', hsave'⟩ := (s.saveBegin c).saveSend_sends c (bufferList l)
  have hexec := exec_saveShard_dma hrun hstage
  rw [saveOn_acts ⟨hl, hr⟩] at hexec
  refine ⟨_, hexec, hmem'.trans hmem, hsave'.trans ?_⟩
  rw [hsave]

/-- The result that no save is due ends a SAVE_SHARD with nothing saved. -/
theorem takeBarrier_save {k : Coll} (hk : s.coll? id = some k) (hc : s.cmd? id = some c) (hop : c.opcode = 0x810) {r : Barrier}
    (hor : r.or = false) :
    s.takeBarrier id r = ((s.keepResult k r).modFabric (fun f => { f with colls := f.colls.filter (fun x => x.id != id) })).finish
      id (plainCompl Status.ok) := by
  unfold takeBarrier
  rw [hk, hc]
  dsimp only
  rw [hop, hor]
  rfl

theorem saveShard_notDue {g : Group} (hrun : s.running? id 0x810 = some c) (hgo : c.stage = .go) (hseq : c.isHost = false)
    (hg : s.group? c.saveGroup = some g) (halone : AloneIn s g) (hcolls : ∀ k ∈ s.fabric.colls, k.id ≠ id)
    (hdue : s.save.due = false) :
    ∃ t u, exec (.saveShard id) s = .next t ∧ Completes u t id { status := 0x000 } ∧ t.mem = s.mem ∧ t.hostTx = s.hostTx
      ∧ t.save.since = s.save.since := by
  obtain ⟨hc, -, hop⟩ := running?_some hrun
  have hid := cmd?_id hc
  obtain ⟨w, hw⟩ : ∃ w, w = (s.rangesHeld id c).modSave (fun v => { v with
    groupSize := ((s.group? c.saveGroup).map (fun g => g.members.length)).getD 1 }) := ⟨_, rfl⟩
  have hexec : s.doSaveShard id = w.runBarrier c c.saveGroup false := by
    rw [hw, ← hdue]
    unfold doSaveShard
    rw [hrun]
    dsimp only
    rw [hgo]
    exact if_neg (by simp [hseq])
  obtain ⟨v, k, hk, hcv, -, -, hframe, hends⟩ := runBarrier_leads (s := w) (g := g) (flag := false)
    (by rw [hw]; exact halone) (by rw [hw]; exact hcolls) (by rw [hw]; exact hc) (by rw [hw]; exact hg)
  rw [takeBarrier_save hk hcv hop rfl] at hends
  generalize hu : modFabric (v.keepResult k _) _ = u at hends
  have hcu : u.cmd? id = some { c with stage := .barrier } := by rw [← hu]; exact hcv
  have hcompletes := finish_completes hcu (plainCompl Status.ok)
  have hkept := hcompletes.2.1
  rw [takeEarly_ended (coll?_finish hcu _)] at hends
  refine ⟨_, u, congrArg Host.Outcome.next (hexec.trans hends), hcompletes, ?_, ?_, ?_⟩
  · rw [hkept.mem, ← hu]
    show v.mem = s.mem
    rw [hframe, hw]
    rfl
  · rw [hkept.hostTx, ← hu]
    show v.hostTx = s.hostTx
    rw [hframe, hw]
    rfl
  · have hsince := congrArg Save.since hkept.save
    refine Eq.trans hsince ?_
    rw [← hu]
    show v.save.since = s.save.since
    rw [hframe, hw]
    rfl

/-! ## SAVE_RESTORE (R343) -/

theorem doSaveRestore_runs (hrun : s.running? id 0x811 = some c) : s.doSaveRestore id = (s.setStage id (.dma 0)).restoreOn c := by
  unfold doSaveRestore
  rw [hrun]

/-- While manifest and buffer list are to come, a restore only asks for them. -/
theorem restoreOn_asks (hdata : ∀ d ∈ s.liust.data, d.1 ≠ c.id) : MoreAsked s (s.restoreOn c) := by
  obtain ⟨_, _, _, hfirst⟩ := s.askParts_asks c.id manifestPart c.saveManifest 2676
  have hasks : MoreAsked s ((s.askParts c.id manifestPart c.saveManifest 2676).askParts c.id 0 c.saveBuflist
      (16 * c.saveBufs)) := by
    rw [hfirst]
    obtain ⟨_, _, _, hsecond⟩ := askParts_asks { s with liust := { s.liust with dmas := _, nextTag := _ }, hostTx := _ } c.id 0
      c.saveBuflist (16 * c.saveBufs)
    rw [hsecond]
    exact ⟨_, _, _, rfl⟩
  unfold restoreOn
  dsimp only
  rw [hasks.partsData, partsData_none hdata (by omega)]
  exact hasks

theorem saveRestore_asks (hdata : ∀ d ∈ s.liust.data, d.1 ≠ id) (hrun : s.running? id 0x811 = some c) :
    ∃ t, exec (.saveRestore id) s = .next t ∧ t.mem = s.mem ∧ t.save = s.save
      ∧ ∃ d, t.cmd? id = some d ∧ d.stage = .dma 0 ∧ d.st = .running := by
  obtain ⟨hc, hrunning, -⟩ := running?_some hrun
  have hid := cmd?_id hc
  have hexec := doSaveRestore_runs hrun
  obtain ⟨_, _, _, hasks⟩ := restoreOn_asks (s := s.setStage id (.dma 0)) (c := c) (hid ▸ hdata)
  rw [hasks] at hexec
  exact ⟨_, congrArg Host.Outcome.next hexec, rfl, rfl, _, setStage_cmd? hc (.dma 0), rfl, isRunning_st hrunning⟩

/-- The mark of a block of the stream that has come. -/
def restoreMark (s : State) (id i : Nat) : Bool := bit (((s.partData id (dataPart + i / 64)).map (fun p => p.2)).getD 0) (i % 64)

/-- What a restore writes of its stream. -/
def restoreEffect (s : State) (c : Cmd) (data : List Byte) : Effect :=
  { writes := restoreWrites c.saveRanges data (s.restoreMark c.id)
    poisonIn := ((List.range (c.saveTotal / 64)).filter (s.restoreMark c.id)).length }

/-- A restore to which everything has come, by the checks of its manifest and digest. -/
theorem restoreOn_checks {m l data : List Byte} (hm : s.partsData c.id manifestPart 2676 = some m)
    (hl : s.partsData c.id 0 (16 * c.saveBufs) = some l) (hdata : s.sentData c = some data)
    (hr : bufferRej (bufferList l) c.saveTotal = none) :
    s.restoreOn c = if lengthsMatch m c = false then s.finish c.id (rejCompl Status.rejShape 0xFFFF)
      else if s.manifestOk m = false then s.finish c.id (plainCompl Status.fltSaveSignature)
      else if (sha3 data).toNat ≠ fieldAt m 24 32 then
        (s.scramble c.saveRanges c.saveTotal).finish c.id (plainCompl Status.fltSaveDigest)
      else s.perform c (s.restoreEffect c data) := by
  have hparts : (List.range (ceilDiv c.saveTotal 4096)).foldl (fun (s : State) k =>
      if (s.partData c.id (dataPart + k)).isSome || s.partOut c.id (dataPart + k) || !s.hostUp || !s.dmaRoom true then s
      else s.dmaRd (bufferAt (bufferList l) (4096 * k)) (min 4096 (c.saveTotal - 4096 * k)) (.command c.id (dataPart + k))) s = s :=
    foldl_same fun _ hk => if_pos (by simp [isSome_of_partsData hdata hk])
  unfold restoreOn
  dsimp only
  rw [askParts_complete hm, askParts_complete hl, hm, hl]
  dsimp only
  rw [hr]
  dsimp only
  rw [hparts, hdata]
  cases lengthsMatch m c
  · rfl
  · cases s.manifestOk m
    · rfl
    · by_cases hd : (sha3 data).toNat = fieldAt m 24 32
      · simp [hd]
        rfl
      · simp [hd]

theorem saveRestore_ends {m l data : List Byte} (hrun : s.running? id 0x811 = some c) (hlimit : c.poisonLimit = 0xFFFF)
    (hm : s.partsData id manifestPart 2676 = some m) (hl : s.partsData id 0 (16 * c.saveBufs) = some l)
    (hdata : s.sentData c = some data) (hr : bufferRej (bufferList l) c.saveTotal = none) :
    ∃ t, exec (.saveRestore id) s = .next t
      ∧ (lengthsMatch m c = false → Completes s t id { status := 0x10A, aux := 0xFFFF })
      ∧ (lengthsMatch m c = true → s.manifestOk m = false → Completes s t id { status := 0x20C })
      ∧ (lengthsMatch m c = true → s.manifestOk m = true → (sha3 data).toNat ≠ fieldAt m 24 32 →
          ∃ u, Completes u t id { status := 0x20D })
      ∧ (lengthsMatch m c = true → s.manifestOk m = true → (sha3 data).toNat = fieldAt m 24 32 → s.memside.pendingUe = [] →
        ∃ u k, Completes u t id k ∧ k.status = 0x000
          ∧ t.mem = (s.writeBlocks (restoreWrites c.saveRanges data (s.restoreMark id))).mem) := by
  obtain ⟨hc, -, -⟩ := running?_some hrun
  obtain rfl := cmd?_id hc
  have hcg := setStage_cmd? hc (.dma 0)
  have hexec := (doSaveRestore_runs hrun).trans (restoreOn_checks (s := s.setStage c.id (.dma 0)) hm hl hdata hr)
  refine ⟨_, congrArg Host.Outcome.next hexec, fun hbad => ?_, fun hok hbad => ?_, fun hok hsig hbad => ?_,
    fun hok hsig hdigest hue => ?_⟩
  · rw [if_pos hbad]
    exact completes_of_setStage (finish_completes hcg _)
  · rw [if_neg (by simp [hok]), if_pos (show (s.setStage c.id (.dma 0)).manifestOk m = false from hbad)]
    exact completes_of_setStage (finish_completes hcg _)
  · rw [if_neg (by simp [hok]), if_neg (by simp [show (s.setStage c.id (.dma 0)).manifestOk m = true from hsig]), if_pos hbad]
    refine ⟨_, finish_completes (c := { c with stage := .dma 0 }) ?_ _⟩
    unfold scramble restoreBlocks cmd?
    rw [writeBlocks_frame]
    exact hcg
  · rw [if_neg (by simp [hok]), if_neg (by simp [show (s.setStage c.id (.dma 0)).manifestOk m = true from hsig]),
      if_neg (by simp [hdigest])]
    have hretry : (s.setStage c.id (.dma 0)).retryBlocks ((s.setStage c.id (.dma 0)).restoreEffect c data) = false := by
      unfold retryBlocks
      rw [show (s.setStage c.id (.dma 0)).memside.pendingUe = [] from hue]
      simp
    rw [perform_lands hretry (by simp [Effect.overLimit, hlimit])]
    refine ⟨_, _, finish_completes (c := { c with stage := .dma 0 }) ?_ _, rfl, ?_⟩
    · unfold cmd?
      rw [landEffect_cmds]
      exact hcg
    · rw [finish_mem, landEffect_mem]
      exact written_congr (s := s) (u := s.setStage c.id (.dma 0)) rfl rfl rfl (s.restoreEffect c data)

end

end State

open State

/-- Settles O42: each keeper command by its own lemma, and a save by what has come of its buffer list. -/
theorem keepersAndSavesAct : Obligations.KeepersAndSavesAct := by
  unfold Obligations.KeepersAndSavesAct
  refine ⟨fun s id c hcap => ⟨keepPair_records hcap, keepUnpair_asks hcap, fun o => distRegister_records hcap,
      fun peer => keepCheck_compares, fun dst peer => keepRestore_nothing, fun dst peer x y hrun hgo hok hpartner hback hlen hone => ?_⟩,
    fun s id c hdata hbufs => ⟨saveShard_asks hdata hbufs, saveRestore_asks hdata⟩, fun s id c g => saveShard_notDue,
    fun s id c l hrun hstage hl => ⟨fun r => saveShard_rejects hrun hstage hl, saveShard_acts hrun hstage hl⟩,
    fun s id c m l data => saveRestore_ends⟩
  obtain ⟨hmem, -, ⟨d, hd, hstage, hst, -⟩, ⟨rs, hremotes, hmap⟩, hqueued⟩ :=
    keepRestore_sends (peer := peer) hrun hgo hok hpartner hback hlen hone
  refine ⟨_, rs, rfl, hmem, hremotes, ?_, ⟨d, hd, hstage, hst⟩, fun hhold => ?_⟩
  · unfold pairParts at hmap
    rw [hmap, List.map_map]
    rfl
  · obtain ⟨q, hq, hqmap⟩ := hqueued hhold
    refine ⟨q, hq, ?_⟩
    unfold pairParts at hqmap
    rw [hqmap, List.map_map]
    rfl

end Sys2Proof.Machine

/-! PROOFS. Errors found while commands run, and benching (R485 to R495). -/

namespace Sys2Proof.Machine

/-! ## The bench core of a row (R20, R492) -/

/-- A core that is not on the bench retires: the row's bench core is the one that it was. -/
theorem Cluster.benchOf_retire {c : Cluster} {i : Nat} (h : (vget c.cores i {}).mode ≠ .bench) (row : Nat) :
    (c.modCore i Core.retire).benchOf row = c.benchOf row := by
  have hmode (j : Nat) : ((vget (c.modCore i Core.retire).cores j {}).mode == .bench) = ((vget c.cores j {}).mode == .bench) := by
    by_cases hj : j = i
    · subst hj
      by_cases hlt : j < 28
      · rw [modCore, vget_vmod_same _ _ _ _ hlt, beq_false_of_ne h]
        rfl
      · rw [modCore, vmod_outside _ _ _ (Nat.le_of_not_lt hlt)]
    · rw [modCore, vget_vmod_other _ _ _ _ _ hj]
  unfold benchOf
  simp only [hmode]

/-- The bench core of its row takes an active core's place. -/
theorem Cluster.bench_fills {c : Cluster} {i j : Nat} (hactive : (vget c.cores i {}).mode = .active)
    (hj : c.benchOf (i / 7) = some j) (hlt : j < 28) : (vget (c.bench i).cores j {}).mode = .active := by
  have hd : (c.modCore i Core.retire).benchOf (i / 7) = some j :=
    (benchOf_retire (by rw [hactive]; decide) _).trans hj
  unfold bench
  dsimp only
  split
  · next m _ hm =>
    obtain rfl : m = j := Option.some.inj (Eq.trans (show _ = _ from hm.symm) hd)
    rw [modCore, vget_vmod_same _ _ _ _ hlt]
  · next hnot => exact (hnot j hactive hd).elim

theorem Cluster.lt_of_benchOf {c : Cluster} {row j : Nat} (h : c.benchOf row = some j) (hrow : row < 4) : j < 28 := by
  obtain ⟨p, hp, rfl⟩ := List.mem_map.mp (List.mem_of_find?_eq_some h)
  have := List.mem_range.mp hp
  omega

namespace State

/-! ## Shares that move (R76, R489) -/

/-- From s to t shares of commands move between cores: clusters, the limiter and free choices may change, and every core is
marked failing in t where it is in s. -/
structure SharesMove (s t : State) : Prop where
  frame : t = { s with clusters := t.clusters, free := t.free, power := t.power }
  failing : ∀ n i, (vget (t.cluster n).cores i {}).failing = (vget (s.cluster n).cores i {}).failing

theorem SharesMove.refl (s : State) : SharesMove s s := ⟨rfl, fun _ _ => rfl⟩

theorem SharesMove.trans {s t u : State} (h : SharesMove s t) (h' : SharesMove t u) : SharesMove s u := by
  refine ⟨?_, fun n i => (h'.failing n i).trans (h.failing n i)⟩
  rw [h'.frame, h.frame]

theorem SharesMove.of_clusters {s t : State} (hframe : t = { s with clusters := t.clusters, free := t.free, power := t.power })
    (h : t.clusters = s.clusters) : SharesMove s t := by
  refine ⟨hframe, fun n i => ?_⟩
  unfold cluster
  rw [h]

/-- A core that changes in what it runs moves shares. -/
theorem sharesMove_modCore (s : State) (n i : Nat) {f : Cluster → Core → Core}
    (hf : ∀ c k, (f c k).failing = k.failing) :
    SharesMove s (s.modCluster n (fun c => { c with cores := vmod c.cores i (f c) })) := by
  have hcore (c : Cluster) (v : Vector Core 28) (j : Nat) : (vget (vmod v i (f c)) j {}).failing = (vget v j {}).failing := by
    by_cases hj : j = i
    · subst hj
      by_cases hlt : j < 28
      · rw [vget_vmod_same _ _ _ _ hlt, hf]
      · rw [vmod_outside _ _ _ (Nat.le_of_not_lt hlt)]
    · rw [vget_vmod_other _ _ _ _ _ hj]
  refine ⟨rfl, fun m j => ?_⟩
  by_cases hm : m = n
  · subst hm
    by_cases hlt : m < 8
    · rw [cluster_modCluster_same s _ hlt]
      exact hcore _ _ j
    · rw [modCluster, vmod_outside _ _ _ (Nat.le_of_not_lt hlt)]
  · rw [cluster_modCluster_other s _ hm]

theorem placeOn_moves (s : State) (c : Cmd) (before : List Cmd) (n : Nat) : SharesMove s (s.placeOn c before n) := by
  unfold placeOn
  dsimp only
  refine foldl_keeps (p := SharesMove s) (fun t x ht => ht.trans (sharesMove_modCore t n x.1 fun _ k => ?_)) _
    (.of_clusters rfl rfl)
  dsimp only [Core.takePart, Core.takeThread, Core.takeFeeds]
  split
  · split <;> rfl
  · rfl

theorem moveShare_moves (s : State) (n core id : Nat) : SharesMove s (s.moveShare n core id) := by
  unfold moveShare
  split
  · exact .refl s
  · next c _ =>
    dsimp only
    generalize hu : ({ State.modCluster s n _ with free := _ } : State) = u
    have hmoved : SharesMove s u := by
      subst hu
      have hfree (v : State) (k : Nat) (hv : SharesMove s v) : SharesMove s { v with free := k } :=
        ⟨by rw [hv.frame], hv.failing⟩
      refine hfree _ _ (s.sharesMove_modCore n core (f := fun c x => x.release c.array.shadow s.free id)
        fun c k => ?_)
      have hsame := congrArg Core.failing (core_release_same c.array.shadow s.free id k).1
      exact hsame
    split
    · exact hmoved
    · exact hmoved.trans (placeOn_moves u c [] n)

theorem report_moves (s : State) (n core cls : Nat) : SharesMove s (s.report n core cls) := by
  unfold report
  dsimp only
  have hmoved := s.sharesMove_modCore n core (f := fun _ k => { k with said := cls, cls := max k.cls cls }) fun _ _ => rfl
  split
  · exact hmoved.trans (.of_clusters rfl rfl)
  · exact hmoved

theorem relocate_moves (s : State) (n i id : Nat) : SharesMove s (s.relocate n i id) := by
  unfold relocate
  dsimp only
  split
  · refine (s.moveShare_moves n i id).trans ?_
    unfold reportCores
    refine foldl_keeps (p := SharesMove _) (fun t l ht => foldl_keeps (p := SharesMove _) (fun u j hu => ?_) _ ht) _ (.refl _)
    dsimp only
    split
    · exact hu.trans (u.report_moves ..)
    · exact hu
  · exact s.moveShare_moves n i id

/-! ## A core that is marked failing (R489) -/

/-- Core i of cluster n marked failing. -/
def marked (s : State) (n i : Nat) : State := s.modCluster n (fun c => c.modCore i (fun x => { x with failing := true }))

theorem core_marked (s : State) {n i : Nat} (hn : n < 8) (hi : i < 28) :
    vget ((s.marked n i).cluster n).cores i {} = { vget (s.cluster n).cores i {} with failing := true } := by
  unfold marked
  rw [cluster_modCluster_same s _ hn, Cluster.modCore, vget_vmod_same _ _ _ _ hi]

theorem markFailing_eq {s : State} {n i : Nat} (h : s.stands n (vget (s.cluster n).cores i {}) = true) :
    s.markFailing n i = ((vget (s.cluster n).cores i {}).parts.toList.filterMap (fun p => p.next)).foldl
      (fun s id => s.relocate n i id) (s.marked n i) := by
  simp [markFailing, h, marked]

theorem markFailing_moves {s : State} {n i : Nat} (h : s.stands n (vget (s.cluster n).cores i {}) = true) :
    SharesMove (s.marked n i) (s.markFailing n i) := by
  rw [markFailing_eq h]
  exact foldl_keeps (p := SharesMove _) (fun t id ht => ht.trans (t.relocate_moves n i id)) _ (.refl _)

theorem markFailing_marks {s : State} {n i : Nat} (h : s.stands n (vget (s.cluster n).cores i {}) = true) (hn : n < 8)
    (hi : i < 28) : (vget ((s.markFailing n i).cluster n).cores i {}).failing = true
      ∧ s.markFailing n i = { s with clusters := (s.markFailing n i).clusters, free := (s.markFailing n i).free
                                     power := (s.markFailing n i).power } := by
  obtain ⟨hframe, hfailing⟩ := markFailing_moves h
  refine ⟨?_, hframe⟩
  rw [hfailing, core_marked s hn hi]

/-! ## A core's own store (R485) -/

/-- The stores of core i of cluster n may be spoilt from s to t: its work goes on, and no byte of memory changes. -/
structure StoreSpoilt (s t : State) (n i : Nat) : Prop where
  frame : t = { s with clusters := t.clusters, mem := t.mem, free := t.free }
  byte : ∀ x, t.mem.byte x = s.mem.byte x
  mode : (vget (t.cluster n).cores i {}).mode = (vget (s.cluster n).cores i {}).mode
  boundary : (vget (t.cluster n).cores i {}).atBoundary = (vget (s.cluster n).cores i {}).atBoundary
  threads : (vget (t.cluster n).cores i {}).threads = (vget (s.cluster n).cores i {}).threads

theorem StoreSpoilt.stands {s t : State} {n i : Nat} (h : StoreSpoilt s t n i) :
    t.stands n (vget (t.cluster n).cores i {}) = s.stands n (vget (s.cluster n).cores i {}) := by
  have htest : t.underTest n = s.underTest n := by rw [h.frame]; rfl
  unfold State.stands
  rw [h.mode, h.boundary, h.threads, htest]

/-- A change of a partition that leaves its command leaves the command boundary of the core. -/
theorem atBoundary_vmod (k : Core) (u : Nat) {f : Part → Part} (hf : ∀ p, (f p).cmd = p.cmd) :
    Core.atBoundary { k with parts := vmod k.parts u f } = k.atBoundary := by
  unfold Core.atBoundary
  rw [Bool.eq_iff_iff, List.all_eq_true, List.all_eq_true]
  simp only [Vector.mem_toList_iff, Vector.mem_iff_getElem]
  have hget (j : Nat) (hj : j < 4) : ((vmod k.parts u f)[j]).cmd = (k.parts[j]).cmd := by
    by_cases hu : j = u
    · subst hu
      simp [vmod, hj, hf]
    · have := vget_vmod_other k.parts u j f {} hu
      simp only [vget, hj, dif_pos] at this
      rw [this]
  constructor
  · rintro h _ ⟨j, hj, rfl⟩
    rw [← hget j hj]
    exact h _ ⟨j, hj, rfl⟩
  · rintro h _ ⟨j, hj, rfl⟩
    rw [hget j hj]
    exact h _ ⟨j, hj, rfl⟩

theorem spoilSums_cmd (b : Bool) (x : Nat) (p : Part) : (p.spoilSums b x).cmd = p.cmd := by
  unfold Part.spoilSums
  split <;> rfl

theorem poisonStore_spoils (s : State) {n i : Nat} (hn : n < 8) (hi : i < 28) : StoreSpoilt s (s.poisonStore n i) n i := by
  have hpart (t : State) (ht : t.clusters = s.clusters) (hframe : t = { s with free := t.free }) (u : Nat) {f : Part → Part}
      (hf : ∀ p, (f p).cmd = p.cmd) : StoreSpoilt s (t.modCluster n (fun c => c.modCore i (fun y =>
        { y with parts := vmod y.parts (u % y.split.parts) f }))) n i := by
    have hcore : vget ((t.modCluster n (fun c => c.modCore i (fun y =>
        { y with parts := vmod y.parts (u % y.split.parts) f }))).cluster n).cores i {}
          = { vget (s.cluster n).cores i {} with
              parts := vmod (vget (s.cluster n).cores i {}).parts (u % (vget (s.cluster n).cores i {}).split.parts) f } := by
      rw [cluster_modCluster_same t _ hn, Cluster.modCore, vget_vmod_same _ _ _ _ hi]
      unfold cluster
      rw [ht]
    refine ⟨by rw [hframe]; rfl, fun x => by rw [hframe]; rfl, ?_, ?_, ?_⟩
    · rw [hcore]
    · rw [hcore]
      exact atBoundary_vmod _ _ hf
    · rw [hcore]
  unfold poisonStore
  dsimp only
  split
  · exact ⟨rfl, fun _ => rfl, rfl, rfl, rfl⟩
  · split
    · split
      · exact ⟨rfl, fun _ => rfl, rfl, rfl, rfl⟩
      · exact ⟨rfl, fun _ => rfl, rfl, rfl, rfl⟩
    · exact hpart s.freeBit.2.freeNat.2.freeNat.2 rfl rfl _ (spoilSums_cmd _ _)
    · exact hpart s.freeBit.2.freeNat.2.freeNat.2 rfl rfl _ (spoilSums_cmd _ _)
    · exact hpart s.freeBit.2.freeNat.2.freeNat.2 rfl rfl _ fun _ => rfl

/-! ## The rows -/

theorem benchCore_counts {s : State} {n i : Nat} (h : (vget (s.cluster n).cores i {}).mode ≠ .benched) :
    (s.benchCore n i).ctr .coresBenched = satAdd (s.ctr .coresBenched) 1 ∧ (s.benchCore n i).errors.coreBenched = true := by
  have hsticky (t : State) (e : Repair) : (t.recordBench e).errors.coreBenched = t.errors.coreBenched := by
    unfold recordBench
    dsimp only
    split
    · rfl
    · split
      · rfl
      · split <;> rfl
  unfold benchCore
  rw [if_neg (by simpa using h)]
  dsimp only
  rw [hsticky]
  refine ⟨?_, rfl⟩
  unfold ctr
  rw [(recordBench_frame ..).1]
  exact (s.modCluster n (fun c => c.bench i)).ctr_bump_same .coresBenched 1

section
variable {s : State} {core : CoreRef} (hcluster : core.cluster < 8) (hrow : core.row < 4) (hpos : core.pos < 7)

theorem coreRuns_iff : s.coreRuns core = true ↔ s.alive = true
    ∧ s.stands core.cluster (vget (s.cluster core.cluster).cores (coreIndex core) {}) = true := by
  unfold coreRuns
  exact Bool.and_eq_true_iff

/-- A lasting failure of a residue check: it counts, and the sticky bit is set. -/
def residueNoted (s : State) : State := (s.bump .residueLasting).modErrors (fun e => { e with residueLasting := true })

/-- A lasting error of an SRAM block: it counts, and the sticky bit is set. -/
def sramNoted (s : State) : State := (s.bump .sramUeLasting).modErrors (fun e => { e with sramLasting := true })

/-- A die link that is lost: it counts, and the sticky bit is set. -/
def dlinkLost (s : State) (a b : Nat) : State := (s.bump .dlinkLasting).modErrors (fun e => { e with
  dlinkLasting := true
  dlinkDown := if e.dlinkDown.contains (linkOf a b) then e.dlinkDown else e.dlinkDown ++ [linkOf a b] })

theorem residueFailure_retries (hruns : s.coreRuns core = true) (scrum : Bool) :
    exec (.residueFailure core scrum false) s = .next (s.bump .residueRetry) := by
  refine congrArg Host.Outcome.next ?_
  simp [doResidue, hruns]

theorem mem_linkDown (l : List (Nat × Nat)) (k : Nat × Nat) : k ∈ (if l.contains k then l else l ++ [k]) := by
  split
  · next h => simpa using h
  · simp

include hcluster hrow hpos

omit hcluster in
theorem coreIndex_lt : coreIndex core < 28 := by
  unfold coreIndex
  omega

theorem residueFailure_lasts (hruns : s.coreRuns core = true) (scrum : Bool) :
    ∃ t, exec (.residueFailure core scrum true) s = .next t ∧ t.ctr .residueLasting = satAdd (s.ctr .residueLasting) 1
      ∧ t.errors.residueLasting = true
      ∧ (vget (t.cluster core.cluster).cores (coreIndex core) {}).failing = true ∧ t.mem = s.mem := by
  obtain ⟨-, hstands⟩ := coreRuns_iff.1 hruns
  have hexec : s.doResidue core true = s.residueNoted.markFailing core.cluster (coreIndex core) := by
    simp [doResidue, hruns, residueNoted]
  obtain ⟨hfailing, hframe⟩ := markFailing_marks (s := s.residueNoted) hstands hcluster (coreIndex_lt hrow hpos)
  refine ⟨_, congrArg Host.Outcome.next hexec, ?_, ?_, hfailing, ?_⟩
  · unfold ctr
    rw [hframe]
    exact s.ctr_bump_same .residueLasting 1
  · rw [hframe]
    rfl
  · rw [hframe]
    rfl

theorem coreFailing_marks (hruns : s.coreRuns core = true)
    (hidle : ∀ c ∈ s.cmds, (vget (s.cluster core.cluster).cores (coreIndex core) {}).runs c.id = false) :
    ∃ t, exec (.coreFailing core []) s = .next t
      ∧ vget (t.cluster core.cluster).cores (coreIndex core) {}
        = { vget (s.cluster core.cluster).cores (coreIndex core) {} with failing := true }
      ∧ t.cmds = s.cmds ∧ t.mem = s.mem := by
  obtain ⟨-, hstands⟩ := coreRuns_iff.1 hruns
  have hi := coreIndex_lt hrow hpos
  generalize hk : vget (s.cluster core.cluster).cores (coreIndex core) {} = k at hidle hstands
  have hnone : ∀ p ∈ k.parts.toList, ∀ id, p.next = some id → s.cmd? id = none := by
    intro p hp id hnext
    refine List.find?_eq_none.2 fun c hc heq => ?_
    have hrun := hidle c hc
    unfold Core.runs at hrun
    rw [Bool.or_eq_false_iff, List.any_eq_false] at hrun
    refine hrun.1 p hp ?_
    simp_all
  have hmark : s.markFailing core.cluster (coreIndex core) = s.marked core.cluster (coreIndex core) := by
    rw [markFailing_eq (by rwa [hk]), hk]
    refine foldl_same fun id hid => ?_
    obtain ⟨p, hp, hnext⟩ := List.mem_filterMap.mp hid
    have hgone : (s.marked core.cluster (coreIndex core)).cmd? id = none := hnone p hp id hnext
    simp [relocate, moveShare, hgone]
  have hcore : vget ((s.marked core.cluster (coreIndex core)).cluster core.cluster).cores (coreIndex core) {}
      = { k with failing := true } := by
    rw [core_marked s hcluster hi, hk]
  have hruns' : ∀ id, Core.runs { k with failing := true } id = k.runs id := fun _ => rfl
  have hshares : ((s.marked core.cluster (coreIndex core)).cmds.map (fun x => x.id)).filter
      (Core.runs { k with failing := true }) = [] := by
    rw [List.filter_eq_nil_iff]
    intro id hid
    obtain ⟨c, hc, rfl⟩ := List.mem_map.mp hid
    rw [hruns', hidle c hc]
    decide
  have hexec : s.doCoreFailing core [] = s.marked core.cluster (coreIndex core) := by
    unfold doCoreFailing
    rw [if_pos hruns]
    dsimp only [List.foldl_nil]
    rw [hmark, hcore, hshares, List.foldl_nil]
  exact ⟨_, congrArg Host.Outcome.next hexec, hcore, rfl, rfl⟩

theorem sramUe_storeFails (hruns : s.coreRuns core = true) :
    ∃ t, exec (.sramUe (.coreStore core) .failed) s = .next t ∧ t.ctr .sramUeLasting = satAdd (s.ctr .sramUeLasting) 1
      ∧ t.errors.sramLasting = true
      ∧ (vget (t.cluster core.cluster).cores (coreIndex core) {}).failing = true ∧ ∀ x, t.mem.byte x = s.mem.byte x := by
  obtain ⟨halive, hstands⟩ := coreRuns_iff.1 hruns
  have hi := coreIndex_lt hrow hpos
  have hspoilt := s.sramNoted.poisonStore_spoils hcluster hi
  have hexec : s.doSramUe (.coreStore core) .failed
      = (s.sramNoted.poisonStore core.cluster (coreIndex core)).markFailing core.cluster (coreIndex core) := by
    unfold doSramUe
    rw [halive]
    rfl
  obtain ⟨hfailing, hframe⟩ := markFailing_marks (hspoilt.stands.trans hstands) hcluster hi
  refine ⟨_, congrArg Host.Outcome.next hexec, ?_, ?_, hfailing, fun x => ?_⟩
  · unfold ctr
    rw [hframe, hspoilt.frame]
    exact s.ctr_bump_same .sramUeLasting 1
  · rw [hframe, hspoilt.frame]
    rfl
  · rw [hframe]
    exact hspoilt.byte x

omit hcluster hrow hpos in
theorem coreBench_waits (hbusy : (vget (s.cluster core.cluster).cores (coreIndex core) {}).atBoundary = false) :
    exec (.coreBench core) s = .next s := by
  refine congrArg Host.Outcome.next ?_
  simp [doCoreBench, hbusy]

theorem coreBench_benches (halive : s.alive = true)
    (hfailing : (vget (s.cluster core.cluster).cores (coreIndex core) {}).failing = true)
    (hidle : (vget (s.cluster core.cluster).cores (coreIndex core) {}).atBoundary = true)
    (hactive : (vget (s.cluster core.cluster).cores (coreIndex core) {}).mode = .active) :
    ∃ t, exec (.coreBench core) s = .next t
      ∧ (vget (t.cluster core.cluster).cores (coreIndex core) {}).mode = .benched ∧ t.errors.coreBenched = true
      ∧ t.ctr .coresBenched = satAdd (s.ctr .coresBenched) 1
      ∧ (∀ j, (s.cluster core.cluster).benchOf core.row = some j → (vget (t.cluster core.cluster).cores j {}).mode = .active)
      ∧ (∀ n, n ≠ core.cluster → t.cluster n = s.cluster n) ∧ t.mem = s.mem := by
  have hmode : (vget (s.cluster core.cluster).cores (coreIndex core) {}).mode ≠ .benched := by rw [hactive]; decide
  have hexec : s.doCoreBench core = s.benchCore core.cluster (coreIndex core) := by
    simp [doCoreBench, halive, hfailing, hidle]
  obtain ⟨hclusters, hmem, -, -⟩ := benchCore_frame hmode
  have hsame : (s.benchCore core.cluster (coreIndex core)).cluster core.cluster = (s.cluster core.cluster).bench (coreIndex core) := by
    unfold cluster
    rw [hclusters]
    exact cluster_modCluster_same s _ hcluster
  have hrowOf : coreIndex core / 7 = core.row := by
    unfold coreIndex
    omega
  obtain ⟨hctr, hsticky⟩ := benchCore_counts hmode
  refine ⟨_, congrArg Host.Outcome.next hexec, ?_, hsticky, hctr, fun j hj => ?_, fun n hn => ?_, hmem⟩
  · rw [hsame]
    exact Cluster.bench_benches _ (coreIndex_lt hrow hpos)
  · rw [hsame]
    exact Cluster.bench_fills hactive (hrowOf.symm ▸ hj) (Cluster.lt_of_benchOf hj hrow)
  · unfold cluster
    rw [hclusters]
    exact cluster_modCluster_other s _ hn

end

section
variable {s : State} (halive : s.alive = true)
include halive

theorem sramUe_corrects (place : SramPlace) : exec (.sramUe place .corrected) s = .next (s.bump .sramCe)
    ∧ exec (.sramUe place .transient) s = .next (s.bump .sramUeTransient) := by
  constructor <;> refine congrArg Host.Outcome.next ?_ <;> simp [doSramUe, halive]

theorem sramUe_bufferFails (n off : Nat) :
    ∃ t, exec (.sramUe (.clusterBuffer n off) .failed) s = .next t
      ∧ t.ctr .sramUeLasting = satAdd (s.ctr .sramUeLasting) 1 ∧ t.errors.sramLasting = true
      ∧ (s.mem.isUndef (bufLoc n off) = false → t.mem.poisoned (bufLoc n off) = true)
      ∧ ∀ x, t.mem.byte x = s.mem.byte x := by
  have hexec : s.doSramUe (.clusterBuffer n off) .failed = s.sramNoted.poisonBuffer n off := by
    simp only [doSramUe, halive, Bool.not_true, Bool.false_eq_true, if_false, sramNoted]
  obtain ⟨free, slots, hframe⟩ : ∃ free slots, s.sramNoted.poisonBuffer n off
      = { s.sramNoted with mem := s.mem.setPoison (bufLoc n off) true, free := free, slots := slots } := by
    unfold poisonBuffer
    dsimp only
    split
    · unfold poisonPool
      dsimp only
      split <;> exact ⟨_, _, rfl⟩
    · exact ⟨_, _, rfl⟩
  rw [hframe] at hexec
  exact ⟨_, congrArg Host.Outcome.next hexec, s.ctr_bump_same .sramUeLasting 1, rfl, Mem.setPoison_poisoned_same,
    fun x => Mem.setPoison_byte ..⟩

theorem dlink_replays (a b : Nat) (r : Bool) (ids : List Nat) :
    exec (.dlinkFlitError a b true r ids) s = .next (s.bump .dlinkRetry) := by
  refine congrArg Host.Outcome.next ?_
  simp [doDlink, halive]

theorem dlink_fails (a b : Nat) (hcmds : s.cmds = []) :
    ∃ t, exec (.dlinkFlitError a b false false []) s = .next t
      ∧ t.ctr .dlinkLasting = satAdd (s.ctr .dlinkLasting) 1 ∧ t.errors.dlinkLasting = true
      ∧ (min a b, max a b) ∈ t.errors.dlinkDown ∧ t.mem = s.mem := by
  have hexec : s.doDlink a b false false [] = s.dlinkLost a b := by
    unfold doDlink
    rw [halive]
    dsimp only
    rw [show ((s.bump .dlinkLasting).modErrors _).cmds = [] from hcmds]
    rfl
  exact ⟨_, congrArg Host.Outcome.next hexec, s.ctr_bump_same .dlinkLasting 1, rfl, mem_linkDown _ _, rfl⟩

end

end State

open State

/-- Settles O45: each error by its row, and a benching by what `Cluster.bench` does to its row of cores. -/
theorem errorsCountAndBench : Obligations.ErrorsCountAndBench := by
  unfold Obligations.ErrorsCountAndBench
  refine ⟨fun s core hcluster hrow hpos => ⟨fun hruns => ⟨residueFailure_retries hruns,
      residueFailure_lasts hcluster hrow hpos hruns, coreFailing_marks hcluster hrow hpos hruns,
      sramUe_storeFails hcluster hrow hpos hruns⟩, fun _ _ => coreBench_waits, coreBench_benches hcluster hrow hpos⟩,
    fun s halive => ⟨sramUe_corrects halive, sramUe_bufferFails halive, dlink_replays halive, dlink_fails halive⟩⟩

end Sys2Proof.Machine

/-! PROOFS. The units on the memory side (R200 to R209): stack-side operations, read retries and scrubs. -/

namespace Sys2Proof.Machine

namespace State

/-! ## Accesses to a block -/

section
variable {s : State} {a : Nat} (hpresent : s.present a = true)
include hpresent

theorem onBlock_reset (halive : s.alive = false) (f : State → State) : s.onBlock a f = .next s := by
  simp [onBlock, hpresent, halive]

/-- An access that gets to its block acts there, with the domains on its way woken (R476). -/
theorem onBlock_acts (halive : s.alive = true) (hreached : Reached s a 1) (f : State → State) :
    s.onBlock a f = .next (f (woken s a 1)) := by
  simp [onBlock, hpresent, halive, access_reached f hreached]

end

/-- The mask of a write that names every byte of its block. -/
theorem bytesMask_full : (List.range 64).foldl (fun acc i =>
    if (BitVec.allOnes 64).getLsbD i then acc + at' 0xFF (8 * i) else acc) 0 = fullMask := by
  decide +kernel

/-- The write of the bytes of a block that a mask names. -/
def maskedWrite (a : Nat) (m : BitVec 64) (d : List Byte) (p : Bool) : BlockWr :=
  { loc := a, val := leNat d, poison := p
    mask := (List.range 64).foldl (fun acc i => if m.getLsbD i then acc + at' 0xFF (8 * i) else acc) 0 }

/-! ## Reads (R200, R201) -/

section
variable {s : State} {a : Nat}

theorem firstRead_clean (h : a ∉ s.memside.uncured) : s.firstRead a .clean = s := by
  unfold firstRead
  split
  · rfl
  · simp [classify, h]

theorem firstRead_correctable (hpoison : s.mem.poisoned a = false) (hpending : s.retryPending a = false) :
    s.firstRead a .correctable = s.corrected a := by
  simp [firstRead, hpoison, hpending, classify]

theorem firstRead_pending (h : s.retryPending a = true) (o : ReadOutcome) : s.firstRead a o = s := by simp [firstRead, h]

theorem firstRead_uncorrectable (hpoison : s.mem.poisoned a = false) : a ∈ (s.firstRead a .uncorrectable).memside.pendingUe
    ∧ (s.firstRead a .uncorrectable).mem = s.mem := by
  unfold firstRead
  split
  · next h =>
    rw [hpoison, Bool.false_or] at h
    exact ⟨by simpa [retryPending] using h, rfl⟩
  · exact ⟨mem_insertNat.2 (.inl rfl), rfl⟩

theorem addTo_lands (hpending : s.retryPending a = false) (bf : Bool) (cs : List (List Word32)) (poisoned : Bool) :
    s.addTo a bf cs poisoned = s.land { BlockWr.full a (wordsBlock bf (addAll (blockWords bf (s.settledMem.bytes a 64)) cs))
      poisoned false with merge := true } :=
  writeBlock_lands s _ hpending

/-! ## The second read (R201, R202) -/

/-- The block is read again: its retry is no more pending, and no error stayed there. -/
def retried (s : State) (a : Nat) : State := s.modMemside (fun m => { m with
  pendingUe := m.pendingUe.filter (fun x => x != a), uncured := m.uncured.filter (fun x => x != a) })

theorem not_pending_retried : a ∉ (s.retried a).memside.pendingUe := by
  show a ∉ s.memside.pendingUe.filter (fun x => x != a)
  simp

theorem secondRead_fails : s.secondRead a .uncorrectable = ((s.retried a).lastingError a).landHeld a := rfl

theorem secondRead_succeeds {o : ReadOutcome} (h : o = .clean ∨ o = .correctable) :
    s.secondRead a o = ((s.retried a).countTransient a).landHeld a := by
  rcases h with rfl | rfl
  · unfold secondRead classify
    cases s.memside.uncured.contains a <;> rfl
  · rfl

theorem landHeld_none (h : ∀ w ∈ s.memside.held, w.loc ≠ a) : s.landHeld a = s := by
  have hnone : s.memside.held.filter (fun w => w.loc == a) = [] := by simpa [List.filter_eq_nil_iff] using h
  have hall : s.memside.held.filter (fun w => w.loc != a) = s.memside.held := by simpa [List.filter_eq_self] using h
  unfold landHeld modMemside
  rw [hnone]
  dsimp only [List.foldl_nil]
  rw [hall]

/-- A lasting error: the block is marked, the error logged, and counted with its sticky bit by the unit of the block. -/
theorem lastingError_leaves : (s.lastingError a).mem = s.mem.setPoison a true
    ∧ (s.lastingError a).memside.held = s.memside.held ∧ (s.lastingError a).memside.pendingUe = s.memside.pendingUe
    ∧ (s.memside.logNext < 16 → vget (s.lastingError a).memside.log s.memside.logNext none
        = some { ddr := (s.unitOf a).1, unit := (s.unitOf a).2, addr := blockOf a })
    ∧ (s.lastingError a).memside.logNext = (s.memside.logNext + 1) % 16
    ∧ (∀ n, s.unitOf a = (true, n) → (s.lastingError a).memside.ddrUeL = bumpAt s.memside.ddrUeL n
        ∧ (s.lastingError a).memside.ddrLasting = s.memside.ddrLasting ||| BitVec.ofNat 12 (2 ^ n)
        ∧ (s.lastingError a).memside.hbmUeL = s.memside.hbmUeL ∧ (s.lastingError a).memside.hbmLasting = s.memside.hbmLasting)
    ∧ (∀ n, s.unitOf a = (false, n) → (s.lastingError a).memside.hbmUeL = bumpAt s.memside.hbmUeL n
        ∧ (s.lastingError a).memside.hbmLasting = s.memside.hbmLasting ||| BitVec.ofNat 16 (2 ^ n)
        ∧ (s.lastingError a).memside.ddrUeL = s.memside.ddrUeL ∧ (s.lastingError a).memside.ddrLasting = s.memside.ddrLasting) := by
  obtain ⟨⟨d, n⟩, hu⟩ : ∃ u, s.unitOf a = u := ⟨_, rfl⟩
  unfold lastingError
  dsimp only
  rw [hu]
  cases d with
  | true =>
    refine ⟨rfl, rfl, rfl, fun hlt => vget_vmod_same _ _ _ _ hlt, rfl, fun m hm => ?_, fun m hm => by simp at hm⟩
    obtain rfl : n = m := congrArg Prod.snd hm
    exact ⟨rfl, rfl, rfl, rfl⟩
  | false =>
    refine ⟨rfl, rfl, rfl, fun hlt => vget_vmod_same _ _ _ _ hlt, rfl, fun m hm => by simp at hm, fun m hm => ?_⟩
    obtain rfl : n = m := congrArg Prod.snd hm
    exact ⟨rfl, rfl, rfl, rfl⟩

/-- A transient error counts, by the unit of the block, and no more. -/
theorem countTransient_leaves : (s.countTransient a).mem = s.mem ∧ (s.countTransient a).free = s.free
    ∧ (s.countTransient a).memside.log = s.memside.log ∧ (s.countTransient a).memside.held = s.memside.held
    ∧ (s.countTransient a).memside.pendingUe = s.memside.pendingUe
    ∧ (∀ n, s.unitOf a = (true, n) → (s.countTransient a).memside.ddrUeT = bumpAt s.memside.ddrUeT n
        ∧ (s.countTransient a).memside.hbmUeT = s.memside.hbmUeT)
    ∧ (∀ n, s.unitOf a = (false, n) → (s.countTransient a).memside.hbmUeT = bumpAt s.memside.hbmUeT n
        ∧ (s.countTransient a).memside.ddrUeT = s.memside.ddrUeT) := by
  obtain ⟨⟨d, n⟩, hu⟩ : ∃ u, s.unitOf a = u := ⟨_, rfl⟩
  unfold countTransient
  dsimp only
  rw [hu]
  cases d with
  | true =>
    refine ⟨rfl, rfl, rfl, rfl, rfl, fun m hm => ?_, fun m hm => by simp at hm⟩
    obtain rfl : n = m := congrArg Prod.snd hm
    exact ⟨rfl, rfl⟩
  | false =>
    refine ⟨rfl, rfl, rfl, rfl, rfl, fun m hm => by simp at hm, fun m hm => ?_⟩
    obtain rfl : n = m := congrArg Prod.snd hm
    exact ⟨rfl, rfl⟩

theorem secondRead_fails_none (h : ∀ w ∈ s.memside.held, w.loc ≠ a) :
    s.secondRead a .uncorrectable = (s.retried a).lastingError a := by
  rw [secondRead_fails, landHeld_none]
  obtain ⟨-, hheld, -⟩ := (s.retried a).lastingError_leaves (a := a)
  rw [hheld]
  exact h

theorem secondRead_succeeds_none {o : ReadOutcome} (ho : o = .clean ∨ o = .correctable)
    (h : ∀ w ∈ s.memside.held, w.loc ≠ a) : s.secondRead a o = (s.retried a).countTransient a := by
  rw [secondRead_succeeds ho, landHeld_none]
  obtain ⟨-, -, -, hheld, -⟩ := (s.retried a).countTransient_leaves (a := a)
  rw [hheld]
  exact h

/-- The one write that is held for a block lands once the second read is done. -/
theorem secondRead_lands {w : BlockWr} (hheld : s.memside.held = [w]) (hloc : w.loc = a) :
    (s.secondRead a .clean).mem = s.mem.writeBlock s.free w ∧ (s.secondRead a .clean).memside.held = []
      ∧ a ∉ (s.secondRead a .clean).memside.pendingUe := by
  rw [secondRead_succeeds (.inl rfl)]
  obtain ⟨hmem, hfree, -, hkeep, hpending, -⟩ := (s.retried a).countTransient_leaves (a := a)
  generalize (s.retried a).countTransient a = u at hmem hfree hkeep hpending
  have hu : u.memside.held = [w] := hkeep.trans hheld
  have hlands : u.landHeld a = (u.modMemside (fun m => { m with held := [] })).land w := by
    have hland : [w].filter (fun x => x.loc == a) = [w] := by simp [hloc]
    have hkept : [w].filter (fun x => x.loc != a) = [] := by simp [hloc]
    unfold landHeld modMemside
    dsimp only
    rw [hu, hland, hkept]
    rfl
  rw [hlands]
  refine ⟨?_, rfl, ?_⟩
  · show u.mem.writeBlock u.free w = _
    rw [hmem, hfree]
    rfl
  · show a ∉ u.memside.pendingUe
    rw [hpending]
    exact not_pending_retried

end

/-! ## The rows -/

/-- The domains that wake leave what the units read. -/
theorem woken_reads (s : State) (a : Nat) : (woken s a 1).retryPending a = s.retryPending a
    ∧ (woken s a 1).settledMem = s.settledMem ∧ (woken s a 1).memside = s.memside ∧ (woken s a 1).mem = s.mem
    ∧ (woken s a 1).free = s.free ∧ (woken s a 1).unitOf a = s.unitOf a ∧ (woken s a 1).memCfg = s.memCfg := by
  rw [woken_frame]
  exact ⟨rfl, rfl, rfl, rfl, rfl, rfl, rfl⟩

theorem corrected_reads (s : State) (a : Nat) : (s.corrected a).retryPending a = s.retryPending a
    ∧ (s.corrected a).settledMem = s.settledMem := by
  unfold corrected countCe
  dsimp only
  split <;> exact ⟨rfl, rfl⟩

section
variable {s : State} {a : Nat} (hpresent : s.present a = true)
include hpresent

theorem memorySide_reset (halive : s.alive = false) (bf : Bool) (batch : AddBatch) (o p : ReadOutcome) :
    exec (.scatterAddBatch a bf batch) s = .next s ∧ exec (.memReadRetry a o) s = .next s
      ∧ exec (.scrubRead a o p) s = .next s ∧ ∀ op, ssuAddr op = a → exec (.ssuOperation op) s = .next s := by
  refine ⟨onBlock_reset hpresent halive _, onBlock_reset hpresent halive _, onBlock_reset hpresent halive _, ?_⟩
  rintro op rfl
  exact onBlock_reset hpresent halive _

variable (halive : s.alive = true) (hreached : Reached s a 1)
include halive hreached

theorem ssuWrite_lands (hpending : s.retryPending a = false) (data : List Byte) (poisoned : Bool) (o : ReadOutcome) :
    exec (.ssuOperation (.write a (BitVec.allOnes 64) data poisoned o)) s
      = .next ((woken s a 1).land { loc := a, mask := 2 ^ 512 - 1, val := leNat data, poison := poisoned }) := by
  refine (onBlock_acts hpresent halive hreached _).trans (congrArg Host.Outcome.next ?_)
  have hwoken := woken_frame s a 1 []
  generalize woken s a 1 = v at hwoken
  unfold ssuOp
  dsimp only
  rw [bytesMask_full, if_pos (beq_self_eq_true _)]
  refine writeBlock_lands v _ ?_
  rw [hwoken]
  exact hpending

section
variable (hpending : s.retryPending a = false)
include hpending

theorem ssuSum_lands (hcured : a ∉ s.memside.uncured) (bf : Bool) (c : List Word32) (poisoned : Bool) :
    exec (.ssuOperation (.sum a bf c poisoned .clean)) s = .next ((woken s a 1).land
      { BlockWr.full a (wordsBlock bf (addWords (blockWords bf (s.settledMem.bytes a 64)) c)) poisoned false with
        merge := true }) := by
  obtain ⟨hretry, hsettled, hside, -⟩ := woken_reads s a
  refine (onBlock_acts hpresent halive hreached _).trans (congrArg Host.Outcome.next ?_)
  show ((woken s a 1).firstRead a .clean).addTo a bf [c] poisoned = _
  rw [firstRead_clean (by rwa [hside]), addTo_lands (hretry.trans hpending), hsettled]
  rfl

theorem ssuSum_corrects (hpoison : s.mem.poisoned a = false) (bf : Bool) (c : List Word32) (poisoned : Bool) :
    exec (.ssuOperation (.sum a bf c poisoned .correctable)) s = .next (((woken s a 1).corrected a).land
      { BlockWr.full a (wordsBlock bf (addWords (blockWords bf (s.settledMem.bytes a 64)) c)) poisoned false with
        merge := true }) := by
  obtain ⟨hretry, hsettled, -, hmem, -⟩ := woken_reads s a
  refine (onBlock_acts hpresent halive hreached _).trans (congrArg Host.Outcome.next ?_)
  show ((woken s a 1).firstRead a .correctable).addTo a bf [c] poisoned = _
  obtain ⟨hpending', hsettled'⟩ := (woken s a 1).corrected_reads a
  rw [firstRead_correctable (by rwa [hmem]) (hretry.trans hpending), addTo_lands (hpending'.trans (hretry.trans hpending)),
    hsettled', hsettled]
  rfl

theorem scatterAdd_lands (hcured : a ∉ s.memside.uncured) (bf : Bool) (batch : AddBatch) (hclean : batch.outcome = .clean) :
    exec (.scatterAddBatch a bf batch) s = .next ((woken s a 1).land
      { BlockWr.full a (wordsBlock bf (addAll (blockWords bf (s.settledMem.bytes a 64)) (batch.contribs.map (fun x => x.1))))
          (batch.contribs.any (fun x => x.2)) false with merge := true }) := by
  obtain ⟨hretry, hsettled, hside, -⟩ := woken_reads s a
  refine (onBlock_acts hpresent halive hreached _).trans (congrArg Host.Outcome.next ?_)
  rw [hclean, firstRead_clean (by rwa [hside]), addTo_lands (hretry.trans hpending), hsettled]

theorem memReadRetry_idle (o : ReadOutcome) : exec (.memReadRetry a o) s = .next (woken s a 1) := by
  obtain ⟨hretry, -⟩ := woken_reads s a
  exact (onBlock_acts hpresent halive hreached _).trans (congrArg Host.Outcome.next (if_neg (by simp [hretry, hpending])))

omit hpending in
theorem scrubRead_clean (hcured : a ∉ s.memside.uncured) (o : ReadOutcome) :
    exec (.scrubRead a .clean o) s = .next (woken s a 1) := by
  obtain ⟨-, -, hside, -⟩ := woken_reads s a
  refine (onBlock_acts hpresent halive hreached _).trans (congrArg Host.Outcome.next ?_)
  split
  · rfl
  · simp [classify, hside, hcured]

variable (hpoison : s.mem.poisoned a = false) (hhours : bits s.memCfg 23 16 ≠ 0)
include hpoison hhours

theorem scrubRead_corrects (o : ReadOutcome) : exec (.scrubRead a .correctable o) s = .next ((woken s a 1).corrected a) := by
  obtain ⟨hretry, -, -, hmem, -, -, hcfg⟩ := woken_reads s a
  exact (onBlock_acts hpresent halive hreached _).trans (congrArg Host.Outcome.next
    (if_neg (by simp [hretry, hpending, hmem, hpoison, hcfg, hhours])))

theorem scrubRead_retries (o : ReadOutcome) :
    exec (.scrubRead a .uncorrectable o) s = .next ((woken s a 1).secondRead a o) := by
  obtain ⟨hretry, -, -, hmem, -, -, hcfg⟩ := woken_reads s a
  exact (onBlock_acts hpresent halive hreached _).trans (congrArg Host.Outcome.next
    (if_neg (by simp [hretry, hpending, hmem, hpoison, hcfg, hhours])))

end

section
variable (hpending : s.retryPending a = true)
include hpending

theorem memReadRetry_reads (o : ReadOutcome) : exec (.memReadRetry a o) s = .next ((woken s a 1).secondRead a o) := by
  obtain ⟨hretry, -⟩ := woken_reads s a
  exact (onBlock_acts hpresent halive hreached _).trans (congrArg Host.Outcome.next (if_pos (hretry.trans hpending)))

theorem ssuWrite_waits (m : BitVec 64) (d : List Byte) (p : Bool) (o : ReadOutcome) :
    exec (.ssuOperation (.write a m d p o)) s
      = .next ((woken s a 1).modMemside (fun x => { x with held := x.held ++ [maskedWrite a m d p] })) := by
  obtain ⟨hretry, -⟩ := woken_reads s a
  have hwait := hretry.trans hpending
  refine (onBlock_acts hpresent halive hreached _).trans (congrArg Host.Outcome.next ?_)
  unfold ssuOp
  dsimp only
  rw [firstRead_pending hwait, ite_self]
  exact writeBlock_held (woken s a 1) (maskedWrite a m d p) hwait

theorem memReadRetry_fails (hheld : ∀ w ∈ s.memside.held, w.loc ≠ a) :
    ∃ t, exec (.memReadRetry a .uncorrectable) s = .next t ∧ (s.mem.isUndef a = false → t.mem.poisoned a = true)
      ∧ (∀ x, t.mem.byte x = s.mem.byte x)
      ∧ (s.memside.logNext < 16 → vget t.memside.log s.memside.logNext none
          = some { ddr := (s.unitOf a).1, unit := (s.unitOf a).2, addr := blockOf a })
      ∧ t.memside.logNext = (s.memside.logNext + 1) % 16 ∧ a ∉ t.memside.pendingUe
      ∧ (∀ n, s.unitOf a = (true, n) → t.memside.ddrUeL = bumpAt s.memside.ddrUeL n
          ∧ t.memside.ddrLasting = s.memside.ddrLasting ||| BitVec.ofNat 12 (2 ^ n)
          ∧ t.memside.hbmUeL = s.memside.hbmUeL ∧ t.memside.hbmLasting = s.memside.hbmLasting)
      ∧ (∀ n, s.unitOf a = (false, n) → t.memside.hbmUeL = bumpAt s.memside.hbmUeL n
          ∧ t.memside.hbmLasting = s.memside.hbmLasting ||| BitVec.ofNat 16 (2 ^ n)
          ∧ t.memside.ddrUeL = s.memside.ddrUeL ∧ t.memside.ddrLasting = s.memside.ddrLasting) := by
  obtain ⟨-, -, hside, hmem, -, hunit, -⟩ := woken_reads s a
  have hexec := memReadRetry_reads hpresent halive hreached hpending .uncorrectable
  rw [secondRead_fails_none (by rwa [hside])] at hexec
  generalize woken s a 1 = v at hexec hside hmem hunit
  obtain ⟨hmark, -, hgone, hlog, hnext, hddr, hhbm⟩ := (v.retried a).lastingError_leaves (a := a)
  have hside' : (v.retried a).memside = { s.memside with
      pendingUe := s.memside.pendingUe.filter (fun x => x != a), uncured := s.memside.uncured.filter (fun x => x != a) } := by
    unfold retried modMemside
    rw [hside]
  have hunit' : (v.retried a).unitOf a = s.unitOf a := hunit
  rw [hside', hunit'] at hlog
  rw [hside'] at hnext hddr hhbm
  rw [hunit'] at hddr hhbm
  refine ⟨_, hexec, fun hdef => ?_, fun x => ?_, hlog, hnext, hgone ▸ not_pending_retried, hddr, hhbm⟩
  · rw [hmark]
    exact Mem.setPoison_poisoned_same (by show v.mem.isUndef a = false; rwa [hmem])
  · rw [hmark, Mem.setPoison_byte]
    show v.mem.byte x = _
    rw [hmem]

theorem memReadRetry_succeeds (hheld : ∀ w ∈ s.memside.held, w.loc ≠ a) {o : ReadOutcome} (ho : o = .clean ∨ o = .correctable) :
    ∃ t, exec (.memReadRetry a o) s = .next t ∧ t.mem = s.mem ∧ t.memside.log = s.memside.log ∧ a ∉ t.memside.pendingUe
      ∧ (∀ n, s.unitOf a = (true, n) → t.memside.ddrUeT = bumpAt s.memside.ddrUeT n ∧ t.memside.hbmUeT = s.memside.hbmUeT)
      ∧ (∀ n, s.unitOf a = (false, n) → t.memside.hbmUeT = bumpAt s.memside.hbmUeT n
        ∧ t.memside.ddrUeT = s.memside.ddrUeT) := by
  obtain ⟨-, -, hside, hmem, -, hunit, -⟩ := woken_reads s a
  have hexec := memReadRetry_reads hpresent halive hreached hpending o
  rw [secondRead_succeeds_none ho (by rwa [hside])] at hexec
  generalize woken s a 1 = v at hexec hside hmem hunit
  obtain ⟨hsame, -, hlog, -, hgone, hddr, hhbm⟩ := (v.retried a).countTransient_leaves (a := a)
  have hside' : (v.retried a).memside = { s.memside with
      pendingUe := s.memside.pendingUe.filter (fun x => x != a), uncured := s.memside.uncured.filter (fun x => x != a) } := by
    unfold retried modMemside
    rw [hside]
  have hunit' : (v.retried a).unitOf a = s.unitOf a := hunit
  rw [hside'] at hlog hddr hhbm
  rw [hunit'] at hddr hhbm
  exact ⟨_, hexec, hsame.trans hmem, hlog, hgone ▸ not_pending_retried, hddr, hhbm⟩

theorem memReadRetry_lands {w : BlockWr} (hheld : s.memside.held = [w]) (hloc : w.loc = a) :
    ∃ t, exec (.memReadRetry a .clean) s = .next t ∧ t.mem = s.mem.writeBlock s.free w ∧ t.memside.held = []
      ∧ a ∉ t.memside.pendingUe := by
  obtain ⟨-, -, hside, hmem, hfree, -⟩ := woken_reads s a
  obtain ⟨hland, hnone, hgone⟩ := (woken s a 1).secondRead_lands (by rwa [hside]) hloc
  exact ⟨_, memReadRetry_reads hpresent halive hreached hpending .clean, by rw [hland, hmem, hfree], hnone, hgone⟩

end

theorem ssuRead_fails (hpoison : s.mem.poisoned a = false) (n : Nat) :
    ∃ t, exec (.ssuOperation (.read a .uncorrectable n)) s = .next t ∧ a ∈ t.memside.pendingUe ∧ t.mem = s.mem := by
  obtain ⟨-, -, -, hmem, -⟩ := woken_reads s a
  obtain ⟨hpend, hsame⟩ := firstRead_uncorrectable (s := woken s a 1) (a := a) (by rwa [hmem])
  refine ⟨_, onBlock_acts hpresent halive hreached _, ?_, ?_⟩
  · show a ∈ (ite _ _ _ : State).memside.pendingUe
    split <;> exact hpend
  · show (ite _ _ _ : State).mem = _
    split <;> exact hsame.trans hmem

theorem scrubRead_fails (hpending : s.retryPending a = false) (hpoison : s.mem.poisoned a = false)
    (hhours : bits s.memCfg 23 16 ≠ 0) (hheld : ∀ w ∈ s.memside.held, w.loc ≠ a) :
    ∃ t, exec (.scrubRead a .uncorrectable .uncorrectable) s = .next t
      ∧ (s.mem.isUndef a = false → t.mem.poisoned a = true) := by
  obtain ⟨-, -, hside, hmem, -⟩ := woken_reads s a
  refine ⟨_, scrubRead_retries hpresent halive hreached hpending hpoison hhours .uncorrectable, fun hdef => ?_⟩
  rw [secondRead_fails_none (by rwa [hside])]
  obtain ⟨hmark, -⟩ := ((woken s a 1).retried a).lastingError_leaves (a := a)
  rw [hmark]
  exact Mem.setPoison_poisoned_same (by show (woken s a 1).mem.isUndef a = false; rwa [hmem])

end

end State

open State

/-- Settles O43: each operation on a block by the reads that it makes of it and the write that lands or waits. -/
theorem memorySideUnitsAct : Obligations.MemorySideUnitsAct := by
  unfold Obligations.MemorySideUnitsAct
  refine ⟨fun s a hpresent halive bf batch o p => memorySide_reset hpresent halive bf batch o p,
    fun s a hpresent halive hreached hpending => ?_, fun s a hpresent halive hreached hpending => ?_,
    fun s a hpresent halive hreached hpoison => ⟨ssuRead_fails hpresent halive hreached hpoison, fun hhours hpending => ?_⟩⟩
  · exact ⟨fun data poisoned o _ => ⟨_, ssuWrite_lands hpresent halive hreached hpending data poisoned o, rfl⟩,
      fun hcured bf c poisoned => ⟨_, ssuSum_lands hpresent halive hreached hpending hcured bf c poisoned, rfl⟩,
      fun hpoison bf c poisoned => ⟨_, _, ssuSum_corrects hpresent halive hreached hpending hpoison bf c poisoned, rfl, rfl⟩,
      fun hcured bf batch hclean => ⟨_, scatterAdd_lands hpresent halive hreached hpending hcured bf batch hclean, rfl⟩,
      memReadRetry_idle hpresent halive hreached hpending⟩
  · exact ⟨fun hheld => ⟨memReadRetry_fails hpresent halive hreached hpending hheld,
        fun o ho => memReadRetry_succeeds hpresent halive hreached hpending hheld ho⟩,
      fun w hheld hloc => memReadRetry_lands hpresent halive hreached hpending hheld hloc,
      fun m d p o => ⟨_, _, ssuWrite_waits hpresent halive hreached hpending m d p o, rfl, rfl, rfl, rfl, rfl⟩⟩
  · exact ⟨scrubRead_fails hpresent halive hreached hpending hpoison hhours,
      scrubRead_clean hpresent halive hreached, scrubRead_corrects hpresent halive hreached hpending hpoison hhours⟩

end Sys2Proof.Machine

/-! PROOFS. Accesses of the host over the link (R362 to R366, R423, R424): register words, memory, and the controls that have rows
of their own. -/

namespace Sys2Proof.Machine

namespace State

section
variable {s : State} (hlink : s.linkUp = true)
include hlink

/-! ## Register words (R364, R365, R423, R424) -/

omit hlink in
/-- An access to a register word has 4 or 8 bytes. -/
theorem regLen {len : Nat} (h : len = 4 ∨ len = 8) : (len != 4 && len != 8) = false := by
  rcases h with rfl | rfl <;> rfl

omit hlink in
theorem badLen {len : Nat} (h4 : len ≠ 4) (h8 : len ≠ 8) : (len != 4 && len != 8) = true := by simp [h4, h8]

theorem cfgWrite_badLen {len : Nat} (h4 : len ≠ 4) (h8 : len ≠ 8) (addr : Nat) (data : Word64) :
    exec (.cfgWr addr len (.write data)) s = .next (s.bump .liustBad) := by
  refine congrArg Host.Outcome.next ?_
  simp only [doCfgWr, hlink, badLen h4 h8]
  rfl

theorem cfgRead_badLen {len : Nat} (h4 : len ≠ 4) (h8 : len ≠ 8) (addr tag : Nat) :
    exec (.cfgWr addr len (.read tag)) s = .next (s.bump .liustBad) := by
  refine congrArg Host.Outcome.next ?_
  simp only [doCfgRd, hlink, badLen h4 h8]
  rfl

theorem cfgWrite_refused {addr len : Nat} (hlen : len = 4 ∨ len = 8) (hnone : s.regOf addr len = none) (data : Word64) :
    exec (.cfgWr addr len (.write data)) s = .next (s.bump .liustHostReject) := by
  refine congrArg Host.Outcome.next ?_
  simp only [doCfgWr, hlink, regLen hlen, hnone]
  rfl

theorem doCfgRd_reads {len : Nat} (hlen : len = 4 ∨ len = 8) (addr tag : Nat) :
    s.doCfgRd tag addr len = (if (s.cfgRead addr len).1 != 0 then s.hostReject else s).sendHost
      (.cfgResp tag (s.cfgRead addr len).1 len (BitVec.ofNat 64 (s.cfgRead addr len).2)) := by
  unfold doCfgRd
  rw [hlink, regLen hlen]
  rfl

theorem cfgRead_refused {addr len : Nat} (hlen : len = 4 ∨ len = 8) (hnone : s.regOf addr len = none) (tag : Nat) :
    ∃ t, exec (.cfgWr addr len (.read tag)) s = .next t ∧ t.ctrs = (s.bump .liustHostReject).ctrs ∧ t.mem = s.mem
      ∧ t.hostTx = s.hostTx ++ [.cfgResp tag 1 len 0#64] := by
  have hread : s.cfgRead addr len = (1, 0) := by
    unfold cfgRead
    rw [hnone]
  have hexec := doCfgRd_reads hlink hlen addr tag
  rw [hread] at hexec
  exact ⟨_, congrArg Host.Outcome.next hexec, rfl, rfl, rfl⟩

theorem cfgRead_answers {addr len : Nat} {r : Reg} (hlen : len = 4 ∨ len = 8) (hreg : s.regOf addr len = some r) (tag : Nat) :
    exec (.cfgWr addr len (.read tag)) s = .next { s with hostTx := s.hostTx ++ [.cfgResp tag 0 len (BitVec.ofNat 64
      (if len = 8 then s.regRead r else if addr % 8 = 4 then bits (s.regRead r) 63 32 else bits (s.regRead r) 31 0))] } := by
  have hread : s.cfgRead addr len
      = (0, if len = 8 then s.regRead r else if addr % 8 = 4 then bits (s.regRead r) 63 32 else bits (s.regRead r) 31 0) := by
    unfold cfgRead
    rw [hreg]
    simp only [beq_iff_eq]
  refine congrArg Host.Outcome.next ((doCfgRd_reads hlink hlen addr tag).trans ?_)
  rw [hread]
  rfl

/-! ## Transactions by their header (R362, R363) -/

theorem raw_unknown {h : BitVec 256} (hty : bits h.toNat 71 64 ∉ [0x01, 0x02, 0x04, 0x05, 0x07, 0x11, 0x13])
    (addr len : Nat) (p : List Byte) : exec (.cfgWr addr len (.raw h p)) s = .next (s.bump .liustBad) := by
  refine congrArg Host.Outcome.next ?_
  show s.doTransaction h p = s.liustBadLen
  unfold doTransaction
  dsimp only
  rw [hlink, if_neg (by decide)]
  split
  case h_8 => rfl
  all_goals next heq => simp [heq] at hty

theorem raw_write {h : BitVec 256} {addr len : Nat} {p : List Byte} (hty : bits h.toNat 71 64 = 0x01)
    (haddr : bits h.toNat 179 128 = addr) (hlen : bits h.toNat 95 83 = len) (hp : p.length = len) (a n : Nat) :
    exec (.cfgWr a n (.raw h p)) s = exec (.cfgWr addr len (.write (BitVec.ofNat 64 (leNat p)))) s := by
  refine congrArg Host.Outcome.next ?_
  show s.doTransaction h p = s.doCfgWr addr len (BitVec.ofNat 64 (leNat p))
  unfold doTransaction
  dsimp only
  rw [hlink, if_neg (by decide), hty, haddr, hlen]
  exact if_pos (by simp [hp])

/-! ## RNG_SEED (R53, R428) -/

omit hlink in
/-- A write of all 8 bytes of a word leaves nothing of what it was. -/
theorem wholeWord (old : Nat) (data : Word64) :
    BitVec.ofNat 64 ((old &&& (low 64 ^^^ (low 32 + at' (low 32) 32))) ||| (data.toNat &&& (low 32 + at' (low 32) 32))) = data := by
  have hmask : low 32 + at' (low 32) 32 = 2 ^ 64 - 1 := by decide
  have hlow : low 64 = 2 ^ 64 - 1 := by decide
  rw [hmask, hlow, Nat.xor_self, Nat.and_zero, Nat.zero_or, Nat.and_two_pow_sub_one_eq_mod, Nat.mod_eq_of_lt data.isLt]
  simp

theorem rngSeed_taken (hservice : s.inService = true) (data : Word64) :
    ∃ t, exec (.cfgWr (csb + 0x18) 8 (.write data)) s = .next t
      ∧ (s.rngBusy = false → t = { s with rngSeed := Rs.mk data data })
      ∧ (s.rngBusy = true → t = { s with
          rngSeed := { s.rngSeed with shadow := data }, cfgLate := { s.cfgLate with rng := true } }) := by
  have hreg : s.regOf (csb + 0x18) 8 = some .rngSeed := by
    have hat : regAt ((csb + 0x18 - csb) / 8 * 8) = some .rngSeed := by decide +kernel
    have hin : (decide (csb ≤ csb + 0x18) && (csb + 0x18) % 8 == 0) = true := by decide +kernel
    unfold regOf
    rw [if_pos hin, hat]
    simp [hservice]
  have hexec : s.doCfgWr (csb + 0x18) 8 data = s.writeSeed data := by
    unfold doCfgWr
    rw [hlink, hreg]
    show s.writeSeed (BitVec.ofNat 64 ((s.rngSeed.shadow.toNat &&& (low 64 ^^^ (low 32 + at' (low 32) 32)))
      ||| (data.toNat &&& (low 32 + at' (low 32) 32)))) = _
    rw [wholeWord]
  rw [writeSeed_eq] at hexec
  refine ⟨_, congrArg Host.Outcome.next hexec, fun hfree => ?_, fun hbusy => ?_⟩
  · rw [hfree]
    rfl
  · rw [hbusy]
    rfl

/-! ## Memory (R362 to R364) -/

theorem hostWr_badLen {data : List Byte} (hlen : hostLen data.length = false) (addr hctx : Nat) (poison : Word64) :
    exec (.hostWr addr hctx data poison) s = .next (s.bump .liustBad) := by
  refine congrArg Host.Outcome.next ?_
  simp only [doHostWr, hlink, hlen]
  rfl

section
variable {addr hctx : Nat} {data : List Byte} (hlen : hostLen data.length = true)
include hlen

theorem hostWr_refused (hst : s.hostStatus addr data.length hctx true ≠ 0) (poison : Word64) :
    exec (.hostWr addr hctx data poison) s = .next (s.bump .liustHostReject) := by
  refine congrArg Host.Outcome.next ?_
  simp only [doHostWr, hlink, hlen, bne_iff_ne.2 hst]
  rfl

theorem hostWr_stores (hst : s.hostStatus addr data.length hctx true = 0) (hreached : Reached s addr data.length [4])
    (poison : Word64) : ∃ t, exec (.hostWr addr hctx data poison) s = .next t
      ∧ t = (woken s addr data.length [4]).writeBlocks (blockWrites addr data poison.toNat)
      ∧ ∀ a, a < addr ∨ addr + data.length ≤ a → t.mem.byte a = s.mem.byte a := by
  have hexec : s.doHostWr addr hctx data poison
      = (woken s addr data.length [4]).writeBlocks (blockWrites addr data poison.toNat) := by
    rw [← access_reached (fun s => s.writeBlocks (blockWrites addr data poison.toNat)) hreached]
    simp [doHostWr, hlink, hlen, hst]
  have hblocks : data.length % 64 = 0 := by
    unfold hostLen at hlen
    simp only [Bool.and_eq_true, beq_iff_eq] at hlen
    exact hlen.2
  refine ⟨_, congrArg Host.Outcome.next hexec, rfl, fun a ha => ?_⟩
  rw [writeBlocks_blockWrites_byte hblocks ha, woken_frame]

end

theorem hostRd_badLen {len : Nat} (hlen : hostLen len = false) (tag addr hctx : Nat) :
    exec (.hostRd tag addr len hctx) s = .next (s.bump .liustBad) := by
  refine congrArg Host.Outcome.next ?_
  simp only [doHostRd, hlink, hlen]
  rfl

/-- The answer of an allowed read. -/
def answerRd (tag addr len : Nat) (s : State) : State :=
  s.sendHost (.hostResp tag 0 (s.mem.bytes addr len) (BitVec.ofNat 64 (s.poisonBits addr (len / 64))))

theorem hostRd_answers {len : Nat} (hlen : hostLen len = true) (tag addr hctx : Nat) :
    ∃ t, exec (.hostRd tag addr len hctx) s = .next t ∧ t.mem = s.mem
      ∧ (s.hostStatus addr len hctx false = 0 → Reached s addr len [4] → t.ctrs = s.ctrs ∧ t.hostTx = s.hostTx
          ++ [.hostResp tag 0 (s.mem.bytes addr len) (BitVec.ofNat 64 (s.poisonBits addr (len / 64)))])
      ∧ (s.hostStatus addr len hctx false ≠ 0 → t.ctrs = (s.bump .liustHostReject).ctrs ∧ t.hostTx = s.hostTx
          ++ [.hostResp tag (s.hostStatus addr len hctx false) (List.replicate len 0#8) 0#64]) := by
  by_cases hst : s.hostStatus addr len hctx false = 0
  · have hexec : s.doHostRd tag addr len hctx = s.access [4] addr len (answerRd tag addr len) := by
      simp only [doHostRd, hlink, hlen, hst]
      rfl
    have hwoken := woken_frame s addr len [4]
    refine ⟨_, congrArg Host.Outcome.next hexec, ?_, fun _ hreached => ?_, fun hne => absurd hst hne⟩
    · by_cases hreached : Reached s addr len [4]
      · rw [access_reached _ hreached, hwoken]
        rfl
      · rw [access_waits _ hreached, hwoken]
    · rw [access_reached _ hreached, hwoken]
      exact ⟨rfl, rfl⟩
  · have hexec : s.doHostRd tag addr len hctx = s.hostReject.sendHost
        (.hostResp tag (s.hostStatus addr len hctx false) (List.replicate len 0#8) 0#64) := by
      simp only [doHostRd, hlink, hlen, bne_iff_ne.2 hst]
      rfl
    exact ⟨_, congrArg Host.Outcome.next hexec, rfl, fun h => absurd h hst, fun _ => ⟨rfl, rfl⟩⟩

/-! ## PASS_SWAP, PEER_LOAD and REC_CTRL (R312, R327, R446, R455) -/

omit hlink in
theorem flushQueue_empty (h : s.fabric.queued = []) : s.flushQueue = s := by
  have hage : s.ageOut = s := by simp [ageOut, h]
  unfold flushQueue
  dsimp only
  rw [hage, h]
  show s.modFabric (fun f => { f with queued := f.queued.filter _ }) = s
  unfold modFabric
  dsimp only
  rw [h]
  show { s with fabric := { s.fabric with queued := [] } } = s
  rw [← h]

theorem hostUp_of_inService (hservice : s.inService = true) : s.hostUp = true := by simp [hostUp, hlink, hservice]

theorem passSwap_swaps (hservice : s.inService = true) : ∃ t, exec .passSwap s = .next t
    ∧ (s.passSrc = false → t = s)
    ∧ (s.passSrc = true → s.fabric.queued = [] →
        t = s.modFabric (fun f => { f with inForce := f.shadow, shadow := f.inForce })) := by
  have hup := hostUp_of_inService hlink hservice
  refine ⟨s.doPassSwap, congrArg Host.Outcome.next (atHost_up hup), fun hsrc => ?_, fun hsrc hnone => ?_⟩
  · simp [doPassSwap, hsrc]
  · have hswap : s.doPassSwap = (s.modFabric (fun f => { f with inForce := f.shadow, shadow := f.inForce })).flushQueue := by
      simp [doPassSwap, hup, hsrc]
    rw [hswap]
    exact flushQueue_empty hnone

theorem passSwap_refused (hservice : s.inService = false) : exec .passSwap s = .next (s.bump .liustHostReject) := by
  refine congrArg Host.Outcome.next ?_
  simp [atHost, hlink, hservice, hostReject]

theorem peerLoad_ends (hservice : s.inService = true) (hrun : s.referee.state = .running) :
    ∃ t, exec .peerLoadGo s = .next t ∧ t.mem = s.mem
      ∧ t.referee.peerResult =
          (if s.allows 0 s.referee.peerAddr 3796 true false && certOk (s.mem.bytes s.referee.peerAddr 3796) then 2 else 3)
      ∧ (t.referee.peerResult = 3 → t.referee.peers = s.referee.peers) := by
  refine ⟨s.doPeerLoad, congrArg Host.Outcome.next (atHost_up (hostUp_of_inService hlink hservice)), ?_⟩
  unfold doPeerLoad
  rw [hrun, if_neg (by decide)]
  dsimp only
  split
  · exact ⟨rfl, rfl, fun h => absurd h (show ¬ (2 : Nat) = 3 by decide)⟩
  · exact ⟨rfl, rfl, fun _ => rfl⟩

theorem recCtrl_asks : ∃ t, exec .recCtrlGo s = .next t
    ∧ ((s.referee.state ≠ .recovery ∨ s.referee.recState = 1) → t = s)
    ∧ (s.referee.state = .recovery → s.referee.recState ≠ 1 → t.referee.recState = 1 ∧ t.referee.flash = s.referee.flash
      ∧ t.mem = s.mem ∧ ∃ tag, t.hostTx = s.hostTx ++ [.dmaRd tag s.referee.recAddr.toNat 4096]) := by
  refine ⟨s.doRecGo, rfl, fun hidle => if_pos ?_, fun hrec hnot => ?_⟩
  · rcases hidle with h | h <;> simp [h]
  · have hexec : s.doRecGo = (s.modReferee (fun r => { r with recState := 1, recManifest := [], recBody := [] })).recAsk 0 :=
      if_neg (by simp [hlink, hrec, hnot])
    rw [hexec]
    exact ⟨rfl, rfl, rfl, _, rfl⟩

end

end State

open State

/-- Settles O46: each access by its length, its target and what the target's checks say. -/
theorem hostAccessesAct : Obligations.HostAccessesAct := by
  unfold Obligations.HostAccessesAct
  intro s hlink
  exact ⟨fun addr len data h4 h8 => cfgWrite_badLen hlink h4 h8 addr data,
    fun addr len tag h4 h8 => cfgRead_badLen hlink h4 h8 addr tag,
    fun addr len data hlen hnone => cfgWrite_refused hlink hlen hnone data,
    fun addr len tag hlen hnone => cfgRead_refused hlink hlen hnone tag,
    fun addr len tag r hlen hreg => cfgRead_answers hlink hlen hreg tag,
    fun addr len h p hty => raw_unknown hlink hty addr len p,
    fun a n addr len h p hty haddr hlen hp => raw_write hlink hty haddr hlen hp a n,
    fun data hservice => rngSeed_taken hlink hservice data,
    fun addr hctx data poison hlen => hostWr_badLen hlink hlen addr hctx poison,
    fun addr hctx data poison hlen hst => hostWr_refused hlink hlen hst poison,
    fun addr hctx data poison hlen hst hreached => hostWr_stores hlink hlen hst hreached poison,
    fun tag addr len hctx hlen => hostRd_badLen hlink hlen tag addr hctx,
    fun tag addr len hctx hlen => hostRd_answers hlink hlen tag addr hctx,
    fun hservice => ⟨passSwap_swaps hlink hservice, peerLoad_ends hlink hservice⟩,
    passSwap_refused hlink, recCtrl_asks hlink⟩

end Sys2Proof.Machine

/-! PROOFS. The Liust link and the fabric ports train, fail and come up (R288 to R292, R357 to R361, R532). -/

namespace Sys2Proof.Machine

namespace State

/-! ## The Liust link -/

section
variable {s : State}

theorem liustFlit_lasts (hlink : s.linkUp = true) : ∃ t, exec (.liustFlitError false) s = .next t
    ∧ t.liust.state = .retraining ∧ t.liust.lasting = true
    ∧ t.liust.retrains = min (s.liust.retrains + 1) 255 ∧ t.liust.dmas = s.liust.dmas
    ∧ t.ctr .liustFlitLasting = satAdd (s.ctr .liustFlitLasting) 1 ∧ t.ctr .liustRetrain = satAdd (s.ctr .liustRetrain) 1
    ∧ t.mem = s.mem ∧ t.cmds = s.cmds := by
  have hexec : s.doLiustFlit false = ((s.bump .liustFlitLasting).bump .liustRetrain).modLiust (fun l => { l with
      state := .retraining, lasting := true, retrains := satTo 8 (l.retrains + 1) }) := by
    simp [doLiustFlit, hlink]
  have hretrain : (s.bump .liustFlitLasting).ctr .liustRetrain = s.ctr .liustRetrain :=
    s.ctr_bump_other (c := .liustFlitLasting) (d := .liustRetrain) 1 (by decide)
  have hlasting : ((s.bump .liustFlitLasting).bump .liustRetrain).ctr .liustFlitLasting
      = (s.bump .liustFlitLasting).ctr .liustFlitLasting :=
    ctr_bump_other (c := .liustRetrain) (d := .liustFlitLasting) (s.bump .liustFlitLasting) 1 (by decide)
  refine ⟨_, congrArg Host.Outcome.next hexec, rfl, rfl, rfl, rfl, hlasting.trans (s.ctr_bump_same .liustFlitLasting 1), ?_,
    rfl, rfl⟩
  exact ((s.bump .liustFlitLasting).ctr_bump_same .liustRetrain 1).trans (congrArg (satAdd · 1) hretrain)

/-- A link that is lost with nothing outstanding and no save ends no command. -/
theorem linkLost_idle (hdmas : s.liust.dmas = []) (hsave : s.save.holder = none) :
    s.linkLost = { s with liust := { s.liust with state := .down, width := 0, linkDown := true } } := by
  unfold linkLost modLiust
  dsimp only
  rw [hdmas, hsave]
  show { s with liust := { s.liust with state := .down, width := 0, linkDown := true, dmas := [] } } = _
  rw [← hdmas]

theorem flushAll_none (h : ∀ n < 64, (s.cq n).done = []) : s.flushAll = s := by
  refine foldl_same fun n hn => ?_
  rw [h n (List.mem_range.mp hn)]
  rfl

theorem linkUp_comes {w : LiustWidth} (halive : s.alive = true) (hdomain : (s.domain 0x40).st = .active)
    (hcable : s.liust.cable = true) (hst : s.liust.state = .training) (hdone : ∀ n < 64, (s.cq n).done = []) :
    exec (.liustLinkUp w) s = .next { s with liust := { s.liust with state := .up, width := widthCode w } } := by
  have hdown : s.linkUp = false := by simp [linkUp, hst]
  have hcan : s.linkCanTrain = true := by simp [linkCanTrain, halive, hdomain, hcable]
  refine congrArg Host.Outcome.next ((if_pos (by simp [hcan, hdown])).trans ?_)
  exact flushAll_none (s := s.modLiust (fun l => { l with state := .up, width := widthCode w })) hdone

theorem link_trains (halive : s.alive = true) (hdomain : (s.domain 0x40).st = .active) (hcable : s.liust.cable = true)
    (hst : s.liust.state = .down) :
    exec .liustTrainingRetry s = .next { s with liust := { s.liust with state := .training } } := by
  have hcan : s.linkCanTrain = true := by simp [linkCanTrain, halive, hdomain, hcable]
  refine congrArg Host.Outcome.next ((if_pos hcan).trans ?_)
  simp [trainLink, modLiust, hst, hcable]

/-! ## The fabric ports -/

/-- A port comes up with its width. -/
def Port.comesUp (four : Bool) (p : Port) : Port := { p with state := .up, width := if four then 2 else 1, missed := 0 }

theorem port_modPort_same {n : Nat} (f : Port → Port) (hn : n < 48) : (s.modPort n f).port n = f (s.port n) :=
  vget_vmod_same _ _ _ _ hn

theorem port_modPort_other {n m : Nat} (f : Port → Port) (hm : m ≠ n) : (s.modPort n f).port m = s.port m :=
  vget_vmod_other _ _ _ _ _ hm

/-- A domain that does not sleep is touched without effect. -/
theorem touch_awake {c : Nat} (h : s.awake c = true) : s.touch c = s := by
  unfold awake at h
  unfold touch
  dsimp only
  refine if_pos ?_
  cases hst : (s.domain c).st <;> simp [hst] at h ⊢

/-- The way of a management packet that is open is open for it as it is. -/
theorem touchAll_open {n : Nat} (h : s.linksOpen (mgmtLinks n) = true) : s.touchAll (linkDomains (mgmtLinks n)) = s := by
  unfold linksOpen at h
  rw [Bool.and_eq_true, List.all_eq_true, List.all_eq_true] at h
  exact foldl_same fun c hc => touch_awake (h.2 c hc)

theorem sendMgmt_open {n : Nat} (h : s.linksOpen (mgmtLinks n) = true) (t : PktType) (m : Mgmt) :
    s.sendMgmt n t m = (s.sendFab (.mgmt n t m)).modFabric (fun f => { f with
      resend := f.resend.filter (fun (x : Nat × PktType × Mgmt) =>
        !(x.1 == n && x.2.1 == t && x.2.2.origin == m.origin && (x.2.2.seq != m.seq || x.2.2.part == m.part))) ++ [(n, t, m)] }) := by
  unfold sendMgmt
  rw [touchAll_open h]
  simp [h]

theorem vmod_vmod {α : Type} {k : Nat} (v : Vector α k) (i : Nat) (f g : α → α) :
    vmod (vmod v i f) i g = vmod v i (fun x => g (f x)) := by
  unfold vmod
  split
  · simp
  · rfl

section
variable {n : Nat} (hn : n < 48)
include hn

omit hn in
theorem fabFlit_replays (hup : (s.port n).state = .up) : ∃ t, exec (.fabFlitError n true) s = .next t
    ∧ t.ctr .fabFlitRetry = satAdd (s.ctr .fabFlitRetry) 1 ∧ t.fabric = s.fabric ∧ t.mem = s.mem := by
  have hexec : s.doFlitError n true
      = (s.bump .fabFlitRetry).modScout (fun v => { v with pend := { v.pend with retry := v.pend.retry + 1 } }) := by
    simp [doFlitError, hup]
  exact ⟨_, congrArg Host.Outcome.next hexec, s.ctr_bump_same .fabFlitRetry 1, rfl, rfl⟩

theorem fabFlit_lasts (hup : (s.port n).state = .up) : ∃ t, exec (.fabFlitError n false) s = .next t
    ∧ t.port n = { s.port n with state := .retraining, lasting := true, retrains := min ((s.port n).retrains + 1) 255 }
    ∧ t.ctr .fabFlitLasting = satAdd (s.ctr .fabFlitLasting) 1 ∧ t.ctr .fabRetrain = satAdd (s.ctr .fabRetrain) 1
    ∧ (∀ m, m ≠ n → t.port m = s.port m) ∧ t.mem = s.mem := by
  generalize hu : ((s.bump .fabFlitLasting).bump .fabRetrain).modScout (fun v => { v with
    pend := { v.pend with flit := v.pend.flit + 2 } }) = u
  have hexec : s.doFlitError n false
      = u.modPort n (fun p => { p with state := .retraining, lasting := true, retrains := satTo 8 (p.retrains + 1) }) := by
    rw [← hu]
    simp [doFlitError, hup]
  have hport (m : Nat) : u.port m = s.port m := by rw [← hu]; rfl
  have hretrain : (s.bump .fabFlitLasting).ctr .fabRetrain = s.ctr .fabRetrain :=
    s.ctr_bump_other (c := .fabFlitLasting) (d := .fabRetrain) 1 (by decide)
  have hlasting : ((s.bump .fabFlitLasting).bump .fabRetrain).ctr .fabFlitLasting
      = (s.bump .fabFlitLasting).ctr .fabFlitLasting :=
    ctr_bump_other (c := .fabRetrain) (d := .fabFlitLasting) (s.bump .fabFlitLasting) 1 (by decide)
  refine ⟨_, congrArg Host.Outcome.next hexec, ?_, ?_, ?_, fun m hm => ?_, ?_⟩
  · rw [port_modPort_same _ hn, hport]
    rfl
  · refine Eq.trans ?_ (hlasting.trans (s.ctr_bump_same .fabFlitLasting 1))
    rw [← hu]
    rfl
  · refine Eq.trans ?_ (((s.bump .fabFlitLasting).ctr_bump_same .fabRetrain 1).trans (congrArg (satAdd · 1) hretrain))
    rw [← hu]
    rfl
  · rw [port_modPort_other _ hm, hport]
  · rw [← hu]
    rfl

omit hn in
theorem portDown_falls : ∃ t, exec (.fabPortDown n) s = .next t
    ∧ ((s.port n).state = .retraining → s.fabric.queued = [] →
        t = s.modPort n (fun p => { p with state := .down, width := 0 }))
    ∧ ((s.port n).state = .training → t = s.modPort n (fun p => { p with state := .disabled, width := 0 })) := by
  refine ⟨s.doPortDown n, rfl, fun hst hnone => ?_, fun hst => ?_⟩
  · unfold doPortDown
    rw [hst]
    exact flushQueue_empty (s := s.modPort n _) hnone
  · unfold doPortDown
    rw [hst]

omit hn in
theorem port_trains (hst : (s.port n).state = .down ∨ (s.port n).state = .disabled) (hon : s.fabOn = true)
    (hcable : (s.port n).cable = true) (hpower : s.portPowered n = true) :
    exec (.fabPortTrainingRetry n) s = .next (s.modPort n (fun p => { p with state := .training, width := 0 })) := by
  refine congrArg Host.Outcome.next ?_
  rcases hst with h | h <;> simp [doPortRetry, h, hon, trainPort, hcable, hpower]

omit hn in
theorem portUp_retrained (hst : (s.port n).state = .retraining) (hnone : s.fabric.queued = []) (four : Bool) :
    exec (.fabPortUp n four) s
      = .next (s.modPort n (fun p => { p with state := .up, width := if four then 2 else 1, missed := 0 })) := by
  refine congrArg Host.Outcome.next ?_
  unfold doPortUp
  dsimp only
  rw [hst]
  exact flushQueue_empty (s := s.modPort n _) hnone

theorem portUp_trained (hst : (s.port n).state = .training) (hon : s.fabOn = true) (hnone : s.fabric.queued = [])
    (hopen : s.linksOpen (mgmtLinks n) = true) (four : Bool) :
    ∃ t m, exec (.fabPortUp n four) s = .next t ∧ t.port n = { s.port n with
        state := .up, width := (if four then 2 else 1), missed := 0 }
      ∧ t.fabTx = s.fabTx ++ [.mgmt n .hello m] ∧ m.seq = s.fabric.roster.epoch ∧ m.origin = s.fabric.moduleId
      ∧ t.mem = s.mem := by
  generalize hu : s.modPort n (Port.comesUp four) = u
  have hexec : s.doPortUp n four = (u.sendHello n).flushQueue := by
    unfold doPortUp
    dsimp only
    rw [hst, ← hu]
    exact if_pos hon
  have hopen' : u.linksOpen (mgmtLinks n) = true := by rw [← hu]; exact hopen
  obtain ⟨m, hm, hseq, horigin⟩ : ∃ m : Mgmt, u.sendHello n = u.sendMgmt n .hello m ∧ m.seq = u.fabric.roster.epoch
    ∧ m.origin = u.moduleId := ⟨_, rfl, rfl, rfl⟩
  have hqueue : (u.sendHello n).fabric.queued = [] := by
    rw [hm, sendMgmt_open hopen', ← hu]
    exact hnone
  rw [flushQueue_empty hqueue, hm, sendMgmt_open hopen'] at hexec
  refine ⟨_, m, congrArg Host.Outcome.next hexec, ?_, ?_, ?_, ?_, ?_⟩
  · show u.port n = _
    rw [← hu, port_modPort_same _ hn]
    rfl
  · rw [← hu]
    rfl
  · rw [hseq, ← hu]
    rfl
  · rw [horigin, ← hu]
    rfl
  · rw [← hu]
    rfl

omit hn in
theorem cable_removed (hnone : s.fabric.queued = []) : exec (.cableChange (.fabric n) false) s
    = .next (s.modPort n (fun p => { p with cable := false, state := .down, width := 0 })) := by
  refine congrArg Host.Outcome.next ?_
  refine (flushQueue_empty (s := (s.modPort n _).modPort n _) hnone).trans ?_
  unfold modPort modFabric
  dsimp only
  rw [vmod_vmod]

end

theorem liustCable_removed (hst : s.liust.state = .down) :
    exec (.cableChange .liust false) s = .next { s with liust := { s.liust with cable := false } } := by
  refine congrArg Host.Outcome.next ?_
  simp [liustCable, hst, modLiust]

end

end State

open State

/-- Settles O50: the link and each port by the state in which an event finds them. -/
theorem linksTrainAndFail : Obligations.LinksTrainAndFail := by
  unfold Obligations.LinksTrainAndFail
  intro s
  refine ⟨fun hlink => ⟨?_, liustFlit_lasts hlink⟩, fun hst hdmas hsave => ?_, fun hst => ?_, link_trains,
    fun w halive hdomain hcable hst hdone => ?_, fun n hn => ⟨fun hup => ⟨fabFlit_replays hup, fabFlit_lasts hn hup⟩,
      portDown_falls, port_trains, portUp_retrained, portUp_trained hn, cable_removed⟩, liustCable_removed⟩
  · refine congrArg Host.Outcome.next ?_
    simp [doLiustFlit, hlink]
  · refine ⟨_, congrArg Host.Outcome.next ?_, rfl⟩
    unfold doLinkDown
    rw [hst]
    exact linkLost_idle hdmas hsave
  · refine congrArg Host.Outcome.next ?_
    unfold doLinkDown
    rw [hst]
    rfl
  · rw [linkUp_comes halive hdomain hcable hst hdone]
    cases w <;> rfl

end Sys2Proof.Machine

/-! PROOFS. INSTALL on a member whose port records a far port number that a LINK_REPORT cannot hold (R308, R310). -/

namespace Sys2Proof.Machine

/-- INSTALL as the member takes it: the roster, its links reported, and the acknowledgement. -/
theorem exec_install (n : Nat) (m : Mgmt) (s : State) : exec (.install n m) s = .next (s.mgmtIn n .install m (fun s b =>
    if s.isMember && (Roster.ofBytes m.seq b).isPresent s.moduleId then
      (((s.takeRoster (Roster.ofBytes m.seq b)).reportUnlisted).modFabric (fun f => { f with reoriented := true })).originate
        .installAck m.seq m.origin []
    else s.takeRoster (Roster.ofBytes m.seq b))) := rfl

theorem rosterFromCaptain_comesToInstall : MgmtComes farPort64 0 .install rosterFromCaptain := by
  refine ⟨rfl, ?_, ?_, ?_, rfl, rfl, ?_, rfl, fun _ => ?_⟩ <;> decide +kernel

/-- The report that follows the roster names a lost link, and module 2 publishes an epoch of its own. -/
theorem farPort64_publishesAtInstall :
    ∃ t, exec (.install 0 rosterFromCaptain) farPort64 = .next t ∧ t.fabric.roster.epoch = 3 :=
  ⟨_, exec_install .., by decide +kernel⟩

end Sys2Proof.Machine

namespace Sys2Proof

open Machine

/-- Refutes O53, by its clause of INSTALL, as O52 by its clause of ROSTER: the statement speaks of every `State`, also of one
whose port records a far port number beyond 6 bits. The report that follows the roster carries the rest of that number into
another field, and ends with another roster in force. No command leads to such a port, as a HELLO records 6 bits. -/
theorem not_reorientationRunsItsPhases : ¬ Obligations.ReorientationRunsItsPhases := by
  intro h
  obtain ⟨-, -, -, -, hinstall, -⟩ := h farPort64 0 rosterFromCaptain (by decide)
  obtain ⟨t, hexec, htaken, -⟩ := hinstall rosterFromCaptain_comesToInstall rfl (by decide +kernel) (by decide +kernel)
    (by decide +kernel)
  obtain ⟨u, hexec', hepoch⟩ := farPort64_publishesAtInstall
  obtain rfl := Host.Outcome.next.inj (hexec'.symm.trans hexec)
  rw [htaken] at hepoch
  exact absurd hepoch (by decide +kernel)

end Sys2Proof

/-! PROOFS. Management messages (R302, R309): what sending one leaves, which ports it goes out on, and what a packet that waits
leaves when the queue is looked at again. -/

namespace Sys2Proof.Machine

namespace State

/-! ## Dies that wake -/

/-- A domain that is touched sleeps no more, and no other domain goes to sleep. -/
theorem awake_touch {s : State} {c : Nat} (d : Nat) (h : s.awake c = true) : (s.touch d).awake c = true := by
  have hdomain (u : State) (x m : Nat) : ((u.modDomain x (fun y => { y with
      st := if y.st == .nap || y.st == .entering then DomSt.active else y.st })).domain m).st = (u.domain m).st
    ∨ (((u.domain m).st = .nap ∨ (u.domain m).st = .entering) ∧ ((u.modDomain x (fun y => { y with
      st := if y.st == .nap || y.st == .entering then DomSt.active else y.st })).domain m).st = .active) := by
    rcases domain_modDomain u x m (fun y => { y with
      st := if y.st == .nap || y.st == .entering then DomSt.active else y.st }) with hm | hm
    · exact .inl (congrArg Domain.st hm)
    · rw [hm]
      dsimp only
      split
      · next hsleep => exact .inr ⟨by simpa using hsleep, rfl⟩
      · exact .inl rfl
  have hkeeps (u : State) (x : Nat) (hu : u.awake c = true) : (u.modDomain x (fun y => { y with
      st := if y.st == .nap || y.st == .entering then DomSt.active else y.st })).awake c = true := by
    have hc := hdomain u x c
    have hp := hdomain u x (parentOf c)
    unfold awake at hu ⊢
    generalize State.modDomain u x _ = v at hc hp
    rcases hc with hc | ⟨hsleep, hc⟩
    · rw [hc]
      cases hst : (u.domain c).st <;> simp only [hst] at hu ⊢
      all_goals try exact hu
      rcases hp with hp | ⟨-, hp⟩
      · rw [hp]
        exact hu
      · rw [hp]
        rfl
    · rw [hc]
  unfold touch
  dsimp only
  split
  · exact h
  · exact hkeeps _ _ (hkeeps _ _ h)

theorem linksOpen_touchAll {s : State} {l : List (Nat × Nat)} (ds : List Nat) (h : s.linksOpen l = true) :
    (s.touchAll ds).linksOpen l = true := by
  refine foldl_keeps (p := fun (t : State) => t.linksOpen l = true) (fun t d ht => ?_) ds h
  have hdown : (t.touch d).errors = t.errors := by rw [touch_frame]
  unfold linksOpen at ht ⊢
  rw [hdown]
  rw [Bool.and_eq_true, List.all_eq_true, List.all_eq_true] at ht ⊢
  exact ⟨ht.1, fun c hc => awake_touch d (ht.2 c hc)⟩

/-! ## One message -/

/-- Management traffic leaves all but the domains on its way, the packets sent, and what its ports keep of it. -/
def OnlySends (s t : State) : Prop := t = { s with
  power := { s.power with domains := t.power.domains }, fabTx := t.fabTx
  fabric := { s.fabric with forwarded := t.fabric.forwarded, resend := t.fabric.resend } }

theorem OnlySends.refl (s : State) : OnlySends s s := rfl

theorem OnlySends.trans {s t u : State} (h : OnlySends s t) (h' : OnlySends t u) : OnlySends s u := by
  unfold OnlySends at h h' ⊢
  rw [h', h]

/-- Nothing that was sent is taken back, and every way that was open is open still. -/
structure SendsMore (s t : State) : Prop where
  only : OnlySends s t
  sent : ∀ x ∈ s.fabTx, x ∈ t.fabTx
  links : ∀ l, s.linksOpen l = true → t.linksOpen l = true

theorem SendsMore.refl (s : State) : SendsMore s s := ⟨.refl s, fun _ => id, fun _ => id⟩

theorem SendsMore.trans {s t u : State} (h : SendsMore s t) (h' : SendsMore t u) : SendsMore s u :=
  ⟨h.only.trans h'.only, fun x hx => h'.sent x (h.sent x hx), fun l hl => h'.links l (h.links l hl)⟩

theorem SendsMore.port {s t : State} (h : SendsMore s t) (n : Nat) : t.port n = s.port n := by
  rw [h.only]
  rfl

theorem sendMgmt_sendsMore (s : State) (n : Nat) (t : PktType) (m : Mgmt) : SendsMore s (s.sendMgmt n t m) := by
  have hframe := touchAll_frame s (linkDomains (mgmtLinks n))
  have hlinks := fun l => linksOpen_touchAll (s := s) (l := l) (linkDomains (mgmtLinks n))
  unfold sendMgmt
  dsimp only
  generalize s.touchAll (linkDomains (mgmtLinks n)) = u at hframe hlinks
  split
  · exact ⟨by rw [hframe]; rfl, fun x hx => by rw [hframe]; exact hx, hlinks⟩
  · refine ⟨by rw [hframe]; rfl, fun x hx => ?_, hlinks⟩
    rw [hframe]
    exact List.mem_append_left _ hx

theorem sendMgmt_sends {s : State} {n : Nat} (h : s.linksOpen (mgmtLinks n) = true) (t : PktType) (m : Mgmt) :
    .mgmt n t m ∈ (s.sendMgmt n t m).fabTx := by
  rw [sendMgmt_open h]
  exact List.mem_append_right _ List.mem_cons_self

/-! ## A message on every port -/

theorem foldl_sendMgmt_sendsMore (s : State) (t : PktType) (m : Mgmt) (l : List Nat) :
    SendsMore s (l.foldl (fun (s : State) n => s.sendMgmt n t m) s) :=
  foldl_keeps (p := SendsMore s) (fun u n hu => hu.trans (u.sendMgmt_sendsMore n t m)) l (.refl s)

theorem foldl_sendMgmt_sends {s : State} {k : Nat} {l : List Nat} (hk : k ∈ l) (h : s.linksOpen (mgmtLinks k) = true)
    (t : PktType) (m : Mgmt) : .mgmt k t m ∈ (l.foldl (fun (s : State) n => s.sendMgmt n t m) s).fabTx := by
  induction l generalizing s with
  | nil => simp at hk
  | cons n r ih =>
    rcases List.mem_cons.mp hk with rfl | hr
    · exact (foldl_sendMgmt_sendsMore _ t m r).sent _ (sendMgmt_sends h t m)
    · exact ih hr ((s.sendMgmt_sendsMore n t m).links _ h)

theorem flood_sendsMore (s : State) (t : PktType) (m : Mgmt) (skip : Option Nat) : SendsMore s (s.flood t m skip) := by
  unfold flood
  dsimp only
  refine SendsMore.trans ?_ (foldl_sendMgmt_sendsMore _ t m _)
  exact ⟨rfl, fun _ => id, fun _ => id⟩

theorem mem_upPorts {s : State} {k : Nat} (hk : k < 48) (hup : (s.port k).state = .up) : k ∈ s.upPorts :=
  List.mem_filter.2 ⟨List.mem_range.2 hk, by simp [hup]⟩

theorem flood_sends {s : State} {k : Nat} (hk : k < 48) (hup : (s.port k).state = .up)
    (h : s.linksOpen (mgmtLinks k) = true) (t : PktType) (m : Mgmt) : .mgmt k t m ∈ (s.flood t m none).fabTx :=
  foldl_sendMgmt_sends (s := s.modFabric (fun f => { f with forwarded := (t, m.origin, m.seq, m.part) :: f.forwarded }))
    (List.mem_filter.2 ⟨mem_upPorts hk hup, by simp⟩) h t m

/-! ## A message of this module -/

theorem originate_sendsMore (s : State) (t : PktType) (seq target : Nat) (payload : List Byte) :
    SendsMore s (s.originate t seq target payload) := by
  unfold originate
  dsimp only
  exact foldl_keeps (p := SendsMore s) (fun u p hu => hu.trans (u.flood_sendsMore ..)) _ (.refl s)

/-- A message that fits in one packet goes out as it is. -/
theorem originate_one (s : State) (t : PktType) (seq target : Nat) {payload : List Byte} (h : payload.length ≤ 4080) :
    s.originate t seq target payload = s.flood t { seq := seq, target := target, origin := s.moduleId, payload := payload } none := by
  have hparts : (if payload.isEmpty then [[]] else chunks 4080 payload) = [payload] := by
    cases payload with
    | nil => rfl
    | cons b r =>
      rw [if_neg (by simp)]
      unfold chunks
      rw [List.length_cons, chunksOf, List.take_of_length_le h, List.drop_of_length_le h]
      · cases r.length <;> rfl
      · exact List.cons_ne_nil b r
  unfold originate
  rw [hparts]
  rfl

theorem originate_sends {s : State} {k : Nat} (hk : k < 48) (hup : (s.port k).state = .up)
    (h : s.linksOpen (mgmtLinks k) = true) (t : PktType) (seq target : Nat) {payload : List Byte}
    (hlen : payload.length ≤ 4080) :
    .mgmt k t { seq := seq, target := target, origin := s.moduleId, payload := payload }
      ∈ (s.originate t seq target payload).fabTx := by
  rw [originate_one s t seq target hlen]
  exact flood_sends hk hup h t _

/-! ## Packets that wait -/

/-- From s to t packets that waited go out, wait on, or are discarded. -/
def OnlyRoutes (s t : State) : Prop := t = { s with
  free := t.free, ctrs := t.ctrs, seqs := t.seqs, fabTx := t.fabTx
  fabric := { s.fabric with queued := t.fabric.queued, turns := t.fabric.turns } }

/-- Such a change, of which nothing that was sent is taken back. -/
structure RoutesMore (s t : State) : Prop where
  only : OnlyRoutes s t
  sent : ∀ x ∈ s.fabTx, x ∈ t.fabTx

theorem RoutesMore.refl (s : State) : RoutesMore s s := ⟨rfl, fun _ => id⟩

theorem RoutesMore.trans {s t u : State} (h : RoutesMore s t) (h' : RoutesMore t u) : RoutesMore s u := by
  refine ⟨?_, fun x hx => h'.sent x (h.sent x hx)⟩
  have hst := h.only
  have htu := h'.only
  unfold OnlyRoutes at hst htu ⊢
  rw [htu, hst]

theorem ageOut_routes (s : State) : RoutesMore s s.ageOut := by
  unfold ageOut
  dsimp only
  split
  · exact .refl s
  · exact ⟨rfl, fun _ => id⟩

theorem sendWaiting_routes (s : State) (n : Nat) (w : Waiting) : RoutesMore s (s.sendWaiting n w) :=
  ⟨rfl, fun _ hx => List.mem_append_left _ hx⟩

theorem contend_routes (s : State) (n vc fuel : Nat) (ws : List Waiting) : RoutesMore s (s.contend n vc fuel ws) := by
  induction fuel generalizing s ws with
  | zero => exact .refl s
  | succ fuel ih =>
    unfold contend
    dsimp only
    split
    · exact .refl s
    · refine RoutesMore.trans ?_ ((sendWaiting_routes _ n _).trans (ih _ _))
      exact ⟨rfl, fun _ => id⟩

theorem routeAll_routes (s : State) (l : List Waiting) : RoutesMore s (s.routeAll l).1 := by
  induction l generalizing s with
  | nil => exact .refl s
  | cons w r ih =>
    have hchoose : RoutesMore s (s.chooseRoute w).2 := ⟨rfl, fun _ => id⟩
    unfold routeAll
    split
    · next u hu =>
      have hu' : u = (s.chooseRoute w).2 := by rw [hu]
      exact (hu' ▸ hchoose).trans (RoutesMore.trans (t := u.bump .fabDiscardRoute) ⟨rfl, fun _ => id⟩ (ih _))
    · next u hu =>
      have hu' : u = (s.chooseRoute w).2 := by rw [hu]
      exact (hu' ▸ hchoose).trans (RoutesMore.trans (t := u.wait w) ⟨rfl, fun _ => id⟩ (ih _))
    · next u hu =>
      have hu' : u = (s.chooseRoute w).2 := by rw [hu]
      exact (hu' ▸ hchoose).trans (ih _)

theorem flushQueue_routes (s : State) : RoutesMore s s.flushQueue := by
  unfold flushQueue
  dsimp only
  refine s.ageOut_routes.trans ?_
  generalize s.ageOut = u
  refine foldl_keeps (p := RoutesMore u) (fun t k ht => ht.trans (contend_routes ..)) _ ?_
  refine RoutesMore.trans ?_ (routeAll_routes _ _)
  exact ⟨rfl, fun _ => id⟩

end State

end Sys2Proof.Machine

/-! PROOFS. What a member's loss sets off (R318, R347 to R349) leaves the state of every port, and takes back no packet sent. -/

namespace Sys2Proof.Machine

namespace State

/-- From s to t no port comes up or goes down, and nothing that was sent is taken back. -/
structure KeepsPorts (s t : State) : Prop where
  state : ∀ n, (t.port n).state = (s.port n).state
  sent : ∀ x ∈ s.fabTx, x ∈ t.fabTx

namespace KeepsPorts

theorem refl (s : State) : KeepsPorts s s := ⟨fun _ => rfl, fun _ => id⟩

theorem trans {s t u : State} (h : KeepsPorts s t) (h' : KeepsPorts t u) : KeepsPorts s u :=
  ⟨fun n => (h'.state n).trans (h.state n), fun x hx => h'.sent x (h.sent x hx)⟩

/-- A change that touches neither ports nor packets sent. -/
theorem quiet {s t : State} (hports : t.fabric.ports = s.fabric.ports) (hsent : t.fabTx = s.fabTx) : KeepsPorts s t := by
  refine ⟨fun n => ?_, fun x hx => by rw [hsent]; exact hx⟩
  unfold port
  rw [hports]

/-- The same from a state with the same ports and packets sent. -/
theorem start {s t u : State} (h : KeepsPorts t u) (hports : t.fabric.ports = s.fabric.ports) (hsent : t.fabTx = s.fabTx) :
    KeepsPorts s u := (quiet hports hsent).trans h

/-- The same to a state with the same ports and packets sent. -/
theorem stop {s t u : State} (h : KeepsPorts s t) (hports : u.fabric.ports = t.fabric.ports) (hsent : u.fabTx = t.fabTx) :
    KeepsPorts s u := h.trans (quiet hports hsent)

theorem foldl {α : Type} {f : State → α → State} (hf : ∀ t a, KeepsPorts t (f t a)) (s : State) (l : List α) :
    KeepsPorts s (l.foldl f s) :=
  foldl_keeps (p := KeepsPorts s) (fun t a ht => ht.trans (hf t a)) l (refl s)

theorem of_sendsMore {s t : State} (h : SendsMore s t) : KeepsPorts s t :=
  ⟨fun n => by rw [h.port], h.sent⟩

theorem of_routesMore {s t : State} (h : RoutesMore s t) : KeepsPorts s t := by
  have honly := h.only
  unfold OnlyRoutes at honly
  exact ⟨fun n => by rw [honly]; rfl, h.sent⟩

/-! ## The operations of the state -/

theorem inject (s : State) (p : Packet) : KeepsPorts s (s.inject p) := by
  have hframe := inject_frame s p
  refine ⟨fun n => by rw [hframe]; rfl, ?_⟩
  unfold State.inject
  dsimp only
  split
  · exact fun _ => id
  · unfold transmit chooseRoute
    dsimp only
    generalize State.route _ _ _ _ = r
    cases r with
    | none => exact fun _ => id
    | wait => exact fun _ => id
    | port n => exact fun _ hx => List.mem_append_left _ hx

theorem finish (s : State) (id : Nat) (k : Compl) : KeepsPorts s (s.finish id k) := by
  cases hc : s.cmd? id with
  | none => rw [finish_of_none hc]; exact refl s
  | some c =>
    have hkept := (finish_completes hc k).2.1
    exact quiet (by rw [finish_fabric s hc]) hkept.fabTx

theorem finishPart (s : State) (id : Nat) (k : Compl) : KeepsPorts s (s.finishPart id k) := by
  unfold State.finishPart
  split
  · exact refl s
  · exact finish ..

theorem writeBlock (s : State) (w : BlockWr) : KeepsPorts s (s.writeBlock w) := by
  have hframe := writeBlocks_frame s [w]
  exact quiet (by rw [writeBlock_fabric]) (by
    show (s.writeBlocks [w]).fabTx = _
    rw [hframe])

theorem writeBlocks (s : State) (ws : List BlockWr) : KeepsPorts s (s.writeBlocks ws) := by
  rw [writeBlocks_frame]
  exact quiet rfl rfl

theorem setNf (s : State) (src : Src) : KeepsPorts s (s.setNf src) := by
  rw [setNf_frame]
  exact quiet rfl rfl

theorem landBlocks (s : State) (id : Nat) (f : Fmt) (ws : List BlockWr) : KeepsPorts s (s.landBlocks id f ws).1 :=
  landBlocks_keeps (P := KeepsPorts s) (fun t _ k _ _ ht => ht.trans (finish t id k)) (fun t w _ ht => ht.trans (writeBlock t w))
    (fun t n src ht => ht.trans ((setNf (t.bump .nonfiniteGrad n) src).start rfl rfl))
    (fun _ _ ht => ht.stop rfl rfl) (refl s)

/-! ## Collectives that lose a member (R318) -/

theorem trySends (s : State) (id : Nat) : KeepsPorts s (s.trySends id) := by
  unfold State.trySends
  split
  · dsimp only
    exact (foldl (fun t x => inject t _) (State.modColl s id _) _).start rfl rfl
  · exact refl s

theorem formShard (s : State) (id i : Nat) : KeepsPorts s (s.formShard id i) := by
  unfold State.formShard
  split
  · exact refl s
  · next k _ =>
    split
    · exact refl s
    · dsimp only
      generalize hu : (if k.order = true then s else State.uncount s id _) = u
      have hsu : KeepsPorts s u := by
        rw [← hu]
        split <;> exact quiet rfl rfl
      have hland (f : Fmt) (ws : List BlockWr) := hsu.trans (landBlocks u id f ws)
      split
      · exact hland _ _
      · split
        · exact (hland _ _).stop rfl rfl
        · exact (hland _ _).trans ((trySends (addSends _ id _) id).start rfl rfl)

theorem settleColl (s : State) (id : Nat) : KeepsPorts s (s.settleColl id) := by
  unfold State.settleColl
  split
  · exact refl s
  · next k _ =>
    split
    · exact refl s
    · dsimp only
      generalize hu : (if ((k.kind == 0 || k.kind == 1) && !k.order) = true then List.foldl _ s (s.formable k) else s) = u
      have hsu : KeepsPorts s u := by
        rw [← hu]
        split
        · exact foldl (fun t i => formShard t id i) s _
        · exact refl s
      split
      · exact hsu
      · split
        · exact hsu.trans (finishPart ..)
        · exact hsu

/-- A contribution that is summed where it belongs, or that ends its command. -/
theorem landContribution (s : State) (k : Coll) (r off : Nat) (data : List Byte) (poison : Nat) (empty : Bool) :
    KeepsPorts s (s.landContribution k r off data poison empty).1 := by
  unfold State.landContribution
  dsimp only
  split
  · exact quiet rfl rfl
  · split
    · split
      · exact (writeBlocks s _).stop rfl rfl
      · exact quiet rfl rfl
    · split
      · exact quiet rfl rfl
      · refine stop (foldl_keeps (p := fun (a : State × Bool) => KeepsPorts s a.1) (fun a x ha => ?_) _ (refl s)) rfl rfl
        split
        · exact ha
        · split
          · exact ha.trans (writeBlock ..)
          · split
            · exact ha
            · split
              · exact ha.trans (finish ..)
              · exact (ha.trans (writeBlock ..)).stop rfl rfl

theorem landOwn (s : State) (id i : Nat) : KeepsPorts s (s.landOwn id i) := by
  unfold State.landOwn
  split
  · exact refl s
  · split
    · exact refl s
    · exact landContribution ..

theorem takeBarrier (s : State) (id : Nat) (r : Barrier) : KeepsPorts s (s.takeBarrier id r) := by
  have hverdict (u : State) (c : Cmd) (flag : Bool) : KeepsPorts u (u.formVerdict c flag r) := by
    rw [formVerdict_eq]
    refine KeepsPorts.trans ?_ (finish ..)
    unfold verdictFormed writeVerdict
    dsimp only
    refine stop (trans (t := if r.or then u.noteNoBall else u) ?_ (writeBlocks ..)) rfl rfl
    split <;> exact quiet rfl rfl
  unfold State.takeBarrier
  split
  · dsimp only
    split
    · exact ((writeBlock (State.modGroup s _ _) _).trans (finishPart ..)).start rfl rfl
    · exact (hverdict (State.modGroup s _ _) _ _).start rfl rfl
    · split
      · exact quiet rfl rfl
      · exact (finish (State.modFabric (State.modGroup s _ _) _) id _).start rfl rfl
  · exact refl s

theorem settleBarrier (s : State) (id : Nat) : KeepsPorts s (s.settleBarrier id) := by
  unfold State.settleBarrier
  split
  · exact refl s
  · dsimp only
    split
    · exact refl s
    · exact (foldl (fun t x => inject t _) s _).trans (takeBarrier ..)

theorem sendFlag (s : State) (id : Nat) : KeepsPorts s (s.sendFlag id) := by
  unfold State.sendFlag
  split
  · exact refl s
  · dsimp only
    split
    · exact (settleBarrier (State.modColl s id _) id).start rfl rfl
    · exact inject ..

theorem collLoses (s : State) (gone : List Nat) (k : Coll) : KeepsPorts s (s.collLoses gone k) := by
  unfold State.collLoses
  dsimp only
  split
  · exact refl s
  · generalize hu : State.modColl s k.id _ = u
    have hsu : KeepsPorts s u := by
      rw [← hu]
      exact quiet rfl rfl
    refine hsu.trans ?_
    split
    · split
      · exact sendFlag ..
      · exact settleBarrier ..
    · exact ((foldl (fun t i => landOwn t _ i) u _).trans (trySends ..)).trans (settleColl ..)

theorem leaderLost (s : State) (before : List Nat) (g : Group) : KeepsPorts s (s.leaderLost before g) := by
  unfold State.leaderLost
  dsimp only
  split
  · split
    · exact refl s
    · exact inject ..
  · exact refl s

theorem groupsLose (s before : State) (gone : List Nat) : KeepsPorts s (s.groupsLose before gone) := by
  unfold State.groupsLose
  dsimp only
  generalize hu : State.modFabric s _ = u
  have hsu : KeepsPorts s u := by
    rw [← hu]
    exact quiet rfl rfl
  refine (hsu.trans (foldl (fun t k => ?_) u _)).trans (foldl (fun t g => ?_) _ _)
  · split
    · exact collLoses ..
    · exact refl t
  · split
    · exact leaderLost ..
    · exact refl t

/-! ## Draft tables that lose a member -/

theorem askFor (s : State) (t : Nat) (a : Ask) : KeepsPorts s (s.askFor t a) := by
  unfold State.askFor
  dsimp only
  split
  · exact quiet rfl rfl
  · exact (inject (State.modDraft s t _) _).start rfl rfl

theorem settleList (s : State) (t : Nat) : KeepsPorts s (s.settleList t) := by
  unfold State.settleList
  dsimp only
  split
  · unfold writeDraftList
    dsimp only
    split
    · generalize hu : State.bump (State.bump _ _ _) _ _ = u
      have hsu : KeepsPorts s u := by
        rw [← hu]
        exact (writeBlocks s _).stop rfl rfl
      unfold creditDraft
      split <;> exact hsu.stop rfl rfl
    · exact refl s
  · exact refl s

theorem settleTransfer (s : State) (t : Nat) : KeepsPorts s (s.settleTransfer t) := by
  unfold State.settleTransfer
  dsimp only
  split
  · split
    · exact (finish (State.modDraft s t _) _ _).start rfl rfl
    · exact refl s
  · exact refl s

theorem draftsLose (s : State) (gone : List Nat) : KeepsPorts s (s.draftsLose gone) := by
  unfold State.draftsLose
  refine foldl (fun u t => ?_) s _
  dsimp only
  split
  · exact refl u
  · generalize hv : State.modDraft u t _ = v
    have huv : KeepsPorts u v := by
      rw [← hv]
      exact quiet rfl rfl
    refine ((huv.trans (foldl (fun w a => ?_) v _)).trans (settleList ..)).trans (settleTransfer ..)
    split
    · exact refl w
    · exact askFor ..

/-! ## Remote commands that lose their target (R347) -/

theorem remoteRequest (s : State) (id la first : Nat) (p : Packet) : KeepsPorts s (s.remoteRequest id la first p) := by
  unfold State.remoteRequest
  dsimp only
  exact (inject (State.modFabric s _) _).start rfl rfl

theorem sendNext (s : State) (b : Nat × Nat × Nat × Nat) : KeepsPorts s (s.sendNext b) := by
  have hcount (nf : Nat) (src : Src) : KeepsPorts s (if nf == 0 then s else (s.bump .nonfiniteGrad nf).setNf src) := by
    split
    · exact refl s
    · exact (setNf (State.bump s .nonfiniteGrad _) _).start rfl rfl
  unfold State.sendNext
  split
  · exact refl s
  · split
    · exact (remoteRequest (State.addPoisonIn s _ _) _ _ _ _).start rfl rfl
    · split
      · unfold sendPiece
        dsimp only
        split
        · exact remoteRequest ..
        · exact (hcount ..).trans ((remoteRequest (State.addPoisonIn _ _ _) _ _ _ _).start rfl rfl)
      · exact refl s

theorem pumpRemotes (s : State) : KeepsPorts s s.pumpRemotes := by
  unfold State.pumpRemotes
  dsimp only
  exact (foldl sendNext (State.modFabric s _) _).start rfl rfl

theorem failRemote (s : State) (id st : Nat) : KeepsPorts s (s.failRemote id st) := by
  unfold State.failRemote
  exact (finish (State.dropQueued s _) _ _).start rfl rfl

theorem remotesLose (s : State) (gone : List Nat) : KeepsPorts s (s.remotesLose gone) := by
  unfold State.remotesLose
  exact (foldl (fun t id => failRemote t id _) s _).trans (pumpRemotes _)

/-! ## A roster that comes into force (R306, R335, R349) -/

theorem holdLost (s : State) (gone : List Nat) : KeepsPorts s (s.holdLost gone) := by
  unfold State.holdLost
  refine foldl (fun t n => ?_) s _
  dsimp only
  split
  · exact quiet rfl rfl
  · exact refl t

/-- Only the keeper and the bits that a roster leaves open change as the pairing is settled. -/
def OnlyPairs (s t : State) : Prop := t = { s with keeper := t.keeper, free := t.free }

theorem settlePair_pairs (s : State) (old r : Roster) (mine : Bool) : OnlyPairs s (s.settlePair old r mine) := by
  have hkeeper {u : State} (hu : OnlyPairs s u) (f : Keeper → Keeper) : OnlyPairs s (u.modKeeper f) := by
    unfold OnlyPairs at hu ⊢
    rw [hu]
    rfl
  have hfree {u : State} (hu : OnlyPairs s u) (n : Nat) : OnlyPairs s { u with free := n } := by
    unfold OnlyPairs at hu ⊢
    rw [hu]
  have hself : OnlyPairs s s := rfl
  unfold State.settlePair
  extract_lets k0 k
  split
  · exact hkeeper hself _
  split
  · rfl
  split
  · exact hkeeper hself _
  extract_lets shown b parted f t
  have hb : OnlyPairs s b.2 := by
    simp only [b]
    split
    · exact hfree hself _
    · rfl
  have ht : OnlyPairs s t := by
    simp only [t, f]
    split
    · exact hb
    · exact hfree hb _
  split
  · exact hkeeper (hfree ht _) _
  · split
    · exact hkeeper ht _
    · exact hkeeper ht _

theorem settlePair (s : State) (old r : Roster) (mine : Bool) : KeepsPorts s (s.settlePair old r mine) := by
  have honly := settlePair_pairs s old r mine
  unfold OnlyPairs at honly
  rw [honly]
  exact quiet rfl rfl

theorem enact (s : State) (r : Roster) : KeepsPorts s (s.enact r) := by
  unfold State.enact
  dsimp only
  refine KeepsPorts.trans ?_ (of_routesMore (flushQueue_routes _))
  generalize hu : State.modFabric (State.modFabric s _) _ = u
  have hsu : KeepsPorts s u := by
    subst hu
    refine ⟨fun n => ?_, fun _ => id⟩
    unfold State.port State.modFabric
    dsimp only
    rw [vget_ofFn]
    split
    · next h => rw [vget, dif_pos h]; rfl
    · next h => rw [vget_outside h]
  generalize hv : (if u.passSrc = true then u else u.modFabric _) = v
  have hsv : KeepsPorts s v := by
    rw [← hv]
    split
    · exact hsu
    · exact hsu.stop rfl rfl
  split
  · exact hsv
  · exact (((hsv.trans (holdLost ..)).trans (remotesLose ..)).trans (groupsLose ..)).trans (draftsLose ..)

theorem originate (s : State) (t : PktType) (seq target : Nat) (payload : List Byte) :
    KeepsPorts s (s.originate t seq target payload) := of_sendsMore (originate_sendsMore ..)

theorem publish (s : State) (r : Roster) : KeepsPorts s (s.publish r) := by
  have hlands (u : State) (x : Roster) : KeepsPorts u ((u.withSections x).2.enact (u.withSections x).1) :=
    (enact (u.withSections x).2 _).start rfl rfl
  unfold State.publish
  exact ((settlePair s s.fabric.roster r true).trans (hlands _ _)).trans (originate ..)

/-! ## Reorientations and reports of links (R308, R310) -/

theorem leaveHold (s : State) : KeepsPorts s s.leaveHold := by
  unfold State.leaveHold
  split
  · exact (of_routesMore (flushQueue_routes (State.modFabric s _))).start rfl rfl
  · exact refl s

theorem enterHold (s : State) : KeepsPorts s s.enterHold := by
  unfold State.enterHold
  split
  · exact quiet rfl rfl
  · exact refl s

theorem settleReorient (s : State) : KeepsPorts s s.settleReorient := by
  unfold State.settleReorient
  split
  · split
    · exact quiet rfl rfl
    · exact refl s
  · split
    · exact KeepsPorts.trans (t := State.originate (State.modFabric s _) ..) ((originate (State.modFabric s _) ..).start rfl rfl)
        (leaveHold _)
    · exact refl s
  · exact refl s

theorem startReorient (s : State) : KeepsPorts s s.startReorient := by
  unfold State.startReorient
  dsimp only
  split
  · exact refl s
  · have hholds : KeepsPorts s (State.modFabric s.enterHold (fun f => { f with
        reorient := .holding [f.moduleId], next := some f.roster.relevel })) := (enterHold s).stop rfl rfl
    exact (hholds.trans (originate ..)).trans (settleReorient _)

theorem afterPublish (s : State) (merge : Bool) : KeepsPorts s (s.afterPublish merge) := by
  unfold State.afterPublish
  split
  · have hnext : KeepsPorts s (State.modFabric s (fun f => { f with next := some f.roster.relevel })) := quiet rfl rfl
    exact hnext.trans (settleReorient _)
  · split
    · exact startReorient s
    · exact refl s

theorem unhear (s : State) (origin port : Nat) : KeepsPorts s (s.unhear origin port) := by
  have hsent : (s.unhear origin port).fabTx = s.fabTx := by
    unfold State.unhear State.modFabric
    dsimp only
  refine ⟨fun n => ?_, fun x hx => by rw [hsent]; exact hx⟩
  unfold State.unhear State.port State.modFabric
  dsimp only
  rw [vget_ofFn]
  split
  · next h =>
    rw [vget, dif_pos h]
    split <;> rfl
  · next h => rw [vget_outside h]

theorem takeLink (s : State) (origin w : Nat) : KeepsPorts s (s.takeLink origin w) := by
  unfold State.takeLink
  dsimp only
  split
  · generalize hu : State.modFabric s _ = u
    have hsu : KeepsPorts s u := by
      rw [← hu]
      exact quiet rfl rfl
    refine hsu.trans ?_
    split
    · exact refl u
    · split
      · exact quiet rfl rfl
      · split
        · exact publish u _
        · exact refl u
  · generalize hu : State.unhear s _ _ = u
    have hsu : KeepsPorts s u := hu ▸ unhear s _ _
    exact hsu.stop rfl rfl

theorem actOnLinks (s : State) : KeepsPorts s s.actOnLinks := by
  unfold State.actOnLinks
  dsimp only
  split
  · split
    · exact (publish ..).trans (afterPublish ..)
    · exact refl s
  · split
    · exact (publish ..).trans (afterPublish ..)
    · exact refl s

theorem takeLinks (s : State) (origin : Nat) (b : List Byte) : KeepsPorts s (s.takeLinks origin b) := by
  unfold State.takeLinks
  split
  · exact refl s
  · exact (foldl (fun u w => takeLink u origin w) s _).trans (actOnLinks _)

end KeepsPorts

end State

end Sys2Proof.Machine

/-! PROOFS. O51: a module enters and leaves the fabric; HELLO and HEARTBEAT (R305, R306, R327). -/

namespace Sys2Proof.Machine

namespace State

variable {s : State}

/-! ## Ports that train, and a module that goes off -/

/-- From s to t nothing but ports changes. -/
def OnlyPorts (s t : State) : Prop := t = { s with fabric := { s.fabric with ports := t.fabric.ports } }

theorem trainPort_ports (s : State) (n : Nat) : OnlyPorts s (s.trainPort n) := by
  unfold trainPort
  split <;> rfl

theorem trainPort_port {n : Nat} (hn : n < 48) (s : State) (m : Nat) : (s.trainPort n).port m =
    if m = n ∧ ((s.port m).cable && s.portPowered m) = true then { s.port m with state := .training, width := 0 }
    else s.port m := by
  unfold trainPort
  by_cases hcan : ((s.port n).cable && s.portPowered n) = true
  · rw [if_pos hcan]
    by_cases hm : m = n
    · subst hm
      rw [if_pos ⟨rfl, hcan⟩, port_modPort_same _ hn]
    · rw [if_neg (fun hc => hm hc.1), port_modPort_other _ hm]
  · rw [if_neg hcan]
    refine (if_neg ?_).symm
    rintro ⟨rfl, h⟩
    exact hcan h

/-- The first k ports train. -/
theorem trainFirst (s : State) {k : Nat} (hk : k ≤ 48) :
    OnlyPorts s ((List.range k).foldl (fun (s : State) n => s.trainPort n) s)
    ∧ ∀ n, ((List.range k).foldl (fun (s : State) n => s.trainPort n) s).port n =
      if n < k ∧ ((s.port n).cable && s.portPowered n) = true then { s.port n with state := .training, width := 0 }
      else s.port n := by
  induction k with
  | zero => exact ⟨rfl, fun n => by rw [if_neg (by omega)]; rfl⟩
  | succ k ih =>
    obtain ⟨honly, hport⟩ := ih (by omega)
    rw [List.range_succ, List.foldl_append]
    generalize (List.range k).foldl (fun (s : State) n => s.trainPort n) s = u at honly hport
    refine ⟨?_, fun n => ?_⟩
    · have hstep := u.trainPort_ports k
      show OnlyPorts s (u.trainPort k)
      unfold OnlyPorts at honly hstep ⊢
      rw [hstep, honly]
    · show (u.trainPort k).port n = _
      have hpower (m : Nat) : u.portPowered m = s.portPowered m := by
        unfold OnlyPorts at honly
        rw [honly]
        rfl
      rw [trainPort_port (by omega), hport, hpower]
      by_cases hn : n = k
      · subst hn
        simp
      · have hlt : n < k + 1 ↔ n < k := by omega
        simp [hn, hlt]

theorem trainPorts_ports (s : State) : OnlyPorts s s.trainPorts := (trainFirst s (Nat.le_refl 48)).1

theorem trainPorts_port (s : State) {n : Nat} (hn : n < 48) : s.trainPorts.port n =
    if ((s.port n).cable && s.portPowered n) = true then { s.port n with state := .training, width := 0 } else s.port n := by
  refine ((trainFirst s (Nat.le_refl 48)).2 n).trans ?_
  simp [hn]

theorem doFabEnSet_trains (hup : s.hostUp = true) (hen : s.fabric.en = false) (hleaving : s.fabric.leaving = false) (id : Nat) :
    (s.doFabEnSet id).fabric.en = true ∧ (s.doFabEnSet id).fabric.moduleId = id ∧ (s.doFabEnSet id).fabric.state = .discovering
    ∧ (s.doFabEnSet id).fabric.cfg.force = s.fabric.cfg.shadow ∧ (s.doFabEnSet id).mem = s.mem
    ∧ (s.doFabEnSet id).cmds = s.cmds ∧ (s.doFabEnSet id).fabTx = s.fabTx
    ∧ ∀ n < 48, (s.doFabEnSet id).port n = if ((s.port n).cable && s.portPowered n) = true then
        { s.port n with state := .training, width := 0 } else s.port n := by
  have heq : s.doFabEnSet id = (s.modFabric (fun f => { f with
      en := true, moduleId := id, state := .discovering, cfg := { f.cfg with force := f.cfg.shadow } })).trainPorts := by
    unfold doFabEnSet
    rw [if_neg (by simp [hup, hen])]
    dsimp only
    rw [if_neg (by simp [hleaving])]
  rw [heq]
  generalize hu : State.modFabric s _ = u
  have hports := u.trainPorts_ports
  unfold OnlyPorts at hports
  subst hu
  refine ⟨?_, ?_, ?_, ?_, ?_, ?_, ?_, fun n hn => trainPorts_port _ hn⟩ <;> rw [hports] <;> rfl

theorem fabOff_port (s : State) {n : Nat} (hn : n < 48) : (s.fabOff.port n).state = .down := by
  unfold fabOff State.modFabric State.port
  dsimp only
  rw [vget_map _ _ _ hn]

/-! ## A module that leaves, and one that founds -/

/-- A member's LEAVE, or what stands once it is out. -/
def leaving (s : State) : State :=
  ((s.modFabric (fun f => { f with en := false, leaving := true })).nextRequest).originate .leave
    ((s.fabric.request + 1) % 2 ^ 32) s.fabric.captain []

theorem leaving_frame (s : State) : SendsMore (s.modFabric (fun f => { f with
    en := false, leaving := true, request := (f.request + 1) % 2 ^ 32 })) s.leaving := originate_sendsMore ..

theorem doFabEnClear_member (hup : s.hostUp = true) (hen : s.fabric.en = true) (hmember : s.isMember = true) (id : Nat) :
    s.doFabEnClear id = if s.fabric.isCaptain then s.leaving.resign else s.leaving := by
  have hcaptain : s.leaving.fabric.isCaptain = s.fabric.isCaptain := by
    rw [(leaving_frame s).only]
    rfl
  rw [← hcaptain]
  unfold doFabEnClear
  rw [if_neg (by simp [hup]), if_neg (by simp [hen])]
  exact if_neg (by
    show ¬(!s.isMember) = true
    simp [hmember])

theorem doFabEnClear_out (hup : s.hostUp = true) (hen : s.fabric.en = true) (hout : s.isMember = false) (id : Nat) :
    s.doFabEnClear id = (s.modFabric (fun f => { f with en := false })).fabOff := by
  unfold doFabEnClear
  rw [if_neg (by simp [hup]), if_neg (by simp [hen])]
  exact if_pos (by
    show (!s.isMember) = true
    simp [hout])

theorem doFabEnClear_leaves (hup : s.hostUp = true) (hen : s.fabric.en = true) (hmember : s.isMember = true)
    (hcaptain : s.fabric.isCaptain = false) (id : Nat) :
    (s.doFabEnClear id).fabric.en = false ∧ (s.doFabEnClear id).fabric.leaving = true
    ∧ (s.doFabEnClear id).fabric.state = s.fabric.state ∧ (s.doFabEnClear id).fabric.roster = s.fabric.roster
    ∧ (s.doFabEnClear id).mem = s.mem
    ∧ ∀ n < 48, (s.port n).state = .up → s.linksOpen (mgmtLinks n) = true → ∃ m : Mgmt,
        .mgmt n .leave m ∈ (s.doFabEnClear id).fabTx ∧ m.target = s.fabric.captain ∧ m.origin = s.fabric.moduleId := by
  rw [doFabEnClear_member hup hen hmember, if_neg (by simp [hcaptain])]
  have honly := s.leaving_frame.only
  unfold OnlySends at honly
  refine ⟨by rw [honly]; rfl, by rw [honly]; rfl, by rw [honly]; rfl, by rw [honly]; rfl, by rw [honly]; rfl,
    fun n hn hportUp hlinks => ⟨_, originate_sends hn ?_ ?_ .leave _ _ (Nat.zero_le _), rfl, rfl⟩⟩
  · exact hportUp
  · exact hlinks

theorem resign_sends (hothers : (s.fabric.roster.drop s.fabric.moduleId).members ≠ []) :
    SendsMore (s.modFabric (fun f => { f with
      isCaptain := false, captain := (s.fabric.roster.drop s.fabric.moduleId).captain, highest := f.highest + 1 })) s.resign := by
  unfold resign
  rw [if_neg (by
    rw [List.isEmpty_iff]
    exact hothers)]
  exact originate_sendsMore ..

theorem doFabEnClear_resigns (hup : s.hostUp = true) (hen : s.fabric.en = true) (hmember : s.isMember = true)
    (hcaptain : s.fabric.isCaptain = true) (hothers : (s.fabric.roster.drop s.fabric.moduleId).members ≠ []) (id : Nat) :
    (s.doFabEnClear id).fabric.en = false ∧ (s.doFabEnClear id).fabric.leaving = true
    ∧ (s.doFabEnClear id).fabric.isCaptain = false ∧ (s.doFabEnClear id).fabric.state = s.fabric.state
    ∧ (∀ n < 48, (s.doFabEnClear id).port n = s.port n) ∧ (s.doFabEnClear id).mem = s.mem
    ∧ (s.doFabEnClear id).fabric.captain = (s.fabric.roster.drop s.fabric.moduleId).captain := by
  rw [doFabEnClear_member hup hen hmember, if_pos hcaptain]
  have hleft := s.leaving_frame
  generalize hu : s.leaving = u at hleft
  have hfabric : u.fabric.roster = s.fabric.roster ∧ u.fabric.moduleId = s.fabric.moduleId ∧ u.fabric.en = false
      ∧ u.fabric.leaving = true ∧ u.fabric.state = s.fabric.state ∧ u.mem = s.mem := by
    rw [hleft.only]
    exact ⟨rfl, rfl, rfl, rfl, rfl, rfl⟩
  obtain ⟨hroster, hme, huen, huleaving, hust, humem⟩ := hfabric
  have hresigns := resign_sends (s := u) (by rw [hroster, hme]; exact hothers)
  have honly := hresigns.only
  rw [hroster, hme] at honly
  exact ⟨by rw [honly]; exact huen, by rw [honly]; exact huleaving, by rw [honly]; rfl, by rw [honly]; exact hust,
    fun n hn => (hresigns.port n).trans (hleft.port n), by rw [honly]; exact humem, by rw [honly]; rfl⟩

theorem enact_founds (hst : s.fabric.state = .discovering) (hroster : s.fabric.roster.members = []) (hgroups : s.fabric.groups = [])
    (r : Roster) : ∃ t, s.enact r = t ∧ t.fabric.state = .member ∧ t.fabric.isCaptain = (r.captain == s.fabric.moduleId)
      ∧ t.fabric.captain = r.captain ∧ t.fabric.level = r.levelOf s.fabric.moduleId ∧ t.fabric.roster = r ∧ t.mem = s.mem := by
  have hgone : s.leftBy r = [] := by
    unfold leftBy
    rw [hgroups, show s.fabric.roster.presentIds = [] by rw [Roster.presentIds, hroster]; rfl]
    rfl
  refine ⟨_, rfl, ?_⟩
  unfold enact
  dsimp only
  rw [hgone, if_pos List.isEmpty_nil]
  generalize hu : (if State.passSrc _ = true then _ else _) = u
  have hroutes := (flushQueue_routes u).only
  unfold OnlyRoutes at hroutes
  rw [hroutes]
  have hfields : u.fabric.state = .member ∧ u.fabric.isCaptain = (r.captain == s.fabric.moduleId)
      ∧ u.fabric.captain = r.captain ∧ u.fabric.level = r.levelOf s.fabric.moduleId ∧ u.fabric.roster = r ∧ u.mem = s.mem := by
    rw [← hu]
    split
    · exact ⟨by simp [hst], rfl, rfl, rfl, rfl, rfl⟩
    · exact ⟨by simp [hst, Fabric.usePass], rfl, rfl, rfl, rfl, rfl⟩
  exact hfields

theorem publish_founds (hst : s.fabric.state = .discovering) (hroster : s.fabric.roster.members = []) (hgroups : s.fabric.groups = [])
    (r : Roster) : (s.publish r).fabric.state = .member ∧ (s.publish r).fabric.isCaptain = (r.captain == s.fabric.moduleId)
      ∧ (s.publish r).fabric.captain = r.captain ∧ (s.publish r).fabric.level = r.levelOf s.fabric.moduleId
      ∧ (s.publish r).fabric.roster.epoch = s.fabric.highest + 1 ∧ (s.publish r).fabric.roster.members = r.members
      ∧ (s.publish r).mem = s.mem := by
  have hlinks (l : List (Nat × Nat × Nat)) (me : Nat) :
      (l.foldl (fun (r : Roster) p => r.addLink (mkLink me p.1 p.2.1 p.2.2)) r).members = r.members :=
    foldl_keeps (p := fun (x : Roster) => x.members = r.members) (f := fun (r : Roster) p =>
      r.addLink (mkLink me p.1 p.2.1 p.2.2)) (fun x p hx => hx) l rfl
  unfold publish
  have hpairs := KeepsPorts.settlePair_pairs s s.fabric.roster r true
  generalize s.settlePair s.fabric.roster r true = u at hpairs
  have hfabric : u.fabric = s.fabric := by rw [hpairs]
  have hmem : u.mem = s.mem := by rw [hpairs]
  dsimp only
  generalize hx : (u.unlisted r).foldl _ r = x
  have hmembers : x.members = r.members := hx ▸ hlinks _ _
  generalize hv : u.withSections { x with epoch := u.fabric.highest + 1 } = v
  have hvfabric : v.2.fabric = s.fabric := by rw [← hv]; exact hfabric
  have hvmem : v.2.mem = s.mem := by rw [← hv]; exact hmem
  have hvroster : v.1.epoch = s.fabric.highest + 1 ∧ v.1.members = r.members := by
    rw [← hv]
    exact ⟨congrArg (·.highest + 1) hfabric, hmembers⟩
  have hpresent : v.1.presentIds = r.presentIds := by rw [Roster.presentIds, hvroster.2, Roster.presentIds]
  have hcaptain : v.1.captain = r.captain := by rw [Roster.captain, hpresent, Roster.captain]
  have hlevel (n : Nat) : v.1.levelOf n = r.levelOf n := by rw [Roster.levelOf, hvroster.2, Roster.levelOf]
  obtain ⟨w, hw, hstate, his, hcap, hlev, hros, hwmem⟩ := enact_founds (s := v.2) (by rw [hvfabric, hst])
    (by rw [hvfabric, hroster]) (by rw [hvfabric, hgroups]) v.1
  rw [hw]
  have honly := (originate_sendsMore w .roster v.1.epoch 0 v.1.bytes).only
  unfold OnlySends at honly
  rw [honly]
  rw [hcaptain, hvfabric] at his
  rw [hlevel, hvfabric] at hlev
  exact ⟨hstate, his, hcap.trans hcaptain, hlev, (congrArg Roster.epoch hros).trans hvroster.1,
    (congrArg Roster.members hros).trans hvroster.2, hwmem.trans hvmem⟩

theorem doFound_founds (hen : s.fabric.en = true) (hst : s.fabric.state = .discovering) (hhighest : s.fabric.highest = 0)
    (hroster : s.fabric.roster.members = []) (hgroups : s.fabric.groups = []) :
    s.doFound.fabric.state = .member ∧ s.doFound.fabric.isCaptain = true ∧ s.doFound.fabric.captain = s.fabric.moduleId
    ∧ s.doFound.fabric.level = 0 ∧ s.doFound.fabric.roster.epoch = 1
    ∧ s.doFound.fabric.roster.members = [Member.mk s.fabric.moduleId 0 false] ∧ s.doFound.mem = s.mem := by
  have heq : s.doFound = s.publish { members := [{ id := s.moduleId, level := 0, absent := false }] } := by
    unfold doFound
    exact if_pos (by simp [hen, hst, hhighest])
  obtain ⟨hstate, his, hcap, hlev, hepoch, hmembers, hmem⟩ := publish_founds hst hroster hgroups
    { members := [{ id := s.moduleId, level := 0, absent := false }] }
  rw [heq]
  exact ⟨hstate, his.trans (by simp [Roster.captain, Roster.presentIds, State.moduleId]), hcap.trans rfl,
    hlev.trans (by simp [Roster.levelOf, State.moduleId]), hepoch.trans (by rw [hhighest]), hmembers, hmem⟩

/-! ## HELLO -/

theorem flatMap_natLe_length {α : Type} (f : α → Nat) (l : List α) : (l.flatMap (fun x => natLe 8 (f x))).length = 8 * l.length := by
  induction l with
  | nil => rfl
  | cons x r ih =>
    rw [List.flatMap_cons, List.length_append, ih, List.length_cons]
    have hlen : (natLe 8 (f x)).length = 8 := by simp [natLe]
    omega

theorem joinHeard_sends {k : Nat} (hk : k < 48) (hup : (s.port k).state = .up) (h : s.linksOpen (mgmtLinks k) = true) (c : Nat) :
    SendsMore (s.nextRequest) (s.joinHeard c)
    ∧ ∃ j : Mgmt, FabTx.mgmt k .join j ∈ (s.joinHeard c).fabTx ∧ j.target = c ∧ j.origin = s.fabric.moduleId := by
  refine ⟨originate_sendsMore .., _, originate_sends (s := s.nextRequest) hk hup h .join _ c ?_, rfl, rfl⟩
  rw [flatMap_natLe_length, List.length_map]
  have hports : s.upPorts.length ≤ 48 := (List.length_filter_le _ _).trans (List.length_range).le
  have hheard := List.length_filter_le (fun n => (s.port n).heard && (s.port n).nbrMember) s.upPorts
  omega

/-- What a port records of a HELLO. -/
def helloFrom (s : State) (m : Mgmt) (p : Port) : Port :=
  let w := fieldAt m.payload 0 8
  { p with
    nbrId := bits w 11 0, nbrPort := bits w 17 12, nbrCaptain := bits w 29 18, nbrLevel := bits w 41 30
    nbrMember := bit w 42, nbrEpoch := m.seq, heard := true, missed := 0, shown := bit w 42
    clash := !bit w 42 && s.fabric.roster.isPresent (bits w 11 0) }

/-- A HELLO that reaches a module which discovers: it joins where the neighbour is a member. -/
theorem doHello_joins {n : Nat} {m : Mgmt} (harrives : ∀ f : State → State, s.mgmtArrives n m f = f s)
    (hbit : bit (fieldAt m.payload 0 8) 42 = true) (hst : s.fabric.state = .discovering) :
    s.doHello n m = (s.modPort n (helloFrom s m)).joinHeard (bits (fieldAt m.payload 0 8) 29 18) := by
  refine (harrives _).trans ?_
  dsimp only
  refine (if_pos (by simpa using hst)).trans ?_
  rw [if_pos hbit]
  rfl

/-- A module that joins where a HELLO was heard: the neighbour is recorded, and the JOIN goes out on its port. -/
theorem joinHeard_hello {n : Nat} (hn : n < 48) (hport : (s.port n).state = .up) (hlinks : s.linksOpen (mgmtLinks n) = true)
    (m : Mgmt) :
    let t := (s.modPort n (helloFrom s m)).joinHeard (bits (fieldAt m.payload 0 8) 29 18)
    t.port n = helloFrom s m (s.port n) ∧ t.fabric.request = (s.fabric.request + 1) % 2 ^ 32 ∧ t.fabric.state = s.fabric.state
    ∧ t.mem = s.mem ∧ ∃ j : Mgmt, FabTx.mgmt n .join j ∈ t.fabTx ∧ j.target = bits (fieldAt m.payload 0 8) 29 18
      ∧ j.origin = s.fabric.moduleId := by
  have hheard : (s.modPort n (helloFrom s m)).port n = helloFrom s m (s.port n) := port_modPort_same _ hn
  obtain ⟨hmore, j, hj, htarget, horigin⟩ := joinHeard_sends (s := s.modPort n (helloFrom s m)) hn (by rw [hheard]; exact hport)
    hlinks (bits (fieldAt m.payload 0 8) 29 18)
  have hnbr := hmore.port n
  have honly := hmore.only
  dsimp only
  generalize State.joinHeard _ _ = t at hj hnbr honly
  refine ⟨hnbr.trans hheard, ?_, ?_, ?_, j, hj, htarget, horigin⟩ <;> rw [honly] <;> rfl

/-! ## Heartbeats -/

/-- The HEARTBEAT that a module sends. -/
def beat (s : State) : Mgmt := { seq := s.fabric.roster.epoch, origin := s.moduleId }

theorem beat_sendsMore {t : State} (h : SendsMore s t) : t.beat = s.beat := by
  rw [h.only]
  rfl

theorem foldl_beats (l : List Nat) (h : ∀ n ∈ l, s.linksOpen (mgmtLinks n) = true) :
    SendsMore s (l.foldl (fun (s : State) n => s.sendMgmt n .heartbeat s.beat) s)
    ∧ (l.foldl (fun (s : State) n => s.sendMgmt n .heartbeat s.beat) s).fabTx
      = s.fabTx ++ l.map (fun n => FabTx.mgmt n .heartbeat s.beat) := by
  induction l generalizing s with
  | nil => exact ⟨.refl s, (List.append_nil _).symm⟩
  | cons n r ih =>
    have hone := s.sendMgmt_sendsMore n .heartbeat s.beat
    obtain ⟨hrest, hsent⟩ := ih (s := s.sendMgmt n .heartbeat s.beat)
      (fun m hm => hone.links _ (h m (List.mem_cons_of_mem n hm)))
    refine ⟨hone.trans hrest, ?_⟩
    have hfirst : (s.sendMgmt n .heartbeat s.beat).fabTx = s.fabTx ++ [.mgmt n .heartbeat s.beat] := by
      rw [sendMgmt_open (h n List.mem_cons_self)]
      rfl
    rw [List.foldl_cons, hsent, beat_sendsMore hone, hfirst, List.map_cons, List.append_assoc]
    rfl

theorem modPort_congr {n : Nat} {f g : Port → Port} (h : f (s.port n) = g (s.port n)) : s.modPort n f = s.modPort n g := by
  unfold modPort State.modFabric
  dsimp only
  rw [vmod_congr s.fabric.ports h]

/-- Does a HEARTBEAT show that the neighbour of its port is a member, which nothing has shown yet? -/
def showsMember (s : State) (n : Nat) (m : Mgmt) : Bool :=
  (s.port n).heard && !(s.port n).shown && !(s.port n).clash && m.seq != 0 && m.origin == (s.port n).nbrId

/-- What a port records of a HEARTBEAT. -/
def heartbeatFrom (s : State) (n : Nat) (m : Mgmt) (p : Port) : Port :=
  let is := s.showsMember n m && s.fabric.roster.isPresent (s.port n).nbrId
  { p with
    beat := true, missed := 0, shown := p.shown || s.showsMember n m, nbrMember := p.nbrMember || is
    nbrLevel := if is then s.fabric.roster.levelOf p.nbrId else p.nbrLevel }

/-- A HEARTBEAT that shows no link which the roster lacks is only recorded. -/
theorem doHeartbeat_records {n : Nat} {m : Mgmt}
    (h : s.showsMember n m = true → s.fabric.roster.isPresent (s.port n).nbrId = true →
      mkLink s.fabric.moduleId n (s.port n).nbrId (s.port n).nbrPort ∈ s.fabric.roster.links) :
    s.doHeartbeat n m = s.modPort n (s.heartbeatFrom n m) := by
  unfold doHeartbeat
  dsimp only
  refine if_neg fun hreports => ?_
  obtain ⟨hshows, hnot⟩ := Bool.and_eq_true_iff.1 hreports
  obtain ⟨hnew, hpresent⟩ := Bool.and_eq_true_iff.1 hshows
  have hlisted : s.fabric.roster.links.contains (mkLink s.fabric.moduleId n (s.port n).nbrId (s.port n).nbrPort) = true :=
    List.contains_iff_mem.2 (h hnew hpresent)
  exact absurd (hlisted.symm.trans ((Bool.not_eq_true' _).mp hnot)) Bool.noConfusion

/-- A heartbeat takes FAB_CFG (R328); with nothing that waits nothing else but the pass tables changes. -/
theorem takeFabCfg_frame (h : s.fabric.queued = []) : s.takeFabCfg = { s with fabric := { s.fabric with
    cfg := { s.fabric.cfg with force := s.fabric.cfg.shadow }
    inForce := s.takeFabCfg.fabric.inForce, shadow := s.takeFabCfg.fabric.shadow } } := by
  unfold takeFabCfg
  dsimp only
  split
  · rw [flushQueue_empty (by exact h)]
    rfl
  · rfl

theorem doBeat_on (hon : s.fabOn = true) (hnone : s.fabric.queued = []) (hopen : ∀ n < 48, s.linksOpen (mgmtLinks n) = true) :
    s.doBeat.fabTx = s.fabTx ++ s.upPorts.map (fun n => FabTx.mgmt n .heartbeat s.beat)
    ∧ (∀ n < 48, s.doBeat.port n = { s.port n with
        beat := false, missed := if s.beatDue n && !(s.port n).beat then (s.port n).missed + 1 else (s.port n).missed })
    ∧ s.doBeat.fabric.cfg.force = s.fabric.cfg.shadow ∧ s.doBeat.mem = s.mem := by
  have hcfg := takeFabCfg_frame hnone
  unfold doBeat
  rw [if_neg (by simp [hon])]
  dsimp only
  generalize s.takeFabCfg = u at hcfg
  have hports : u.upPorts = s.upPorts := by rw [hcfg]; rfl
  have hbeat : u.beat = s.beat := by rw [hcfg]; rfl
  have hfabTx : u.fabTx = s.fabTx := by rw [hcfg]
  obtain ⟨hmore, hsent⟩ := foldl_beats (s := u) u.upPorts (fun n hn => by
    have hlt := List.mem_range.1 (List.mem_filter.1 hn).1
    have hlinks := hopen n hlt
    rw [hcfg]
    exact hlinks)
  change SendsMore u (u.upPorts.foldl (fun (s : State) n => s.sendMgmt n .heartbeat
    { seq := s.fabric.roster.epoch, origin := s.moduleId }) u) at hmore
  change (u.upPorts.foldl (fun (s : State) n => s.sendMgmt n .heartbeat
    { seq := s.fabric.roster.epoch, origin := s.moduleId }) u).fabTx = _ at hsent
  generalize List.foldl _ u u.upPorts = v at hmore hsent
  have hvports : v.fabric.ports = s.fabric.ports := by
    rw [hmore.only, hcfg]
  have hvroster : v.fabric.roster = s.fabric.roster ∧ v.fabric.state = s.fabric.state ∧ v.fabric.moduleId = s.fabric.moduleId := by
    rw [hmore.only, hcfg]
    exact ⟨rfl, rfl, rfl⟩
  have hdue (n : Nat) : v.beatDue n = s.beatDue n := by
    unfold beatDue isMember State.port State.moduleId
    rw [hvports, hvroster.1, hvroster.2.1, hvroster.2.2]
  have hforce : v.fabric.cfg.force = s.fabric.cfg.shadow := by rw [hmore.only, hcfg]
  have hmem : v.mem = s.mem := by rw [hmore.only, hcfg]
  refine ⟨?_, fun n hn => ?_, ?_, ?_⟩
  · rw [modFabric_fabTx, hsent, hfabTx, hports, hbeat]
  · unfold State.port State.modFabric
    dsimp only
    rw [vget_ofFn, dif_pos hn, ← hvports]
    simp only [vget, dif_pos hn, hdue]
  · rw [modFabric_fabric]
    exact hforce
  · rw [modFabric_mem]
    exact hmem

/-! ## Ports that hear no heartbeat -/

/-- A port that heard no heartbeat for too long. -/
def silent (p : Port) : Port := { p with
  state := if p.state == .up then .down else p.state, width := if p.state == .up then 0 else p.width
  heard := false, nbrMember := false, missed := 0, clash := false, shown := false }

theorem doBeatMiss_due {n : Nat} (hon : s.fabOn = true) (hdue : s.beatDue n = true) (hmissed : s.hbMiss ≤ (s.port n).missed)
    (hnone : s.fabric.queued = []) : s.doBeatMiss n = (s.modPort n silent).reportLink n false := by
  unfold doBeatMiss
  rw [if_neg (by simp [hon, hdue, hmissed])]
  exact congrArg (State.reportLink · n false) (flushQueue_empty (s := s.modPort n silent) hnone)

theorem reportLink_keepsPorts (s : State) (n : Nat) : KeepsPorts s (s.reportLink n false) := by
  unfold reportLink
  split
  · exact .refl s
  · dsimp only
    have hnext : KeepsPorts s s.nextRequest := .quiet rfl rfl
    exact (hnext.trans (KeepsPorts.originate ..)).trans (KeepsPorts.takeLinks ..)

theorem reportLink_sends {k : Nat} (hmember : s.isMember = true) (hk : k < 48) (hup : (s.port k).state = .up)
    (h : s.linksOpen (mgmtLinks k) = true) (n : Nat) :
    ∃ m : Mgmt, .mgmt k .linkReport m ∈ (s.reportLink n false).fabTx
      ∧ m.target = s.fabric.captain ∧ m.origin = s.fabric.moduleId
      ∧ m.payload = natLe 8 ((s.port n).nbrId + at' n 12 + at' (s.port n).nbrPort 18) := by
  have hpayload : natLe 8 ((s.port n).nbrId + at' n 12 + at' (s.port n).nbrPort 18 + flagAt false 24)
      = natLe 8 ((s.port n).nbrId + at' n 12 + at' (s.port n).nbrPort 18) := congrArg (natLe 8) (Nat.add_zero _)
  have hlen : (natLe 8 ((s.port n).nbrId + at' n 12 + at' (s.port n).nbrPort 18)).length ≤ 4080 := by simp [natLe]
  unfold reportLink
  rw [if_neg (by simp [hmember])]
  dsimp only
  rw [hpayload]
  generalize natLe 8 _ = b at hlen
  generalize hu : State.originate s.nextRequest _ _ _ b = u
  have hsent := originate_sends (s := s.nextRequest) hk hup h .linkReport s.nextRequest.fabric.request
    s.nextRequest.fabric.captain hlen
  rw [hu] at hsent
  have htakes := KeepsPorts.takeLinks u s.moduleId b
  exact ⟨_, htakes.sent _ hsent, rfl, rfl, rfl⟩

theorem doBeatMiss_silences {n : Nat} (hn : n < 48) (hon : s.fabOn = true) (hdue : s.beatDue n = true)
    (hmissed : s.hbMiss ≤ (s.port n).missed) (hnone : s.fabric.queued = []) :
    ((s.doBeatMiss n).port n).state ≠ .up
    ∧ (s.isMember = false → s.doBeatMiss n = s.modPort n (fun p => { p with
        state := .down, width := 0, heard := false, nbrMember := false, missed := 0, clash := false, shown := false }))
    ∧ (s.isMember = true → ∀ k < 48, k ≠ n → (s.port k).state = .up → s.linksOpen (mgmtLinks k) = true →
      ∃ m : Mgmt, .mgmt k .linkReport m ∈ (s.doBeatMiss n).fabTx ∧ m.target = s.fabric.captain ∧ m.origin = s.fabric.moduleId
        ∧ m.payload = natLe 8 ((s.port n).nbrId + at' n 12 + at' (s.port n).nbrPort 18)) := by
  rw [doBeatMiss_due hon hdue hmissed hnone]
  generalize hu : s.modPort n silent = u
  have hsame : (u.port n).state ≠ .up ∧ (u.port n).nbrId = (s.port n).nbrId ∧ (u.port n).nbrPort = (s.port n).nbrPort := by
    rw [← hu, port_modPort_same _ hn]
    refine ⟨?_, rfl, rfl⟩
    unfold silent
    dsimp only
    split
    · exact PortState.noConfusion
    · next h => simpa using h
  have hother {k : Nat} (hk : k ≠ n) : u.port k = s.port k := by
    rw [← hu, port_modPort_other _ hk]
  have hmember : u.isMember = s.isMember ∧ u.fabric.captain = s.fabric.captain ∧ u.fabric.moduleId = s.fabric.moduleId := by
    rw [← hu]
    exact ⟨rfl, rfl, rfl⟩
  have hlinks (l : List (Nat × Nat)) : u.linksOpen l = s.linksOpen l := by
    rw [← hu]
    rfl
  refine ⟨?_, fun hout => ?_, fun hin k hk hkn hkUp hkOpen => ?_⟩
  · rw [(reportLink_keepsPorts u n).state]
    exact hsame.1
  · rw [reportLink, if_pos (by simp [hmember.1, hout]), ← hu]
    refine modPort_congr ?_
    have hup : (s.port n).state = .up := by simpa [beatDue, hout] using hdue
    simp [silent, hup]
  · obtain ⟨m, hm, htarget, horigin, hpayload⟩ := reportLink_sends (s := u) (k := k) (by rw [hmember.1, hin]) hk
      (by rw [hother hkn, hkUp]) (by rw [hlinks, hkOpen]) n
    rw [hsame.2.1, hsame.2.2] at hpayload
    exact ⟨m, hm, htarget.trans hmember.2.1, horigin.trans hmember.2.2, hpayload⟩

end State

end Sys2Proof.Machine

namespace Sys2Proof

open Machine Machine.State

/-- Settles O51: the ports train one by one; what goes out on a port whose die can be reached is found in the flood; what the report
of a lost link sets off leaves every port in its state and takes nothing back. -/
theorem modulesDiscoverAndLeave : Obligations.ModulesDiscoverAndLeave := by
  unfold Obligations.ModulesDiscoverAndLeave
  intro s
  refine ⟨fun i hup => ⟨fun hen hleaving => ?_, fun hen => ?_, fun hen hmember => ?_, fun hen hmember hcaptain => ?_,
    fun hen hmember hcaptain hothers => ?_⟩, ?_, fun hen hst hhighest hroster hgroups => ?_, fun hno => ?_,
    fun n m hn hon hport hlen => ?_, fun hon hnone hopen => ?_, fun n hn hon => ?_⟩
  · exact ⟨_, congrArg Host.Outcome.next (atHost_up hup), doFabEnSet_trains hup hen hleaving i.toNat⟩
  · refine congrArg Host.Outcome.next ((atHost_up hup).trans ?_)
    unfold doFabEnSet
    exact if_pos (by simp [hen])
  · rw [show exec (.fabEnClear i) s = .next (s.doFabEnClear i.toNat) from congrArg Host.Outcome.next (atHost_up hup),
      doFabEnClear_out hup hen hmember]
    exact ⟨_, rfl, rfl, rfl, rfl, rfl, fun n hn => fabOff_port _ hn⟩
  · exact ⟨_, congrArg Host.Outcome.next (atHost_up hup), doFabEnClear_leaves hup hen hmember hcaptain i.toNat⟩
  · exact ⟨_, congrArg Host.Outcome.next (atHost_up hup), doFabEnClear_resigns hup hen hmember hcaptain hothers i.toNat⟩
  · refine ⟨_, rfl, fun hno => ?_, fun hleaving => ?_⟩
    · rw [hno]
      rfl
    · rw [if_pos hleaving]
      exact ⟨rfl, rfl, rfl, fun n hn => fabOff_port _ hn, rfl, rfl⟩
  · exact ⟨_, rfl, doFound_founds hen hst hhighest hroster hgroups⟩
  · refine congrArg Host.Outcome.next ?_
    unfold doFound
    refine if_neg ?_
    rcases hno with h | h | h <;> simp [h]
  · have harrives (f : State → State) : s.mgmtArrives n m f = f s := by
      unfold mgmtArrives
      rw [if_neg (by simp [hon, hport]), if_neg (by omega)]
    refine ⟨fun hbit => ?_, fun hbit hst hlinks => ?_, fun hold => ?_, fun hnew habsent => ?_, fun hnew hpresent hlisted => ?_⟩
    · refine congrArg Host.Outcome.next ((harrives _).trans ?_)
      dsimp only
      rw [hbit]
      simp
    · obtain ⟨hnbr, hrequest, hstate, hmem, j, hj, htarget, horigin⟩ := joinHeard_hello hn hport hlinks m
      rw [← doHello_joins harrives hbit hst] at hnbr hrequest hstate hmem hj
      refine ⟨_, j, rfl, ?_, ?_, hrequest, hj, htarget, horigin, hstate.trans hst, hmem⟩ <;> rw [hnbr]
      · rfl
      · exact hbit
    · have hno : s.showsMember n m = false := by
        rw [Bool.eq_false_iff]
        exact fun h => hold (by simpa [showsMember, and_assoc] using h)
      refine congrArg Host.Outcome.next ((harrives _).trans ((doHeartbeat_records (by simp [hno])).trans (modPort_congr ?_)))
      simp [heartbeatFrom, hno]
    · have hyes : s.showsMember n m = true := by simpa [showsMember, and_assoc] using hnew
      refine congrArg Host.Outcome.next ((harrives _).trans ((doHeartbeat_records (by simp [habsent])).trans (modPort_congr ?_)))
      simp [heartbeatFrom, hyes, habsent]
    · have hyes : s.showsMember n m = true := by simpa [showsMember, and_assoc] using hnew
      refine congrArg Host.Outcome.next ((harrives _).trans ((doHeartbeat_records fun _ _ => hlisted).trans (modPort_congr ?_)))
      simp [heartbeatFrom, hyes, hpresent]
  · refine ⟨_, rfl, ?_⟩
    obtain ⟨hsent, hports, hforce, hmem⟩ := doBeat_on hon hnone hopen
    exact ⟨hsent, hports, hforce, hmem⟩
  · have hbeatDue : ((s.port n).state = .up ∨ (s.isMember = true ∧ ∃ l ∈ s.fabric.roster.links,
        l.hasEnd s.fabric.moduleId n = true)) ↔ s.beatDue n = true := by
      simp [beatDue, State.moduleId]
    refine ⟨fun hnot => congrArg Host.Outcome.next ?_, fun hdue hmissed hnone => ⟨_, rfl, ?_⟩⟩
    · rw [hbeatDue] at hnot
      unfold doBeatMiss
      refine if_pos ?_
      rcases hnot with h | h <;> simp [h]
    · exact doBeatMiss_silences hn hon (hbeatDue.1 hdue) hmissed hnone

end Sys2Proof

/-! PROOFS. O55: the power limiter, the fast clamp and POWER_CAP_SET (R466 to R472). -/

namespace Sys2Proof.Machine

/-! ## The step that fits the budget -/

/-- The step found from k down is the highest above 4 that fits, or 4. -/
theorem fitStep_chosen (nona budget : Int) (dyn k : Nat) :
    (4 ≤ fitStep nona dyn budget k ∧ fitStep nona dyn budget k ≤ max 4 k)
    ∧ (4 < fitStep nona dyn budget k → 16 * nona + (dyn : Int) * (fitStep nona dyn budget k : Nat) ≤ 16 * budget)
    ∧ ∀ j, fitStep nona dyn budget k < j → j ≤ k → ¬16 * nona + (dyn : Int) * (j : Nat) ≤ 16 * budget := by
  induction k with
  | zero => exact ⟨⟨Nat.le_refl 4, Nat.le_refl 4⟩, fun h => absurd h (Nat.lt_irrefl 4), fun j h hj => by omega⟩
  | succ k ih =>
    unfold fitStep
    split
    · exact ⟨⟨Nat.le_refl 4, Nat.le_max_left 4 _⟩, fun h => absurd h (Nat.lt_irrefl 4), fun j h hj => by omega⟩
    · split
      · next hk hfits => exact ⟨⟨by omega, Nat.le_max_right 4 _⟩, fun _ => hfits, fun j h hj => by omega⟩
      · next hk hno =>
        obtain ⟨⟨hlo, hhi⟩, hfits, habove⟩ := ih
        refine ⟨⟨hlo, by omega⟩, hfits, fun j hj hle => ?_⟩
        rcases Nat.lt_or_ge k j with hgt | hle'
        · rw [show j = k + 1 by omega]
          exact hno
        · exact habove j hj hle'

namespace State

variable {s : State}

theorem chooseStep_frame (s : State) : s.chooseStep = { s with power := { s.power with
    limStep := s.chooseStep.power.limStep, capUnmet := s.chooseStep.power.capUnmet
    capLimited := s.chooseStep.power.capLimited } } := rfl

theorem chooseStep_chosen (s : State) : ChosenStep s.power s.dynMw s.chooseStep.power.limStep := by
  obtain ⟨⟨hlo, hhi⟩, hfits, habove⟩ := fitStep_chosen ((s.power.pm : Int) - s.power.ea)
    (min (1000 * (s.power.capEff : Int)) (100 * (1000 * (s.power.capEff : Int)) - (s.power.hist.take 99).sum)) s.dynMw 16
  exact ⟨hlo, hhi, hfits, habove⟩

/-- The share of the work depends on the clusters, their domains, and the commands alone. -/
theorem dynMw_congr {t : State} (hclusters : t.clusters = s.clusters) (hdomains : t.power.domains = s.power.domains)
    (hcmds : t.cmds = s.cmds) : t.dynMw = s.dynMw := by
  have hcluster (n : Nat) : t.cluster n = s.cluster n := by
    unfold State.cluster
    rw [hclusters]
  have hdomain (n : Nat) : t.domain n = s.domain n := by
    unfold State.domain
    rw [hdomains]
  have hpowered (n : Nat) : t.clusterPowered n = s.clusterPowered n := by
    unfold clusterPowered
    rw [hdomain]
  have hstands (n : Nat) : t.stands n = s.stands n := by
    funext k
    unfold State.stands underTest
    rw [hcmds]
  unfold dynMw shareMw
  simp only [hcluster, hdomain, hpowered, hstands]

/-! ## An interval end -/

end State

theorem Power.thermal_frame (p : Power) : p.thermal = { p with
    thermStep := p.thermal.thermStep, throttled := p.thermal.throttled, coolIntervals := p.thermal.coolIntervals } := by
  unfold Power.thermal
  dsimp only
  split
  · rfl
  · split
    · split <;> rfl
    · rfl

theorem Power.thermal_hot {p : Power} (h : 105 ≤ p.tHot) :
    p.thermal.thermStep = max 4 (p.thermStep - 1) ∧ p.thermal.coolIntervals = 0 := by
  unfold Power.thermal
  rw [if_pos h]
  exact ⟨rfl, rfl⟩

theorem Power.thermal_warm {p : Power} (h : 102 ≤ p.tHot) (h' : p.tHot < 105) :
    p.thermal.thermStep = p.thermStep ∧ p.thermal.coolIntervals = 0 := by
  unfold Power.thermal
  rw [if_neg (by omega), if_neg (by omega)]
  exact ⟨rfl, rfl⟩

theorem Power.thermal_cool {p : Power} (h : p.tHot < 102) (h' : 9 ≤ p.coolIntervals) :
    p.thermal.thermStep = min 16 (p.thermStep + 1) ∧ p.thermal.coolIntervals = 0 := by
  unfold Power.thermal
  rw [if_neg (by omega), if_pos h, if_pos h']
  exact ⟨rfl, rfl⟩

namespace State

variable {s : State}

/-- From s to t commands complete, with what that leaves of memory, queues, contexts, and of power but the domains. -/
structure CapsSettle (s t : State) : Prop where
  mem : t.mem = s.mem
  sqs : t.sqs = s.sqs
  contexts : t.contexts = s.contexts
  power : { t.power with domains := [] } = { s.power with domains := [] }

theorem finish_capsSettle (s : State) (id : Nat) (k : Compl) : CapsSettle s (s.finish id k) := by
  cases hc : s.cmd? id with
  | none =>
    rw [finish_of_none hc]
    exact ⟨rfl, rfl, rfl, rfl⟩
  | some c =>
    have hkept := (finish_completes hc k).2.1
    exact ⟨hkept.mem, hkept.sqs, hkept.contexts, hkept.power⟩

theorem settleCaps_capsSettle (s : State) : CapsSettle s s.settleCaps := by
  refine foldl_keeps (p := CapsSettle s) (fun t c ht => ?_) s.cmds ⟨rfl, rfl, rfl, rfl⟩
  split
  · have hf := finish_capsSettle t c.id (plainCompl Status.ok)
    exact ⟨hf.mem.trans ht.mem, hf.sqs.trans ht.sqs, hf.contexts.trans ht.contexts, hf.power.trans ht.power⟩
  · exact ht

/-- A POWER_CAP_SET that alone is there, and whose value has come into force, completes with OK. -/
theorem settleCaps_one {c : Cmd} {q : Nat} (hcmds : s.cmds = [c]) (hsrc : c.src = .host q) (hop : c.opcode = 0x901)
    (hrun : c.isRunning = true) (hstage : c.stage = .begun) :
    ∃ d, s.settleCaps.cmd? c.id = some d ∧ d.st = .done { status := 0x000, cycles := s.cycles.toNat } := by
  have hfind : s.cmd? c.id = some c := by simp [cmd?, hcmds]
  have hsettles : s.settleCaps = s.finish c.id (plainCompl Status.ok) := by
    unfold settleCaps
    rw [hcmds]
    exact if_pos (by simp [hop, hrun, hstage])
  have hends := (finish_completes hfind (plainCompl Status.ok)).1
  unfold Ends at hends
  rw [hfind] at hends
  dsimp only at hends
  rw [hsrc] at hends
  obtain ⟨hdone, -⟩ := hends
  rw [hsettles]
  refine ⟨{ c with st := .done { plainCompl Status.ok with cycles := s.cycles.toNat }, stage := .go }, ?_, rfl⟩
  unfold cmd?
  rw [hdone, hcmds]
  simp

/-- What an interval end measures, and the settings that it takes (R468). -/
def intervalInputs (s : State) (pm : Nat) : Power := { s.power with
  limitedBy := s.power.limiting, cfg := { s.power.cfg with force := s.power.cfg.shadow }, pm := pm, ea := s.meanShare
  hist := (pm :: s.power.hist).take 100
  pavg := ((pm :: s.power.hist).take 100).sum / ((pm :: s.power.hist).take 100).length
  clampStep := 16, shareSum := 0, shareTime := 0 }

/-- The power state with which an interval starts, before its step is chosen (R468, R472). -/
def intervalPower (s : State) (pm : Nat) : Power := (s.intervalInputs pm).thermal

/-- The state with which an interval starts. -/
def intervalStart (s : State) (pm : Nat) : State :=
  { s with clusters := s.clusters.map Cluster.takeClasses, power := s.intervalPower pm }

theorem doInterval_settles (hup : s.alive = true) (pm : Nat) : ∃ u : State, s.doInterval pm = u.settleCaps
    ∧ u.power = (s.intervalStart pm).chooseStep.power ∧ u.cmds = s.cmds ∧ u.cycles = s.cycles
    ∧ u.mem = s.mem ∧ u.sqs = s.sqs ∧ u.contexts = s.contexts := by
  unfold doInterval
  rw [if_neg (by simp [hup])]
  refine ⟨_, rfl, ?_⟩
  dsimp only
  split
  · exact ⟨rfl, rfl, rfl, rfl, rfl, rfl⟩
  · exact ⟨rfl, rfl, rfl, rfl, rfl, rfl⟩

end State

end Sys2Proof.Machine

namespace Sys2Proof.Machine.State

variable {s : State}

theorem intervalPower_fields (s : State) (pm : Nat) : (s.intervalPower pm).cfg.force = s.power.cfg.shadow
    ∧ (s.intervalPower pm).clampStep = 16 ∧ (s.intervalPower pm).pm = pm ∧ (s.intervalPower pm).ea = s.meanShare
    ∧ (s.intervalPower pm).shareSum = 0 ∧ (s.intervalPower pm).shareTime = 0
    ∧ (s.intervalPower pm).hist = (pm :: s.power.hist).take 100 ∧ (s.intervalPower pm).domains = s.power.domains := by
  unfold intervalPower
  rw [Power.thermal_frame]
  exact ⟨rfl, rfl, rfl, rfl, rfl, rfl, rfl, rfl⟩

/-! ## A core that reports its class -/

/-- The class is recorded. -/
def classNoted (s : State) (n core cls : Nat) : State :=
  s.modCluster n (fun c => { c with cores := vmod c.cores core (fun k => { k with said := cls, cls := max k.cls cls }) })

theorem report_raised {n core cls : Nat} (h : (vget (s.cluster n).cores core {}).cls < cls) :
    s.report n core cls = (s.classNoted n core cls).chooseStep := if_pos h

theorem report_kept {n core cls : Nat} (h : ¬(vget (s.cluster n).cores core {}).cls < cls) :
    s.report n core cls = s.classNoted n core cls := if_neg h

/-- Beside the step, a report changes the class of its core alone. -/
theorem report_frame (s : State) (n core cls : Nat) : s.report n core cls =
    { s.classNoted n core cls with power := (s.report n core cls).power } := by
  by_cases h : (vget (s.cluster n).cores core {}).cls < cls
  · rw [report_raised h]
    rfl
  · rw [report_kept h]

theorem classNoted_said {n core : Nat} (hn : n < 8) (hcore : core < 28) (cls : Nat) :
    vget ((s.classNoted n core cls).cluster n).cores core {} = { vget (s.cluster n).cores core {} with
      said := cls, cls := max (vget (s.cluster n).cores core {}).cls cls } := by
  have hcluster : (s.classNoted n core cls).cluster n = { s.cluster n with cores := vmod (s.cluster n).cores core (fun k =>
      { k with said := cls, cls := max k.cls cls }) } := cluster_modCluster_same s _ hn
  rw [hcluster]
  exact vget_vmod_same _ _ _ _ hcore

/-! ## POWER_CAP_SET -/

theorem writePwrCfg_frame (s : State) (w : Word64) : s.writePwrCfg w = { s with
    power := { s.power with cfg := { s.power.cfg with shadow := w } }
    cfgLate := { s.cfgLate with power := s.cfgLate.power || s.power.clampStep == 4 } } := by
  unfold writePwrCfg
  dsimp only
  split
  · next h =>
    have hclamp : (s.power.clampStep == 4) = true := h
    rw [hclamp, Bool.or_true]
    rfl
  · next h =>
    have hclamp : (s.power.clampStep == 4) = false := Bool.eq_false_iff.2 h
    rw [hclamp, Bool.or_false]
    rfl

end Sys2Proof.Machine.State

namespace Sys2Proof

open Machine Machine.State

/-- Bits 27:16 set to 12 bits, in a word of 64. -/
theorem bits_setBits_cap (x v : Nat) (hv : v < 2 ^ 12) :
    bits (BitVec.ofNat 64 (setBits x 27 16 v)).toNat 27 16 = v
    ∧ bits (BitVec.ofNat 64 (setBits x 27 16 v)).toNat 15 0 = bits x 15 0 := by
  simp only [bits, setBits, BitVec.toNat_ofNat, Nat.shiftRight_eq_div_pow]
  omega

/-- Settles O55: the step found is the highest that fits, and the commands that complete at an interval end leave the limiter as it
is. -/
theorem limiterChoosesTheStep : Obligations.LimiterChoosesTheStep := by
  unfold Obligations.LimiterChoosesTheStep
  intro s hup
  refine ⟨fun pm ea => ?_, fun n core cls hn hcore hcls => ?_, fun mw ma mv => ?_, fun id c hc hstage hok => ?_⟩
  · obtain ⟨u, hu, hpower, hcmds, hcycles, hmem, hsqs, hcontexts⟩ := doInterval_settles hup pm
    refine ⟨_, rfl, ?_⟩
    rw [hu]
    have hsettles := u.settleCaps_capsSettle
    obtain ⟨htmem, htsqs, htcontexts, htpower⟩ := hsettles
    obtain ⟨hforce, hclamp, hpm, hea, hsum, htime, hhist, hdomains⟩ := s.intervalPower_fields pm
    have hchosen := (s.intervalStart pm).chooseStep_chosen
    rw [dynMw_congr (s := { s with clusters := s.clusters.map Cluster.takeClasses }) (by rfl) hdomains (by rfl)] at hchosen
    have hp : { u.settleCaps.power with domains := [] } = { s.intervalPower pm with
        limStep := (s.intervalStart pm).chooseStep.power.limStep, capUnmet := (s.intervalStart pm).chooseStep.power.capUnmet
        capLimited := (s.intervalStart pm).chooseStep.power.capLimited, domains := [] } := by
      rw [htpower, hpower]
      rfl
    have hfield {α : Type} (f : Power → α) := congrArg f hp
    refine ⟨(hfield (·.cfg.force)).trans hforce, (hfield Power.clampStep).trans hclamp, (hfield Power.pm).trans hpm,
      ((hfield Power.ea).trans hea).trans (by simp [meanShare, keptShare]), (hfield Power.shareSum).trans hsum,
      (hfield Power.shareTime).trans htime, (hfield Power.hist).trans hhist, ?_, fun hhot => ?_, fun hwarm hhot => ?_,
      fun hcool hten => ?_, fun c q hone hsrc hop hrun hstage => ?_, htmem.trans hmem, htsqs.trans hsqs,
      htcontexts.trans hcontexts⟩
    · rw [show u.settleCaps.power.limStep = (s.intervalStart pm).chooseStep.power.limStep from hfield Power.limStep]
      change ChosenStep { u.settleCaps.power with domains := [] } _ _
      rw [hp]
      exact hchosen
    · obtain ⟨hstep, hcool⟩ := Power.thermal_hot (p := s.intervalInputs pm) hhot
      exact ⟨(hfield Power.thermStep).trans hstep, (hfield Power.coolIntervals).trans hcool⟩
    · obtain ⟨hstep, hcool⟩ := Power.thermal_warm (p := s.intervalInputs pm) hwarm hhot
      exact ⟨(hfield Power.thermStep).trans hstep, (hfield Power.coolIntervals).trans hcool⟩
    · obtain ⟨hstep, hcool⟩ := Power.thermal_cool (p := s.intervalInputs pm) hcool hten
      exact ⟨(hfield Power.thermStep).trans hstep, (hfield Power.coolIntervals).trans hcool⟩
    · rw [← hcycles]
      exact settleCaps_one (hcmds.trans hone) hsrc hop hrun hstage
  · refine ⟨_, congrArg Host.Outcome.next (if_neg (by simp [hup])), ?_⟩
    rw [Nat.min_eq_left hcls]
    have hframe := s.report_frame n core cls
    have hnoted := classNoted_said (s := s) hn hcore cls
    have hcluster (m : Nat) : (s.report n core cls).cluster m = (s.classNoted n core cls).cluster m := by
      rw [hframe]
      rfl
    rw [hcluster, hnoted]
    refine ⟨rfl, rfl, fun m hm => ?_, ?_, ?_, fun hraised => ?_, fun hnot => ?_⟩
    · rw [hcluster]
      exact cluster_modCluster_other s _ hm
    · rw [hframe]
      rfl
    · rw [hframe]
      rfl
    · rw [report_raised hraised, dynMw_congr (s := s.classNoted n core cls) (t := (s.classNoted n core cls).chooseStep) rfl rfl rfl]
      exact chooseStep_chosen (s.classNoted n core cls)
    · rw [report_kept (Nat.not_lt.2 hnot)]
      rfl
  · refine ⟨_, rfl, fun hstep hover => ?_, fun hno => ?_⟩
    · rw [doFastClamp, if_pos (by simpa [hup, hstep] using hover)]
      exact ⟨rfl, ctr_bump_same _ _ 1, rfl, rfl⟩
    · refine if_neg ?_
      rcases hno with h | ⟨h, h'⟩
      · simp [h]
      · simp [h, h']
  · obtain ⟨hcmd, hrun, hop⟩ := running?_some hc
    have hexec : exec (.powerCapSet id) s = .next ((s.writePwrCfg (BitVec.ofNat 64
        (setBits s.power.cfg.shadow.toNat 27 16 (bits (c.param 0 4) 11 0)))).setStage id .begun) := by
      refine congrArg Host.Outcome.next ?_
      unfold doPowerCapSet
      rw [hc]
      dsimp only
      rw [hok]
      exact if_neg (by simp [hstage])
    obtain ⟨hset, hkept⟩ := bits_setBits_cap s.power.cfg.shadow.toNat (bits (c.param 0 4) 11 0) (bits_lt _ 11 0)
    refine ⟨_, _, hexec, ?_, ?_, ?_, setStage_cmd? (c := c) ?_ .begun, isRunning_st hrun, rfl, ?_, ?_⟩ <;>
      rw [writePwrCfg_frame]
    · rfl
    · exact hset
    · exact hkept
    · exact hcmd
    · rfl
    · rfl

end Sys2Proof

/-! PROOFS. What a change of one power domain leaves (R474 to R480): the other domains, and the commands that wait for a vote. -/

namespace Sys2Proof.Machine.State

variable {s : State} {c : Nat}

/-! ## One domain -/

/-- The domain is one of those that the state lists. -/
def Listed (s : State) (c : Nat) : Prop := c ∈ s.power.domains.map (fun x => x.1)

theorem domain_unlisted (h : ¬s.Listed c) : s.domain c = {} := by
  have hnone : s.power.domains.find? (fun p => p.1 == c) = none := by
    rw [List.find?_eq_none]
    intro x hx hcode
    exact h (List.mem_map.2 ⟨x, hx, by simpa using hcode⟩)
  rw [State.domain, hnone]
  rfl

theorem listed_of_st (h : (s.domain c).st ≠ .off) : s.Listed c := by
  by_contra hno
  rw [domain_unlisted hno] at h
  exact h rfl

theorem domain_modDomain_listed (h : s.Listed c) (f : Domain → Domain) : (s.modDomain c f).domain c = f (s.domain c) := by
  obtain ⟨x, hx, hcode⟩ := List.mem_map.1 h
  have hkey : ((fun p : Nat × Domain => p.1 == c) ∘ fun d : Nat × Domain => if d.1 == c then (c, f d.2) else d)
      = fun p => p.1 == c := by
    funext d
    simp only [Function.comp_apply]
    split
    · next hd => simpa using hd.symm
    · rfl
  unfold State.domain modDomain State.modPower
  dsimp only
  rw [List.find?_map, hkey]
  cases hfind : s.power.domains.find? (fun p => p.1 == c) with
  | none =>
    rw [List.find?_eq_none] at hfind
    exact absurd (by simpa using hcode) (hfind x hx)
  | some d =>
    have hd := List.find?_some hfind
    simp only [Option.map_some, Option.getD_some, if_pos hd]

theorem domain_modDomain_other {m : Nat} (h : m ≠ c) (f : Domain → Domain) : (s.modDomain c f).domain m = s.domain m := by
  have hkey : ((fun p : Nat × Domain => p.1 == m) ∘ fun d : Nat × Domain => if d.1 == c then (c, f d.2) else d)
      = fun p => p.1 == m := by
    funext d
    simp only [Function.comp_apply]
    split
    · next hd =>
      rw [beq_iff_eq] at hd
      rw [hd]
    · rfl
  unfold State.domain modDomain State.modPower
  dsimp only
  rw [List.find?_map, hkey]
  cases hfind : s.power.domains.find? (fun p => p.1 == m) with
  | none => rfl
  | some d =>
    have hd := List.find?_some hfind
    rw [beq_iff_eq] at hd
    simp [hd, h]

/-- A domain that takes a state. -/
def setSt (s : State) (c : Nat) (st : DomSt) : State := s.modDomain c (fun d => { d with st := st })

theorem setSt_domain (h : s.Listed c) (st : DomSt) : (s.setSt c st).domain c = { s.domain c with st := st } :=
  domain_modDomain_listed h _

theorem setSt_other {m : Nat} (h : m ≠ c) (st : DomSt) : (s.setSt c st).domain m = s.domain m := domain_modDomain_other h _

/-! ## A domain that goes down -/

theorem groupDown_power (s : State) (g : Nat) : (s.groupDown g).power = s.power
    ∧ (s.groupDown g).cmds = s.cmds ∧ (s.groupDown g).mem = s.mem :=
  foldl_keeps (p := fun (t : State) => t.power = s.power ∧ t.cmds = s.cmds ∧ t.mem = s.mem)
    (f := fun (s : State) k => s.modPort (4 * g + k) (fun p => { cable := p.cable })) (fun _ _ ht => ht) _ ⟨rfl, rfl, rfl⟩

/-- A domain that goes down changes no other domain, no command, and memory only where a cluster's buffer is lost. -/
theorem powerDown_frame (s : State) (c : Nat) (st : DomSt) : (s.powerDown c st).power = (s.setSt c st).power
    ∧ (s.powerDown c st).cmds = s.cmds ∧ (8 ≤ c → (s.powerDown c st).mem = s.mem) := by
  unfold powerDown
  dsimp only
  split
  · exact ⟨rfl, rfl, fun h => by omega⟩
  · split
    · obtain ⟨hpower, hcmds, hmem⟩ := (s.setSt c st).groupDown_power (c - 0x30)
      exact ⟨hpower, hcmds, fun _ => hmem⟩
    · exact ⟨rfl, rfl, fun _ => rfl⟩

theorem domain_congr {t : State} (h : t.power = s.power) (m : Nat) : t.domain m = s.domain m := by
  rw [State.domain, State.domain, h]

/-! ## Commands that wait for a vote -/

/-- No command waits for a domain to reach a state. -/
def NoVoteWaits (s : State) : Prop := ∀ x ∈ s.cmds, ∀ a b, x.stage ≠ .domain a b

theorem settleVotes_idle (h : s.NoVoteWaits) : s.settleVotes = s := by
  unfold settleVotes
  refine foldl_same fun x hx => ?_
  split
  · next code want hstage => exact absurd hstage (h x hx code want)
  · rfl

theorem settleVotes_keeps (s : State) : s.settleVotes.mem = s.mem ∧ ∀ m, (s.settleVotes.domain m).st = (s.domain m).st := by
  unfold settleVotes
  refine foldl_keeps (p := fun (t : State) => t.mem = s.mem ∧ ∀ m, (t.domain m).st = (s.domain m).st) (fun t x ht => ?_) s.cmds
    ⟨rfl, fun _ => rfl⟩
  split
  · dsimp only
    split
    · exact ⟨(finish_mem ..).trans ht.1, fun m => (finish_domain_st ..).trans (ht.2 m)⟩
    · exact ht
  · exact ht

/-! ## A domain that follows its votes (R476, R478) -/

theorem settleDomain_running (h : (s.domain c).st.running = true) :
    s.settleDomain c = (s.setSt c (runAs (s.demand c))).settleVotes := by
  unfold settleDomain
  cases hst : (s.domain c).st <;> simp only [hst] at h ⊢
  case idle | active => rfl
  all_goals exact absurd h Bool.noConfusion

theorem settleDomain_nap_wakes (h : (s.domain c).st = .nap) (hvote : 2 ≤ s.demand c)
    (hparent : (s.domain (parentOf c)).st ≠ .failed) : s.settleDomain c = (s.setSt c .waking).settleVotes := by
  unfold settleDomain
  simp only [h]
  rw [if_pos (by simp [hvote, hparent])]
  rfl

theorem settleDomain_nap_drops (h : (s.domain c).st = .nap) (hvote : s.demand c = 0) :
    s.settleDomain c = (s.setSt c (floorOf c)).settleVotes := by
  unfold settleDomain
  simp only [h]
  rw [if_neg (by simp [hvote]), if_pos (by simp [hvote])]
  rfl

theorem settleDomain_waking (h : (s.domain c).st = .waking) : s.settleDomain c = s.settleVotes := by
  unfold settleDomain
  simp only [h]

theorem settleDomain_entering (h : (s.domain c).st = .entering) (hvote : 2 ≤ s.demand c) :
    s.settleDomain c = (s.freeBit.2.setSt c (runAs (s.demand c))).settleVotes
    ∨ s.settleDomain c = ((s.freeBit.2.powerDown c .nap).setSt c .waking).settleVotes := by
  unfold settleDomain
  simp only [h]
  rw [if_neg (by omega)]
  split
  · exact .inl rfl
  · exact .inr rfl

/-- From s to t a domain takes a state, and nothing changes but what it lost on its way. -/
structure TakesState (c : Nat) (s t : State) : Prop where
  same : ∃ st, t.domain c = { s.domain c with st := st }
  other : ∀ m, m ≠ c → t.domain m = s.domain m
  cmds : t.cmds = s.cmds

theorem TakesState.refl (c : Nat) (s : State) : TakesState c s s := ⟨⟨_, rfl⟩, fun _ _ => rfl, rfl⟩

theorem TakesState.trans {t u : State} (h : TakesState c s t) (h' : TakesState c t u) : TakesState c s u := by
  obtain ⟨st, hst⟩ := h.same
  obtain ⟨st', hst'⟩ := h'.same
  exact ⟨⟨st', by rw [hst', hst]⟩, fun m hm => (h'.other m hm).trans (h.other m hm), h'.cmds.trans h.cmds⟩

theorem TakesState.of_power {t u : State} (h : TakesState c s t) (hpower : u.power = t.power) (hcmds : u.cmds = t.cmds) :
    TakesState c s u := by
  obtain ⟨st, hst⟩ := h.same
  exact ⟨⟨st, (domain_congr hpower c).trans hst⟩, fun m hm => (domain_congr hpower m).trans (h.other m hm), hcmds.trans h.cmds⟩

theorem setSt_takesState (s : State) (c : Nat) (st : DomSt) : TakesState c s (s.setSt c st) := by
  refine ⟨?_, fun m hm => setSt_other hm st, rfl⟩
  rcases domain_modDomain s c c (fun d => { d with st := st }) with h | h
  · exact ⟨(s.domain c).st, h⟩
  · exact ⟨st, h⟩

theorem settleDomain_takesState (hnone : s.NoVoteWaits) (c : Nat) :
    TakesState c s (s.settleDomain c) ∧ ((s.domain c).st ≠ .entering → (s.settleDomain c).mem = s.mem) := by
  have hquiet {t : State} (ht : t.cmds = s.cmds) : t.settleVotes = t := settleVotes_idle (by
    unfold NoVoteWaits
    rw [ht]
    exact hnone)
  have hset (st : DomSt) : TakesState c s (s.setSt c st).settleVotes
      ∧ ((s.domain c).st ≠ .entering → (s.setSt c st).settleVotes.mem = s.mem) := by
    rw [hquiet (t := s.setSt c st) rfl]
    exact ⟨setSt_takesState s c st, fun _ => rfl⟩
  have hself : TakesState c s s.settleVotes ∧ ((s.domain c).st ≠ .entering → s.settleVotes.mem = s.mem) := by
    rw [hquiet rfl]
    exact ⟨.refl c s, fun _ => rfl⟩
  have hfree : TakesState c s s.freeBit.2 := (TakesState.refl c s).of_power rfl rfl
  have hdown : TakesState c s (s.freeBit.2.powerDown c .nap) := by
    obtain ⟨hpower, hcmds, -⟩ := s.freeBit.2.powerDown_frame c .nap
    exact (hfree.trans (setSt_takesState _ c .nap)).of_power hpower hcmds
  unfold settleDomain
  dsimp only
  split
  · exact hset _
  · exact hset _
  · split
    · exact hset _
    · split
      · exact hset _
      · exact hself
  · split
    · exact hself
    · split
      · exact hset _
      · split
        · exact hset _
        · exact hself
  · next hst =>
    refine ⟨?_, fun h => absurd hst h⟩
    split
    · exact hself.1
    · split
      · have h := hfree.trans (setSt_takesState s.freeBit.2 c (runAs (s.demand c)))
        rw [hquiet (t := s.freeBit.2.modDomain c _) h.cmds]
        exact h
      · have h := hdown.trans (setSt_takesState _ c .waking)
        rw [hquiet (t := (s.freeBit.2.powerDown c .nap).modDomain c _) h.cmds]
        exact h
  · exact hself

theorem host_le_demand (s : State) (c : Nat) : (s.domain c).host ≤ s.demand c := by
  unfold demand ownDemand
  dsimp only
  omega

theorem runAs_active {v : Nat} (h : 3 ≤ v) : runAs v = .active := if_pos h

end Sys2Proof.Machine.State

/-! PROOFS. O56: power domains, votes, wakes, and a changed DIMM (R474 to R481, R533). -/

namespace Sys2Proof.Machine

/-! ## Memory of which a range is gone -/

theorem Mem.drop_byte {m : Mem} {lo n a : Nat} (h : a < lo ∨ lo + n ≤ a) : (m.drop lo n).byte a = m.byte a := by
  have hcells : lookupCell a (m.drop lo n).cells = lookupCell a m.cells :=
    lookupCell_filter (p := fun x => decide (x < lo) || decide (lo + n ≤ x)) (by simpa using h) m.cells
  unfold Mem.byte
  rw [hcells]
  rfl

theorem Mem.drop_lost {m : Mem} {lo n a : Nat} (hundef : m.undef = []) (h : lo ≤ a) (h' : a < lo + n) : (m.drop lo n).byte a = 0#8 := by
  have hcells (l : List Host.Cell) : lookupCell a (l.filter (fun c => decide (c.1 < lo) || decide (lo + n ≤ c.1))) = 0#8 := by
    induction l with
    | nil => rfl
    | cons x r ih =>
      rw [List.filter_cons]
      split
      · next hx =>
        have hne : x.1 ≠ a := by
          simp only [Bool.or_eq_true, decide_eq_true_eq] at hx
          omega
        simp only [lookupCell, ih]
        simp [hne]
      · exact ih
  have hdefined : (m.drop lo n).isUndef a = false := by simp [Mem.isUndef, Mem.drop, hundef]
  rw [Mem.byte, hdefined]
  exact hcells m.cells

end Sys2Proof.Machine

namespace Sys2Proof.Machine.State

variable {s : State} {c : Nat}

/-! ## POWER_VOTE of the host -/

/-- The host's vote is recorded. -/
def voted (s : State) (d v : Nat) : State := s.modDomain d (fun x => { x with host := v })

theorem powerVote_acts {id q : Nat} {c : Cmd} (hc : s.running? id 0x900 = some c) (hsrc : c.src = .host q) (hstage : c.stage = .go)
    (hok : worst (s.powerVoteStart c).rejs = none) (hwait : bit (c.param 0 4) 12 = false)
    (hacts : ¬(0x20 ≤ bits (c.param 0 4) 7 0 ∧ bits (c.param 0 4) 7 0 < 0x2C ∧ (s.domain (bits (c.param 0 4) 7 0)).inService = false)) :
    s.doPowerVote id = ((s.voted (bits (c.param 0 4) 7 0) (bits (c.param 0 4) 9 8)).settleDomain (bits (c.param 0 4) 7 0)).finish id
      (plainCompl Status.ok) := by
  unfold doPowerVote
  rw [hc]
  dsimp only
  rw [hok, if_neg (by simp [hstage])]
  dsimp only
  rw [if_neg (by simpa [and_assoc] using hacts)]
  rw [hsrc]
  dsimp only
  rw [hwait]
  rfl

theorem powerVote_ignored {id : Nat} {c : Cmd} (hc : s.running? id 0x900 = some c) (hstage : c.stage = .go)
    (hok : worst (s.powerVoteStart c).rejs = none)
    (hignored : 0x20 ≤ bits (c.param 0 4) 7 0 ∧ bits (c.param 0 4) 7 0 < 0x2C ∧ (s.domain (bits (c.param 0 4) 7 0)).inService = false) :
    s.doPowerVote id = s.finish id (plainCompl Status.ok) := by
  unfold doPowerVote
  rw [hc]
  dsimp only
  rw [hok, if_neg (by simp [hstage])]
  dsimp only
  rw [if_pos (by simpa [and_assoc] using hignored)]

/-- What a domain becomes that the host votes for, while no command waits for a vote. -/
theorem settleDomain_voted {d v : Nat} (hnone : s.NoVoteWaits) (hlisted : s.Listed d) :
    let u := (s.voted d v).settleDomain d
    (u.domain d).host = v ∧ (∀ m, m ≠ d → u.domain m = s.domain m)
    ∧ ((s.domain d).st = .nap → 2 ≤ v → (s.domain (parentOf d)).st ≠ .failed → (u.domain d).st = .waking)
    ∧ ((s.domain d).st = .idle → v = 3 → (u.domain d).st = .active)
    ∧ ((s.domain d).st = .waking → (u.domain d).st = .waking)
    ∧ ((s.domain d).st ≠ .entering → u.mem = s.mem) ∧ u.cmds = s.cmds := by
  have hvoted : (s.voted d v).domain d = { s.domain d with host := v } := domain_modDomain_listed hlisted _
  have hother (m : Nat) (hm : m ≠ d) : (s.voted d v).domain m = s.domain m := domain_modDomain_other hm _
  have hwaits : (s.voted d v).NoVoteWaits := hnone
  have hdemand : v ≤ (s.voted d v).demand d := by
    have h := host_le_demand (s.voted d v) d
    rw [hvoted] at h
    exact h
  have hvlisted : (s.voted d v).Listed d := by
    unfold Listed at hlisted ⊢
    obtain ⟨x, hx, hcode⟩ := List.mem_map.1 hlisted
    refine List.mem_map.2 ⟨_, List.mem_map.2 ⟨x, hx, rfl⟩, ?_⟩
    dsimp only
    split
    · rfl
    · exact hcode
  have hquiet (st : DomSt) : ((s.voted d v).setSt d st).settleVotes = (s.voted d v).setSt d st :=
    settleVotes_idle (s := (s.voted d v).setSt d st) hwaits
  obtain ⟨htakes, hmem⟩ := settleDomain_takesState hwaits d
  obtain ⟨st, hst⟩ := htakes.same
  dsimp only
  refine ⟨by rw [hst, hvoted], fun m hm => (htakes.other m hm).trans (hother m hm), fun hnap hv hparent => ?_, fun hidle hv => ?_,
    fun hwaking => ?_, fun hne => hmem (by rw [hvoted]; exact hne), htakes.cmds⟩
  · have hne : parentOf d ≠ d → (s.voted d v).domain (parentOf d) = s.domain (parentOf d) := hother _
    have hdead : ((s.voted d v).domain (parentOf d)).st ≠ .failed := by
      by_cases hp : parentOf d = d
      · rw [hp, hvoted]
        dsimp only
        rw [hnap]
        exact DomSt.noConfusion
      · rw [hne hp]
        exact hparent
    rw [settleDomain_nap_wakes (by rw [hvoted]; exact hnap) (by omega) hdead, hquiet, setSt_domain hvlisted]
  · rw [settleDomain_running (by rw [hvoted]; simp [DomSt.running, hidle]), hquiet, setSt_domain hvlisted]
    exact runAs_active (by omega)
  · rw [settleDomain_waking (by rw [hvoted]; exact hwaking), settleVotes_idle hwaits, hvoted]
    exact hwaking

/-! ## A domain that enters NAP or its floor -/

theorem groupDown_port (s : State) {g k : Nat} (hg : g < 12) (hk : k < 4) :
    (s.groupDown g).port (4 * g + k) = { cable := (s.port (4 * g + k)).cable } := by
  have hdown (l : List Nat) (u : State) : ∀ k < 4, (l.foldl (fun (s : State) k => s.modPort (4 * g + k) (fun p =>
      { cable := p.cable })) u).port (4 * g + k) = if k ∈ l then { cable := (u.port (4 * g + k)).cable } else u.port (4 * g + k) := by
    induction l generalizing u with
    | nil => exact fun k _ => rfl
    | cons x r ih =>
      intro k hk
      rw [List.foldl_cons, ih _ k hk]
      by_cases hx : k = x
      · subst hx
        rw [port_modPort_same _ (by omega), if_pos List.mem_cons_self]
        split <;> rfl
      · rw [port_modPort_other _ (by omega)]
        simp [hx]
  refine (hdown (List.range 4) s k hk).trans (if_pos (List.mem_range.2 hk))

/-- A command of the host that completes leaves the domains. -/
theorem finish_host_power {id q : Nat} {c : Cmd} (hc : s.cmd? id = some c) (hsrc : c.src = .host q) (k : Compl) :
    (s.finish id k).power = s.power := by
  have hends := (finish_completes hc k).1
  unfold Ends at hends
  rw [hc] at hends
  dsimp only at hends
  rw [hsrc] at hends
  exact hends.2.2.2

/-! ## Children -/

theorem not_mem_childrenOf_self (h : isPrivileged c = true) : c ∉ childrenOf c := by
  intro hc
  have hparent : parentOf c = c := by simpa using (List.mem_filter.1 hc).2
  have hrange : 0x50 ≤ c ∧ c ≤ 0x55 := by simpa [isPrivileged] using h
  unfold parentOf at hparent
  grind

theorem foldl_modDomain_other (f : State → Nat → Domain → Domain) {l : List Nat} (h : c ∉ l) (s : State) :
    (l.foldl (fun (t : State) k => t.modDomain k (f t k)) s).domain c = s.domain c := by
  induction l generalizing s with
  | nil => rfl
  | cons x r ih =>
    rw [List.mem_cons, not_or] at h
    exact (ih h.2 _).trans (domain_modDomain_other h.1 _)

theorem setSt_off (s : State) (c : Nat) : ((s.setSt c .off).domain c).st = .off := by
  by_cases h : s.Listed c
  · rw [setSt_domain h]
  · have hno : ¬(s.setSt c .off).Listed c := by
      intro hl
      obtain ⟨x, hx, hcode⟩ := List.mem_map.1 hl
      obtain ⟨y, hy, rfl⟩ := List.mem_map.1 hx
      refine h (List.mem_map.2 ⟨y, hy, ?_⟩)
      dsimp only at hcode
      split at hcode
      · next hyc => simpa using hyc
      · exact hcode
    rw [domain_unlisted hno]

theorem foldl_setSt_off {l : List Nat} (h : c ∈ l) (s : State) :
    ((l.foldl (fun (t : State) k => t.setSt k .off) s).domain c).st = .off := by
  induction l generalizing s with
  | nil => simp at h
  | cons x r ih =>
    by_cases hr : c ∈ r
    · exact ih hr _
    · rcases List.mem_cons.1 h with rfl | hr'
      · have hrest := foldl_modDomain_other (fun _ _ d => { d with st := .off }) hr (s.setSt c .off)
        exact (congrArg Domain.st hrest).trans (setSt_off s c)
      · exact absurd hr' hr

/-- A change of domains leaves memory and whether a wake failed. -/
theorem foldl_modDomain_frame (f : State → Nat → Domain → Domain) (l : List Nat) (s : State) :
    (l.foldl (fun (t : State) k => t.modDomain k (f t k)) s).mem = s.mem
    ∧ (l.foldl (fun (t : State) k => t.modDomain k (f t k)) s).power.wakeFail = s.power.wakeFail :=
  foldl_keeps (p := fun (t : State) => t.mem = s.mem ∧ t.power.wakeFail = s.power.wakeFail)
    (f := fun (t : State) k => t.modDomain k (f t k)) (fun _ _ ht => ht) l ⟨rfl, rfl⟩

/-! ## DOMAIN_ENTRY -/

/-- POST has ended on a module that runs, and domains may enter NAP or their floor. -/
structure Enters (s : State) : Prop where
  alive : s.alive = true
  post : s.errors.postDone ≠ 0#8
  calm : s.errors.postRunning = false

theorem Enters.ready (h : s.Enters) : ¬(!s.alive || s.errors.postDone == 0#8 || s.errors.postRunning) = true := by
  simp [h.alive, h.post, h.calm]

theorem doDomainEntry_stays (h : s.Enters) (hrun : (s.domain c).st.running = true) (hvote : 2 ≤ s.demand c) :
    s.doDomainEntry c = s := by
  unfold doDomainEntry
  rw [if_neg h.ready]
  cases hst : (s.domain c).st <;> simp only [hst] at hrun ⊢
  case idle | active => exact if_pos hvote
  all_goals exact absurd hrun Bool.noConfusion

theorem doDomainEntry_starts (h : s.Enters) (hrun : (s.domain c).st.running = true) (hvote : s.demand c ≤ 1) :
    s.doDomainEntry c = s.setSt c .entering := by
  unfold doDomainEntry
  rw [if_neg h.ready]
  cases hst : (s.domain c).st <;> simp only [hst] at hrun ⊢
  case idle | active => exact if_neg (by omega)
  all_goals exact absurd hrun Bool.noConfusion

theorem doDomainEntry_late (h : s.Enters) (hst : (s.domain c).st = .entering) (hvote : 2 ≤ s.demand c) :
    s.doDomainEntry c = s.settleDomain c := by
  unfold doDomainEntry
  rw [if_neg h.ready]
  simp only [hst]
  exact if_pos hvote

theorem doDomainEntry_ends (h : s.Enters) (hst : (s.domain c).st = .entering) (hvote : s.demand c ≤ 1) :
    s.doDomainEntry c = s.powerDown c (s.entryState c) := by
  unfold doDomainEntry
  rw [if_neg h.ready]
  simp only [hst]
  exact if_neg (by omega)

theorem doDomainEntry_nap (h : s.Enters) (hst : (s.domain c).st = .nap) : s.doDomainEntry c = s.settleDomain c := by
  unfold doDomainEntry
  rw [if_neg h.ready]
  simp only [hst]

/-- A vote that comes during an entry abandons it, or finds its end and wakes the domain. -/
theorem settleDomain_late (hst : (s.domain c).st = .entering) (hvote : 2 ≤ s.demand c) :
    (((s.settleDomain c).domain c).st = (if 3 ≤ s.demand c then .active else .idle) ∧ (s.settleDomain c).mem = s.mem)
    ∨ ((s.settleDomain c).domain c).st = .waking := by
  have hlisted : s.freeBit.2.Listed c := listed_of_st (s := s.freeBit.2) (by
    show (s.domain c).st ≠ .off
    rw [hst]
    exact DomSt.noConfusion)
  rcases settleDomain_entering hst hvote with h | h <;> rw [h]
  · obtain ⟨hmem, hdomain⟩ := settleVotes_keeps (s.freeBit.2.setSt c (runAs (s.demand c)))
    exact .inl ⟨by rw [hdomain, setSt_domain hlisted]; rfl, hmem⟩
  · obtain ⟨-, hdomain⟩ := settleVotes_keeps ((s.freeBit.2.powerDown c .nap).setSt c .waking)
    have hdown : (s.freeBit.2.powerDown c .nap).Listed c := listed_of_st (by
      rw [domain_congr (powerDown_frame ..).1, setSt_domain hlisted]
      exact DomSt.noConfusion)
    exact .inr (by rw [hdomain, setSt_domain hdown])

theorem floorOf_eq (c : Nat) : floorOf c = if c < 8 ∨ (0x30 ≤ c ∧ c < 0x3C) then .off else .nap := by
  simp [floorOf]

/-- What an entry that ends leaves: its domain in its state, the other domains, and all memory but a cluster's buffer. -/
theorem powerDown_ends (h : (s.domain c).st = .entering) (st : DomSt) : ((s.powerDown c st).domain c).st = st
    ∧ ∀ m, m ≠ c → (s.powerDown c st).domain m = s.domain m := by
  have hpower := (s.powerDown_frame c st).1
  refine ⟨?_, fun m hm => ?_⟩
  · rw [domain_congr hpower, setSt_domain (listed_of_st (by rw [h]; exact DomSt.noConfusion))]
  · rw [domain_congr hpower, setSt_other hm]

theorem powerDown_cluster (s : State) {c : Nat} (hc : c < 8) (st : DomSt) :
    (s.powerDown c st).mem = s.mem.drop (bufLoc c 0) (2 ^ 26) := by
  unfold powerDown
  dsimp only
  rw [if_pos hc]
  rfl

theorem powerDown_group (s : State) {g k : Nat} (hg : g < 12) (hk : k < 4) (st : DomSt) :
    (s.powerDown (0x30 + g) st).port (4 * g + k) = { cable := (s.port (4 * g + k)).cable } := by
  unfold powerDown
  dsimp only
  rw [if_neg (by omega), if_pos (by
    simp only [Bool.and_eq_true, decide_eq_true_eq]
    omega), Nat.add_sub_cancel_left]
  exact groupDown_port _ hg hk

theorem entryEnds (hst : (s.domain c).st = .entering) :
    let t := s.powerDown c (s.entryState c)
    (t.domain c).st = (if s.demand c = 1 then .nap else if c < 8 ∨ (0x30 ≤ c ∧ c < 0x3C) then .off else .nap)
    ∧ (∀ m, m ≠ c → t.domain m = s.domain m)
    ∧ (c < 8 → s.mem.undef = [] → (∀ o < 2 ^ 26, t.mem.byte (bufLoc c o) = 0#8) ∧ ∀ a < 2 ^ 52, t.mem.byte a = s.mem.byte a)
    ∧ (8 ≤ c → t.mem = s.mem)
    ∧ (0x30 ≤ c → c < 0x3C → ∀ k < 4,
        t.port (4 * (c - 0x30) + k) = { cable := (s.port (4 * (c - 0x30) + k)).cable }) := by
  obtain ⟨hdomain, hother⟩ := powerDown_ends hst (s.entryState c)
  refine ⟨?_, hother, fun hc hundef => ⟨fun o ho => ?_, fun a ha => ?_⟩, (s.powerDown_frame c _).2.2, fun hlo hhi k hk => ?_⟩
  · rw [hdomain, entryState, floorOf_eq]
    simp
  · rw [powerDown_cluster s hc]
    exact Mem.drop_lost hundef (by simp [bufLoc]) (by unfold bufLoc; omega)
  · rw [powerDown_cluster s hc]
    exact Mem.drop_byte (.inl (by unfold bufLoc; omega))
  · obtain ⟨g, rfl⟩ := Nat.exists_eq_add_of_le hlo
    rw [Nat.add_sub_cancel_left]
    exact powerDown_group s (by omega) hk _

/-! ## Wakes -/

/-- A domain that wakes, and that no Referee's sequence wakes. -/
structure Wakes (s : State) (c : Nat) : Prop where
  alive : s.alive = true
  plain : isPrivileged c = false
  link : c ≠ 0x40
  waking : (s.domain c).st = .waking

theorem Wakes.calm (h : Wakes s c) : ¬(s.alive && (s.domain c).st == .entering) = true := by simp [h.waking]

theorem doDomainWake_failed (h : Wakes s c) (hparent : (s.domain (parentOf c)).st = .failed) : s.doDomainWake c = s := by
  unfold doDomainWake
  rw [if_neg h.calm]
  exact if_pos (by simp [hparent])

theorem doDomainWake_parent (h : Wakes s c) (hown : parentOf c ≠ 0x60) (hparent : (s.domain (parentOf c)).st = .nap) :
    s.doDomainWake c = s.modDomain (parentOf c) (fun d => { d with
      st := if d.st == .nap then .waking else d.st, referee := 3 }) := by
  unfold doDomainWake
  rw [if_neg h.calm]
  dsimp only
  rw [if_neg (by simp [h.alive, h.plain, h.link, h.waking, hparent])]
  exact if_pos (by simp [hown, hparent, DomSt.running])

theorem doDomainWake_wakes (h : Wakes s c) (hparent : (s.domain (parentOf c)).st.running = true) :
    s.doDomainWake c = (((s.setSt c .active).broughtUp c .waking).settleVotes).flushQueue := by
  have hup : (s.domain (parentOf c)).st ≠ .failed := by
    intro hfailed
    rw [hfailed] at hparent
    exact Bool.noConfusion hparent
  unfold doDomainWake
  rw [if_neg h.calm]
  dsimp only
  rw [if_neg (by simp [h.alive, h.plain, h.link, h.waking, hup]), if_neg (by simp [hparent]), h.waking]
  rfl

theorem trainPort_power (s : State) (n : Nat) : (s.trainPort n).power = s.power ∧ (s.trainPort n).mem = s.mem
    ∧ (s.trainPort n).cmds = s.cmds := by
  have h := s.trainPort_ports n
  unfold OnlyPorts at h
  rw [h]
  exact ⟨rfl, rfl, rfl⟩

theorem broughtUp_frame (s : State) {c : Nat} (was : DomSt) (h : c < 0x20 ∨ 0x2C ≤ c) :
    (s.broughtUp c was).power = s.power ∧ (s.broughtUp c was).mem = s.mem ∧ (s.broughtUp c was).cmds = s.cmds := by
  unfold broughtUp
  rw [if_neg (by
    simp only [Bool.and_eq_true, decide_eq_true_eq, not_and]
    omega)]
  split
  · refine foldl_keeps (p := fun (t : State) => t.power = s.power ∧ t.mem = s.mem ∧ t.cmds = s.cmds)
      (f := fun (s : State) k => s.trainPort (4 * (c - 0x30) + k)) (fun t k ht => ?_) _ ⟨rfl, rfl, rfl⟩
    obtain ⟨hpower, hmem, hcmds⟩ := t.trainPort_power (4 * (c - 0x30) + k)
    exact ⟨hpower.trans ht.1, hmem.trans ht.2.1, hcmds.trans ht.2.2⟩
  · exact ⟨rfl, rfl, rfl⟩

theorem flushQueue_power (s : State) : s.flushQueue.power = s.power ∧ s.flushQueue.mem = s.mem := by
  have h := (flushQueue_routes s).only
  unfold OnlyRoutes at h
  rw [h]
  exact ⟨rfl, rfl⟩

theorem doDomainWake_ends (hwakes : Wakes s c) (hnone : s.NoVoteWaits) (hparent : (s.domain (parentOf c)).st.running = true)
    (hddr : c < 0x20 ∨ 0x2C ≤ c) : ((s.doDomainWake c).domain c).st = .active
      ∧ (∀ m, m ≠ c → (s.doDomainWake c).domain m = s.domain m) ∧ (s.doDomainWake c).mem = s.mem := by
  rw [doDomainWake_wakes hwakes hparent]
  obtain ⟨hpower, hmem, hcmds⟩ := (s.setSt c .active).broughtUp_frame .waking hddr
  generalize State.broughtUp _ c .waking = u at hpower hmem hcmds
  have hidle : u.settleVotes = u := settleVotes_idle (by
    unfold NoVoteWaits
    rw [hcmds]
    exact hnone)
  rw [hidle]
  obtain ⟨hpower', hmem'⟩ := u.flushQueue_power
  simp only [domain_congr (hpower'.trans hpower)]
  exact ⟨by rw [setSt_domain (listed_of_st (by rw [hwakes.waking]; exact DomSt.noConfusion))], fun m hm => setSt_other hm _,
    hmem'.trans hmem⟩

theorem doPrivilegedWake_fails (hup : s.alive = true) (hpriv : isPrivileged c = true) (hst : (s.domain c).st = .waking)
    (w : WakeStep) : s.doPrivilegedWake c (some w) = (childrenOf c).foldl (fun (t : State) k => t.setSt k .off)
      ((s.setSt c .failed).modPower (fun p => { p with wakeFail := true })) := by
  unfold doPrivilegedWake
  dsimp only
  rw [if_neg (by simp [hup, hpriv, hst])]
  rfl

/-- A wake that fails takes the children down, and nothing else. -/
theorem childrenOff (hpriv : isPrivileged c = true) (hst : (s.domain c).st = .waking) :
    let t := (childrenOf c).foldl (fun (t : State) k => t.setSt k .off)
      ((s.setSt c .failed).modPower (fun p => { p with wakeFail := true }))
    (t.domain c).st = .failed ∧ t.power.wakeFail = true ∧ (∀ k ∈ childrenOf c, (t.domain k).st = .off)
    ∧ (∀ m, m ≠ c → m ∉ childrenOf c → t.domain m = s.domain m) ∧ t.mem = s.mem := by
  have hlisted := listed_of_st (s := s) (c := c) (by rw [hst]; exact DomSt.noConfusion)
  have hframe := foldl_modDomain_frame (fun _ _ d => { d with st := .off }) (childrenOf c)
    ((s.setSt c .failed).modPower (fun p => { p with wakeFail := true }))
  have hother {m : Nat} (hm : m ∉ childrenOf c) := foldl_modDomain_other (fun _ _ d => { d with st := .off }) hm
    ((s.setSt c .failed).modPower (fun p => { p with wakeFail := true }))
  refine ⟨?_, hframe.2, fun k hk => foldl_setSt_off hk _, fun m hm hmc => (hother hmc).trans (setSt_other hm _), hframe.1⟩
  refine (congrArg Domain.st (hother (not_mem_childrenOf_self hpriv))).trans ?_
  exact congrArg Domain.st (setSt_domain hlisted .failed)

/-- The Referee's sequence ends with the domain ACTIVE; what wakes after it changes neither that nor memory. -/
theorem doPrivilegedWake_ends (hup : s.alive = true) (hpriv : isPrivileged c = true) (hst : (s.domain c).st = .waking) :
    (s.doPrivilegedWake c none).domain c = { s.domain c with st := .active, referee := 3 }
    ∧ (s.doPrivilegedWake c none).power.wakeFail = s.power.wakeFail ∧ (s.doPrivilegedWake c none).mem = s.mem := by
  have hactive : (s.modDomain c (fun d => { d with st := .active, referee := 3 })).domain c
      = { s.domain c with st := .active, referee := 3 } :=
    domain_modDomain_listed (listed_of_st (by rw [hst]; exact DomSt.noConfusion)) _
  unfold doPrivilegedWake
  dsimp only
  rw [if_neg (by simp [hup, hpriv, hst])]
  generalize hu : s.modDomain c (fun d => { d with st := .active, referee := 3 }) = u at hactive
  have hkeeps : u.power.wakeFail = s.power.wakeFail ∧ u.mem = s.mem := by
    rw [← hu]
    exact ⟨rfl, rfl⟩
  split
  · have hne : c ≠ 0x40 := by
      rintro rfl
      exact absurd hpriv (by decide)
    exact ⟨(domain_modDomain_other hne _).trans hactive, hkeeps⟩
  · have hother := foldl_modDomain_other (fun t _ d =>
      if d.inService && d.st == .off && t.errors.postDone == 0#8 then { d with st := .waking } else d)
      (not_mem_childrenOf_self hpriv) u
    have hframe := foldl_modDomain_frame (fun t _ d =>
      if d.inService && d.st == .off && t.errors.postDone == 0#8 then { d with st := .waking } else d) (childrenOf c) u
    generalize List.foldl _ u (childrenOf c) = v at hother hframe
    obtain ⟨hpower, hmem⟩ := v.flushQueue_power
    exact ⟨(domain_congr hpower c).trans (hother.trans hactive), (congrArg Power.wakeFail hpower).trans
      (hframe.2.trans hkeeps.1), hmem.trans (hframe.1.trans hkeeps.2)⟩

/-! ## A DIMM that is changed -/

/-- The size of what a channel's trained DIMM held. -/
def ddrSize (s : State) (n : Nat) : Nat := (vget s.memside.ddr n {}).gib * 2 ^ 30

/-- The memory that a changed DIMM leaves. -/
def dimmGone (s : State) (n : Nat) : Mem :=
  if s.power.ao && s.ddrSize n != 0 then { s.mem.drop (ddrBase n) 0x4000000000 with
    undef := s.mem.undef ++ [(ddrBase n, ddrBase n + s.ddrSize n - 1)] }
  else s.mem.drop (ddrBase n) 0x4000000000

theorem doDimmChange_eq (s : State) (n : Nat) (d : Option Dimm) : s.doDimmChange n d = (s.modMemside (fun m => { m with
    sockets := vset m.sockets n d
    ddrUndef := if s.power.ao then m.ddrUndef ||| BitVec.ofNat 12 (2 ^ n) else m.ddrUndef })).setMem (s.dimmGone n) :=
  (apply_ite (State.setMem _) _ _ _).symm

theorem doDimmChange_frame (s : State) {n : Nat} (hn : n < 12) (d : Option Dimm) :
    vget (s.doDimmChange n d).memside.sockets n none = d ∧ (s.doDimmChange n d).memside.ddr = s.memside.ddr
    ∧ (s.doDimmChange n d).cmds = s.cmds
    ∧ (s.power.ao = true → (s.doDimmChange n d).memside.ddrUndef.getLsbD n = true) := by
  rw [doDimmChange_eq]
  refine ⟨vget_vmod_same _ _ _ _ hn, rfl, rfl, fun hao => ?_⟩
  rw [setMem_memside, modMemside_memside]
  dsimp only
  rw [if_pos hao, BitVec.getLsbD_or, BitVec.getLsbD_ofNat, Nat.testBit_two_pow_self, decide_eq_true hn]
  simp

theorem dimmGone_byte (s : State) (n : Nat) {a : Nat} (h : a < ddrBase n ∨ ddrBase n + max (2 ^ 38) (s.ddrSize n) ≤ a) :
    (s.dimmGone n).byte a = s.mem.byte a := by
  have hdrop : (s.mem.drop (ddrBase n) 0x4000000000).byte a = s.mem.byte a := Mem.drop_byte (by omega)
  unfold dimmGone
  split
  · next hsize =>
    have hout : ¬(ddrBase n ≤ a ∧ a ≤ ddrBase n + s.ddrSize n - 1) := by
      simp only [Bool.and_eq_true, bne_iff_ne, ne_eq] at hsize
      omega
    have hdefined : (decide (ddrBase n ≤ a) && decide (a ≤ ddrBase n + s.ddrSize n - 1)) = false := by
      rw [← Bool.decide_and]
      exact decide_eq_false hout
    have hundef : ({ s.mem.drop (ddrBase n) 0x4000000000 with
        undef := s.mem.undef ++ [(ddrBase n, ddrBase n + s.ddrSize n - 1)] } : Mem).isUndef a
        = (s.mem.drop (ddrBase n) 0x4000000000).isUndef a := by
      show (s.mem.undef ++ [(ddrBase n, ddrBase n + s.ddrSize n - 1)]).any _ = _
      rw [List.any_append, List.any_cons, List.any_nil, Bool.or_false, hdefined, Bool.or_false]
      rfl
    rw [← hdrop]
    unfold Mem.byte
    rw [hundef]
  · exact hdrop

end Sys2Proof.Machine.State

namespace Sys2Proof

open Machine Machine.State

/-- Settles O56: a change of one domain leaves the others, and what a domain does next follows from its state and the highest vote
for it. -/
theorem domainsFollowTheirVotes : Obligations.DomainsFollowTheirVotes := by
  unfold Obligations.DomainsFollowTheirVotes
  intro s
  refine ⟨fun id c q hc hsrc hstage hok hwait hnone => ⟨fun hignored => ?_, fun hacts hlisted => ?_⟩,
    fun hup => ⟨fun c hpost hpostRun => ⟨fun hrun hvote => ?_, fun hrun hvote => ?_, fun hst hvote => ?_, fun hst hvote => ?_,
      fun hst hvote => ?_⟩, fun c hpriv hlink hst hnone => ⟨fun hown hparent => ?_, fun hparent hddr => ?_, fun hparent => ?_⟩,
      fun c hpriv hst => ⟨fun w => ?_, ?_⟩, fun c hlo hhi => ?_⟩, fun n d hn => ?_⟩
  · obtain ⟨hcmd, -, -⟩ := running?_some hc
    exact ⟨_, congrArg Host.Outcome.next (powerVote_ignored hc hstage hok hignored), finish_completes hcmd _⟩
  · obtain ⟨hcmd, -, -⟩ := running?_some hc
    have hsettled := settleDomain_voted (v := bits (c.param 0 4) 9 8) hnone hlisted
    have hexec := powerVote_acts hc hsrc hstage hok hwait hacts
    dsimp only at hsettled
    generalize State.settleDomain _ _ = u at hsettled hexec
    obtain ⟨hhost, hother, hnap, hidle, hwaking, hmem, hcmds⟩ := hsettled
    have hucmd : u.cmd? id = some c := by
      rw [State.cmd?, hcmds]
      exact hcmd
    have hpower := finish_host_power hucmd hsrc (plainCompl Status.ok)
    refine ⟨_, u, congrArg Host.Outcome.next hexec, finish_completes hucmd _, ?_⟩
    simp only [domain_congr hpower]
    exact ⟨hhost, hother, hnap, hidle, hwaking, hmem, hcmds⟩
  · exact congrArg Host.Outcome.next (doDomainEntry_stays ⟨hup, hpost, hpostRun⟩ hrun hvote)
  · exact congrArg Host.Outcome.next (doDomainEntry_starts ⟨hup, hpost, hpostRun⟩ hrun hvote)
  · exact ⟨_, congrArg Host.Outcome.next (doDomainEntry_late ⟨hup, hpost, hpostRun⟩ hst hvote), settleDomain_late hst hvote⟩
  · refine ⟨_, congrArg Host.Outcome.next (doDomainEntry_nap ⟨hup, hpost, hpostRun⟩ hst), ?_⟩
    rw [settleDomain_nap_drops hst hvote]
    obtain ⟨hmem, hdomain⟩ := settleVotes_keeps (s.setSt c (floorOf c))
    rw [hdomain, setSt_domain (listed_of_st (by rw [hst]; exact DomSt.noConfusion))]
    exact ⟨floorOf_eq c, hmem⟩
  · exact ⟨_, congrArg Host.Outcome.next (doDomainEntry_ends ⟨hup, hpost, hpostRun⟩ hst hvote), entryEnds hst⟩
  · refine ⟨_, congrArg Host.Outcome.next (doDomainWake_parent ⟨hup, hpriv, hlink, hst⟩ hown hparent), ?_⟩
    have hne : c ≠ parentOf c := by
      intro h
      rw [← h, hst] at hparent
      exact DomSt.noConfusion hparent
    rw [domain_modDomain_listed (listed_of_st (by rw [hparent]; exact DomSt.noConfusion)), domain_modDomain_other hne]
    refine ⟨?_, rfl, hst, rfl⟩
    simp [hparent]
  · exact ⟨_, rfl, doDomainWake_ends ⟨hup, hpriv, hlink, hst⟩ hnone hparent hddr⟩
  · exact congrArg Host.Outcome.next (doDomainWake_failed ⟨hup, hpriv, hlink, hst⟩ hparent)
  · exact ⟨_, congrArg Host.Outcome.next (doPrivilegedWake_fails hup hpriv hst w), childrenOff hpriv hst⟩
  · obtain ⟨hdomain, hfail, hmem⟩ := doPrivilegedWake_ends hup hpriv hst
    exact ⟨_, rfl, congrArg Domain.st hdomain, congrArg Domain.referee hdomain, hfail, hmem⟩
  · refine ⟨_, rfl, fun hall => ?_, fun hsome => ?_⟩
    · exact if_pos (by simpa [hup, hlo, hhi] using hall)
    · refine if_neg ?_
      obtain ⟨k, hk, hrank⟩ := hsome
      simp only [Bool.and_eq_true, List.all_eq_true, decide_eq_true_eq, not_and]
      intro _ hall
      have := hall k hk
      omega
  · have hexec : exec (.dimmChange n d) s = .next (s.doDimmChange n d) := congrArg Host.Outcome.next (if_pos hn)
    obtain ⟨hsocket, hddr, hcmds, hundef⟩ := s.doDimmChange_frame hn d
    refine ⟨_, hexec, hsocket, hddr, hcmds, hundef, fun a ha => ?_⟩
    rw [doDimmChange_eq]
    exact s.dimmGone_byte n ha

end Sys2Proof

/-! PROOFS. DIAG_ROSTER_READ (R507) into a block of which a byte is held twice. -/

namespace Sys2Proof.Machine

/-- A DIAG_ROSTER_READ of tensor 0 of group 5, with 4 bytes at 0x1000 for its result. -/
def rosterRead : Cmd :=
  { id := 0, src := .host 0, ctx := 0, packet := natLe 64 0xA20 ++ natLe 88 (0x1000 + 5 * 2 ^ 64 + 4 * 2 ^ 96), st := .running }

/-- A region from address 0 on. -/
def lowRegion : Region := { valid := true, read := true, write := true, base := 0, limit := 0x10000 }

/-- A state in which it runs, for a tensor of one block. Memory holds the byte after its result twice: first 00h, then 07h. -/
def byteHeldTwice : State :=
  { State.reset with
    cmds := [rosterRead], nextId := 1, mem := { cells := [(0x1004, 0#8), (0x1004, 7#8)] }
    contexts := vset State.reset.contexts 0 { live := true, regions := vset (Vector.replicate 64 {}) 0 lowRegion }
    fabric := { State.reset.fabric with
      groups := [{ num := 5, members := [1], seq := 0 }], roster := { tensors := [{ group := 5, tensor := 0, blocks := [{}] }] } } }

theorem byteHeldTwice_runs : byteHeldTwice.running? 0 0xA20 = some rosterRead
    ∧ worst (byteHeldTwice.diagRosterStart rosterRead).rejs = none ∧ rosterRead.param 0 8 = 0x1000
    ∧ (byteHeldTwice.rosterEntries rosterRead).length = 4 := by decide +kernel

/-- Writing 00h back where 00h stood takes that entry out, and the byte reads as the entry behind it. -/
theorem byteHeldTwice_changes : byteHeldTwice.mem.byte 0x1004 = 0#8
    ∧ (byteHeldTwice.doDiagRoster 0).mem.byte 0x1004 = 7#8 := by decide +kernel

end Sys2Proof.Machine

namespace Sys2Proof

open Machine

/-- Refutes O58, by its clause of DIAG_ROSTER_READ: the statement speaks of every `State`, also of one whose memory lists a byte twice.
The result ends within a block, of which the other bytes are written back as they were read: where the first entry of a byte is
00h that takes it out, and the entry behind it shows. Every memory in the canonical form lists a byte once. -/
theorem not_testsAndRepairsAct : ¬ Obligations.TestsAndRepairsAct := by
  intro h
  obtain ⟨hruns, hok, haddr, hlen⟩ := byteHeldTwice_runs
  obtain ⟨-, -, -, -, hread⟩ := h byteHeldTwice 0 rosterRead
  obtain ⟨t, hexec, -, hbytes⟩ := hread hruns hok
  obtain rfl : t = byteHeldTwice.doDiagRoster 0 := (Host.Outcome.next.inj hexec).symm
  have hkept := hbytes 0x1004 (.inr (by rw [haddr, hlen]))
  obtain ⟨hbefore, hafter⟩ := byteHeldTwice_changes
  rw [hbefore, hafter] at hkept
  exact absurd hkept (by decide)

end Sys2Proof

/-! PROOFS. An advance to ENDED (R459) while another command's completion is not written yet. -/

namespace Sys2Proof.Machine

/-- A LIFECYCLE_ADVANCE to ENDED that the host issued, and that has passed its checks. -/
def advanceToEnded : Cmd :=
  { id := 0, src := .host 0, ctx := 0, packet := natLe 64 0xB02 ++ natLe 88 4, st := .running }

/-- A command of the host that has ended, and whose completion is not written yet. -/
def endedNop : Cmd := { id := 1, src := .host 0, ctx := 0, packet := natLe 64 0 ++ natLe 88 0, st := .done { status := Status.ok } }

/-- A module in FIELD with both. -/
def endsInFlight : State :=
  { State.reset with
    cmds := [advanceToEnded, endedNop], nextId := 2
    referee := { State.reset.referee with life := .field, fuses := { State.reset.referee.fuses with life := .field } } }

theorem endsInFlight_runs : endsInFlight.running? 0 0xB02 = some advanceToEnded
    ∧ endsInFlight.mayAdvance advanceToEnded.lifeTarget = true ∧ advanceToEnded.lifeTarget = 4 := by decide +kernel

theorem exec_lifecycleAdvance (id : Nat) (s : State) : exec (.lifecycleAdvance id) s = .next (s.doLifecycle id) := rfl

/-- The advance waits for that completion with every context destroyed, context 0 too. -/
theorem endsInFlight_destroys : ((endsInFlight.doLifecycle 0).context 0).live = false := by decide +kernel

end Sys2Proof.Machine

namespace Sys2Proof

open Machine

/-- Refutes O59, by its clause of an advance to ENDED: it has the contexts at their reset values, with context 0 live, after every such
row. Where a completion is still to be written the row destroys every context and waits, and only the reset that follows later makes
context 0 live. -/
theorem not_firmwareAndLifeCycleAdvance : ¬ Obligations.FirmwareAndLifeCycleAdvance := by
  intro h
  obtain ⟨hruns, hmay, htarget⟩ := endsInFlight_runs
  obtain ⟨-, -, -, hadvance, -⟩ := h endsInFlight 0 advanceToEnded
  obtain ⟨t, hexec, -, -, hcontexts, -⟩ := (hadvance hruns rfl hmay).2 htarget
  rw [exec_lifecycleAdvance] at hexec
  obtain rfl := Host.Outcome.next.inj hexec
  have hdead := endsInFlight_destroys
  rw [State.context, hcontexts] at hdead
  exact absurd hdead (by decide)

end Sys2Proof

/-! PROOFS. O60: commands whose checks are made again when they act (R396). -/

namespace Sys2Proof.Machine

open State

/-- The row of a command whose checks are made again looks it up, checks it and lets it act. -/
def RunsChecked (i : Instr) (id op : Nat) (start : State → Cmd → Started) : Prop :=
  ∃ act, ∀ s, exec i s = .next (s.runChecked id op start act)

/-- Every row of which the checks are made again is of that form, but LIFECYCLE_ADVANCE, which is so while it is yet to act. -/
theorem checkedOf_runs {i : Instr} {id op : Nat} {start : State → Cmd → Started} (h : checkedOf i = some (id, op, start)) :
    RunsChecked i id op start
      ∨ i = .lifecycleAdvance id ∧ op = 0xB02 ∧ start = (fun s c => { rejs := s.lifecycleRejs c }) := by
  unfold checkedOf at h
  split at h
  case h_20 => simp at h
  case h_19 =>
    simp only [Option.some.injEq, Prod.mk.injEq] at h
    obtain ⟨rfl, rfl, rfl⟩ := h
    exact .inr ⟨rfl, rfl, rfl⟩
  all_goals
    simp only [Option.some.injEq, Prod.mk.injEq] at h
    obtain ⟨rfl, rfl, rfl⟩ := h
    exact .inl ⟨_, fun _ => rfl⟩

theorem doLifecycle_go {s : State} {id : Nat} {c : Cmd} (hc : s.running? id 0xB02 = some c) (hstage : c.stage = .go) :
    s.doLifecycle id = s.advanceLife id := by
  unfold doLifecycle
  rw [hc]
  dsimp only
  rw [hstage]

theorem doLifecycle_idle {s : State} {id : Nat} (hc : s.running? id 0xB02 = none) : s.doLifecycle id = s := by
  unfold doLifecycle
  rw [hc]

end Sys2Proof.Machine

namespace Sys2Proof

open Machine Machine.State

/-- Settles O60: each of these rows looks its command up and checks it before anything else. -/
theorem rejectedCommandsHaveNoEffect : Obligations.RejectedCommandsHaveNoEffect := by
  unfold Obligations.RejectedCommandsHaveNoEffect
  intro i s id op start hchecked
  rcases checkedOf_runs hchecked with ⟨act, hact⟩ | ⟨rfl, rfl, rfl⟩
  · refine ⟨fun c r hc _ hr => ⟨_, hact s, ?_⟩, fun hnone => ?_⟩
    · rw [runChecked_rejects hc hr]
      exact finish_completes (running?_some hc).1 _
    · rw [hact, runChecked_idle hnone]
  · refine ⟨fun c r hc hstage hr => ⟨_, exec_lifecycleAdvance id s, ?_⟩, fun hnone => ?_⟩
    · rw [doLifecycle_go hc hstage, advanceLife, runChecked_rejects hc hr]
      exact finish_completes (running?_some hc).1 _
    · rw [exec_lifecycleAdvance, doLifecycle_idle hnone]

end Sys2Proof
